-- ==== Sys2Proof/Word.lean ====
section
/-! DEFINITION.  The word types of the CX480 model and the one shape of a sparse table.
Everything that computes with them stands in Machine/Ops.lean. -/
namespace Sys2Proof

/-- An addressable unit of the device address map (R39). -/
abbrev Byte := BitVec 8
/-- A 32-bit register or descriptor word (R14, R17). -/
abbrev Word := BitVec 32
/-- A 64-bit register (R17). -/
abbrev DWord := BitVec 64

/-- A sparse table: key and value pairs, keys strictly rising, no entry at the table's own default.
What an unlisted key reads as is the `dflt` its accessor names (Machine/Ops.lean). -/
abbrev Store (α : Type) := List (Nat × α)

end Sys2Proof
end

