-- ==== Sys2Proof/Syntax.lean ====
section
/-! DEFINITION.  The commands of the CX480 block: every row of the table of operations and events, one
constructor each, with the operands that come from outside the block.  A row that acts on something the block
already holds (a running descriptor, a fetched submission entry, a message in flight) takes only what names it. -/
namespace Sys2Proof

/-- Where a register access comes from (R392): the hardware path gives the master. -/
inductive Master
  /-- PCIe function: 0 the PF, 1-8 a VF. -/
  | func (f : Nat)
  /-- Assay island: false A, true B. -/
  | island (b : Bool)
  | ohmis
  /-- Management peer by its session slot 0-3. -/
  | peer (n : Nat)
  /-- Mint-internal hardware, the Teller among it. -/
  | mint
  deriving DecidableEq, Repr

/-- Where a register access goes: a BAR0 or BAR2 offset of the function, or a device address in a register window. -/
inductive RegLoc
  | bar0 (ofs : Nat)
  | bar2 (ofs : Nat)
  | window (addr : Nat)
  deriving DecidableEq, Repr

/-- One register access: a 64-bit one when `wide` (R530); `poisoned` for a TLP with EP set (R371). -/
structure RegAccess where
  master : Master
  loc : RegLoc
  wide : Bool := false
  value : DWord := 0
  poisoned : Bool := false
  deriving DecidableEq, Repr

/-- What the cryptographic engines found about an image: its SM3 digest and its SM2 signatures (R53 steps 2 and 3). -/
structure Verdict where
  digestOk : Bool := true
  sigOk : Bool := true
  deriving DecidableEq, Repr

/-- What one flash slot's contents gave Ohmis when it verified them at firing (R64, R67, R512). -/
structure SlotReads where
  imageOk : Bool := true
  mould : Verdict := {}
  checkAOk : Bool := true
  checkBOk : Bool := true
  amends : List Verdict := []
  deriving DecidableEq, Repr

/-- What lane tests found at one end of a port: failed data lanes and spares (R343). -/
structure LaneTest where
  lanes : BitVec 64 := 0
  spares : BitVec 4 := 0
  deriving DecidableEq, Repr

/-- Everything the firing sequence reads from outside the state (R510-R513). -/
structure FiringReads where
  islandAOk : Bool := true
  islandBOk : Bool := true
  pufFailed : Bool := false
  pufCorrected : Bool := false
  trngOk : Bool := true
  enginesOk : Bool := true
  /-- The identity certificate is in flash and can be read (R487). -/
  certOk : Bool := true
  slotA : SlotReads := {}
  slotB : SlotReads := {}
  /-- Port ends whose lane test failed something, by end number. -/
  lanes : List (Nat × LaneTest) := []
  /-- Channels whose training failed twice (R511). -/
  badChannels : BitVec 48 := 0
  /-- Tiles whose SRAM self-test failed. -/
  badTiles : BitVec 32 := 0
  refclk : Bool := true
  /-- Newest Ledger records that each of the two flash copies lacks as it is read (R439). -/
  lostA : Nat := 0
  lostB : Nat := 0
  /-- Boot-stage measurements, KIND 0x01-0x05 (R488). -/
  measured : List (BitVec 256) := []
  deriving DecidableEq, Repr

/-- Header of a management message and how it arrived (R501, R502, R520). -/
structure MsgHdr where
  session : Nat := 0
  seq : Nat := 0
  /-- The GCM tag of a session message verified. -/
  tagOk : Bool := true
  /-- Beyond the rate limit of its source address or of KEX_INIT (R502). -/
  excess : Bool := false
  /-- Port it came in on: true for the upstream port. -/
  upstream : Bool := true
  deriving DecidableEq, Repr

/-- What a read of a line met (R180, R184). -/
inductive EccEvent
  | clean
  | corrected
  | uncorrectable (checkWord : Bool)
  deriving DecidableEq, Repr

/-- A read of a tally's value at its home, and what it met (R205). -/
structure TallyRead where
  tally : Nat
  event : EccEvent := .clean
  deriving DecidableEq, Repr

/-- What an ownership request asks for: a line by an address in it, for a whole-line write or a byte-masked one (R190, R193), and what the
read of the line met. -/
structure OwnerAsk where
  addr : Nat
  whole : Bool := true
  event : EccEvent := .clean
  deriving DecidableEq, Repr

/-- A frame that arrived at a stream port, without preamble and FCS (R315, R316, R383). -/
structure EthFrame where
  port : Nat
  fecOk : Bool := true
  /-- FEC codewords corrected on the port since the frame before. -/
  corrected : Nat := 0
  fcsOk : Bool := true
  bytes : List Byte := []
  /-- Microseconds of the Vault V1 fabric domain at its arrival (R324). -/
  now : Nat := 0
  deriving DecidableEq, Repr

/-- Profiles of R307. -/
inductive Profile | main | main10 | high | constrainedBaseline | other
  deriving DecidableEq, Repr

/-- A sequence parameter set, as the standard reads it from its NAL unit (R307, R308). -/
structure SeqSet where
  id : Nat := 0
  damaged : Bool := false
  profile : Profile := .main
  /-- Level, times ten. -/
  level : Nat := 0
  /-- Coded size in luma samples; bit depth; 4:2:0. -/
  w : Nat := 0
  h : Nat := 0
  depth : Nat := 8
  chroma420 : Bool := true
  interlaced : Bool := false
  /-- Range, screen-content or multilayer extension. -/
  extension : Bool := false
  /-- Pictures of decoded-picture buffer that it needs. -/
  dpb : Nat := 1
  /-- Conformance window: its left and top offset, both even, and its size. -/
  winX : Nat := 0
  winY : Nat := 0
  winW : Nat := 0
  winH : Nat := 0
  /-- VUI matrix (1 BT.601, 2 BT.709, 3 BT.2020) and range (1 limited, 2 full); 0 absent. -/
  matrix : Nat := 0
  range : Nat := 0
  deriving DecidableEq, Repr

/-- Errors that the decoder detects in the syntax of a NAL unit (R328); forbidden bits, overlapping units, loss markers, missing sequence
parameter sets and poison the model meets itself. -/
inductive StreamError | entropy | outOfRange | missingSet | sliceAddress
  deriving DecidableEq, Repr

/-- IRAP pictures (R308). -/
inductive Irap | none | idr | cra | bla
  deriving DecidableEq, Repr

/-- What the first slice header of a picture says: its sequence parameter set, place in output order, and the pictures it needs for
prediction and those that stay in the decoded-picture buffer, by output order (R308, R330). -/
structure PicStart where
  set : Nat := 0
  irap : Irap := .none
  rasl : Bool := false
  order : Int := 0
  refs : List Int := []
  keep : List Int := []
  deriving DecidableEq, Repr

/-- Units of a row that were not decoded: first column of units and count; `grey` where their reference samples were poisoned (R329),
which the model finds itself. -/
structure LostUnits where
  first : Nat
  count : Nat
  grey : Bool := false
  deriving DecidableEq, Repr

/-- A CTU or macroblock row that slices were read for, and the units of it that they do not hold. -/
structure UnitRow where
  row : Nat
  lost : List LostUnits := []
  deriving DecidableEq, Repr

/-- What the decoding process of the stream's standard gives at one row boundary of a decode context (R306, R320). -/
structure RowReads where
  /-- Pending NAL units and loss markers it consumed; of a host-fed context the bytes. -/
  consumed : Nat := 0
  errors : List StreamError := []
  /-- Sequence parameter sets met, in order; a picture in progress has ended before them. -/
  sets : List SeqSet := []
  /-- A picture begins; one in progress has ended before it. -/
  start : Option PicStart := none
  /-- Luma rows and columns of a CTU or macroblock. -/
  unit : Nat := 16
  rows : Option UnitRow := none
  deriving DecidableEq, Repr

/-- A flit that one end of a port sends (R340, R341): its class, partition tag and payload, what else waits for its group (class and
partition, oldest first), the partitions that have been served less than their share in the current window (R187, log entry 72), and, where
it met errors on the way, the 72 bytes as they arrive.  SEQ, ACK, NAK, LPAR and CRC are the sender's own. -/
structure Flit where
  cls : Nat := 5
  part : Nat := 0
  payload : List Byte := []
  waiting : List (Nat × Nat) := []
  under : BitVec 8 := 0
  got : Option (List Byte) := none
  deriving DecidableEq, Repr

/-- How a fetch of a submission entry ended at the bus (R376). -/
inductive FetchReply
  | data
  | poison
  | completerAbort
  | timeout
  deriving DecidableEq, Repr

/-- A step symbol of a plan's template (R138, R139). -/
inductive Sym
  | tag | reqTag | req | position | seed | stepSeq
  | pageList (layer : Nat) | paramBlock (ofs : Nat) | staging | temp | topP | topK | user
  /-- Rows of a verify pass and its drafts, k + 1 and k (R297); positions of the row and of the whole step; the row's segment number
  (R257, R283); an address that moves on with the positions before the row; an address in the image of the pinned adapter version (R300). -/
  | verifyRows | drafts | count | total | segment | rowAddr (base stride : Nat) | adapter (range ofs : Nat)
  /-- Filled at load: the tile's rank in its group, the tile, a plan tally, an address in a range the ware was placed in. -/
  | rank | tile | planTally (n : Nat) | image (range ofs : Nat)
  deriving DecidableEq, Repr

/-- A field of a template descriptor that a symbol fills: byte offset and length. -/
structure Patch where
  sym : Sym
  byte : Nat
  len : Nat
  deriving DecidableEq, Repr

/-- One descriptor of a stream template; `perRow` ones are repeated for each request of the step. -/
structure TplCmd where
  desc : BitVec 512
  perRow : Bool := false
  patches : List Patch := []
  deriving DecidableEq, Repr

/-- Plan roles (R138). -/
inductive Role | prefill | decode | vision | housekeeping
  deriving DecidableEq, Repr

/-- Placement constraints of a plan's group (R138). -/
inductive Placement | any | sameKiln | sameHearthPair
  deriving DecidableEq, Repr

/-- A firing plan, as R138 says what it holds and R243, R277 and R283 use it. -/
structure Plan where
  /-- Groups: tiles each, constraint. -/
  groups : List (Nat × Placement) := []
  maxRows : Nat := 1
  chunkTokens : Nat := 1
  ctxLimit : Nat := 1
  eos : Word := 0
  layers : Nat := 1
  firstK : Nat := 12
  capK : Nat := 21
  kvFmt : Nat := 0
  latentDim : Nat := 1
  /-- Initial values of the plan tallies. -/
  tallies : List Nat := []
  /-- Resident bytes each store of a group must hold, beneath the context areas (R48). -/
  resident : Nat := 0
  templates : List (Role × Nat × List TplCmd) := []
  /-- Vector programs: instruction index and word. -/
  programs : List (Nat × Word) := []
  deriving DecidableEq, Repr

/-- What Ohmis found in a ware it read (R496, R497): the crypto results and the decrypted contents. -/
structure WareReads where
  sigOk : Bool := true
  unwrapOk : Bool := true
  tagsOk : Bool := true
  /-- The ware that an adapter image joins (R498). -/
  joins : Nat := 0
  /-- What the PLAN record holds. -/
  plan : Plan := {}
  /-- Where firmware places it (R139, R498): tiles of each group in rank order, the first tally, DRAM and tile-store ranges
  as base and bytes; none where it found no place. -/
  placed : Option (List (List Nat) × Nat × List (Nat × Nat)) := none
  deriving DecidableEq, Repr

/-- Why V0 stops issuing requests (R382): the link, or one function. -/
inductive LinkDown
  | link
  | d3hot (f : Nat)
  | busMasterClear (f : Nat)
  deriving DecidableEq, Repr

/-- A write to a function's configuration space. -/
inductive ConfigWrite
  | memorySpace (on : Bool)
  | busMaster (on : Bool)
  | powerState (d3hot : Bool)
  | vfEnable (on : Bool)
  | functionMask (on : Bool)
  | bar4Size (log2 : Nat)
  | bar4Base (v : DWord)
  /-- Device Control of a function: MPS and MRRS as powers of two above 128 B (R365). -/
  | payload (mps mrrs : Nat)
  /-- AER: ECRC generation and checking (R365). -/
  | ecrc (generate check : Bool)
  | msixEntry (e : Nat) (addr : DWord) (data : Word) (mask : Bool)
  deriving DecidableEq, Repr

/-- A triplicated register (R403), by device address and the function whose view holds it. -/
structure VotedField where
  addr : Nat
  fn : Nat := 0
  deriving DecidableEq, Repr

/-- A fault its source has detected (R424-R427): owner a partition 0-7, or 8 the system. -/
structure FaultReq where
  source : Nat
  owner : Nat := 8
  addr : Nat := 0
  code : Nat := 0
  cls : Option Nat := none
  injected : Bool := false
  deriving DecidableEq, Repr

/-- One sample of the power sensors (R458, R463): input, its averages in 0.1 W, and rails as mV and 0.1 W. -/
structure PowerReads where
  inMv : Nat := 48000
  inCa : Nat := 0
  nowDw : Nat := 0
  avg100us : Nat := 0
  avg1s : Nat := 0
  rails : List (Nat × Nat) := []
  /-- Input energy added since the last sample, J. -/
  joules : Nat := 0
  deriving DecidableEq, Repr

/-- One move of DVFS (R459): a tile's divider up or down, a kiln rail by 10 mV, or one step of clamp relaxation (R465). -/
inductive DvfsMove
  /-- One divider step of tile t, with the array power each partition draws, in 0.1 W (R462). -/
  | slower (t : Nat) (draws : List Nat)
  | faster (t : Nat)
  | railUp (k : Nat)
  | railDown (k : Nat)
  | relax
  deriving DecidableEq, Repr

/-- One reading of every temperature sensor, in 1/8 °C (R466); none for a sensor that does not answer. -/
structure TempReads where
  tileA : List Int := []
  tileB : List Int := []
  stores : List (Option Int) := []
  /-- Vault V0, V1 and the mint. -/
  junctions : List Int := []
  inlet : Option Int := none
  board : Option Int := none
  deriving DecidableEq, Repr

/-- The commands and events of the block. -/
inductive Instr
  /-- FIRING (R510): On 48 V good, or on any other firing cause, the module runs the fixed firing sequence from the always-on domain start up to Hallmark ready. -/
  | firing (r : FiringReads)
  /-- SMBUS_CLOCK_LOW_TIMEOUT (R388): An SMBus clock held low for 35 ms aborts the EEPROM transfer. -/
  | smbusClockLowTimeout
  /-- RECOVERY_IMAGE_WRITTEN (R512): In recovery, writing a full image through FW_BEGIN, FW_PUT and FW_END makes the module fire again. -/
  | recoveryImageWritten
  /-- MOULD_INSTALL (R66): PF command 0x06 checks a full mould and starts the long operation that writes it to the fired slot for the next firing. -/
  | mouldInstall (q : Nat) (v : Verdict)
  /-- MOULD_INSTALL_MSG (R66): The management message MOULD_INSTALL from an ADMIN peer installs a staged full mould as a long operation. -/
  | mouldInstallMsg (h : MsgHdr) (body : List Byte) (v : Verdict)
  /-- MOULD_INSTALL_WRITE_DONE (R66): The flash erase, write and read-back of an installed mould complete; the serial is recorded, INSTALLED is set and the handle completes. -/
  | mouldInstallWriteDone (readBackOk : Bool)
  /-- AMEND (R69): PF command 0x03 submits a mould amendment as a long operation, which verifies it and starts Drain. -/
  | amend (q : Nat) (v : Verdict)
  /-- AMEND_MSG (R503): The management message AMEND starts an amendment from a staged image and replies with its handle. -/
  | amendMsg (h : MsgHdr) (body : List Byte) (v : Verdict)
  /-- AMEND_FENCE (R71): At the losing partition's step boundary, the released resources leave its bounds, the ways are reassigned and the scrub begins. -/
  | amendFence
  /-- AMEND_SCRUB_DONE (R71): The scrub of the released tile stores, tallies, state and DRAM units completes. -/
  | amendScrubDone
  /-- AMEND_GRANT (R71): At the gaining partition's next step boundary, it receives the resources, the amendment is logged and MLD_SERIAL is updated. -/
  | amendGrant
  /-- SLAB_LOAD (R119): The tile command loads one weight tile into the shadow buffer and sets the preload record. -/
  | slabLoad (t : Nat)
  /-- SLAB_MATMUL (R120): The tile command computes OUT = A × W, or accumulates into OUT, in STATIONARY or STREAMED dataflow. -/
  | slabMatmul (t : Nat)
  /-- SLAB_CONV (R121): The tile command computes an integer convolution over planar tensors, with optional regroup. -/
  | slabConv (t : Nat)
  /-- ATTEND (R122): The tile command computes attention rows for a head group over one key range, optionally appending fresh records. -/
  | attend (t : Nat)
  /-- VEC_RUN (R147): The tile command runs a vector program in sweeps over COUNT elements. -/
  | vecRun (t : Nat)
  /-- MOVE (R125): The tile command copies or fills rows of bytes, synchronously or handed to a page DMA engine with ASYNC. -/
  | move (t : Nat)
  /-- GATHER_PAGES (R125): The tile command copies a range of a sequence's paged stream into DST, optionally through expand-on-read. -/
  | gatherPages (t : Nat)
  /-- REDUCE (R127): The tile command contributes a partial to a cross-tile reduction and waits for the combined result. -/
  | reduce (t : Nat)
  /-- TALLY_WAIT (R129): The tile command registers a wait at the tally home and completes once the tally reaches its threshold. -/
  | tallyWait (t : Nat)
  /-- TALLY_SIGNAL (R129): The tile command signals or resets a tally as a release after the earlier commands of its queue. -/
  | tallySignal (t : Nat)
  /-- YIELD (R130): The tile command is a yield point, or with CEDE makes its queue not ready for CEDE_UNITS units. -/
  | yield (t : Nat)
  /-- CEDE_EXPIRY (R130): The CEDE_UNITS of a ceding queue run out and the queue is ready again. -/
  | cedeExpiry (t q : Nat)
  /-- SAMPLE (R167): The tile command draws tokens from logit rows, optionally verifying drafts, and posts ring records or writes tokens. -/
  | sample (t : Nat)
  /-- CROP_RESIZE (R229): The tile command crops and resamples boxes of a planar image into crops. -/
  | cropResize (t : Nat)
  /-- BOX_DECODE (R233): The tile command decodes box deltas against anchors into FP32 corner boxes. -/
  | boxDecode (t : Nat)
  /-- NMS (R236): The tile command ranks candidates and keeps those not suppressed by IoU, up to MAX_OUT. -/
  | nms (t : Nat)
  /-- END (R130): The tile command closes a stream and always posts its completion record. -/
  | endStream (t : Nat)
  /-- KLN_TQ_TAIL (R144): A mint write of a queue's TAIL makes the queue ready when EN is set. -/
  | klnTqTail (m : Master) (t q : Nat) (v : Word)
  /-- QUEUE_EN (R142): Writing the EN bits of KLN_TQ_CTRL enables queues, or disables them at later boundaries. -/
  | queueEn (m : Master) (t : Nat) (v : Word)
  /-- FLUSH (R142): Writing a FLUSH bit sets HEAD to TAIL, clears HALTED and discards a spilled context of the queue. -/
  | flush (m : Master) (t : Nat) (v : Word)
  /-- RESUME (R142): Writing a RESUME bit for a halted queue clears HALTED and steps HEAD past the failed slot. -/
  | resume (m : Master) (t : Nat) (v : Word)
  /-- KLN_ABANDON (R136): Writing a non-zero tag adds it to the tile's abandon list, or the write is dropped with ABANDON_FULL when the list is full. -/
  | klnAbandon (m : Master) (t : Nat) (tag : Word)
  /-- ABANDON_ACTED (R136): The tile has acted on every command, descriptor and transfer carrying a listed tag, and the entry leaves the list. -/
  | abandonActed (t tag : Nat)
  /-- YIELD_POINT (R132): At a yield point, the running command is taken when a higher-priority queue is ready and a frame is free, or ends if abandoned. -/
  | yieldPoint (t : Nat)
  /-- SPILL_DONE (R133): The spill of a taken command completes and the taking queue's command starts. -/
  | spillDone (t : Nat)
  /-- RESTORE_DONE (R133): A restore reads the frame back and reloads the weight tile, and the spilled command resumes. -/
  | restoreDone (t : Nat)
  /-- COMMAND_BOUNDARY (R107): At a command boundary, the tile runs the ready queue of highest priority. -/
  | commandBoundary (t : Nat)
  /-- DMA_HANDOVER (R126): An ASYNC transfer waiting for a page DMA engine is handed to the tile's next free engine. -/
  | dmaHandover (t : Nat)
  /-- DMA_TRANSFER_DONE (R208): A page DMA transfer ends and posts its completion record and DONE_TALLY with its real status. -/
  | dmaTransferDone (t e : Nat)
  /-- TALLY_WAKE (R203): The tally home sends a wake when a registered wait's threshold is reached, and the wait completes as an acquire. -/
  | tallyWake (t : Nat)
  /-- WAIT_TIMEOUT (R129): A TALLY_WAIT or REDUCE wait exceeds its limit and ends with TIMEOUT. -/
  | waitTimeout (t : Nat)
  /-- REDUCE_RESULT (R128): The combined reduction result arrives at the participants, which complete as an acquire. -/
  | reduceResult (t : Nat)
  /-- SIGNAL_AT_HOME (R201): A tally SIGNAL arrives at its home and adds its value, saturating with OVF. -/
  | signalAtHome
  /-- RESET_AT_HOME (R201): A tally RESET arrives at its home and sets the value, recovering a broken tally. -/
  | resetAtHome
  /-- WAIT_REGISTRATION (R203): A WAIT registers at the tally home and completes at once if the value already meets it. -/
  | waitRegistration (t : Nat)
  /-- TALLY_BROKEN (R205): An uncorrectable error in a tally value marks the tally broken and raises a class U fault. -/
  | tallyBroken (r : TallyRead)
  /-- HRT_TALLY_VAL_WRITE (R213): A mint write to HRT_TALLY_VALi issues a RESET of the tally with the system tag. -/
  | hrtTallyValWrite (m : Master) (n : Nat) (v : Word)
  /-- HRT_TALLY_STAT_CLEAR (R213): A mint write clearing OVF and BROKEN empties the hearth's contributor mask. -/
  | hrtTallyStatClear (m : Master) (h : Nat) (v : Word)
  /-- HRT_RC_FLUSH (R213): A posted write makes the hearth write back, and optionally invalidate, a partition's remote-cache ways. -/
  | hrtRcFlush (m : Master) (h : Nat) (v : Word)
  /-- READ_MISS (R193): A read miss from a hearth reaches the home, which recalls any other owner and adds the hearth as a sharer. -/
  | readMiss (h addr : Nat) (e : EccEvent)
  /-- OWNERSHIP_REQUEST (R193): An ownership request reaches the home, which invalidates or recalls the other copies and grants ownership. -/
  | ownershipRequest (h : Nat) (ask : OwnerAsk)
  /-- WRITE_BACK (R193): An owner's write-back reaches the home, which stores the data and updates the directory state. -/
  | writeBack (h addr : Nat)
  /-- EVICTION_NOTICE (R193): The eviction notice of a clean copy reaches the home, which clears the sharer's bit. -/
  | evictionNotice (h addr : Nat)
  /-- HOME_SIDE_ACCESS (R193): A home-side agent's access recalls owners on a read, or invalidates every copy before a write. -/
  | homeSideAccess (addr : Nat) (write : Bool)
  /-- PATROL_READ (R184): The patrol scrubber of a vault reads its next line, correcting or poisoning it. -/
  | patrolRead (v : Nat) (e : EccEvent)
  /-- ACCOUNTING_WINDOW_END (R187): A channel's 10 µs accounting window ends and reservation classes and shortfall counts update. -/
  | accountingWindowEnd (chan : Nat) (served : List Nat) (queued : BitVec 8)
  /-- ZERO_WRITER_DONE (R207): A vault zero writer finishes zeroing its range, with caches invalidated and check words recomputed. -/
  | zeroWriterDone
  /-- ADMIT (R277): The Teller starts a request in a FREE or RETIRED entry, allocating its list region and reserving its first pages. -/
  | admitReq (q : Nat) (tagOk : Bool)
  /-- CANCEL (R295): The request moves to DRAINING and retires at its next step boundary. -/
  | cancel (q : Nat)
  /-- CANCEL_NOW (R296): The Teller abandons the request's work by its tag on every tile that holds it. -/
  | cancelNow (q : Nat)
  /-- CANCEL_NOW_COMPLETE (R296): Once every tile and DMA engine has acted, the Teller issues compensating signals, frees pages, writes the END record and retires the entry. -/
  | cancelNowComplete (i : Nat)
  /-- REQ_SUSPEND (R282): The Teller holds a request at its next step boundary, keeping its pages. -/
  | reqSuspend (q : Nat)
  /-- REQ_RESUME (R282): The Teller releases a held request through a new reservation. -/
  | reqResume (q : Nat)
  /-- RING_SET (R278): The Teller places ring i for entry i and zeroes its indices. -/
  | ringSet (q : Nat)
  /-- POOL_ADD (R286): The Teller adds DRAM to the partition's page pool. -/
  | poolAdd (q : Nat)
  /-- POOL_SHRINK (R290): The Teller takes a range out of allocation as a long operation. -/
  | poolShrink (q : Nat)
  /-- POOL_SHRINK_DONE (R290): The last block held in a shrinking range returns, and the handle completes. -/
  | poolShrinkDone (handle : Nat)
  /-- ADAPTER_PUBLISH (R300): The Teller makes an adapter image the newest version as a long operation. -/
  | adapterPublish (q : Nat)
  /-- ADAPTER_UNPIN (R300): A superseded adapter version's pin count reaches zero, it is unloaded and the publish handle completes. -/
  | adapterUnpin (ware adapter version : Nat)
  /-- COMPLETION_RECORD (R250): The Teller takes a tile's completion record and notes END records toward a step's end. -/
  | completionRecord
  /-- STEP_BOUNDARY (R284): At a ware's step boundary, the Teller rolls back speculation, updates SEQ_LEN and composes and dispatches the next step or chunk. -/
  | stepBoundary (ware : Nat)
  /-- CHUNK_DISPATCH (R285): A prefill chunk of equal or higher class is dispatched into Q0 at once and takes the decode step. -/
  | chunkDispatch (ware : Nat)
  /-- PAGES_FREED (R289): Freed pages go to the head stalled request, which resumes if its reservation now succeeds. -/
  | pagesFreed (p : Nat)
  /-- DEADLINE (R294): TLR_USEC reaches a request's deadline; the Teller sets LATE, sends a late mark and applies the late policy. -/
  | deadline (i : Nat)
  /-- RING_RECORD (R292): The ring writer on V0 takes a ring record, decides END and writes it into the request's ring. -/
  | ringRecord
  /-- KEY_CACHE_FILL (R491): Ohmis supplies a missing job output key to the ring writer's key cache. -/
  | keyCacheFill (i : Nat)
  /-- RING_READ_INDEX (R292): Host software's ring read-index doorbell returns slots, or is ignored and logged if invalid. -/
  | ringReadIndex (f i : Nat) (v : Word)
  /-- STREAM_OPEN (R311): The active island checks a stream context record and opens the context in WAIT_IRAP. -/
  | streamOpen (q : Nat)
  /-- STREAM_CLOSE (R312): Classification stops and the context closes at the picture's end or the next row boundary. -/
  | streamClose (q : Nat)
  /-- STREAM_CLOSED (R312): The context reaches CLOSED with its wheel and ingest state released, and the command completes. -/
  | streamClosed (c : Nat)
  /-- STREAM_FEED (R309): Host software reports the NAL ring total or encode ring read indices to a context. -/
  | streamFeed (q : Nat)
  /-- STREAM_KEY (R334): The encoder makes the next picture that has not begun an IDR. -/
  | streamKey (q : Nat)
  /-- STREAM_CLASS (R309): A context's class changes at its next row boundary. -/
  | streamClass (q : Nat)
  /-- FRAME_RECEIVE (R315): A stream-port frame is classified to an open RTP context or counted unmatched and discarded. -/
  | frameReceive (f : EthFrame)
  /-- JITTER_GAP_LOST (R317): A sequence gap is declared lost after JIT_US, or at once when the jitter buffer is full. -/
  | jitterGapLost (c : Nat)
  /-- NAL_RELEASE (R318): A released NAL unit is written to the NAL ring in Annex B form, or is discarded as lost. -/
  | nalRelease (c arrival : Nat)
  /-- WHEEL_ROW_BOUNDARY (R326): At a row boundary, the wheel runs the ready context of highest class, switching if needed. -/
  | wheelRowBoundary (w : Nat) (r : RowReads)
  /-- BUFFER_TALLY_POLL (R323): Every 2 µs, a waiting context rereads its target buffer's fill tally. -/
  | bufferTallyPoll (c : Nat)
  /-- ENCODE_NAL_POST (R335): A waiting encoded NAL unit is written to the bitstream ring with its descriptor once both rings have room. -/
  | encodeNalPost (c : Nat)
  /-- FLIT_RECEIVE (R342): A receiver checks a flit's CRC and SEQ, discarding it and returning NAK on failure. -/
  | flitReceive (e g : Nat) (f : Flit)
  /-- NAK_REPLAY (R342): A NAK makes the sender resend from the requested SEQ, or after 8 NAKs hands the group to repair. -/
  | nakReplay (e g seq : Nat)
  /-- LANE_FAIL (R344): A lane is found failed, and the port starts a repair or a narrowing. -/
  | laneFail (e lane : Nat)
  /-- REPAIR_DONE (R344): A spare steered in place of a failed lane lets replay resume. -/
  | repairDone (e : Nat)
  /-- NARROWING_DONE (R345): A port narrows to the width its working lanes support, and routes change. -/
  | narrowingDone (e : Nat)
  /-- PORT_TRAINED (R343): Training completes and the port is UP, or it is fenced, or it retrains after a width disagreement. -/
  | portTrained (port : Nat) (a b : LaneTest)
  /-- RETRAIN (R362): Writing RETRAIN to EFK_PORTj_CTRL starts a port retraining. -/
  | retrain (x : RegAccess)
  /-- PORT_EN (R362): Writing EN fences the port, or allows training, latching REARM during a shut-down. -/
  | portEn (x : RegAccess)
  /-- ROOT_CLOCK_LOST (R354): Loss of crystal edges or PLL lock asserts FLT_N, stops HBEAT and holds every domain in reset. -/
  | rootClockLost (crystal : Bool)
  /-- ROOT_CLOCK_RETURN (R354): After the crystal returns and the PLL holds lock for 1 ms, the module fires again. -/
  | rootClockReturn
  /-- FORWARDED_CLOCK_LOSS (R354): A die with no forwarded clock edge for 100 ns holds itself in reset. -/
  | forwardedClockLoss (d : Nat)
  /-- MNT_DIE_RESET (R364): A guarded write resets the dies named under R356. -/
  | mntDieReset (x : RegAccess)
  /-- DIE_RESET (R356): A die reset starts: neighbours answer for the die, routes change and homed lines are invalidated. -/
  | dieReset
  /-- DIE_READY (R356): A resetting die has released reset, self-tested, trained its ports and become ready. -/
  | dieReady (d : Nat) (tilesFailed : BitVec 32)
  /-- IDCODE (R359): The JTAG instruction selects the die's IDCODE register. -/
  | idcode (tap : Nat)
  /-- SAMPLE_PRELOAD (R359): The JTAG instruction selects boundary-scan sample and preload. -/
  | samplePreload (tap : Nat)
  /-- EXTEST (R359): With TEST_EN, the JTAG instruction drives boundary cells; otherwise BYPASS and a class C fault. -/
  | extest (tap : Nat)
  /-- CLAMP (R359): With TEST_EN, the JTAG CLAMP instruction applies; otherwise BYPASS and a fault. -/
  | clamp (tap : Nat)
  /-- HIGHZ (R359): With TEST_EN, the JTAG HIGHZ instruction applies; otherwise BYPASS and a fault. -/
  | highz (tap : Nat)
  /-- IJTAG (R359): With DEBUG = 1, the JTAG instruction opens the IEEE 1687 network; otherwise BYPASS and a fault. -/
  | ijtag (tap : Nat)
  /-- BYPASS (R359): The JTAG instruction selects the bypass register. -/
  | bypass (tap code : Nat)
  /-- INSTRUMENT_WRITE (R360): An IJTAG instrument write takes effect only in factory test mode and is otherwise ignored. -/
  | instrumentWrite (inst : Nat) (v : DWord)
  /-- BAR4_WRITE (R371): An inbound BAR4 write is checked against the partition's bounds and applied, with EP poisoning lines. -/
  | bar4Write (f ofs : Nat) (data : List Byte) (ep : Bool)
  /-- BAR4_READ (R371): An inbound BAR4 read is checked and answered, poisoned or with a Completer Abort. -/
  | bar4Read (f ofs len : Nat)
  /-- SQ_TAIL_DOORBELL (R376): A VLT_SQ TAIL write makes entries available for fetch, or is ignored and logged if invalid. -/
  | sqTailDoorbell (f q : Nat) (v : Word)
  /-- CQ_HEAD_DOORBELL (R376): A VLT_CQ HEAD write consumes completion entries, or is ignored and logged if invalid. -/
  | cqHeadDoorbell (f q : Nat) (v : Word)
  /-- QUEUE_CFG_WRITE (R373): A CFG write sets queue EN, which checks BASE, or clears it and starts the shut-down. -/
  | queueCfgWrite (f : Nat) (cq : Bool) (q : Nat) (v : Word)
  /-- QUEUE_BASE_WRITE (R373): A BASE write while EN is clear sets the queue base and resets its positions. -/
  | queueBaseWrite (f : Nat) (cq : Bool) (q : Nat) (v : DWord)
  /-- SQ_FETCH (R374): V0's fetch of a submission entry returns and the command is forwarded, or the SQ halts on failure. -/
  | sqFetch (q : Nat) (r : FetchReply)
  /-- COMPLETION_POST (R376): A completion entry is written to its CQ, or held while the CQ is disabled or halted. -/
  | completionPost
  /-- WARE_LOAD (R497): The command verifies, decrypts and places a ware as a long operation. -/
  | wareLoad (q : Nat)
  /-- WARE_LOAD_DONE (R378): A ware load finishes, with the ware handle or WARE_BAD or PLACEMENT. -/
  | wareLoadDone (handle : Nat) (w : WareReads)
  /-- WARE_UNLOAD (R377): The command unloads a ware and zeroes its image ranges, or refuses while an entry names it. -/
  | wareUnload (q : Nat)
  /-- SCRUB (R377): The command zeroes a range of the partition's DRAM units as a long operation. -/
  | scrub (q : Nat)
  /-- MEM_TEST (R377): The command destructively tests DRAM units as a long operation, poisoning failing lines. -/
  | memTest (q : Nat)
  /-- LONG_OPERATION_DONE (R378): A long operation ends and posts its FINAL completion. -/
  | longOperationDone (handle : Nat) (failing : List Nat)
  /-- OP_QUERY (R378): The command returns a handle's state and progress. -/
  | opQuery (q : Nat)
  /-- OP_SUSPEND (R379): The command suspends a long operation at its next suspension point. -/
  | opSuspend (q : Nat)
  /-- OP_RESUME (R379): The command resumes a suspended long operation. -/
  | opResume (q : Nat)
  /-- OP_CANCEL (R379): The command cancels a long operation where its state allows it. -/
  | opCancel (q : Nat)
  /-- FLR (R380): A function level reset disables and resets its queues, cancels its requests and streams, and cancels its long operations. -/
  | flr (f : Nat)
  /-- PERST_N (R381): PERST_N assertion resets the PCIe domain and acts as an FLR on every function, and deassertion starts link training. -/
  | perstN (asserted refclk : Bool)
  /-- HOT_RESET (R381): A PCIe hot reset resets the PCIe domain and acts as an FLR on every function. -/
  | hotReset
  /-- LINK_DOWN (R382): The PCIe link goes down, or a function enters D3hot or clears Bus Master Enable, and V0 stops issuing requests. -/
  | linkDown (d : LinkDown)
  /-- LINK_DOWN_TIMEOUT (R382): A link down for more than 1 s ends requests whose rings are in host memory, with FAULT. -/
  | linkDownTimeout
  /-- REFCLK_LOST (R368): Losing a REFCLK in use takes the link down and raises a class U fault. -/
  | refclkLost
  /-- LINK_RETRY (R368): Every 100 ms, V0 retries link training with the reference then present. -/
  | linkRetry (refclk : Bool)
  /-- MSIX_UNMASK (R419): Unmasking an entry or the function sends its pending message. -/
  | msixUnmask (f e : Nat)
  /-- MGMT_FRAME_FORWARD (R384): A management frame for another address is forwarded unchanged out of the other port. -/
  | mgmtFrameForward (port : Nat) (forUs broadcast : Bool) (frame : List Byte)
  /-- PWR_FAIL_N (R474): PWR_FAIL_N, or the input out of 38–62 V for 10 µs, starts the hardware hold-up sequence. -/
  | pwrFailN
  /-- PWR_BRAKE_N (R464): The brake pin asserts the brake clamp on every tile, and its release ramps the duty back up. -/
  | pwrBrakeN (asserted : Bool)
  /-- BRAKE_RAMP_STEP (R464): Every 10 µs after brake release, the duty rises by 1/16. -/
  | brakeRampStep
  /-- COOL_OK (R473): COOL_OK deassertion applies the brake clamp and raises source 357. -/
  | coolOk
  /-- COOL_OK_TIMEOUT (R473): COOL_OK not back within 1 s completes the cooling shutdown. -/
  | coolOkTimeout
  /-- TACH_WINDOW (R471): A 250 ms FLOW_TACH window ends and the flow ratio is updated. -/
  | tachWindow (hz : Nat)
  /-- COOLING_STEP_CHANGE (R471): A worse step held 10 s, or a better step held 60 s, takes effect and raises source 355. -/
  | coolingStepChange (step : Nat)
  /-- FLOW_LOST_TIMEOUT (R472): Flow or inlet lost without recovery for 10 s begins the cooling shutdown. -/
  | flowLostTimeout
  /-- TEST_EN (R437): TEST_EN deassertion ends factory test mode, and assertion enables test-mode conditions. -/
  | testEn (asserted : Bool)
  /-- SIDEBAND_LONG_HOLD (R386): An input held active past its long time raises its LONG event. -/
  | sidebandLongHold (n : Nat)
  /-- CHATTER (R387): An input showing 8 raw edges without settling is treated as acting and one Ledger record is written. -/
  | chatter (n : Nat)
  /-- CHATTER_END (R387): A chattering input holding its inactive level long enough leaves the chatter state. -/
  | chatterEnd (n : Nat)
  /-- PAIR_ARM (R395): A first write to an RWG register in PAIR mode arms it for the writing master. -/
  | pairArm (x : RegAccess)
  /-- PAIR_COMPLETE (R395): The complement write at A + 0x8 applies the armed value, or fails the pair with GUARD_PAIR. -/
  | pairComplete (x : RegAccess)
  /-- PAIR_TIMEOUT (R395): An armed pair not completed within 64 F3 cycles is discarded and logged. -/
  | pairTimeout (m : Master) (block : Nat)
  /-- DUAL_WRITE (R397): Two matching consecutive RWD writes within 64 F3 cycles take effect, or the first is discarded with DUAL. -/
  | dualWrite (x : RegAccess)
  /-- POSTED_WRITE_APPLIED (R398): A posted RWP write is applied in its domain and BUSY clears. -/
  | postedWriteApplied (block : Nat)
  /-- REGISTER_WRITE (R20): A write to a register without a row of its own is applied under its access code and guard rules. -/
  | registerWrite (x : RegAccess)
  /-- UNIMPLEMENTED_ACCESS (R402): An access to an unimplemented or refused location is answered by master and logged. -/
  | unimplementedAccess (x : RegAccess) (write : Bool)
  /-- MNT_IDX (R411): A write of MNT_IDX sets the indirect offset and INC, discarding a held half. -/
  | mntIdx (m : Master) (v : Word)
  /-- MNT_DAT (R405): An access to MNT_DAT is performed at MNT_IDX.OFFSET with snapshot and auto-increment. -/
  | mntDat (m : Master) (write : Bool) (v : Word)
  /-- MNT_MBX_REQ (R408): A mailbox request starts sampling the selected values, or is ignored with OVERRUN. -/
  | mntMbxReq (m : Master) (v : Word)
  /-- TILE_COUNTERS_SEL (R409): Mailbox selector 0x0001 samples one tile's three activity counters. -/
  | tileCountersSel (m : Master)
  /-- VAULT_BW_SEL (R409): Mailbox selector 0x0002 samples one vault's per-partition bandwidth counters. -/
  | vaultBwSel (m : Master)
  /-- PENDING_SEL (R409): Mailbox selector 0x0003 samples the function's event pending words. -/
  | pendingSel (m : Master)
  /-- EXPAND_MAC_SEL (R409): Mailbox selector 0x0004 samples one hearth's expand-on-read counters. -/
  | expandMacSel (m : Master)
  /-- IDENTITY_SEL (R509): Mailbox selector 0x0100 returns the identity public key and BOUND_ID. -/
  | identitySel (m : Master)
  /-- SESSION_SLOTS_SEL (R509): Mailbox selector 0x0101 returns the partition's session slot states and highest JOBs. -/
  | sessionSlotsSel (m : Master)
  /-- MGMT_SESSIONS_SEL (R509): Mailbox selector 0x0102 returns the management sessions to the PF. -/
  | mgmtSessionsSel (m : Master)
  /-- MAILBOX_VALID (R408): The sampled mailbox words are filled and VALID sets. -/
  | mailboxValid (m : Master)
  /-- MNT_MBX_DONE (R408): Writing DONE ends a mailbox request and clears VALID and the data. -/
  | mntMbxDone (m : Master) (v : Word)
  /-- VOTE_COMPARE (R403): Each millisecond, a block compares the three copies of its triplicated fields and repairs or restores them. -/
  | voteCompare (field : VotedField) (a b c : DWord)
  /-- VOTE_RELOAD (R404): A field whose three copies differed is reloaded from the mould or the Ledger summary. -/
  | voteReload (field : VotedField)
  /-- EVC_PEND (R415): Writing 1 to a pending bit serves a latch source or clears a tally source's contributor bit. -/
  | evcPend (m : Master) (w : Nat) (v : Word)
  /-- EVC_ACK (R418): Acknowledging a vector lets it send again, at once if its threshold has been met. -/
  | evcAck (m : Master) (v : Word)
  /-- EVC_ROUTE (R416): A write routes a source to a vector, with VECTOR ignored while EN is set. -/
  | evcRoute (m : Master) (src : Nat) (v : Word)
  /-- EVC_COAL (R419): A new coalescing value applies at the vector's next comparison, at once if already met. -/
  | evcCoal (m : Master) (e : Nat) (v : Word)
  /-- EVENT_OCCURRENCE (R417): A released occurrence is counted on its vector and may reach the threshold. -/
  | eventOccurrence
  /-- COALESCE_TIMER (R417): A vector's timer reaches TIME and the threshold is met. -/
  | coalesceTimer (f e : Nat)
  /-- COLLECTOR_SLEEP (R420): After 1 ms with no function able to receive, the collector saves its state and sleeps. -/
  | collectorSleep
  /-- COLLECTOR_WAKE (R420): A receivable function or a register access wakes the collector, which restores its state. -/
  | collectorWake
  /-- FAULT_RECORD (R427): A fault creates a record, is escalated, queued for its owner, sent to the Ledger and takes its reaction. -/
  | faultRecord (detected : Option FaultReq)
  /-- FLT_ACK (R430): Writing the head record's SEQ acknowledges it. -/
  | fltAck (m : Master) (v : Word)
  /-- CLASS_C_AUTO_ACK (R430): The active island acknowledges a class C system record once it has entered the Ledger tail. -/
  | classCAutoAck (seq : Nat)
  /-- FLT_SRC_STAT_CLEAR (R434): Writing 1 to a source status bit clears it, or is refused while the cause persists. -/
  | fltSrcStatClear (m : Master) (w : Nat) (v : Word)
  /-- FLT_N_PULSE_END (R435): A FLT_N pulse width elapses and FLT_N deasserts if no condition holds. -/
  | fltNPulseEnd
  /-- HBEAT_TOGGLE (R436): Every 500 µs, HBEAT toggles while strobes arrive and no safety record is present. -/
  | hbeatToggle
  /-- HEALTH_STROBE (R436): The active island's end-of-cycle strobe keeps HBEAT running. -/
  | healthStrobe
  /-- STROBE_TIMEOUT (R436): No strobe for 1 ms stops HBEAT. -/
  | strobeTimeout
  /-- FENCE (R451): FLT_FENCE_CMD with GO fences a tile, channel or wheel. -/
  | fence (x : RegAccess)
  /-- UNFENCE (R451): FLT_FENCE_CMD with GO and UNFENCE removes a fence. -/
  | unfence (x : RegAccess)
  /-- FLT_INJECT (R438): In test mode, GO raises the named source as an injected fault; otherwise source 319. -/
  | fltInject (x : RegAccess)
  /-- FLT_LDG_SEL (R443): Writing a SEQ starts a Ledger read, which sets BUSY. -/
  | fltLdgSel (m : Master) (v : Word)
  /-- LEDGER_READ_DONE (R443): The Ledger read fills FLT_LDG_DATA or sets NOT_HELD, and BUSY clears. -/
  | ledgerReadDone
  /-- LEDGER_TAIL_WRITE (R442): Ohmis writes the Ledger tail to flash every 1 s or when 4 KiB wait. -/
  | ledgerTailWrite
  /-- LEDGER_WINDOW_END (R442): A one-second window ends and each source's merged further record enters the tail. -/
  | ledgerWindowEnd
  /-- CONTROL_CYCLE_END (R445): At the end of a 50 µs control cycle, the active island sends its changes and strobes. -/
  | controlCycleEnd
  /-- STATE_COPY (R445): The standby island checks, applies and acknowledges a state copy. -/
  | stateCopy (crcOk : Bool)
  /-- COPY_ACK_MISSED (R445): A copy not acknowledged within 40 µs raises source 424 and unsynchronises the standby. -/
  | copyAckMissed
  /-- SWITCH_OVER (R447): An island fault, a missed strobe or SWAP gates the active island and the synchronised standby takes over. -/
  | switchOver (src : Nat)
  /-- SWITCH_OVER_DONE (R447): The standby has replayed the action log and becomes active, and dispatch resumes. -/
  | switchOverDone
  /-- ISLAND_RESET (R449): An inactive island is reset, receives its image and state and runs self-test. -/
  | islandReset (b : Bool)
  /-- HAND_BACK (R449): Island A, synchronised and self-tested for 64 cycles, takes control back. -/
  | handBack
  /-- NO_ISLAND_TIMEOUT (R450): No island active for 100 ms makes the reset sequencer fire the module. -/
  | noIslandTimeout
  /-- STANDBY_RESET (R457): Writing STANDBY_RESET gives the standby island an island reset. -/
  | standbyReset (x : RegAccess)
  /-- RETURN_NOW (R457): Writing RETURN_NOW clears PINNED. -/
  | returnNow (x : RegAccess)
  /-- SWAP (R457): Writing SWAP requests a switch-over at the end of the cycle if the standby is synchronised. -/
  | swap (x : RegAccess)
  /-- POWER_SAMPLE (R458): Every 10 µs, input and rail power are sampled and limits enforced. -/
  | powerSample (p : PowerReads)
  /-- RAIL_OUT_OF_RANGE (R463): A rail outside ±5 % for 50 µs raises its own source. -/
  | railOutOfRange (d : Nat) (above : Bool)
  /-- DVFS_STEP (R459): The power controller moves a tile's F0 divider or a kiln rail voltage by one step. -/
  | dvfsStep (d : DvfsMove)
  /-- PWR_CAP (R465): Writing PWR_CAP sets a power cap, clamping duty at once if below the measured average. -/
  | pwrCap (x : RegAccess)
  /-- CAP_TIMEOUT (R465): A cap not met by DVFS alone within 5 ms raises source 359. -/
  | capTimeout
  /-- TEMPERATURE_SAMPLE (R466): Every 100 µs, every sensor is read and throttle, failure and shutdown thresholds are judged. -/
  | temperatureSample (r : TempReads)
  /-- THROTTLE_STEP (R469): A throttle or relaxation timer expires and the tile's divider or clamp moves one step. -/
  | throttleStep (t : Nat)
  /-- SHUTDOWN_RECOVERY (R470): A shut-down die cool for 10 s restarts at D = 8. -/
  | shutdownRecovery (d : Nat)
  /-- CYCLE_SAMPLE (R475): Every 1 s, each die's temperature is taken and thermal half-cycles are counted. -/
  | cycleSample
  /-- THERMAL_CYCLE (R476): Each hour, a THERMAL_CYCLE record is written for each die with counted half-cycles. -/
  | thermalCycle
  /-- HALLMARK (R489): The command writes a signed Hallmark report of measurements. -/
  | hallmark (q : Nat)
  /-- SESSION_OPEN (R490): The command runs SM2 key exchange and writes the module's reply, leaving the slot OPENING. -/
  | sessionOpen (q : Nat) (pointOk : Bool)
  /-- SESSION_CONFIRM (R490): The command checks the tenant's confirmation and makes the slot OPEN or frees it. -/
  | sessionConfirm (q : Nat) (confirmOk : Bool)
  /-- SESSION_CLOSE (R490): The command closes a session, ending its requests and erasing its key. -/
  | sessionClose (q : Nat)
  /-- OPENING_TIMEOUT (R490): A slot left OPENING for 10 s is freed. -/
  | openingTimeout (p slot : Nat)
  /-- CLOSE_SESS (R508): Writing OHM_CTRL.CLOSE_SESS closes every session of the named partitions. -/
  | closeSess (x : RegAccess)
  /-- CLOSE_MGMT (R508): Writing OHM_CTRL.CLOSE_MGMT closes every management session. -/
  | closeMgmt (x : RegAccess)
  /-- DISCOVER (R503): The management message returns MAC, BOUND_ID and the firing count. -/
  | discover (h : MsgHdr) (body : List Byte)
  /-- IDENTITY_GET (R503): The management message returns a piece of the identity certificate. -/
  | identityGet (h : MsgHdr) (body : List Byte)
  /-- KEX_INIT (R502): The management message verifies the credential and starts a management session key exchange. -/
  | kexInit (h : MsgHdr) (body : List Byte) (certOk : Bool)
  /-- KEX_CONFIRM (R502): The management message confirms the key exchange and opens the session. -/
  | kexConfirm (h : MsgHdr) (body : List Byte) (confirmOk : Bool)
  /-- REG_READ (R503): The management message performs one register read as the peer. -/
  | regRead (h : MsgHdr) (body : List Byte)
  /-- REG_WRITE (R503): The management message performs a register write, or a full PAIR or DUAL sequence. -/
  | regWrite (h : MsgHdr) (body : List Byte)
  /-- HALLMARK_GET (R503): The management message creates or returns a piece of a Hallmark report. -/
  | hallmarkGet (h : MsgHdr) (body : List Byte)
  /-- POWER_CAP (R503): The management message sets a power cap under R465. -/
  | powerCap (h : MsgHdr) (body : List Byte)
  /-- TEST_TOKEN (R437): The management message presents a test token, which with TEST_EN enters factory test mode. -/
  | testToken (h : MsgHdr) (body : List Byte) (sigOk : Bool)
  /-- BLOCK_PUT (R503): The management message writes up to 1,024 bytes into the 64 KiB staging area. -/
  | blockPut (h : MsgHdr) (body : List Byte)
  /-- OP (R503): The management message queries, suspends, resumes or cancels a handle. -/
  | op (h : MsgHdr) (body : List Byte)
  /-- FAULT_ACK (R430): The management message acknowledges the system queue's head record. -/
  | faultAck (h : MsgHdr) (body : List Byte)
  /-- SET_ADDR (R500): The management message sets the module's further management address in flash. -/
  | setAddr (h : MsgHdr) (body : List Byte)
  /-- REVOKE (R502): The management message adds a credential ID to the revocation list. -/
  | revoke (h : MsgHdr) (body : List Byte)
  /-- CLOSE (R502): The management message closes the peer's session. -/
  | close (h : MsgHdr) (body : List Byte)
  /-- MGMT_SESSION_IDLE (R502): A management session with no valid message for 60 s closes. -/
  | mgmtSessionIdle (n : Nat)
  /-- FW_BEGIN (R518): The management message begins receiving a firmware delta, with an optional forwarding chain. -/
  | fwBegin (h : MsgHdr) (body : List Byte)
  /-- FW_PUT (R518): The management message writes up to 1,024 bytes of the delta into staging. -/
  | fwPut (h : MsgHdr) (body : List Byte)
  /-- FW_END (R519): The management message starts the apply of the staged delta as a long operation. -/
  | fwEnd (h : MsgHdr) (body : List Byte) (digestOk sigOk : Bool)
  /-- FW_RECEPTION_TIMEOUT (R518): A delta reception without FW_PUT for 60 s is discarded. -/
  | fwReceptionTimeout
  /-- FW_APPLY_DONE (R519): The apply has written, converted and checked the target, and the other slot is STAGED. -/
  | fwApplyDone (targetOk flashOk : Bool) (components : List (BitVec 256))
  /-- FW_STATUS (R518): The management message returns slot states, versions and apply progress. -/
  | fwStatus (h : MsgHdr) (body : List Byte)
  /-- ACTIVATE (R522): The management message prepares the STAGED slot as TRIAL and starts holding wares. -/
  | activate (h : MsgHdr) (body : List Byte) (imageOk : Bool)
  /-- ACTIVATE_HOLD_ATTEMPT (R523): The hold either finds every ware held within 20 ms, or is released and retried 100 ms later. -/
  | activateHoldAttempt
  /-- ACTIVATE_SWITCH (R524): With every ware held, the islands, kernel library and Ohmis switch to the new firmware and dispatch resumes. -/
  | activateSwitch
  /-- CONFIRM (R525): The management message makes the TRIAL slot VALID and records its version. -/
  | confirm (h : MsgHdr) (body : List Byte)
  /-- REVERT (R525): The management message switches back to the VALID slot and returns TRIAL to STAGED. -/
  | revert (h : MsgHdr) (body : List Byte)
  /-- CONFIRM_WINDOW_EXPIRY (R525): The confirm window passes without CONFIRM and REVERT is applied automatically. -/
  | confirmWindowExpiry
  /-- PCIE_LINK_UP (R382): PCIe link training completes and the link is up, so V0 may again issue requests and write held completions, ring records and messages. -/
  | pcieLinkUp
  /-- CONFIG_SPACE_WRITE (R371): A host write to a function's PCIe configuration space sets or clears Memory Space Enable, Bus Master Enable, the power state, VF Enable, Function Mask or the BAR4 size. -/
  | configSpaceWrite (f : Nat) (w : ConfigWrite)
  /-- FORWARDED_CLOCK_RETURN (R357): A die's forwarded clock returns, and the die restarts the reset sequence of R356 from reset release. -/
  | forwardedClockReturn (d : Nat)
  /-- STREAM_PORT_LINK (R383): A 25GBASE-KR stream port's link goes down or comes up after auto-negotiation and RS-FEC alignment, raising source 303 on loss. -/
  | streamPortLink (port : Nat) (up : Bool)
  /-- MGMT_PORT_LINK (R384): A 1000BASE-X management port's link goes down or comes up, raising source 304 on loss. -/
  | mgmtPortLink (port : Nat) (up : Bool)
  /-- MC_GROUP_RESUMED (R428): A memory-controller group reset by BLK_RST finishes its self-refresh retraining within 300 ms, and its waiting accesses resume. -/
  | mcGroupResumed (g : Nat)
  /-- TAP_RESET (R358): TMS held high for 5 TCK cycles resets the TAPs of the JTAG chain. -/
  | tapReset
  /-- COOL_OK_RETURN (R473): COOL_OK reasserts; if it holds 100 ms within 1 s of the loss the brake is released, and after a cooling shutdown its 10 s hold lets firing proceed. -/
  | coolOkReturn
  deriving DecidableEq, Repr

end Sys2Proof
end

