-- ==== Sys2Proof/Decode.lean ====
section
/-! DEFINITION.  The commands that the table's bits spell.  The rows of spec/opcode_table.json carry no bits
(no row has a "fixed" or a "fields" entry), so no word spells a command. -/
namespace Sys2Proof

/-- No row of the table gives bits, so every word spells none. -/
def decodeTableWord (_nbits _w : Nat) : Option Instr := none

end Sys2Proof
end

