-- ==== Sys2Proof/Config.lean ====
section
/-! DEFINITION.  What the spec leaves open or another standard fixes: constants with no body.
No proof can see a value of them, so a statement holds whatever they are. -/
namespace Sys2Proof.Config
open Sys2Proof

/-- Free values: the n-th 64-bit value that the spec leaves open (log entry 3). -/
opaque freeWord : Nat → DWord
/-- Free bytes: byte k of the n-th open range (log entry 3). -/
opaque freeByte : Nat → Nat → Byte

/-- The device key that the PUF gives with helper data, and the private identity key that Ohmis derives from it (R482, R486): the spec
gives neither function (log entry 4). -/
opaque deviceKey : List Byte → BitVec 256
opaque identityOf : BitVec 256 → Nat
/-- Device data that flash holds from manufacture on and no update changes (R487, R514): PUF helper data and the DER bytes of the identity
certificate. -/
opaque helperData : List Byte
opaque certBytes : List Byte
/-- The public key that an X.509 certificate names (R487). -/
opaque certKey : List Byte → BitVec 512
/-- The 128-bit SM4 key of a management session, of the 256 bits that the exchange of R490 agrees on: R501 does not say which bits (log
entry 4). -/
opaque mgmtKey : BitVec 256 → BitVec 128
/-- OHM_MGMT_MAC and VLT_ETH_MACp, set at manufacture (R390, R508). -/
opaque mgmtMac : BitVec 48
opaque ethMac : Nat → BitVec 48
/-- PCI-SIG vendor ID of Nornil (R366). -/
opaque vendorId : BitVec 16
/-- Where firmware lays a ware's parameter blocks, by ware handle and offset (R139), and a request's staging area of
draft tokens (R297): the spec gives no place (log entry 14). -/
opaque paramAddr : Nat → Nat → BitVec 48
opaque stagingAddr : Nat → BitVec 48
/-- The 11-bit SEC-DED code over 512 data bits and 5 directory bits (R179): the spec does not give its matrix. -/
opaque secDed : List Byte → Nat → BitVec 11
/-- CRC-24 of a flit's header bits and payload (R341): the spec does not give its polynomial. -/
opaque crc24 : Nat → List Byte → BitVec 24
/-- The decoding processes of the standards (R306), of codec 0 H.265 and 1 H.264, on the bytes of a stream from its start on: the bytes
of line y of a plane of the picture in progress, from the reference pictures' bytes as well; and the sample bytes that a unit of the
picture is predicted from, by reference, offset and length (log entry 77). -/
opaque decodedLine : Nat → List Byte → List (List Byte) → Nat → Nat → List Byte
opaque predictedFrom : Nat → List Byte → Nat → Nat → List (Nat × Nat × Nat)
/-- The encoder of R333 as H.265 fixes it (R306): parameter set NAL units (0 VPS, 1 SPS, 2 PPS) of a picture size and slice NAL units
and the reconstructed picture, from size, QP, slice index, IDR or not, the input samples and the reference picture (log entry 77). -/
opaque hevcParam : Nat → Nat → Nat → List Byte
opaque hevcSlice : Nat → Nat → Nat → Nat → Bool → List Byte → List Byte → List Byte
opaque hevcRecon : Nat → Nat → Nat → Bool → List Byte → List Byte → List Byte
/-- F0 cycles a slab or vector command keeps its unit busy (R103, R174): timing that the model does not carry. -/
opaque busyCycles : Nat → BitVec 512 → DWord
/-- Set voltage of a core rail at firing, in mV (R463): the spec gives none (log entry 3). -/
opaque railMv : Nat → BitVec 12
/-- Voltage in mV that kiln k needs at divider D (R459): the spec gives no number (log entry 44). -/
opaque railFor : Nat → Nat → BitVec 12

end Sys2Proof.Config
end

