-- ==== Sys2Proof/Machine/State.lean ====
section
/-! DEFINITION.  The whole state of the CX480 block as plain data, and the state at reset.
Every field's default is its value at reset: the Reset column of its register table where the spec gives one,
otherwise the value that the assumption log names (INVENTORY.md lists each field with its rule and its log entry).
A `Store` lists only the keys whose value differs from the default its accessor in Machine/Ops.lean names. -/
namespace Sys2Proof.Machine
open Sys2Proof

/-- No row of the spec stops the block (R11: it never acts unpredictably), so there is no fault.
Nothing raises it; safe. -/
inductive Fault
  deriving DecidableEq, Repr

/-- Rows not modelled, by mnemonic. -/
inductive Refusal
  /-- A row of the table that has no meaning yet; raised by Machine/Dispatch.lean alone.  Safe: the run stops. -/
  | notModelled (mnemonic : String)
  deriving DecidableEq, Repr

/-! ## The mould and the flash slots (chapter 2, chapter 17) -/

/-- The DEVICE record (R55). -/
structure DeviceRec where
  envelope : Nat := 0
  cooling : Nat := 0
  clkOpt : Nat := 0
  ecc : Nat := 0
  debug : Nat := 0
  deriving DecidableEq, Repr

/-- The PIN_FUNC record (R59). -/
structure PinRec where
  fltNWidth : Nat := 0
  tachPpr : Nat := 0
  tachMin : Nat := 0
  coolOkUse : Nat := 0
  brakeUse : Nat := 0
  deriving DecidableEq, Repr

/-- A first unit and a count of units (R60). -/
structure URange where
  first : Nat := 0
  count : Nat := 0
  deriving DecidableEq, Repr

/-- A PARTITION record (R60); DRAM ranges in 64 MiB units, request and tally ranges in units of 64. -/
structure PartRec where
  tiles : BitVec 32 := 0
  func : Nat := 0
  confidential : Bool := false
  wheels : BitVec 4 := 0
  dram : List URange := []
  /-- The entries of DRAM[0-7] past DRAM_COUNT, which assign nothing but are measured (R488), and a DRAM_COUNT above 8. -/
  dramRest : List URange := []
  dramOver : Bool := false
  sq : URange := {}
  cq : URange := {}
  req : URange := {}
  tally : URange := {}
  ctx : URange := {}
  bwMin : Nat := 0
  deriving DecidableEq, Repr

/-- A WINDOW record (R62); a partition without one has BAR4_LOG2 30 and no host-window range. -/
structure WinRec where
  bar4Log2 : Nat := 30
  hosts : List URange := []
  deriving DecidableEq, Repr

/-- A mould image after its form check (R51, R52, R54): a full mould, or an amendment. -/
structure Image where
  kind : Nat := 0
  scope : Nat := 0
  serial : Nat := 0
  baseSerial : Nat := 0
  rollbackOk : Bool := false
  boundId : BitVec 256 := 0
  device : Option DeviceRec := none
  laneRoles : Option (List Nat) := none
  guardModes : Option (List Nat) := none
  reactions : Option (List Nat) := none
  pins : Option PinRec := none
  parts : List (Nat × PartRec) := []
  wins : List (Nat × WinRec) := []
  signer : Option Nat := none
  /-- The 32-byte SM3 digest of the trailer (R52). -/
  digest : BitVec 256 := 0
  deriving DecidableEq, Repr

/-- A structure checkpoint of a slot (R67). -/
structure Checkpoint where
  serial : Nat := 0
  count : Nat := 0
  mouldDigest : BitVec 256 := 0
  parts : List (Nat × PartRec) := []
  wins : List (Nat × WinRec) := []
  deriving DecidableEq, Repr

/-- STATE of a slot header (R515). -/
inductive SlotState | empty | staged | trial | valid | retired
  deriving DecidableEq, Repr

/-- One flash slot: its header, mould area, amendment log, checkpoints and settings (R64, R67, R514, R515, R521). -/
structure Slot where
  state : SlotState := .empty
  generation : Nat := 0
  version : Nat := 0
  imageDigest : BitVec 256 := 0
  settingsFormat : Nat := 0
  confirmWindow : Nat := 0
  /-- The firmware image area, header through trailer (R514, R515). -/
  image : List Byte := []
  /-- SM3 digests of the four component images, KIND 0x02-0x05 of R488. -/
  components : List (BitVec 256) := []
  mould : Option Image := none
  amendLog : List Image := []
  checkA : Option Checkpoint := none
  checkB : Option Checkpoint := none
  /-- The copy that holds the newest checkpoint, as the last firing found it or the last write left it: true for B (R67). -/
  newestB : Option Bool := none
  /-- Settings area: the address SET_ADDR set (kind 4 or 6, address, mask length) and revoked credential IDs. -/
  mgmtAddr : Option (Nat × BitVec 128 × Nat) := none
  revoked : List Nat := []
  deriving DecidableEq, Repr

/-- Steps of an accepted amendment (R71). -/
inductive AmendStep | verify | drain | scrub | grant
  deriving DecidableEq, Repr

/-- Who began a long operation or sent a command (R378): a function, with the queue and CID of the command, or a management peer. -/
inductive Origin
  | host (fn sq cid : Nat)
  | peer (n : Nat)
  deriving DecidableEq, Repr

/-- The running amendment (R69, R71, R72). -/
structure Amend where
  handle : Nat
  image : Image
  step : AmendStep := .verify
  suspended : Bool := false
  /-- PARTITION and WINDOW records in force before the Fence (R71). -/
  before : List (Nat × PartRec) := []
  beforeWins : List (Nat × WinRec) := []
  /-- Runs whose end is awaited, by partition and tag: those in flight in losing partitions when Drain began, and in gaining ones
  when the scrub was done (R71). -/
  waits : List (Nat × Nat) := []
  /-- Gaining partitions that have their resources (R71 step 5). -/
  granted : List Nat := []
  deriving DecidableEq, Repr

/-- A running MOULD_INSTALL (R66); `writing` from the moment step 2 has begun. -/
structure Install where
  handle : Nat
  image : Image
  writing : Bool := false
  deriving DecidableEq, Repr

/-- The mould state: the running structure and the mould registers (R55-R62, R73, R74). -/
structure MouldState where
  fired : Bool := false
  device : DeviceRec := {}
  laneRoles : List Nat := []
  guardModes : List Nat := []
  reactions : List Nat := []
  pins : PinRec := {}
  parts : List (Nat × PartRec) := []
  wins : List (Nat × WinRec) := []
  signer : Nat := 0
  mouldDigest : BitVec 256 := 0
  /-- TotalVFs and the shared VF BAR4 size, both fixed at firing (R366, R371). -/
  totalVfs : Nat := 0
  vfBar4Log2 : Nat := 30
  serial : Nat := 0
  firedSlotB : Bool := false
  fallback : Bool := false
  installed : Bool := false
  lastErr : Nat := 0
  amendCount : Nat := 0
  scrubRate : Nat := 0x40
  amend : Option Amend := none
  install : Option Install := none
  deriving DecidableEq, Repr

/-- PHASE of OHM_FW_STATUS (R529). -/
inductive FwPhase | idle | receiving | applying | staged | preparing | holding | trial
  deriving DecidableEq, Repr

/-- A delta header and its operations, as received into the staging area (R516). -/
structure Delta where
  version : Nat := 0
  baseVersion : Nat := 0
  baseDigest : BitVec 256 := 0
  targetDigest : BitVec 256 := 0
  targetLen : Nat := 0
  rollbackOk : Bool := false
  settingsOld : Nat := 0
  settingsNew : Nat := 0
  opCount : Nat := 0
  deriving DecidableEq, Repr

/-- Firmware update state: the two slots, the reception, the apply and the activation (R512-R529). -/
structure UpdateState where
  slotA : Slot := {}
  slotB : Slot := {}
  runningB : Bool := false
  phase : FwPhase := .idle
  lastErr : Nat := 0
  attempts : Nat := 0
  highestConfirmed : Nat := 0
  recovery : Bool := false
  /-- The delta staging area: byte offset to byte (R514). -/
  staging : Store Byte := []
  deltaLen : Nat := 0
  forwarded : Bool := false
  chain : List (BitVec 128) := []
  /-- Messages forwarded out of the downstream port: address, TYPE and body (R520). -/
  forwardedOut : List (BitVec 128 × Nat × List Byte) := []
  applyHandle : Nat := 0
  applyDelta : Option Delta := none
  /-- The slot a hold attempt or a switch goes to: true for B; and whether it is a REVERT. -/
  targetB : Bool := false
  reverting : Bool := false
  /-- Session and SEQ of the ACTIVATE whose reply is due when dispatch resumes (R518). -/
  activateSession : Nat := 0
  activateSeq : Nat := 0
  /-- Wares are held at their next boundary; and, once every ware is held, the pause (R523). -/
  holdBegun : Bool := false
  holding : Bool := false
  /-- MNT_AO_COUNT at which a non-zero CONFIRM_WINDOW began. -/
  trialSince : Nat := 0
  deriving DecidableEq, Repr

/-! ## Efrok links, clocks, resets and test access (chapter 11) -/

/-- A flit in a replay buffer: class, partition tag, payload. -/
structure FlitBody where
  cls : Nat
  part : Nat
  payload : List Byte
  deriving DecidableEq, Repr

/-- One lane group of one port end: its sequence numbers and replay buffer (R341, R342). -/
structure LaneGroup where
  expectSeq : Nat := 0
  /-- The oldest sequence number of the replay buffer: all before it are acknowledged. -/
  acked : Nat := 0
  /-- Flits sent and not acknowledged, oldest first, and the next of them to be sent again in a replay. -/
  sent : List FlitBody := []
  again : Option Nat := none
  /-- By class, one more than the partition served last (R340). -/
  served : Store Nat := []
  /-- Flits received, and those whose LPAR mismatched of the last 1,024: their numbers and lanes (R344). -/
  flits : Nat := 0
  bad : List (Nat × BitVec 8) := []
  /-- The receiver owes a NAK on the next flit of the reverse direction. -/
  nakOwed : Bool := false
  /-- NAKs in a row for one sequence number. -/
  nakSeq : Nat := 0
  nakRun : Nat := 0
  stopped : Bool := false
  deriving DecidableEq, Repr

/-- One end of an Efrok port: EFK_PORTj registers (R362) and its lane groups. -/
structure PortEnd where
  en : Bool := true
  shutting : Bool := false
  width : Nat := 0
  up : Bool := false
  training : Bool := false
  repairing : Bool := false
  rearm : Bool := false
  disagree : Bool := false
  fenced : Bool := false
  trainedOnce : Bool := false
  /-- The end was trained from reset in this run (R343). -/
  fromReset : Bool := false
  sparesUsed : Nat := 0
  bulk : BitVec 8 := 0
  spareFail : BitVec 4 := 0
  laneFail : BitVec 64 := 0
  flitErr : Nat := 0
  replays : Nat := 0
  retrains : Nat := 0
  /-- Width code that a narrowing, or a second training after a disagreement, goes to; 0 for none (R345, R346). -/
  narrowTo : Nat := 0
  /-- The width before the far end was reset, which this end proposes; 0 for none (R346). -/
  prior : Nat := 0
  groups : Store LaneGroup := []
  deriving DecidableEq, Repr

/-- STATE_d of MNT_DIE_STATE (R364). -/
inductive DieState | ready | inReset | clockStarting | selfTest | training | fenced | noClock
  deriving DecidableEq, Repr

/-- What made the last firing, or makes the next one (R355, R364). -/
inductive FiringCause | powerOn | chipRst | rootReturn | noIsland | recovery
  deriving DecidableEq, Repr

/-- Port ends are keyed `2 * port + side` with the ports in R56 order. -/
structure LinkState where
  ends : Store PortEnd := []
  xtalOk : Bool := false
  rootLock : Bool := false
  rootLost : Bool := false
  fwdOk : BitVec 10 := 0
  aoCount : DWord := 0
  /-- Dies 0-9; a listed entry is the die's state. -/
  dies : Store DieState := []
  /-- MNT_AO_COUNT at which each die's reset began: its stages follow from it (R356, R364). -/
  resetAt : Store Nat := []
  rearm : BitVec 10 := 0
  /-- Die resets requested and not yet begun, oldest first. -/
  resetDue : List Nat := []
  dieResets : Nat := 0
  resetCause : BitVec 5 := 0
  /-- A firing that has been caused and not yet run. -/
  firingDue : Option FiringCause := none
  /-- The 8-bit instruction register of each of the 11 TAPs, in chain order (R358, R359). -/
  tapIr : Store Nat := []
  /-- Boundary registers in chain order: M's cells (12 pins), and one bit of every other die, which drives nothing (R359). -/
  boundary : Store (BitVec 12) := []
  /-- IEEE 1687 instrument values written in test mode (R360). -/
  instruments : Store DWord := []
  deriving DecidableEq, Repr

/-! ## Host link, ports and connector (chapter 12) -/

/-- One submission or completion queue (R373, R376, R390). -/
structure HostQueue where
  base : DWord := 0
  en : Bool := false
  loc : Bool := false
  log2 : Nat := 0
  bind : Nat := 0
  /-- SQ: slot after the last consumed entry. CQ: HEAD. -/
  head : Nat := 0
  /-- SQ: TAIL. CQ: slot the next entry goes to. -/
  tail : Nat := 0
  /-- CQ only: laps completed, which give PHASE. -/
  lap : Nat := 0
  badCfg : Bool := false
  dbErr : Bool := false
  /-- HALT of the STATUS register, and the halt itself, which lasts until EN is set again (R376). -/
  halt : Bool := false
  halted : Bool := false
  cfgIgn : Bool := false
  rearm : Bool := false
  shutting : Bool := false
  /-- EN set before the shut-down finished. -/
  latchedEn : Bool := false
  /-- SQ only: commands fetched whose completion has not been written. -/
  inFlight : Nat := 0
  deriving DecidableEq, Repr

/-- A completion that has fallen due (R375). -/
structure Completion where
  fn : Nat
  cid : Nat
  sq : Nat
  /-- CQ it goes to, fixed when it falls due. -/
  cq : Nat
  status : Nat := 0
  final : Bool := false
  result0 : Word := 0
  result1 : Word := 0
  /-- Handle that this FINAL completion ends, 0 for none. -/
  handle : Nat := 0
  deriving DecidableEq, Repr

/-- States of a handle (R378). -/
inductive OpState | running | suspended | done | cancelled
  deriving DecidableEq, Repr

/-- Kinds of long operation (R379). -/
inductive OpKind | wareLoad | amend | mouldInstall | scrub | memTest | poolShrink | adapterPublish | fwApply
  deriving DecidableEq, Repr

/-- A long operation's handle (R378). -/
structure OpRec where
  origin : Origin
  kind : OpKind
  state : OpState := .running
  progress : Nat := 0
  part : Nat := 0
  cq : Nat := 0
  /-- Range the operation works on, and how many units of it are finished. -/
  base : Nat := 0
  units : Nat := 0
  doneUnits : Nat := 0
  arg : Nat := 0
  /-- CQ slot position after its final completion, once written. -/
  finalPos : Option (Nat × Nat) := none
  /-- Forgotten by an FLR while it runs to its end (R380). -/
  forgotten : Bool := false
  deriving DecidableEq, Repr

/-- One MSI-X table entry (R367, R372). -/
structure MsixEntry where
  addr : DWord := 0
  data : Word := 0
  mask : Bool := true
  deriving DecidableEq, Repr

/-- PCIe state of one function (R366, R371, R382). -/
structure PcieFunc where
  mse : Bool := false
  bme : Bool := false
  d3hot : Bool := false
  funcMask : Bool := false
  /-- The PF's BAR4 size that host software picked, as a log2, 0 for the offered size, and its address. -/
  bar4Log2 : Nat := 0
  bar4Base : DWord := 0
  /-- Programmed MPS and MRRS, as powers of two above 128 B, and the ECRC enables of AER (R365; reset values PRESUMED of PCI Express,
  log entry 19). -/
  mps : Nat := 0
  mrrs : Nat := 2
  ecrcGen : Bool := false
  ecrcCheck : Bool := false
  msix : Store MsixEntry := []
  pba : List Nat := []
  deriving DecidableEq, Repr

/-- A record or completion waiting in V0 ring staging (R382). -/
inductive Staged
  | completion (c : Completion)
  /-- A record with the output key of its job, 0 in a partition that is not CONFIDENTIAL (R491, R493). -/
  | ringRecord (i : Nat) (bytes : List Byte) (key : BitVec 128)
  deriving DecidableEq, Repr

/-- A 25GBASE-KR stream port (R390). -/
structure EthPort where
  link : Bool := false
  anDone : Bool := false
  fecLock : Bool := false
  corrected : Nat := 0
  dropped : Nat := 0
  deriving DecidableEq, Repr

/-- A submission entry that V0 has fetched and forwarded (R374, R376). -/
structure Forwarded where
  fn : Nat
  sq : Nat
  cid : Nat
  opcode : Nat
  /-- Bytes [63:16] of the entry. -/
  body : List Byte
  deriving DecidableEq, Repr

structure HostState where
  sqs : Store HostQueue := []
  cqs : Store HostQueue := []
  forwarded : List Forwarded := []
  /-- Completions that have fallen due, oldest first. -/
  due : List Completion := []
  /-- Per partition: completions and ring records held in V0 ring staging, oldest first. -/
  staging : Store (List Staged) := []
  handles : List (Nat × OpRec) := []
  nextHandle : Nat := 1
  linkUp : Bool := false
  linkTraining : Bool := false
  perstAsserted : Bool := false
  refclkUsed : Bool := false
  refclkPresent : Bool := false
  vfEnable : Bool := false
  /-- The one BAR4 size that host software picked for all VFs, as a log2, 0 for the offered size, and their BAR4 address (R371). -/
  vfBarLog2 : Nat := 0
  vfBarBase : DWord := 0
  /-- Rate (1 to 5: 2.5 to 32 GT/s) and width in lanes that the link last trained to; 0 before (R365). -/
  linkRate : Nat := 0
  linkWidth : Nat := 0
  funcs : Store PcieFunc := []
  eth : Store EthPort := []
  /-- Frames sent out of the stream ports (port, bytes), oldest first: ARP replies and neighbour advertisements (R383). -/
  ethOut : List (Nat × List Byte) := []
  mgmtLinkUp : BitVec 2 := 0
  /-- Frames forwarded out of the management ports (port, bytes), oldest first (R384). -/
  mgmtOut : List (Nat × List Byte) := []
  /-- Filtered active state of the seven inputs of MNT_SB_LEVEL (R391). -/
  sbActive : BitVec 7 := 0
  sbChattering : BitVec 6 := 0
  sbLong : BitVec 4 := 0
  /-- Inputs held active past their long time, by LONG bit, for as long as they stay held (R386, R391). -/
  sbHeld : BitVec 4 := 0
  sbChatter : BitVec 6 := 0
  tachHz : Nat := 0
  smbusAborts : Nat := 0
  smbusBusy : Bool := false
  deriving DecidableEq, Repr

/-! ## Register access and the event collector (chapter 13) -/

/-- A pair armed by a master in a block (R395). -/
structure Armed where
  master : Master
  block : Nat
  addr : Nat
  value : DWord
  wide : Bool
  /-- MNT_AO_COUNT of the first write. -/
  since : Nat := 0
  deriving DecidableEq, Repr

/-- A posted write not yet applied (R398). -/
structure Posted where
  block : Nat
  addr : Nat
  value : DWord
  master : Master
  deriving DecidableEq, Repr

/-- One copy of the register-access block (R410, R411): functions 0-8, firmware 9, management 10. -/
structure RegInst where
  offset : Nat := 0
  inc : Bool := true
  /-- A DAT read of a low half: the offset of its high half and the latched value (R406). -/
  latchedHi : Option (Nat × Word) := none
  /-- A DAT write of a low half that is held: its offset and value. -/
  heldLo : Option (Nat × Word) := none
  mbxOpen : Bool := false
  mbxSel : Nat := 0
  mbxIndex : Nat := 0
  /-- Sampled and not yet VALID: ERR and the words. -/
  mbxSampled : Option (Nat × List DWord) := none
  mbxValid : Bool := false
  mbxErr : Nat := 0
  mbxOverrun : Bool := false
  mbxData : List DWord := []
  errAddr : Nat := 0
  errCause : Nat := 0
  errWrite : Bool := false
  errCount : Nat := 0
  logged : Bool := false
  deriving DecidableEq, Repr

/-- How the last access to an unimplemented or refused location was answered (R402). -/
inductive AccessReply
  | value (v : DWord)
  /-- Bytes of a BAR4 read; with EP set where a poisoned line was met (R183). -/
  | data (bs : List Byte) (poisoned : Bool)
  | accepted
  | dropped
  | completerAbort
  | busError
  | errorReply
  | unsupported
  deriving DecidableEq, Repr

structure Coal where
  count : Nat := 1
  time : Nat := 0
  deriving DecidableEq, Repr

/-- Coalescing state of one vector (R417, R418, R423). -/
structure Vec where
  outstanding : Bool := false
  /-- The message has left V0; an EVC_ACK before that is ignored. -/
  sent : Bool := false
  timing : Bool := false
  /-- MNT_AO_COUNT when the timer started. -/
  since : Nat := 0
  occurred : Nat := 0
  deriving DecidableEq, Repr

structure Route where
  vector : Nat := 0
  en : Bool := false
  cfgIgn : Bool := false
  deriving DecidableEq, Repr

/-- Vectors and coalescing settings are keyed `256 * function + entry`. -/
structure RegEvState where
  insts : Store RegInst := []
  armed : List Armed := []
  dual : List Armed := []
  posted : List Posted := []
  /-- Voted fields being reloaded (R404). -/
  reloads : List VotedField := []
  /-- What a "mould" or "ledger" field shows, by address, where two copies have agreed on another value (R404). -/
  voted : Store (Option DWord) := []
  reply : AccessReply := .accepted
  latches : BitVec 32 := 0
  routes : Store Route := []
  coal : Store Coal := []
  vecs : Store Vec := []
  /-- Released occurrences not yet counted, by source, oldest first (R417). -/
  occurrences : List Nat := []
  sleeping : Bool := false
  deriving DecidableEq, Repr

/-! ## Faults, the Ledger and the Assay islands (chapter 14) -/

/-- A Ledger record, which is also a fault record (R440). -/
structure LedgerRec where
  seq : Nat := 0
  firing : Nat := 0
  stamp : Nat := 0
  typ : Nat := 1
  cls : Nat := 0
  escalated : Bool := false
  injected : Bool := false
  source : Nat := 0xFFFF
  reaction : Nat := 0
  owner : Nat := 8
  count : Nat := 1
  detail : DWord := 0
  deriving DecidableEq, Repr

structure FaultState where
  raised : List FaultReq := []
  /-- Records queued per owner 0-8, oldest first, at most 64 (R430). -/
  queues : Store (List LedgerRec) := []
  dropped : Store Nat := []
  srcStat : BitVec 512 := 0
  clrRefused : Bool := false
  lastRefused : Nat := 0
  testMode : Bool := false
  hold : Bool := false
  /-- Units of 10 µs left of the FLT_N pulse; 0 when none runs. -/
  pulse : Nat := 0
  /-- FLT_N level held through a switch-over gap, and a pulse asked for in the gap (R448). -/
  fltNHeld : Bool := false
  gapPulse : Bool := false
  hbeat : Bool := false
  hbeatStopped : Bool := false
  /-- A strobe has arrived within the last 1 ms. -/
  strobed : Bool := false
  fenceKind : Nat := 0
  fenceUnf : Bool := false
  fenceIndex : Nat := 0
  injSource : Nat := 0
  injClass : Nat := 0
  fenceTiles : BitVec 32 := 0
  fenceChans : BitVec 48 := 0
  fenceWheels : BitVec 4 := 0
  /-- Tiles whose fence has been removed, and which take no work until firmware next lays plans (R451). -/
  fenceBack : BitVec 32 := 0
  /-- MNT_AO_COUNT stamps of counted fault records that lead to a fence, per source (R451). -/
  history : Store (List Nat) := []
  /-- Non-maskable interrupts taken by the active island: the sources, oldest first (R427). -/
  nmi : List Nat := []
  /-- Memory-controller groups 0-5 in self-refresh after BLK_RST (R428). -/
  mcPaused : BitVec 6 := 0
  /-- Both moulds failed at the last firing (R64). -/
  mouldsFailed : Bool := false
  deriving DecidableEq, Repr

/-- Occurrences of one source in the current one-second window (R442). -/
structure WindowRec where
  first : LedgerRec := {}
  further : Option LedgerRec := none
  deriving DecidableEq, Repr

structure LedgerState where
  nextSeq : Nat := 1
  firingCount : Nat := 0
  highestSerial : Nat := 0
  fenceTiles : BitVec 32 := 0
  fenceChans : BitVec 48 := 0
  fenceWheels : BitVec 4 := 0
  /-- Thermal half-cycles, keyed `4 * die + bin` (R475, R481). -/
  bins : Store Nat := []
  /-- The record ring in the two flash copies (R439). -/
  ring : List LedgerRec := []
  ringB : List LedgerRec := []
  tail : List LedgerRec := []
  windows : Store (Option WindowRec) := []
  sel : Nat := 0
  busy : Bool := false
  notHeld : Bool := false
  shown : Option LedgerRec := none
  deriving DecidableEq, Repr

/-- A_STATE and B_STATE (R457). -/
inductive IslState | active | sync | unsync | selfTest | reset | failed
  deriving DecidableEq, Repr

/-- An action of the active island in the action log (R446). -/
inductive ActKind
  /-- A queue TAIL write. -/
  | tail (t q value : Nat)
  /-- A register write, by address. -/
  | other (addr : Nat)
  /-- A completion, by function and command identifier. -/
  | completion (fn cid : Nat)
  /-- A request for a record of ring i. -/
  | ring (i : Nat)
  deriving DecidableEq, Repr

structure Action where
  num : Nat
  kind : ActKind
  cycle : Nat
  applied : Bool := false
  deriving DecidableEq, Repr

structure IslandState where
  activeB : Bool := false
  stA : IslState := .active
  stB : IslState := .active
  noneActive : Bool := false
  pinned : Bool := false
  /-- MNT_AO_COUNT at each switch-over away from A (R449). -/
  away : List Nat := []
  switchovers : Nat := 0
  returns : Nat := 0
  copyFails : Nat := 0
  cycle : Nat := 0
  selfCycles : Nat := 0
  copySent : Bool := false
  fullCopyLeft : Nat := 0
  swapReq : Bool := false
  /-- The gap that is open, or the last one, was opened by SWAP: its switch-over is planned (R457). -/
  swap : Bool := false
  /-- A switch-over gap is open (R448); the source that caused it, or 0xFFFF for SWAP. -/
  gap : Option Nat := none
  planned : Bool := false
  acts : List Action := []
  /-- The next action number, 32 bits, and the number of the last TAIL write that each tile has applied (R446). -/
  nextAct : Nat := 0
  lastAct : Store Nat := []
  deriving DecidableEq, Repr

/-! ## Power and thermal (chapter 15) -/

/-- One tile's divider and clamp: the divider in effect, what thermal throttling asks for, and the divider power limits ask for
(R351, R459, R469). -/
structure TilePower where
  /-- Divider and duty clamp that the running command has met at its last yield point (R351, R461). -/
  d : Nat := 0
  duty : Nat := 0
  thermD : Nat := 0
  thermDuty : Nat := 0
  powerD : Nat := 0
  deriving DecidableEq, Repr

structure RailState where
  mv : Nat := 0
  dw : Nat := 0
  oor : Bool := false
  /-- Steps of 10 mV that DVFS has moved a kiln rail by (R459). -/
  moved : Int := 0
  deriving DecidableEq, Repr

structure PowerState where
  step : Nat := 0
  capW : Nat := 0
  capPending : Bool := false
  capClamp : Nat := 16
  /-- A cap that arrived in a pause and applies when it ends, and the log view of its sender (R479). -/
  capLater : Option (Nat × Nat) := none
  brake : Bool := false
  /-- Duty still allowed by the brake clamp and its ramp; 16 when none (R464). -/
  brakeDuty : Nat := 16
  overClamp : Bool := false
  /-- Samples in a row above 1.25 L, and outside 39-61 V (R458, R463). -/
  overRun : Nat := 0
  inRun : Nat := 0
  /-- Samples in a row outside 38-62 V (R474). -/
  deepRun : Nat := 0
  /-- The 1 s average as functions other than the PF see it, and the second of MNT_AO_COUNT it was refreshed in (R484). -/
  vfAvg : Nat := 0
  vfSecond : Nat := 0
  coolClamp : Bool := false
  holdup : Bool := false
  coolShutdown : Bool := false
  /-- Why a cooling shutdown came: 1 COOL_OK, 2 flow or inlet, 3 the mint (R473); 0 none. -/
  coolCause : Nat := 0
  coolWait : Bool := false
  flowLost : Bool := false
  nowDw : Nat := 0
  avg1s : Nat := 0
  avg100us : Nat := 0
  /-- Input energy since firing, J (R480). -/
  joules : Nat := 0
  inMv : Nat := 0
  inCa : Nat := 0
  inputBad : Bool := false
  rails : Store RailState := []
  tiles : Store TilePower := []
  /-- Tiles that each partition owned at the last Grant or firing: its power share (R462). -/
  shares : Store Nat := []
  deriving DecidableEq, Repr

/-- One tile's thermal sensors (R466, R467, R481); readings in 1/8 °C, two's complement. -/
structure TileTherm where
  a : BitVec 12 := 0
  b : BitVec 12 := 0
  disagree : Bool := false
  failed : Bool := false
  /-- The pair, or the store sensor, was declared failed in the last sample: its substitute applies from the next one (R479). -/
  failedNow : Bool := false
  storeFailedNow : Bool := false
  warn : Bool := false
  /-- The kiln's throttle threshold is met (R468). -/
  kilnHot : Bool := false
  /-- Some throttle threshold is not yet clear by 3 K (R469). -/
  near : Bool := false
  /-- No valid reading and no substitute (R467). -/
  blind : Bool := false
  store : BitVec 12 := 0
  storeFailed : Bool := false
  /-- The store's throttle threshold is met (R468). -/
  storeHot : Bool := false
  deriving DecidableEq, Repr

/-- Cycle counting of one die (R475, R476). -/
structure CycleState where
  temp : BitVec 12 := 0
  shutdown : Bool := false
  /-- Turning point and extreme reached since, in 1/8 °C; none before the first sample. -/
  turning : Option Int := none
  extreme : Int := 0
  hour : List Nat := [0, 0, 0, 0]
  hiHour : Option Int := none
  loHour : Option Int := none
  deriving DecidableEq, Repr

structure ThermState where
  inlet : BitVec 12 := 0
  board : BitVec 12 := 0
  inletFail : Bool := false
  boardFail : Bool := false
  /-- Junction readings of V0, V1 and the mint (R466). -/
  junctions : Store (BitVec 12) := []
  tiles : Store TileTherm := []
  dies : Store CycleState := []
  consumed : Nat := 0
  worstDie : Nat := 0
  lifeStep : Nat := 0
  deriving DecidableEq, Repr

/-! ## Security and management (chapter 16) -/

inductive SlotUse | free | opening | opened
  deriving DecidableEq, Repr

/-- A session slot of a CONFIDENTIAL partition (R490, R491); keyed `16 * partition + slot`. -/
structure Session where
  use : SlotUse := .free
  tenantKey : BitVec 512 := 0
  kSess : BitVec 256 := 0
  /-- The S_A that opens the slot, while it is OPENING. -/
  confirm : BitVec 256 := 0
  highestJob : Nat := 0
  anyJob : Bool := false
  /-- The session is closing: its key is erased once its requests have retired (R499). -/
  closing : Bool := false
  deriving DecidableEq, Repr

/-- A management session (R501, R502). -/
structure MgmtSession where
  opened : Bool := false
  /-- KEX_INIT answered and KEX_CONFIRM awaited. -/
  opening : Bool := false
  session : Nat := 0
  admin : Bool := false
  credential : Nat := 0
  km : BitVec 256 := 0
  /-- The S_A that opens the session. -/
  confirm : BitVec 256 := 0
  /-- Lowest SEQ that is not stale (R501). -/
  seqIn : Nat := 0
  deriving DecidableEq, Repr

/-- The last reply a management message got (R501, R504). -/
structure MgmtReply where
  typ : Nat := 0
  session : Nat := 0
  seq : Nat := 0
  body : List Byte := []
  deriving DecidableEq, Repr

structure SecState where
  identityOk : Bool := false
  trngOk : Bool := false
  enginesOk : Bool := false
  errWare : Bool := false
  errSeal : Bool := false
  errMgmt : Bool := false
  lastCode : Nat := 0
  lastPart : Nat := 0
  sessions : Store Session := []
  mgmt : Store MgmtSession := []
  nextMgmt : Nat := 1
  /-- Replies sent by the module, oldest first. -/
  replies : List MgmtReply := []
  /-- Their UDP payloads as they go out (R501). -/
  wire : List (List Byte) := []
  /-- The 64 KiB BLOCK_PUT staging area. -/
  blockStage : Store Byte := []
  /-- The last Hallmark report of each peer, with its NONCE and SCOPE (R503). -/
  hallmarks : Store (Option (BitVec 256 × Nat × List Byte)) := []
  /-- Output keys of jobs in the ring writer's key cache, by request entry (R491). -/
  keyCache : Store (Option (BitVec 128)) := []
  /-- Digests Ohmis measured, KIND 0x01-0x05 of R488. -/
  measured : List (BitVec 256) := []
  /-- The identity key pair that Ohmis derives from the device key at every firing (R486): public key and private key. -/
  idKey : BitVec 512 := 0
  idSecret : Nat := 0
  deriving DecidableEq, Repr
/-! ## Engine tiles (chapters 3, 4, 5) -/

/-- One of a tile's four command queues (R106, R107, R142): a ring of 64 descriptors of 64 bytes. -/
structure TileQueue where
  en : Bool := false
  halted : Bool := false
  ceding : Bool := false
  cedeLeft : Nat := 0
  head : Nat := 0
  tail : Nat := 0
  slots : Store (BitVec 512) := []
  /-- Slots marked by an abandon and skipped when reached (R136). -/
  marked : List Nat := []
  deriving DecidableEq, Repr

/-- What a running command waits for before it can end. -/
inductive Waiting
  | none
  /-- TALLY_WAIT: registration sent, and registered at the home (R203). -/
  | tallySent
  | tallyHeld
  /-- A signal of the command is on its way to the tally's home (R198, R205). -/
  | signal
  /-- REDUCE: contributed (R127). -/
  | reduce
  /-- ASYNC: waits for a page DMA engine (R126). -/
  | engine
  deriving DecidableEq, Repr

/-- A loaded function table: LO, SCALE, and its entries as VALUE, SLOPE in turn (R155). -/
structure VTable where
  lo : Word
  scale : Word
  entries : List Word
  deriving DecidableEq, Repr

/-- The vector unit in the middle of a VEC_RUN (R133, R147, R171): registers of 256 lanes, scalars, loaded tables, the lane
scratch slots this command has written, and where the program stands. -/
structure VecWork where
  w : Nat := 256
  regs : Store (List Word) := []
  scal : List Word := List.replicate 16 0
  tabs : List (Nat × VTable) := []
  scratch : List (Nat × List Word) := []
  pc : Nat := 0
  sweep : Nat := 0
  /-- Instructions issued in this sweep (R163) and in the command (R174). -/
  inSweep : Nat := 0
  issued : Nat := 0
  /-- Ranges of the tensors that ST has addressed, and the bytes stored (R115, R160). -/
  outs : List (Nat × Nat) := []
  stored : Store Byte := []
  deriving DecidableEq, Repr

/-- What a command holds between two of its yield units (R96, R133): its position and its staging. -/
structure Work where
  /-- Output rows or pieces written. -/
  row : Nat := 0
  /-- Elements of K that the passes over the activation block have taken. -/
  k : Nat := 0
  /-- The block's accumulators: 4 bytes each, or the 20 of an L128 entry with its tag word. -/
  acc : List Byte := []
  /-- The activation block staged for a STATIONARY pass: its rows' part of K, exponent bytes after them (R93, R104). -/
  staged : List Byte := []
  /-- Held STREAMED activation vectors, exponent plane included, and the columns done of the weights that stream past them (R94). -/
  held : List Byte := []
  col : Nat := 0
  /-- NUMERIC flags gathered so far. -/
  numeric : BitVec 8 := 0
  vec : Option VecWork := none
  /-- Ranges that a command which has done its work stored to, while its signal is on its way (R115). -/
  outs : List (Nat × Nat) := []
  deriving DecidableEq, Repr

/-- A running or spilled command (R107, R133). -/
structure RunCmd where
  desc : BitVec 512
  queue : Nat
  slot : Nat
  unit : Nat := 0
  numeric : BitVec 8 := 0
  opflags : BitVec 8 := 0
  result : Nat := 0
  taken : Bool := false
  /-- It ends with ABANDONED at its next yield point (R136, R137). -/
  abandoned : Bool := false
  /-- A FLUSH met it (R137): discarded, its queue empties. -/
  flushed : Bool := false
  wait : Waiting := .none
  work : Work := {}
  deriving DecidableEq, Repr

/-- The vector unit's programmer-visible contents (R145-R147); registers keyed `256 * reg + lane`. -/
structure VecUnit where
  regs : Store Word := []
  scalars : Store Word := []
  /-- Tables 0-3: LO, SCALE, and 1,024 VALUE and SLOPE entries; keyed `4096 * table + ...`. -/
  tableLo : Store Word := []
  tableScale : Store Word := []
  tables : Store Word := []
  tableLoaded : BitVec 4 := 0
  scratch : Store Word := []
  pc : Nat := 0
  sweep : Nat := 0
  width : Nat := 256
  /-- The model's own field: v0-v63, the tables and lane scratch hold free values, those of this number (R170, R239). -/
  undef : Option Nat := none
  deriving DecidableEq, Repr

/-- A context frame (R133, R134): the command with its position and staging, and the vector unit. -/
structure Frame where
  cmd : RunCmd
  vec : VecUnit
  deriving DecidableEq, Repr

/-- A transfer held by a page DMA engine or waiting for one (R126, R207, R208). -/
structure Transfer where
  desc : BitVec 512
  queue : Nat
  /-- Bytes done, a multiple of 4 KiB. -/
  done : Nat := 0
  stop : Bool := false
  taken : Bool := false
  deriving DecidableEq, Repr

/-- The preload record (R108). -/
structure Preload where
  queue : Nat
  wAddr : Nat
  fmts : Nat
  tgt : Nat
  deriving DecidableEq, Repr

structure Tile where
  queues : Store TileQueue := []
  running : Option RunCmd := none
  frame0 : Option Frame := none
  frame1 : Option Frame := none
  /-- A spill in progress: the frame it fills, and the queue that takes the tile. -/
  spilling : Option (Nat × Nat) := none
  /-- A restore in progress from this frame. -/
  restoring : Option Nat := none
  abandonList : List Nat := []
  abandonFull : Bool := false
  lastAbandon : Word := 0
  waitLimit : Word := 0x10000
  takeCount : DWord := 0
  lastErr : Nat := 0
  preload : Option Preload := none
  /-- The two weight buffers' bytes, row by row: the one the array computes from, and the shadow, which loads the next tile and is swapped in
at a pass boundary (R92, R119); of a STREAMED command, the first holds the tile that streams through (R94). -/
  weights : List Byte := []
  shadow : List Byte := []
  numSticky : Word := 0
  numEvmask : Word := 0
  slabActive : DWord := 0
  vecIssue : DWord := 0
  vecFaultCause : Nat := 0
  vecFaultPc : Nat := 0
  vecFaultSweep : Nat := 0
  program : Store Word := []
  vec : VecUnit := {}
  engine0 : Option Transfer := none
  engine1 : Option Transfer := none
  deriving DecidableEq, Repr

/-- A tile's completion record on its way to the Teller (R116). -/
structure TileDone where
  opcode : Nat
  status : Nat
  numeric : BitVec 8 := 0
  opflags : BitVec 8 := 0
  queue : Nat
  tile : Nat
  taken : Bool := false
  result : Nat := 0
  tag : Nat := 0
  user : Nat := 0
  /-- The command's DONE_TALLY and DONE_ADD, by which the Teller tells its tagged commands apart (R296): the model's own, not of the
  record's bytes. -/
  tally : Nat := 0
  add : Nat := 0
  deriving DecidableEq, Repr

/-- What happens at the issuer once a tally operation has been applied or dropped (R198, R205). -/
inductive After
  | nothing
  | command (t : Nat)
  | transfer (d : TileDone) (cpl evt : Bool) (outs : List (Nat × Nat))
  deriving DecidableEq, Repr

/-- A tally operation on its way to its home (R201). -/
structure Signal where
  /-- Die it comes from. -/
  src : Nat
  tally : Nat
  value : Nat
  reset : Bool := false
  after : After := .nothing
  deriving DecidableEq, Repr

/-- One partial of a cross-tile reduction (R127, R128). -/
structure Contribution where
  tile : Nat
  desc : BitVec 512
  data : List Byte
  /-- Once every participant has contributed, or a difference was met: status, NUMERIC and the result bytes. -/
  outcome : Option (Nat × Nat × List Byte) := none
  deriving DecidableEq, Repr

/-! ## Memory, remote caches, tallies (chapter 6, chapter 8) -/

/-- A line of a remote cache (R190). -/
structure RcLine where
  way : Nat
  dirty : Bool := false
  used : Nat := 0
  poisoned : Bool := false
  /-- What the home holds while the copy is dirty: 64 bytes; in broadcast mode a lost copy gives it back (R209). -/
  stale : List Byte := []
  deriving DecidableEq, Repr

/-- A registered wait (R203). -/
structure Waiter where
  tally : Nat
  threshold : Nat
  /-- The home has sent the wake. -/
  woken : Bool := false
  deriving DecidableEq, Repr

structure Hearth where
  /-- Remote cache by line number. -/
  rc : Store (Option RcLine) := []
  rcClock : Nat := 0
  /-- HRT_RC_WAYS (R191, R213): ways of partition p divided by 2. -/
  ways : Store Nat := []
  flushPart : Nat := 0
  flushInval : Bool := false
  flushBusy : Bool := false
  ovf : Bool := false
  broken : Bool := false
  lastOvf : Nat := 0
  lastBroken : Nat := 0
  contrib : BitVec 8 := 0
  waiters : Store (Option Waiter) := []
  ceCount : Nat := 0
  ueCount : Nat := 0
  expNan : BitVec 8 := 0
  expMac : Store DWord := []
  deriving DecidableEq, Repr

/-- What a zero writer zeroes (R207): DRAM bytes from `base`, and why. -/
structure ZeroJob where
  base : Nat
  bytes : Nat
  /-- 0 amendment scrub, 1 SCRUB, 2 freed pool block, 3 ware image. -/
  purpose : Nat
  part : Nat
  handle : Nat := 0
  deriving DecidableEq, Repr

structure Vault where
  ceCount : Nat := 0
  ueCount : Nat := 0
  lastAddr : Nat := 0
  lastChan : Nat := 0
  lastCause : Nat := 0
  patrolPeriod : Nat := 24
  patrolOff : Bool := false
  patrolLine : Nat := 0
  passes : Nat := 0
  bwBytes : Store DWord := []
  bwShort : Store Nat := []
  /-- Channels whose accounting window has ended in the current round, and the partitions counted short in it: the model's
  own bookkeeping for VLT_BW_SHORTp (R215). -/
  windowDone : List Nat := []
  counted : Store Bool := []
  deriving DecidableEq, Repr

/-- A range whose bytes are undefined (R115, R208, R379, R453, R513): each holds a free value, of number `tag`, until it is
written. -/
structure Junk where
  base : Nat
  bytes : Nat
  tag : Nat
  deriving DecidableEq, Repr

structure MemState where
  /-- Bytes of the 48-bit device address map (R39): DRAM, tile stores, and the host window. -/
  bytes : Store Byte := []
  /-- Undefined ranges, the newest first; the model's own field (log entry 3). -/
  junk : List Junk := []
  /-- Poisoned 64-byte lines by line number (R183). -/
  poison : Store Bool := []
  /-- Directory state of a line (R192). -/
  dir : Store Nat := []
  /-- Export count of each 4 KiB page of the stores (R195). -/
  exports : Store Nat := []
  /-- Inline ECC on, as fired. -/
  ecc : Bool := false
  tallies : Store Word := []
  talliesBroken : Store Bool := []
  signals : List Signal := []
  reductions : List Contribution := []
  hearths : Store Hearth := []
  vaults : Store Vault := []
  zeroJobs : List ZeroJob := []
  deriving DecidableEq, Repr

/-! ## Request serving (chapter 9) -/

/-- Request states (R282). -/
inductive ReqState | free | admitted | prefill | decode | stalled | suspended | draining | retired
  deriving DecidableEq, Repr

/-- A block held from a page pool: device address and log2 of its size. -/
structure Block where
  addr : Nat
  k : Nat
  deriving DecidableEq, Repr

/-- A page of a request: model (0 target, 1 draft), layer, page index, block. -/
structure PageRef where
  draft : Bool
  layer : Nat
  index : Nat
  block : Block
  deriving DecidableEq, Repr

/-- A request-tagged command with DONE_EN that a request has dispatched into a shared step (R296). -/
structure TaggedDone where
  tile : Nat
  user : Nat
  tally : Nat
  add : Nat
  deriving DecidableEq, Repr

/-- Request table entry (R281) and what the Teller keeps beside it. -/
structure Request where
  state : ReqState := .free
  resumeTo : ReqState := .free
  cls : Nat := 0
  noWait : Bool := false
  hardAbort : Bool := false
  lateStop : Bool := false
  late : Bool := false
  cancelNow : Bool := false
  /-- CANCEL put the request into DRAINING (R282). -/
  cancelled : Bool := false
  restart : Bool := false
  specK : Nat := 0
  stallCause : Nat := 0
  ware : Nat := 0
  draft : Nat := 0xFFFF
  adapter : Nat := 0xFFFF
  adapterVer : Nat := 0
  seqLen : Nat := 0
  endReason : Nat := 0
  promptLen : Nat := 0
  prefilled : Nat := 0
  generated : Nat := 0
  maxNew : Nat := 0
  stepSeq : Nat := 0
  budget : Nat := 0
  admitStamp : Nat := 0
  seed : DWord := 0
  stopToken : Word := 0
  temp : BitVec 16 := 0
  topP : BitVec 16 := 0
  topK : Nat := 0
  listBase : Nat := 0
  -- beside the table
  promptAddr : Nat := 0
  promptCopy : List Block := []
  listBlocks : List Block := []
  pages : List PageRef := []
  /-- A step or chunk with a row of this request is in flight: its step tag. -/
  inStep : Option Nat := none
  /-- REQ_SUSPEND waits for the boundary. -/
  suspendReq : Bool := false
  /-- Order of stalling, and the state of the stall episode's STALL record. -/
  stallOrder : Nat := 0
  stallPosted : Bool := false
  /-- Draft passes done in the current speculative round (R297). -/
  draftsDone : Nat := 0
  /-- RESULT of the last SAMPLE of the step in flight (R298). -/
  accepted : Nat := 0
  /-- Request-tagged commands with DONE_EN in a shared step that have not completed OK (R296). -/
  taggedDone : List TaggedDone := []
  /-- CANCEL_NOW command whose completion is due at the end: function, SQ, CID. -/
  cancelSrc : Option (Nat × Nat × Nat) := none
  /-- The pass in flight at the deadline is the last one (R294). -/
  lastPass : Bool := false
  /-- RESUME_TO of a request that was suspended while stalled (R301). -/
  stallTo : ReqState := .free
  session : Option Nat := none
  job : Nat := 0
  kOut : BitVec 128 := 0
  deriving DecidableEq, Repr

/-- Ring descriptor i (R304) and the ring writer's own state (R292-R294). -/
structure Ring where
  base : Nat := 0
  log2 : Nat := 4
  evt : Bool := false
  set : Bool := false
  wr : Nat := 0
  rd : Nat := 0
  lastPos : Option Nat := none
  ended : Bool := false
  /-- A late mark arrived for the current request (R294). -/
  late : Bool := false
  deriving DecidableEq, Repr

/-- A ring record on its way to V0 (R291); `sample` tells a token record of SAMPLE from the Teller's own. -/
structure RingRec where
  req : Nat
  stepSeq : Nat
  token : Word
  logprob : BitVec 16 := 0
  stall : Bool := false
  noToken : Bool := false
  accept : Nat := 0
  position : Nat
  endReason : Nat := 0
  /-- Last record of its SAMPLE (R293). -/
  last : Bool := false
  deriving DecidableEq, Repr

/-- A partition's page pool: a buddy allocator over 2^12 to 2^21 byte blocks (R286, R287). -/
structure Pool where
  /-- 2 MiB units given by POOL_ADD, by unit number. -/
  units : List Nat := []
  freeBlocks : List Block := []
  /-- Ranges under POOL_SHRINK: first unit, count and handle. -/
  shrinking : List (Nat × Nat × Nat) := []
  /-- Freed blocks a zero writer has still to zero (R499). -/
  zeroing : List Block := []
  deriving DecidableEq, Repr

/-- A resolved stream of one tile and role (R139). -/
structure Stream where
  role : Role
  tile : Nat
  cmds : List TplCmd
  deriving DecidableEq, Repr

/-- An adapter number of a ware: versions, their pins, and the publish in progress (R300). -/
structure Adapter where
  newest : Option Nat := none
  /-- Versions loaded: version, image handle, pins. -/
  versions : List (Nat × Nat × Nat) := []
  nextVersion : Nat := 1
  /-- Running publish: handle, version it superseded, new version; and whether an ADMIT has pinned the new version. -/
  publish : Option (Nat × Option Nat × Nat) := none
  pinned : Bool := false
  deriving DecidableEq, Repr

/-- One request in a step or chunk: its first fresh position, and how many positions it appends (R283). -/
structure StepRow where
  req : Nat
  first : Nat
  count : Nat
  deriving DecidableEq, Repr

/-- A step or chunk in flight (R284, R285). -/
structure StepRun where
  tag : Nat
  rows : List StepRow
  /-- Tiles whose END record is awaited (R250). -/
  waiting : List Nat
  /-- Abandoned by its step tag (R115, R296): a tile is done once it has acted on the tag. -/
  abandoned : Bool := false
  deriving DecidableEq, Repr

/-- A loaded ware (R139, R377, R497, R498). -/
structure Ware where
  part : Nat
  version : Nat := 0
  digest : BitVec 256 := 0
  signer : Nat := 0
  /-- BOUND_IDs of the modules of its set (R496). -/
  members : List (BitVec 256) := []
  sealedWare : Bool := false
  confOnly : Bool := false
  tenants : List (BitVec 512) := []
  isImage : Bool := false
  plan : Plan := {}
  streams : List Stream := []
  tiles : List Nat := []
  tallyBase : Nat := 0
  /-- DRAM and tile-store ranges that hold its image: base and bytes. -/
  image : List (Nat × Nat) := []
  adapters : Store Adapter := []
  /-- The image was loaded for this ware (R498): adapter images alone. -/
  joins : Nat := 0
  step : Option StepRun := none
  chunk : Option StepRun := none
  /-- The vision and the housekeeping stream in flight (R138, R139). -/
  vision : Option StepRun := none
  house : Option StepRun := none
  /-- Composes no step for an ACTIVATE (R523). -/
  held : Bool := false
  /-- A kiln reset met its steps: they are rerun (R301). -/
  rerun : Bool := false
  deriving DecidableEq, Repr

structure TellerState where
  usec : DWord := 0
  held : Bool := false
  pevt : Store (BitVec 3) := []
  requests : Store Request := []
  rings : Store Ring := []
  pools : Store Pool := []
  wares : List (Nat × Ware) := []
  nextWare : Nat := 1
  nextTag : Nat := 1
  nextStall : Nat := 1
  /-- Completion records at the mint port, oldest first (R116, R137). -/
  records : List TileDone := []
  /-- Descriptors that wait for free slots of a queue: tile, queue, descriptors (R139). -/
  feeds : List (Nat × Nat × List (BitVec 512)) := []
  /-- Tags to write again to a tile whose list was full: tile and tag (R136, R296). -/
  abandons : List (Nat × Nat) := []
  ringRecs : List RingRec := []
  /-- Per partition: one more than the queue last served in the round robin of R280, 0 for none. -/
  served : Store Nat := []
  deriving DecidableEq, Repr

/-! ## Wheels (chapter 10) -/

/-- STATE of WHL_CTXc_STAT (R338); WAITING is a RUNNING context that is not ready. -/
inductive CtxState | closed | waitIrap | running | closing
  deriving DecidableEq, Repr

/-- A stream context record, R313, as STREAM_OPEN read it. -/
structure CtxRec where
  encode : Bool := false
  cls : Nat := 0
  wheel : Nat := 0
  codec : Nat := 0
  hostFed : Bool := false
  bufSkip : Bool := false
  subframe : Bool := false
  evt : Bool := false
  infoAddr : Nat := 0
  bufs : List (Nat × Nat) := []
  g : Nat := 1
  elemFmt : Nat := 0
  layout : Nat := 0
  nearest : Bool := false
  halfPixel : Bool := false
  matrix : Nat := 0
  range : Nat := 0
  outW : Nat := 0
  outH : Nat := 0
  cropX : Nat := 0
  cropY : Nat := 0
  cropW : Nat := 0
  cropH : Nat := 0
  gain : List (BitVec 16) := []
  bias : List (BitVec 16) := []
  dpbAddr : Nat := 0
  dpbBytes : Nat := 0
  nalAddr : Nat := 0
  nalLog2 : Nat := 16
  portMask : BitVec 4 := 0
  vlan : Nat := 0
  ipVer : Nat := 4
  pt : Nat := 96
  udpPort : Nat := 0
  ipDst : BitVec 128 := 0
  ssrc : Word := 0
  ssrcFilter : Bool := false
  jitAddr : Nat := 0
  jitBytes : Nat := 0
  jitUs : Nat := 0
  bsAddr : Nat := 0
  bsLog2 : Nat := 16
  descLog2 : Nat := 4
  descAddr : Nat := 0
  rcTarget : Bool := false
  qpInit : Nat := 0
  qpMin : Nat := 0
  qpMax : Nat := 0
  iDelta : Int := 0
  sliceRows : Nat := 0
  targetBits : Nat := 0
  idrPeriod : Nat := 0
  doneTally : Nat := 0
  deriving DecidableEq, Repr

/-- An RTP packet in a jitter buffer (R317): extended sequence number, RTP timestamp, and where in the buffer its payload stands. -/
structure Packet where
  seq : Nat
  ts : Word
  ofs : Nat
  len : Nat
  deriving DecidableEq, Repr

/-- A NAL unit or a loss marker pending for the decoder (R317, R318). -/
inductive NalItem
  | unit (ofs len : Nat) (ts : Word) (arrival : Nat)
  | loss
  deriving DecidableEq, Repr

/-- An encoded NAL unit that waits for ring space (R335). -/
structure EncNal where
  bytes : List Byte
  picNum : Nat
  idr : Bool
  last : Bool
  param : Bool
  keyReq : Bool
  nalType : Nat
  slice : Nat
  deriving DecidableEq, Repr

/-- A picture in the decoded-picture buffer (R305, R329, R330): its slot, size, place in output order, whether its content is damaged
(R331), and whether it is a substitute: 1 a copy, 2 mid-grey. -/
structure DpbPic where
  slot : Nat
  order : Int := 0
  w : Nat
  h : Nat
  depth : Nat
  damaged : Bool := false
  subst : Nat := 0
  deriving DecidableEq, Repr

/-- A stream context (R313, R326, R338). -/
structure Ctx where
  state : CtxState := .closed
  cfg : CtxRec := {}
  cls : Nat := 0
  /-- STREAM_CLASS waiting for the row boundary. -/
  nextClass : Option Nat := none
  closeMode : Nat := 0
  /-- STREAM_CLOSE commands whose completion is due: function, SQ, CID. -/
  closeSrc : List (Nat × Nat × Nat) := []
  pictures : Nat := 0
  syntaxErrs : Nat := 0
  concealed : Nat := 0
  lost : Nat := 0
  dropped : Nat := 0
  /-- NAL ring bytes consumed, mod 2^32. -/
  rd : Nat := 0
  evtBits : BitVec 5 := 0
  -- ingest
  packets : List Packet := []
  nextSeq : Option Nat := none
  /-- Fragments of the NAL unit being assembled, and the timestamp of its packets. -/
  fu : Option (List Byte) := none
  /-- The rest of a fragmented unit that lost a part is being discarded. -/
  fuLost : Bool := false
  /-- NAL ring bytes written by ingest, or the last VALUE0 of STREAM_FEED. -/
  nalTotal : Nat := 0
  eos : Bool := false
  pendingNals : List NalItem := []
  -- decode
  /-- The stream's bytes that the decoder has consumed since the context opened (R306). -/
  stream : List Byte := []
  bufIndex : Nat := 0
  outWaiting : Bool := false
  skipped : Nat := 0
  /-- Sequence parameter sets held; an unsupported one came, and a supported one is awaited (R308, R328). -/
  sets : List SeqSet := []
  needSet : Bool := false
  /-- Decoding started at a CRA or BLA picture, whose RASL pictures are discarded (R308). -/
  raslSkip : Bool := false
  /-- The decoded-picture buffer, and the picture decoded last. -/
  dpb : List DpbPic := []
  prev : Option DpbPic := none
  picOpen : Bool := false
  /-- The picture in progress: its parameter set, slot and output order, its unit size, and the unit rows decoded with the units they
  lack. -/
  picSet : SeqSet := {}
  picSlot : Nat := 0
  picOrder : Int := 0
  picUnit : Nat := 16
  /-- Its reference pictures, by output order, and whether poison stands in any of them. -/
  picRefs : List Int := []
  refPoison : Bool := false
  picRows : List (Nat × List LostUnits) := []
  /-- The buffer of the picture in progress has been found free. -/
  granted : Bool := false
  picSkip : Bool := false
  picFlags : BitVec 16 := 0
  /-- The picture in progress is an IRAP picture; it has met an error. -/
  picIrap : Bool := false
  picErr : Bool := false
  concealedUnits : Nat := 0
  picTs : Word := 0
  picArrival : Nat := 0
  /-- Output rows written of the picture in progress. -/
  outRows : Nat := 0
  /-- Damage since the last clean IRAP picture (R331); an RTP loss since then. -/
  tainted : Bool := false
  lossWindow : Bool := false
  -- encode
  row : Nat := 0
  keyReq : Bool := false
  /-- The picture in progress is an IDR; its descriptors carry KEYREQ. -/
  idr : Bool := false
  keyNow : Bool := false
  qp : Nat := 0
  picBits : Nat := 0
  /-- Input samples read of the picture in progress, one entry a CTU row; the first row of the slice in progress, and its index. -/
  encRows : List (List Byte) := []
  sliceFrom : Nat := 0
  sliceIndex : Nat := 0
  encNals : List EncNal := []
  sinceIdr : Nat := 0
  /-- Bitstream bytes and descriptors posted, and the read indices of STREAM_FEED, mod 2^32. -/
  bsWr : Nat := 0
  descWr : Nat := 0
  bsRd : Nat := 0
  descRd : Nat := 0
  deriving DecidableEq, Repr

structure WheelUnit where
  ctx : Nat := 0
  active : Bool := false
  encode : Bool := false
  samples : DWord := 0
  errPoison : Bool := false
  errAddress : Bool := false
  errTargetLost : Bool := false
  lastCtx : Nat := 0
  /-- Context that ran last of each class (R326): the model's own bookkeeping. -/
  turns : Store Nat := []
  deriving DecidableEq, Repr

structure WheelState where
  wheels : Store WheelUnit := []
  ctxs : Store Ctx := []
  unmatched : Nat := 0
  deriving DecidableEq, Repr

/-- Whole-machine state of the block. -/
structure State where
  mould : MouldState := {}
  update : UpdateState := {}
  links : LinkState := {}
  host : HostState := {}
  reg : RegEvState := {}
  faults : FaultState := {}
  ledger : LedgerState := {}
  islands : IslandState := {}
  power : PowerState := {}
  therm : ThermState := {}
  sec : SecState := {}
  tiles : Store Tile := []
  mem : MemState := {}
  teller : TellerState := {}
  wheels : WheelState := {}
  /-- The model's own field, not the spec's: how many free values the run has taken. -/
  free : Nat := 0
  /-- Commands waiting, first in, first out. -/
  pending : List Instr := []
  deriving DecidableEq, Repr

/-- The reaction codes of the factory mould: every source's minimum reaction (R425, R478, R505), in the codes of R58. -/
def factoryReaction (s : Nat) : Nat :=
  if (64 ≤ s ∧ s ≤ 67) ∨ (84 ≤ s ∧ s ≤ 87) ∨ (118 ≤ s ∧ s ≤ 132) ∨ s = 277 ∨ s = 278 ∨
     (309 ≤ s ∧ s ≤ 318) ∨ s = 386 ∨ s = 388 ∨ (416 ≤ s ∧ s ≤ 423) then 1
  else if 344 ≤ s ∧ s ≤ 353 then 2
  else if s = 354 ∨ s = 357 ∨ s = 426 then 3
  else if s = 356 ∨ s = 425 then 4
  else 0

/-- The full mould a module leaves the factory with: one partition that owns everything and belongs to the PF.
DESIGN CHOICE (log entry 2): the spec gives no factory contents of flash. -/
def factoryMould : Image where
  kind := 0
  serial := 1
  device := some { envelope := 1, cooling := 0, clkOpt := 0, ecc := 1, debug := 0 }
  laneRoles := some (List.replicate 8 0x7F ++ List.replicate 6 0x01 ++ [0x07])
  guardModes := some (List.replicate 64 1)
  reactions := some ((List.range 512).map factoryReaction)
  pins := some { fltNWidth := 10, tachPpr := 2, tachMin := 50, coolOkUse := 1, brakeUse := 1 }
  parts := [(0, { tiles := 0xFFFFFFFF, func := 0, confidential := false, wheels := 0xF,
                  dram := [⟨0, 11904⟩], sq := ⟨0, 1024⟩, cq := ⟨0, 1024⟩, req := ⟨0, 1024⟩,
                  tally := ⟨0, 256⟩, ctx := ⟨0, 256⟩, bwMin := 0 })]
  wins := [(0, { bar4Log2 := 40, hosts := [⟨0, 0x1000000000⟩] })]
  signer := some 1

/-- The factory contents of slot A: a VALID image of version 1 with the factory mould (log entry 2). -/
def factorySlot : Slot where
  state := .valid
  generation := 1
  version := 1
  mould := some factoryMould

/-- The module with 48 V just good and before its firing sequence (R510): every register at its Reset column,
memory with nothing listed, the factory contents of flash as log entry 2 names them, and no command waiting. -/
def State.reset : State := { update := { slotA := factorySlot, slotB := {} }, ledger := { highestSerial := 1 } }

end Sys2Proof.Machine
end

