-- ==== Sys2Proof/Machine/Ops.lean ====
section
/-! DEFINITION.  The named operations every meaning is written over: sparse tables, bit fields and byte order,
memory with its poison (R183), bounds (R41, R44, R134, R176), raising faults and events, completions, free values. -/
namespace Sys2Proof.Machine
open Sys2Proof

/-! ## Sparse tables -/

/-- What a table holds at key `k`; `d` where it lists none. -/
def sget {α : Type} (d : α) (m : Store α) (k : Nat) : α :=
  match m with
  | [] => d
  | (k', v) :: r => if k' = k then v else sget d r k

/-- The table with `v` inserted at `k`, keys kept rising. -/
def sins {α : Type} (m : Store α) (k : Nat) (v : α) : Store α :=
  match m with
  | [] => [(k, v)]
  | (k', v') :: r => if k < k' then (k, v) :: (k', v') :: r
                     else if k = k' then (k, v) :: r
                     else (k', v') :: sins r k v

/-- The table with `v` at `k`; writing the default `d` removes the entry. -/
def sset {α : Type} [DecidableEq α] (d : α) (m : Store α) (k : Nat) (v : α) : Store α :=
  if v = d then m.filter (fun e => e.1 ≠ k) else sins m k v

/-- The canonical form: keys strictly rising, and no entry at the default. -/
def swf {α : Type} [DecidableEq α] (d : α) (m : Store α) : Bool :=
  match m with
  | [] => true
  | [(_, v)] => v ≠ d
  | (k, v) :: (k', v') :: r => decide (k < k') && decide (v ≠ d) && swf d ((k', v') :: r)

/-! ## Bit fields and byte order (R13, R14) -/

/-- Bits [lo + n - 1 : lo] of `v`. -/
def bits (v lo n : Nat) : Nat := (v >>> lo) % 2 ^ n
/-- Bit `b` of `v`. -/
def bit (v b : Nat) : Bool := (v >>> b) % 2 == 1
/-- A Bool as a bit. -/
def b2n (b : Bool) : Nat := if b then 1 else 0
/-- `v` read as an `n`-bit two's-complement number. -/
def signed (n v : Nat) : Int := if v % 2 ^ n < 2 ^ (n - 1) then (v % 2 ^ n : Nat) else (v % 2 ^ n : Nat) - (2 ^ n : Nat)
/-- The low `n` bits of an integer, as a number. -/
def unsigned (n : Nat) (i : Int) : Nat := (i % (2 ^ n : Nat)).toNat
/-- The little-endian value of bytes (R14). -/
def leNat : List Byte → Nat
  | [] => 0
  | b :: r => b.toNat + 256 * leNat r
/-- `n` little-endian bytes of `v`. -/
def toLE : Nat → Nat → List Byte
  | 0, _ => []
  | n + 1, v => BitVec.ofNat 8 v :: toLE n (v / 256)
/-- Bytes [b + n - 1 : b] of a descriptor, as a number. -/
def dfld (d : BitVec 512) (b n : Nat) : Nat := bits d.toNat (8 * b) (8 * n)
/-- Bits [lo + n - 1 : lo] of byte `b` of a descriptor. -/
def dbits (d : BitVec 512) (b lo n : Nat) : Nat := bits d.toNat (8 * b + lo) n
/-- Bytes [b + n - 1 : b] of a byte list, as a number. -/
def lfld (l : List Byte) (b n : Nat) : Nat := leNat ((l.drop b).take n)
/-- All bytes from `b` to `b + n - 1` of a list are zero (absent ones count as zero). -/
def lzero (l : List Byte) (b n : Nat) : Bool := ((l.drop b).take n).all (· == 0)
/-- A counter that holds at `cap`. -/
def satAdd (cap v n : Nat) : Nat := min cap (v + n)
/-- Counters read through a VF: the power of two at or below the value (R485). -/
def coarsen (v : Nat) : Nat := if v = 0 then 0 else 2 ^ Nat.log2 v
/-- `v` rounded up to a multiple of `n`. -/
def roundUp (v n : Nat) : Nat := (v + n - 1) / n * n

/-! ## Accessors of the sparse parts of the state -/

def State.tile (s : State) (t : Nat) : Tile := sget {} s.tiles t
def State.setTile (s : State) (t : Nat) (x : Tile) : State := { s with tiles := sset {} s.tiles t x }
def Tile.q (x : Tile) (q : Nat) : TileQueue := sget {} x.queues q
def Tile.setQ (x : Tile) (q : Nat) (v : TileQueue) : Tile := { x with queues := sset {} x.queues q v }
def State.hearth (s : State) (h : Nat) : Hearth := sget {} s.mem.hearths h
def State.setHearth (s : State) (h : Nat) (x : Hearth) : State :=
  { s with mem := { s.mem with hearths := sset {} s.mem.hearths h x } }
def State.vault (s : State) (v : Nat) : Vault := sget {} s.mem.vaults v
def State.setVault (s : State) (v : Nat) (x : Vault) : State :=
  { s with mem := { s.mem with vaults := sset {} s.mem.vaults v x } }
def State.portEnd (s : State) (e : Nat) : PortEnd := sget {} s.links.ends e
def State.setPortEnd (s : State) (e : Nat) (x : PortEnd) : State :=
  { s with links := { s.links with ends := sset {} s.links.ends e x } }
def PortEnd.group (x : PortEnd) (g : Nat) : LaneGroup := sget {} x.groups g
def PortEnd.setGroup (x : PortEnd) (g : Nat) (v : LaneGroup) : PortEnd := { x with groups := sset {} x.groups g v }
/-- Die state; before firing every die is held in reset (R510 step 2). -/
def State.die (s : State) (d : Nat) : DieState := sget .inReset s.links.dies d
def State.setDie (s : State) (d : Nat) (x : DieState) : State :=
  { s with links := { s.links with dies := sset .inReset s.links.dies d x } }
def State.sq (s : State) (q : Nat) : HostQueue := sget {} s.host.sqs q
def State.cq (s : State) (q : Nat) : HostQueue := sget {} s.host.cqs q
def State.setSq (s : State) (q : Nat) (x : HostQueue) : State := { s with host := { s.host with sqs := sset {} s.host.sqs q x } }
def State.setCq (s : State) (q : Nat) (x : HostQueue) : State := { s with host := { s.host with cqs := sset {} s.host.cqs q x } }
def State.func (s : State) (f : Nat) : PcieFunc := sget {} s.host.funcs f
def State.setFunc (s : State) (f : Nat) (x : PcieFunc) : State := { s with host := { s.host with funcs := sset {} s.host.funcs f x } }
def State.request (s : State) (i : Nat) : Request := sget {} s.teller.requests i
def State.setRequest (s : State) (i : Nat) (x : Request) : State :=
  { s with teller := { s.teller with requests := sset {} s.teller.requests i x } }
def State.ring (s : State) (i : Nat) : Ring := sget {} s.teller.rings i
def State.setRing (s : State) (i : Nat) (x : Ring) : State := { s with teller := { s.teller with rings := sset {} s.teller.rings i x } }
def State.pool (s : State) (p : Nat) : Pool := sget {} s.teller.pools p
def State.setPool (s : State) (p : Nat) (x : Pool) : State := { s with teller := { s.teller with pools := sset {} s.teller.pools p x } }
def State.ctx (s : State) (c : Nat) : Ctx := sget {} s.wheels.ctxs c
def State.setCtx (s : State) (c : Nat) (x : Ctx) : State := { s with wheels := { s.wheels with ctxs := sset {} s.wheels.ctxs c x } }
def State.wheel (s : State) (w : Nat) : WheelUnit := sget {} s.wheels.wheels w
def State.setWheel (s : State) (w : Nat) (x : WheelUnit) : State := { s with wheels := { s.wheels with wheels := sset {} s.wheels.wheels w x } }
def State.inst (s : State) (i : Nat) : RegInst := sget {} s.reg.insts i
def State.setInst (s : State) (i : Nat) (x : RegInst) : State := { s with reg := { s.reg with insts := sset {} s.reg.insts i x } }
def State.session (s : State) (p k : Nat) : Session := sget {} s.sec.sessions (16 * p + k)
def State.setSession (s : State) (p k : Nat) (x : Session) : State :=
  { s with sec := { s.sec with sessions := sset {} s.sec.sessions (16 * p + k) x } }
def State.mgmt (s : State) (n : Nat) : MgmtSession := sget {} s.sec.mgmt n
def State.setMgmt (s : State) (n : Nat) (x : MgmtSession) : State := { s with sec := { s.sec with mgmt := sset {} s.sec.mgmt n x } }
/-- A ware by its handle. -/
def State.ware? (s : State) (h : Nat) : Option Ware := (s.teller.wares.find? (fun e => e.1 = h)).map (·.2)
/-- Replace the entry of key `k` in an unsorted list of pairs, where there is one. -/
def kset {α : Type} (l : List (Nat × α)) (k : Nat) (v : α) : List (Nat × α) := l.map (fun e => if e.1 = k then (k, v) else e)
def State.setWare (s : State) (h : Nat) (w : Ware) : State := { s with teller := { s.teller with wares := kset s.teller.wares h w } }
def State.op? (s : State) (h : Nat) : Option OpRec := (s.host.handles.find? (fun e => e.1 = h)).map (·.2)
def State.setOp (s : State) (h : Nat) (o : OpRec) : State := { s with host := { s.host with handles := kset s.host.handles h o } }
def State.slot (s : State) (b : Bool) : Slot := if b then s.update.slotB else s.update.slotA
def State.setSlot (s : State) (b : Bool) (x : Slot) : State :=
  { s with update := if b then { s.update with slotB := x } else { s.update with slotA := x } }
def State.faultQueue (s : State) (o : Nat) : List LedgerRec := sget [] s.faults.queues o
def State.tilePower (s : State) (t : Nat) : TilePower := sget {} s.power.tiles t
def State.setTilePower (s : State) (t : Nat) (x : TilePower) : State := { s with power := { s.power with tiles := sset {} s.power.tiles t x } }
def State.tileTherm (s : State) (t : Nat) : TileTherm := sget {} s.therm.tiles t
def State.setTileTherm (s : State) (t : Nat) (x : TileTherm) : State := { s with therm := { s.therm with tiles := sset {} s.therm.tiles t x } }
/-- The divider that thermal throttling and power limits ask of tile t; a tile without a valid reading runs at 8 (R467, R469). -/
def State.askedD (s : State) (t : Nat) : Nat :=
  if (s.tileTherm t).blind then 8 else max (s.tilePower t).thermD (s.tilePower t).powerD
/-- The duty asked of tile t: the lowest of every clamp (R461, R469, R479). -/
def State.askedDuty (s : State) (t : Nat) : Nat :=
  let p := s.power
  let brake := (s.tileTherm t).blind || p.overClamp || p.coolClamp || p.flowLost
  min (min (s.tilePower t).thermDuty p.capClamp) (min p.brakeDuty (if brake then 4 else 16))
/-- Tile t takes the divider and the duty asked of it: at a yield point, and at a command boundary (R351, R461). -/
def State.settlePower (s : State) (t : Nat) : State :=
  let x := s.tilePower t
  if x.d = s.askedD t ∧ x.duty = s.askedDuty t then s else s.setTilePower t { x with d := s.askedD t, duty := s.askedDuty t }
/-- Divider and duty in force: a tile with no command running has none to wait for. -/
def State.tileD (s : State) (t : Nat) : Nat := if (s.tile t).running.isNone then s.askedD t else (s.tilePower t).d
def State.tileDuty (s : State) (t : Nat) : Nat := if (s.tile t).running.isNone then s.askedDuty t else (s.tilePower t).duty
def State.cyc (s : State) (d : Nat) : CycleState := sget {} s.therm.dies d
def State.setCyc (s : State) (d : Nat) (x : CycleState) : State := { s with therm := { s.therm with dies := sset {} s.therm.dies d x } }

/-- Tile t is given no work: it is fenced, or its fence is removed and no plan has been laid since (R451). -/
def State.tileOut (s : State) (t : Nat) : Bool := s.faults.fenceTiles.getLsbD t || s.faults.fenceBack.getLsbD t

/-! ## The running structure (R60-R62) -/

/-- The PARTITION record of p in the running structure. -/
def State.part? (s : State) (p : Nat) : Option PartRec := (s.mould.parts.find? (fun e => e.1 = p)).map (·.2)
def State.win (s : State) (p : Nat) : WinRec := ((s.mould.wins.find? (fun e => e.1 = p)).map (·.2)).getD {}
/-- A number lies in a range of units. -/
def URange.has (r : URange) (n : Nat) : Bool := decide (r.first ≤ n) && decide (n < r.first + r.count)
/-- The partition for which a test holds, or 8. -/
def State.findPart (s : State) (f : PartRec → Bool) : Nat := ((s.mould.parts.find? (fun e => f e.2)).map (·.1)).getD 8
/-- Partition whose TILE_MASK holds tile t, or 8 (R175). -/
def State.tilePart (s : State) (t : Nat) : Nat := s.findPart (fun r => r.tiles.getLsbD t)
def State.tallyPart (s : State) (n : Nat) : Nat := s.findPart (fun r => r.tally.has (n / 64))
def State.reqPart (s : State) (i : Nat) : Nat := s.findPart (fun r => r.req.has (i / 64))
def State.ctxPart (s : State) (c : Nat) : Nat := s.findPart (fun r => r.ctx.has c)
def State.sqPart (s : State) (q : Nat) : Nat := s.findPart (fun r => r.sq.has q)
def State.cqPart (s : State) (q : Nat) : Nat := s.findPart (fun r => r.cq.has q)
/-- Partition that function f owns, or 8. -/
def State.funcPart (s : State) (f : Nat) : Nat := s.findPart (fun r => r.func == f)
/-- Function of partition p; 9 for none. -/
def State.partFunc (s : State) (p : Nat) : Nat := match s.part? p with | some r => r.func | none => 9
def State.confidential (s : State) (p : Nat) : Bool := match s.part? p with | some r => r.confidential | none => false
/-- Partition owning a 64 MiB DRAM unit, or 8. -/
def State.unitPart (s : State) (u : Nat) : Nat := s.findPart (fun r => r.dram.any (fun d => d.has u))

/-! ## Dies, ports and routes (R32, R34, R36)

Dies: 0-3 K0-K3, 4-7 H0-H3, 8-9 V0-V1, 10 M.  Ports: 0-3 ring, 4-7 vault, 8-13 mint, 14 cross-vault. -/

/-- A die's registers and memory answer: M always, another die once it is ready (R370). -/
def State.dieReady (s : State) (d : Nat) : Bool := d == 10 || s.die d == .ready
/-- The two dies that port j joins, side 0 first. -/
def portDies (j : Nat) : Nat × Nat :=
  if j < 4 then (4 + j, 4 + (j + 1) % 4)
  else if j < 6 then (j, 8)
  else if j < 8 then (j, 9)
  else if j < 12 then (10, 4 + (j - 8))
  else if j < 14 then (10, 8 + (j - 12))
  else (8, 9)
/-- Data lanes of port j. -/
def portLanes (j : Nat) : Nat := if j < 8 then 64 else 32
/-- The mint's port to die d; a kiln's is its hearth's. -/
def mintPort (d : Nat) : Nat := if d < 4 then 8 + d else 4 + d
/-- Ends of the ports of die d: this end and the far one. -/
def dieEnds (d : Nat) : List (Nat × Nat) :=
  (List.range 15).flatMap (fun j =>
    (if (portDies j).1 = d then [(2 * j, 2 * j + 1)] else []) ++ (if (portDies j).2 = d then [(2 * j + 1, 2 * j)] else []))
/-- The die whose ports serve die d: a kiln's traffic goes through its hearth (R27, R34). -/
def linkDie (d : Nat) : Nat := if d < 4 then d + 4 else d
/-- Port j can carry traffic: it is neither fenced nor, which counts the same, training (R36, R348). -/
def State.portOpen (s : State) (j : Nat) : Bool :=
  !(s.portEnd (2 * j)).fenced && !(s.portEnd (2 * j)).training && !(s.portEnd (2 * j + 1)).fenced && !(s.portEnd (2 * j + 1)).training
/-- An open port joins two dies. -/
def State.joined (s : State) (a b : Nat) : Bool :=
  (List.range 15).any (fun j => (portDies j == (a, b) || portDies j == (b, a)) && s.portOpen j)
/-- The fixed route of R34 between two dies with ports, both ends named. -/
def fixedRoute (a b : Nat) : List Nat :=
  let far (h v : Nat) : List Nat := if h / 2 = v then [] else [4 + (3 - h)]
  if a = b then [a]
  else if a < 8 ∧ b < 8 then (if (b + 4 - a) % 4 = 2 then [a, 4 + (a - 3) % 4, b] else [a, b])
  else if a < 8 ∧ b < 10 then a :: far (a - 4) (b - 8) ++ [b]
  else if b < 8 ∧ a < 10 then a :: far (b - 4) (a - 8) ++ [b]
  else [a, b]
/-- A path runs over open ports. -/
def State.pathOpen (s : State) : List Nat → Bool
  | a :: b :: r => s.joined a b && s.pathOpen (b :: r)
  | _ => true
/-- Dies next to a die in ring order, the mint left out. -/
def neighbours (d : Nat) : List Nat :=
  if d < 4 then []
  else if d < 8 then [4 + (d - 3) % 4, 4 + (d - 1) % 4, 8 + (d - 4) / 2]
  else if d = 8 then [4, 5, 9]
  else if d = 9 then [6, 7, 8]
  else [4, 5, 6, 7, 8, 9]
/-- The first of the shortest paths to die b that extend the given ones (each with its end first) over open ports. -/
def State.shortest (s : State) (b : Nat) : Nat → List (List Nat) → Option (List Nat)
  | 0, _ => none
  | n + 1, ps =>
    match ps.find? (fun p => p.head? == some b) with
    | some p => some p.reverse
    | none => s.shortest b n (ps.flatMap (fun p =>
        let d := p.headD 0
        ((neighbours d ++ if b = 10 ∧ d ≠ 10 then [10] else []).filter (fun e => s.joined d e && !p.contains e)).map (fun e => e :: p)))
/-- The route between two dies: the fixed one while its ports are open, else the shortest path over open ports that avoids
the mint, ties in ring order (R34, R36, R348); none where no path is left.  The order of ties is DEDUCED (log entry 61). -/
def State.path (s : State) (a b : Nat) : Option (List Nat) :=
  let a := linkDie a
  let b := linkDie b
  if s.pathOpen (fixedRoute a b) then some (fixedRoute a b) else s.shortest b 7 [[a]]
/-- Two dies have a route to each other. -/
def State.reach (s : State) (a b : Nat) : Bool := (s.path a b).isSome
/-- A tile can run: its kiln is ready and so is the hearth beneath it (R27). -/
def State.tileUp (s : State) (t : Nat) : Bool := s.dieReady (t / 8) && s.dieReady (4 + t / 8)

/-- No request goes out for function f (R382). -/
def State.funcQuiet (s : State) (f : Nat) : Bool := !s.host.linkUp || (s.func f).d3hot || !(s.func f).bme

/-! ## The address map (R39, R134, R181, R452) -/

def storeBase (t : Nat) : Nat := 0xD000000000 + t * 0x1000000
def hostWindow : Nat := 0x800000000000
/-- Working channels at this firing (R452). -/
def State.channels (s : State) : Nat := 48 - ((List.range 48).filter (fun c => s.faults.fenceChans.getLsbD c)).length
/-- Data bytes of the DRAM range (R40, R452). -/
def State.dramTop (s : State) : Nat := if s.mem.ecc then s.channels * 0x3E0000000 else s.channels * 0x400000000
/-- The n-th working channel. -/
def State.workingChannel (s : State) (n : Nat) : Nat :=
  (((List.range 48).filter (fun c => !s.faults.fenceChans.getLsbD c))[n]?).getD 0
/-- Channel of a DRAM address (R181, R452). -/
def State.channelOf (s : State) (a : Nat) : Nat := s.workingChannel ((a / 4096) % max 1 s.channels)

/-- Channel-local address of a DRAM address, and of the two-byte check word of its line with inline ECC on (R181, R452). -/
def State.localOf (s : State) (a : Nat) : Nat := a / 4096 / max 1 s.channels * 4096 + a % 4096
def State.checkAddr (s : State) (a : Nat) : Nat := 0x3E0000000 + s.localOf a / 64 * 2

/-- Where an address lies. -/
inductive Region
  | dram | store (t : Nat) (context : Bool) | host | registers | reserved
  deriving DecidableEq, Repr

def State.region (s : State) (a : Nat) : Region :=
  if a < s.dramTop then .dram
  else if 0xD000000000 ≤ a ∧ a < 0xD020000000 then
    .store ((a - 0xD000000000) / 0x1000000) (decide (0xD00000 ≤ a % 0x1000000))
  else if 0xF000000000 ≤ a ∧ a < 0xF0B0000000 then .registers
  else if hostWindow ≤ a ∧ a < 2 ^ 48 then .host
  else .reserved

/-- No memory-controller group is in self-refresh: accesses to DRAM are served (R428). -/
def State.dramOpen (s : State) : Bool := s.faults.mcPaused == 0
/-- The DRAM channel of an address waits for its memory-controller group (R428). -/
def State.chanPaused (s : State) (a : Nat) : Bool :=
  match s.region a with
  | .dram => s.faults.mcPaused.getLsbD (s.channelOf a / 8)
  | _ => false

/-- The outcome of a bounds check: allowed, ADDRESS (R41, R44) or a context area (R134). -/
inductive Bound | ok | address | context
  deriving DecidableEq, Repr

/-- A range lies wholly in one host-window range of p (R62). -/
def State.inHost (s : State) (p a n : Nat) : Bool :=
  decide (hostWindow ≤ a) &&
    (s.win p).hosts.any (fun r => decide (r.first ≤ a - hostWindow) && decide (a - hostWindow + n ≤ r.first + r.count))

/-- A range lies wholly in the DRAM of partition p (R44). -/
def State.inDram (s : State) (p a n : Nat) : Bool :=
  decide (a + n ≤ s.dramTop) && decide (0 < n) &&
    (List.range ((a + n - 1) / 0x4000000 - a / 0x4000000 + 1)).all (fun i => s.unitPart (a / 0x4000000 + i) == p)

/-- A range lies wholly in tile-store windows of tiles that p owns, context areas left aside. -/
def State.inStores (s : State) (p a n : Nat) : Bool :=
  decide (0xD000000000 ≤ a) && decide (a + n ≤ 0xD020000000) && decide (0 < n) &&
    (List.range ((a + n - 1) / 0x1000000 - a / 0x1000000 + 1)).all
      (fun i => s.tilePart ((a - 0xD000000000) / 0x1000000 + i) == p)

/-- The range meets a context area of a tile store (R134). -/
def meetsContext (a n : Nat) : Bool :=
  decide (0 < n) && (decide (0xD00000 ≤ a % 0x1000000) || decide (0xD00000 < a % 0x1000000 + n))

/-- The check of R44 and R134 on a range for partition tag p; the system tag 8 skips the bounds (R176).  V0 sends a
host-window access with the requester ID of p's function, and refuses it while that function is quiet (R43, R382). -/
def State.bound (s : State) (p a n : Nat) : Bound :=
  if n = 0 then .ok
  else match s.region a with
  | .dram => if p = 8 then (if a + n ≤ s.dramTop then .ok else .address)
             else if s.inDram p a n then .ok else .address
  | .store _ _ => if a + n > 0xD020000000 then .address
                  else if p = 8 then .ok
                  else if !s.inStores p a n then .address
                  else if meetsContext a n then .context else .ok
  | .host => if a + n > 2 ^ 48 then .address
             else if s.inHost p a n && !s.funcQuiet (s.partFunc p) then .ok else .address
  | .registers => .address
  | .reserved => .address

/-- What a range shares with another, where they meet. -/
def clip (x y : Nat × Nat) : Option (Nat × Nat) :=
  let lo := max x.1 y.1
  let hi := min (x.1 + x.2) (y.1 + y.2)
  if lo < hi then some (lo, hi - lo) else none
/-- The parts of a range that partition p's own accesses may reach: its DRAM, its tiles' stores without their context areas, and its host-window
ranges (R44, R62, R134). -/
def State.reachable (s : State) (p : Nat) (r : Nat × Nat) : List (Nat × Nat) :=
  match s.part? p with
  | none => []
  | some x =>
    (x.dram.map (fun (d : URange) => (d.first * 0x4000000, min (d.count * 0x4000000) (s.dramTop - d.first * 0x4000000))) ++
      ((List.range 32).filter (fun t => x.tiles.getLsbD t)).map (fun t => (storeBase t, 0xD00000)) ++
      (if s.funcQuiet x.func then [] else (s.win p).hosts.map (fun (h : URange) => (hostWindow + h.first, h.count)))).filterMap (clip r)

/-! ## Memory (R39, R183, R185) -/

/-- An undefined range covers an address. -/
def Junk.covers (j : Junk) (a : Nat) : Bool :=
  decide (j.base ≤ a) && decide (a < j.base + j.bytes)
/-- What is left of an undefined range without the `n` bytes from `a`. -/
def Junk.without (j : Junk) (a n : Nat) : List Junk :=
  if a < j.base + j.bytes ∧ j.base < a + n then
    [{ j with bytes := a - j.base }, { j with base := a + n, bytes := j.base + j.bytes - (a + n) }].filter (fun k => decide (0 < k.bytes))
  else [j]
/-- A byte of memory: a free value in an undefined range (log entry 3); what nothing has written reads as 0 (log entry 6). -/
def MemState.readByte (m : MemState) (a : Nat) : Byte :=
  match m.junk.find? (fun j => j.covers a) with
  | some j => Config.freeByte j.tag a
  | none => sget 0 m.bytes a
def State.readByte (s : State) (a : Nat) : Byte := s.mem.readByte a
/-- `n` bytes from `a`. -/
def State.readBytes (s : State) (a n : Nat) : List Byte := (List.range n).map (fun i => s.readByte (a + i))
/-- `n` bytes from `a` as a little-endian number. -/
def State.readNat (s : State) (a n : Nat) : Nat := leNat (s.readBytes a n)
def MemState.writeByte (m : MemState) (a : Nat) (b : Byte) : MemState :=
  { m with bytes := sset 0 m.bytes a b, junk := m.junk.flatMap (fun j => j.without a 1) }
def MemState.writeBytes (m : MemState) (a : Nat) : List Byte → MemState
  | [] => m
  | b :: r => (m.writeByte a b).writeBytes (a + 1) r
def MemState.poisoned (m : MemState) (line : Nat) : Bool := sget false m.poison line
def MemState.setPoison (m : MemState) (line : Nat) (v : Bool) : MemState := { m with poison := sset false m.poison line v }
/-- Store bytes line by line: a whole-line write clears poison; a byte-masked write to a line that `held` calls poisoned is not merged, and
no line that `skip` names is written; the answer says that one of these was met (R183, R210).  `fuel` counts lines. -/
def MemState.store (skip held : Nat → Bool) (fuel : Nat) (m : MemState) (a : Nat) (bs : List Byte) : MemState × Bool :=
  match fuel with
  | 0 => (m, false)
  | fuel + 1 =>
    match bs with
    | [] => (m, false)
    | _ :: _ =>
      let k := 64 - a % 64
      let chunk := bs.take k
      let line := a / 64
      let met := skip line || (decide (chunk.length ≠ 64) && held line)
      let m' := if met then m
                else if chunk.length = 64 then (m.writeBytes a chunk).setPoison line false else m.writeBytes a chunk
      let r := MemState.store skip held fuel m' (a + k) (bs.drop k)
      (r.1, met || r.2)

/-- `n` zero bytes from `a`, dropping listed bytes and poison of the range (zero writers and scrubs, R207). -/
def State.zero (s : State) (a n : Nat) : State :=
  { s with mem := { s.mem with
      bytes := s.mem.bytes.filter (fun e => !(decide (a ≤ e.1) && decide (e.1 < a + n)))
      junk := s.mem.junk.flatMap (fun j => j.without a n)
      poison := s.mem.poison.filter (fun e => !(decide (a ≤ 64 * e.1) && decide (64 * e.1 < a + n))) } }

/-- The bytes of an undefined range are free values from now on (log entry 3). -/
def State.undefine (s : State) (j : Junk) : State :=
  if j.bytes = 0 then s
  else { s with mem := { s.mem with bytes := s.mem.bytes.filter (fun e => !j.covers e.1), junk := { j with tag := s.free } :: s.mem.junk },
                free := s.free + 1 }
/-- Free bytes over a range: what the spec leaves undefined there (R115, R208, R379). -/
def State.freeBytes (s : State) (a n : Nat) : State := s.undefine { base := a, bytes := n, tag := 0 }

/-- A free value and the state that has taken it (log entry 3). -/
def State.takeFree (s : State) : DWord × State := (Config.freeWord s.free, { s with free := s.free + 1 })

/-! ## Faults, events and completions as other rows find them -/

/-- A source detects its fault; FAULT_RECORD makes the record (R427). -/
def State.raise (s : State) (f : FaultReq) : State := { s with faults := { s.faults with raised := s.faults.raised ++ [f] } }
/-- A class U bounds fault against partition p (R41, source 283 + p). -/
def State.boundsFault (s : State) (p addr : Nat) : State :=
  if p < 8 then s.raise { source := 283 + p, owner := p, addr := addr } else s
/-- A released occurrence of an event source (R417). -/
def State.occur (s : State) (src : Nat) : State := { s with reg := { s.reg with occurrences := s.reg.occurrences ++ [src] } }
/-- An occurrence when a level goes from not pending to pending. -/
def State.occurIf (s : State) (was now : Bool) (src : Nat) : State := if now && !was then s.occur src else s
/-- An occurrence that every posting is; while the collector sleeps only one of a source that becomes pending is kept (R417, R420). -/
def State.occurFrom (s : State) (was : Bool) (src : Nat) : State := if s.reg.sleeping && was then s else s.occur src
def State.pevt (s : State) (p : Nat) : BitVec 3 := sget 0 s.teller.pevt p
/-- Set bits of TLR_PEVTp (R304), with the occurrence of its event. -/
def State.setPevt (s : State) (p : Nat) (b : BitVec 3) : State :=
  ({ s with teller := { s.teller with pevt := sset 0 s.teller.pevt p (s.pevt p ||| b) } } : State).occurIf
    (s.pevt p != 0) ((s.pevt p ||| b) != 0) (1104 + p)
/-- A completion falls due (R375, R376). -/
def State.due (s : State) (c : Completion) : State := { s with host := { s.host with due := s.host.due ++ [c] } }

/-- Complete the command that origin `o` sent, with a status and results: a completion for a host command. -/
def State.answer (s : State) (f : Forwarded) (status : Nat) (r0 r1 : Nat) : State :=
  s.due { fn := f.fn, cid := f.cid, sq := f.sq, cq := (s.sq f.sq).bind, status := status,
          result0 := BitVec.ofNat 32 r0, result1 := BitVec.ofNat 32 r1 }

/-- The oldest forwarded command of submission queue q, where it is `op`. -/
def State.forwardedAt (s : State) (q op : Nat) : Option Forwarded :=
  match s.host.forwarded.find? (fun f => f.sq = q) with
  | some f => if f.opcode = op then some f else none
  | none => none
/-- The state without the oldest forwarded command of queue q. -/
def State.dropForwarded (s : State) (q : Nat) : State :=
  { s with host := { s.host with forwarded := s.host.forwarded.eraseP (fun f => f.sq = q) } }

/-- The commands that the Teller acts on (R279). -/
def tellerOp (op : Nat) : Bool := decide (0x20 ≤ op) && decide (op ≤ 0x28)
/-- The queue of partition p whose turn it is in the round robin of R280: of those whose oldest command is the Teller's, the
lowest from the one after the queue last served, else the lowest. -/
def State.turn (s : State) (p : Nat) : Option Nat :=
  let waits (q : Nat) : Bool := match s.host.forwarded.find? (fun f => f.sq = q) with
    | some f => tellerOp f.opcode
    | none => false
  let qs := ((s.host.forwarded.map (·.sq)).filter (fun q => s.sqPart q == p && waits q))
  match (qs.filter (fun q => decide (sget 0 s.teller.served p ≤ q))).min? with
  | some q => some q
  | none => qs.min?
/-- Queue q has been served. -/
def State.markServed (s : State) (q : Nat) : State := { s with teller := { s.teller with served := sset 0 s.teller.served (s.sqPart q) (q + 1) } }

/-- Act on the oldest forwarded command of queue q, which `op` names, while dispatch is not held (R301, R389) and, for the
Teller's commands, when it is the queue's turn; where there is none the row is not enabled (log entry 1). -/
def onForwarded (q op : Nat) (s : State) (k : Forwarded → State → State) : State :=
  if s.teller.held then s
  else match s.forwardedAt q op with
  | some f =>
    if tellerOp op then (if s.turn (s.sqPart q) = some q then k f ((s.dropForwarded q).markServed q) else s)
    else k f (s.dropForwarded q)
  | none => s

/-- Reserved bits of a command body (bytes 16-63 of the entry): body bytes from `b` on are not all zero. -/
def bodyReserved (f : Forwarded) (b : Nat) : Bool := !lzero f.body (b - 16) (64 - b)
/-- Bytes [b + n - 1 : b] of a submission entry. -/
def Forwarded.fld (f : Forwarded) (b n : Nat) : Nat := lfld f.body (b - 16) n

/-- Unfinished handles of an origin (R377, R378). -/
def State.openHandles (s : State) (o : Origin) : Nat :=
  (s.host.handles.filter (fun e => (e.2.state == .running || e.2.state == .suspended) && !e.2.forgotten &&
    (match e.2.origin, o with
     | .host f _ _, .host g _ _ => f == g
     | .peer n, .peer k => n == k
     | _, _ => false))).length

/-- Start a long operation: its handle, and the state that holds it (R378). -/
def State.newHandle (s : State) (o : OpRec) : Nat × State :=
  (s.host.nextHandle, { s with host := { s.host with nextHandle := s.host.nextHandle + 1,
                                                     handles := s.host.handles ++ [(s.host.nextHandle, o)] } })

/-- End a long operation: its state, and its FINAL completion where a host command began it (R378). -/
def State.endHandle (s : State) (h : Nat) (st : OpState) (status r1 : Nat) : State :=
  match s.op? h with
  | none => s
  | some o =>
    if o.state == .done || o.state == .cancelled then s
    else
      let s := s.setOp h { o with state := st, progress := if st == .done then 0xFFFF else o.progress }
      if o.forgotten then { s with host := { s.host with handles := s.host.handles.filter (fun e => e.1 ≠ h) } }
      else match o.origin with
      | .host f q c => s.due { fn := f, cid := c, sq := q, cq := o.cq, status := status, final := true,
                               result0 := BitVec.ofNat 32 h, result1 := BitVec.ofNat 32 r1, handle := h }
      | .peer _ => s

end Sys2Proof.Machine
end

