-- ==== Sys2Proof/Machine/Crypto.lean ====
section
/-! DEFINITION.  The functions of Ohmis's engines (R482): SM3 (GB/T 32905), SM4 (GB/T 32907) in GCM (NIST SP 800-38D), and SM2
(GB/T 32918) with its KDF, signature and key exchange.  The spec names the standards; what stands here is PRESUMED from them (log
entry 4).  Keys, signatures and points keep the standards' byte order, the first byte the most significant (R14). -/
namespace Sys2Proof.Machine
open Sys2Proof

/-- The number that bytes spell, most significant first. -/
def beNat (l : List Byte) : Nat := l.foldl (fun a b => a * 256 + b.toNat) 0
/-- A number as n bytes, most significant first. -/
def toBE (n v : Nat) : List Byte := (toLE n v).reverse
/-- Pieces of n bytes. -/
def pieces (n : Nat) : Nat → List Byte → List (List Byte)
  | 0, _ => []
  | f + 1, l => if l.isEmpty then [] else l.take n :: pieces n f (l.drop n)

/-! ## SM3 -/

def sm3P0 (x : Word) : Word := x ^^^ x.rotateLeft 9 ^^^ x.rotateLeft 17
def sm3P1 (x : Word) : Word := x ^^^ x.rotateLeft 15 ^^^ x.rotateLeft 23
/-- The next word of a message expansion, whose words so far stand last one first. -/
def sm3Next (w : List Word) : Word :=
  let g (k : Nat) : Word := w.getD k 0
  sm3P1 (g 15 ^^^ g 8 ^^^ (g 2).rotateLeft 15) ^^^ (g 12).rotateLeft 7 ^^^ g 5
def sm3Expand : Nat → List Word → List Word
  | 0, w => w
  | n + 1, w => sm3Expand n (sm3Next w :: w)
/-- The eight registers. -/
structure Sm3Regs where
  a : Word
  b : Word
  c : Word
  d : Word
  e : Word
  f : Word
  g : Word
  h : Word
  deriving DecidableEq, Repr
/-- Round j, on W_j and W'_j. -/
def sm3Round (v : Sm3Regs) (j : Nat) (w w' : Word) : Sm3Regs :=
  let t : Word := if j < 16 then 0x79CC4519 else 0x7A879D8A
  let ss1 := (v.a.rotateLeft 12 + v.e + t.rotateLeft (j % 32)).rotateLeft 7
  let ss2 := ss1 ^^^ v.a.rotateLeft 12
  let ff := if j < 16 then v.a ^^^ v.b ^^^ v.c else (v.a &&& v.b) ||| (v.a &&& v.c) ||| (v.b &&& v.c)
  let gg := if j < 16 then v.e ^^^ v.f ^^^ v.g else (v.e &&& v.f) ||| (~~~ v.e &&& v.g)
  { a := ff + v.d + ss2 + w', b := v.a, c := v.b.rotateLeft 9, d := v.c,
    e := sm3P0 (gg + v.h + ss1 + w), f := v.e, g := v.f.rotateLeft 19, h := v.g }
/-- The compression of one 64-byte block. -/
def sm3Block (v : Sm3Regs) (block : List Byte) : Sm3Regs :=
  let w := (sm3Expand 52 ((pieces 4 16 block).map (fun l => (BitVec.ofNat 32 (beNat l) : Word))).reverse).reverse
  let x := (List.range 64).foldl (fun x j => sm3Round x j (w.getD j 0) (w.getD j 0 ^^^ w.getD (j + 4) 0)) v
  { a := v.a ^^^ x.a, b := v.b ^^^ x.b, c := v.c ^^^ x.c, d := v.d ^^^ x.d, e := v.e ^^^ x.e, f := v.f ^^^ x.f, g := v.g ^^^ x.g,
    h := v.h ^^^ x.h }
def sm3Start : Sm3Regs :=
  { a := 0x7380166F, b := 0x4914B2B9, c := 0x172442D7, d := 0xDA8A0600, e := 0xA96F30BC, f := 0x163138AA, g := 0xE38DEE4D, h := 0xB0FB0E4E }
/-- SM3's 32 bytes of a message. -/
def sm3Bytes (m : List Byte) : List Byte :=
  let l := m ++ 0x80 :: List.replicate ((119 - m.length % 64) % 64) 0 ++ toBE 8 (8 * m.length)
  let v := (pieces 64 l.length l).foldl sm3Block sm3Start
  [v.a, v.b, v.c, v.d, v.e, v.f, v.g, v.h].flatMap (fun w => toBE 4 w.toNat)
/-- A digest as a number whose little-endian bytes are SM3's bytes in their order. -/
def sm3 (m : List Byte) : BitVec 256 := BitVec.ofNat 256 (beNat (sm3Bytes m).reverse)

/-- The trailer's digest of an image, a ware or a delta is SM3 of all that stands before the trailer's 96 bytes (R52, R496, R516). -/
def trailerHolds (b : List Byte) : Bool := sm3 (b.take (b.length - 96)) == BitVec.ofNat 256 (lfld b (b.length - 96) 32)

/-- The KDF of GB/T 32918: the first n bytes of SM3 over the input and a counter from 1. -/
def kdfBytes (z : List Byte) (n : Nat) : List Byte :=
  ((List.range ((n + 31) / 32)).flatMap (fun i => sm3Bytes (z ++ toBE 4 (i + 1)))).take n
/-- A job key (R491): K_sess, JOB little-endian, and the label, to 128 bits. -/
def kdf (k : BitVec 256) (job label : Nat) : BitVec 128 :=
  BitVec.ofNat 128 (beNat (kdfBytes (toBE 32 k.toNat ++ (toBE 8 job).reverse ++ [BitVec.ofNat 8 label]) 16))

/-! ## SM4 -/

/-- SM4's substitution, entry 0 in the most significant byte. -/
def sm4Table : Nat :=
  0xD690E9FECCE13DB716B614C228FB2C052B679A762ABE04C3AA441326498606999C4250F491EF987A33540B43EDCFAC62E4B31CA9C908E89580DF94FA758F3FA64707A7FCF37317BA83593C19E6854FA8686B81B27164DA8BF8EB0F4B70569D351E240E5E6358D1A225227C3B01217887D40046579FD327524C3602E7A0C4C89EEABF8AD240C738B5A3F7F2CEF96115A1E0AE5DA49B341A55AD933230F58CB1E31DF6E22E8266CA60C02923AB0D534E6FD5DB3745DEFD8E2F03FF6A726D6C5B518D1BAF92BBDDBC7F11D95C411F105AD80AC13188A5CD7BBD2D74D012B8E5B4B08969974A0C96777E65B9F109C56EC68418F07DEC3ADC4D2079EE5F3ED7CB3948
def sm4Sub (b : Nat) : Nat := sm4Table >>> (8 * (255 - b)) % 256
/-- The substitution on the four bytes of a word. -/
def sm4Tau (x : Word) : Word :=
  BitVec.ofNat 32 (((List.range 4).map (fun i => sm4Sub (x.toNat / 256 ^ i % 256) * 256 ^ i)).sum)
def sm4Line (x : Word) : Word := x ^^^ x.rotateLeft 2 ^^^ x.rotateLeft 10 ^^^ x.rotateLeft 18 ^^^ x.rotateLeft 24
def sm4KeyLine (x : Word) : Word := x ^^^ x.rotateLeft 13 ^^^ x.rotateLeft 23
/-- Constant i of the key schedule. -/
def sm4Ck (i : Nat) : Word := BitVec.ofNat 32 (((List.range 4).map (fun j => (4 * i + j) * 7 % 256 * 256 ^ (3 - j))).sum)
/-- The four words of a 128-bit value, the first the most significant. -/
def words4 (x : BitVec 128) : Word × Word × Word × Word :=
  (BitVec.ofNat 32 (x.toNat >>> 96), BitVec.ofNat 32 (x.toNat >>> 64), BitVec.ofNat 32 (x.toNat >>> 32), BitVec.ofNat 32 x.toNat)
/-- The 32 round keys. -/
def sm4Keys (k : BitVec 128) : List Word :=
  let m := words4 k
  ((List.range 32).foldl (fun (acc : List Word × (Word × Word × Word × Word)) i =>
    let x := acc.2
    let n := x.1 ^^^ sm4KeyLine (sm4Tau (x.2.1 ^^^ x.2.2.1 ^^^ x.2.2.2 ^^^ sm4Ck i))
    (acc.1 ++ [n], (x.2.1, x.2.2.1, x.2.2.2, n)))
    ([], (m.1 ^^^ 0xA3B1BAC6, m.2.1 ^^^ 0x56AA3350, m.2.2.1 ^^^ 0x677D9197, m.2.2.2 ^^^ 0xB27022DC))).1
/-- Encryption of one block under expanded keys. -/
def sm4Enc (ks : List Word) (b : BitVec 128) : BitVec 128 :=
  let x := ks.foldl (fun (x : Word × Word × Word × Word) k =>
    (x.2.1, x.2.2.1, x.2.2.2, x.1 ^^^ sm4Line (sm4Tau (x.2.1 ^^^ x.2.2.1 ^^^ x.2.2.2 ^^^ k)))) (words4 b)
  BitVec.ofNat 128 (x.2.2.2.toNat <<< 96 + x.2.2.1.toNat <<< 64 + x.2.1.toNat <<< 32 + x.1.toNat)

/-! ## GCM -/

/-- The product of the field of GHASH: bit 0 is the most significant. -/
def gcmMul (x y : Nat) : Nat :=
  ((List.range 128).foldl (fun (a : Nat × Nat) i =>
    (if x.testBit (127 - i) then a.1 ^^^ a.2 else a.1, if a.2 % 2 = 1 then a.2 / 2 ^^^ 0xE1 <<< 120 else a.2 / 2)) (0, y)).1
/-- Blocks of 16 bytes as numbers, the last filled up with zeros. -/
def gcmBlocks (l : List Byte) : List Nat := (pieces 16 l.length l).map (fun b => beNat (b ++ List.replicate (16 - b.length) 0))
/-- The counter block after n steps from a 12-byte nonce. -/
def gcmCtr (nonce : List Byte) (n : Nat) : BitVec 128 := BitVec.ofNat 128 (beNat ((nonce ++ List.replicate 12 0).take 12) * 2 ^ 32 + (n + 1) % 2 ^ 32)
/-- The keystream over data: ciphertext of plaintext, and plaintext of ciphertext (R492, R493, R501). -/
def gcmData (k : BitVec 128) (nonce data : List Byte) : List Byte :=
  let ks := sm4Keys k
  ((pieces 16 data.length data).zipIdx.flatMap (fun e =>
    (e.1.zip (toBE 16 (sm4Enc ks (gcmCtr nonce (e.2 + 1))).toNat)).map (fun b => b.1 ^^^ b.2)))
/-- The 16-byte tag over additional data and ciphertext. -/
def gcmTag (k : BitVec 128) (nonce aad cipher : List Byte) : List Byte :=
  let ks := sm4Keys k
  let h := (sm4Enc ks 0).toNat
  let g := (gcmBlocks aad ++ gcmBlocks cipher ++ [8 * aad.length * 2 ^ 64 + 8 * cipher.length]).foldl (fun y x => gcmMul (y ^^^ x) h) 0
  toBE 16 (g ^^^ (sm4Enc ks (gcmCtr nonce 0)).toNat)

/-! ## SM2 -/

def sm2P : Nat := 0xFFFFFFFEFFFFFFFFFFFFFFFFFFFFFFFFFFFFFFFF00000000FFFFFFFFFFFFFFFF
def sm2B : Nat := 0x28E9FA9E9D9F5E344D5A9E4BCF6509A7F39789F515AB8F92DDBCBD414D940E93
def sm2N : Nat := 0xFFFFFFFEFFFFFFFFFFFFFFFFFFFFFFFF7203DF6B21C6052B53BBF40939D54123
/-- A point of the curve, none for the point at infinity. -/
abbrev Point := Option (Nat × Nat)
def sm2G : Point := some (0x32C4AE2C1F1981195F9904466A39C9948FE30BBFF2660BE1715A4589334C74C7,
  0xBC3736A2F4F6779C59BDCEE36B692153D0A9877CC62A474002DF32E52139F0A0)
/-- A power modulo m, on fuel for the exponent's bits. -/
def powMod (m : Nat) : Nat → Nat → Nat → Nat
  | 0, _, _ => 1 % m
  | f + 1, b, e => let h := powMod m f (b * b % m) (e / 2); if e % 2 = 1 then h * b % m else h
/-- The inverse modulo a prime. -/
def invMod (m a : Nat) : Nat := powMod m 256 (a % m) (m - 2)
/-- The sum of two points. -/
def sm2Add (a b : Point) : Point :=
  match a, b with
  | none, q => q
  | q, none => q
  | some (x1, y1), some (x2, y2) =>
    if x1 = x2 ∧ (y1 + y2) % sm2P = 0 then none
    else
      let l := if x1 = x2 then (3 * x1 * x1 + (sm2P - 3)) * invMod sm2P (2 * y1) % sm2P
        else (y2 + sm2P - y1) * invMod sm2P (x2 + sm2P - x1) % sm2P
      let x3 := (l * l + 2 * sm2P - x1 - x2) % sm2P
      some (x3, (l * (x1 + sm2P - x3) + sm2P - y1) % sm2P)
/-- A multiple of a point, on fuel for the factor's bits. -/
def sm2MulF : Nat → Nat → Point → Point
  | 0, _, _ => none
  | f + 1, k, q => let r := sm2MulF f (k / 2) (sm2Add q q); if k % 2 = 1 then sm2Add r q else r
def sm2Mul (k : Nat) (q : Point) : Point := sm2MulF 256 (k % sm2N) q
/-- The 64 bytes of a point. -/
def pointBytes (q : Point) : List Byte := match q with
  | some (x, y) => toBE 32 x ++ toBE 32 y
  | none => List.replicate 64 0
/-- The point that 64 bytes spell, where they spell one of the curve. -/
def toPoint (l : List Byte) : Point :=
  let x := beNat (l.take 32)
  let y := beNat ((l.drop 32).take 32)
  if x < sm2P ∧ y < sm2P ∧ y * y % sm2P = (x * x * x + (sm2P - 3) * x + sm2B) % sm2P then some (x, y) else none
/-- Z of an identity and a public key's bytes. -/
def sm2Z (id key : List Byte) : List Byte :=
  sm3Bytes (toBE 2 (8 * id.length) ++ id ++ toBE 32 (sm2P - 3) ++ toBE 32 sm2B ++ pointBytes sm2G ++ key)
/-- The signature of a message under private key d, identity id and the random number k; the drawing again of a k that gives r = 0,
r + k = n or s = 0 is left to the TRNG. -/
def sm2Sign (d k : Nat) (id m : List Byte) : List Byte :=
  let e := beNat (sm3Bytes (sm2Z id (pointBytes (sm2Mul d sm2G)) ++ m))
  let x := match sm2Mul k sm2G with | some (x, _) => x | none => 0
  let r := (e + x) % sm2N
  let s := invMod sm2N (1 + d) * (k + sm2N * sm2N - r * d) % sm2N
  toBE 32 r ++ toBE 32 s

/-! ## The identity (R486, R487) -/

/-- The private identity key: the same at every firing that reconstructs the device key. -/
def identitySecret : Nat := Config.identityOf (Config.deviceKey Config.helperData) % (sm2N - 2) + 1
/-- The public identity key, as the number whose little-endian bytes are its 64 bytes. -/
def identityKey : BitVec 512 := BitVec.ofNat 512 (beNat (pointBytes (sm2Mul identitySecret sm2G)).reverse)
/-- The identity certificate in flash, at most 1 KiB. -/
def identityCert : List Byte := Config.certBytes.take 1024

/-! ## The key exchange (R490) -/

/-- x with its 127 low bits kept and bit 127 set. -/
def kexReduce (x : Nat) : Nat := 2 ^ 127 + x % 2 ^ 127
/-- What the module, the responder of a key exchange (R490), works out: its reply, R_B and S_B; the S_A that confirms; the agreed key. -/
structure Kex where
  reply : List Byte
  confirm : BitVec 256
  key : BitVec 256
  deriving DecidableEq, Repr
/-- Coordinates of a point; the point at infinity, which no number that the TRNG may draw gives, has none and counts as (0, 0). -/
def coords (q : Point) : Nat × Nat := q.getD (0, 0)
/-- The point that a tenant's static key and R_A give the exchange; none where either is no point of the curve, or their sum none. -/
def kexPoint (static ra : List Byte) : Point :=
  match toPoint static, toPoint ra with
  | some pa, some (x1, y1) => sm2Add (some pa) (sm2Mul (kexReduce x1) (some (x1, y1)))
  | _, _ => none
/-- The exchange of GB/T 32918.3 for the module's private key d, its identity BOUND_ID and its ephemeral number r, with the bytes of a
tenant's static key and R_A and the point q that they give.  The tenant's identity is SM3 of its key. -/
def sm2Kex (d r : Nat) (boundId static ra : List Byte) (q : Point) : Kex :=
  let rb := sm2Mul r sm2G
  let v := coords (sm2Mul ((d + kexReduce (coords rb).1 * r) % sm2N) q)
  let zs := sm2Z (sm3Bytes static) static ++ sm2Z boundId (pointBytes (sm2Mul d sm2G))
  let inner := sm3Bytes (toBE 32 v.1 ++ zs ++ ra ++ pointBytes rb)
  let tag (b : Byte) : List Byte := sm3Bytes (b :: toBE 32 v.2 ++ inner)
  { reply := pointBytes rb ++ tag 2, confirm := BitVec.ofNat 256 (beNat (tag 3).reverse),
    key := BitVec.ofNat 256 (beNat (kdfBytes (toBE 32 v.1 ++ toBE 32 v.2 ++ zs) 32)) }

end Sys2Proof.Machine
end

