-- ==== Sys2Proof/Machine/Access.lean ====
section
/-! DEFINITION.  Masters of register accesses (R392), refusals and the access log (R402, R411, R412), die windows
(R10, R42), and the levels of event sources that several families move (R413). -/
namespace Sys2Proof.Machine
open Sys2Proof

/-- Instance of the register-access block that a master's refusals are recorded in: functions 0-8, firmware 9, management 10. -/
def instOf : Master → Nat
  | .func f => f
  | .peer _ => 10
  | _ => 9
/-- The active Assay island (R392); in a switch-over gap its outputs are gated off (R447). -/
def State.isActive (s : State) (b : Bool) : Bool := !s.islands.noneActive && s.islands.gap.isNone && b == s.islands.activeB
/-- The mint as a master: its internal hardware and the Assay islands (R106); only the active island writes. -/
def State.isMint (s : State) (m : Master) : Bool :=
  match m with
  | .mint => true
  | .island b => s.isActive b
  | _ => false
/-- A write from the standby island is dropped (R392). -/
def State.isStandby (s : State) (m : Master) : Bool :=
  match m with
  | .island b => !s.isActive b
  | _ => false
def State.adminPeer (s : State) (n : Nat) : Bool := (s.mgmt n).opened && (s.mgmt n).admin
/-- Secure or privileged masters (R392, R394). -/
def State.privileged (s : State) (m : Master) : Bool :=
  match m with
  | .func f => f == 0
  | .peer n => s.adminPeer n
  | .island b => s.isActive b
  | .ohmis => true
  | .mint => true
def isPeer : Master → Bool
  | .peer _ => true
  | _ => false
def isFunc (f : Nat) : Master → Bool
  | .func g => f == g
  | _ => false

/-- Record an access in a view's MNT_REG_ERR (R411, R412). -/
def State.logAccess (s : State) (i addr cause : Nat) (write : Bool) : State :=
  let x := s.inst i
  let s' := s.setInst i { x with errAddr := addr, errCause := cause, errWrite := write,
                                 errCount := satAdd 2047 x.errCount 1, logged := true }
  if i ≤ 8 then s'.occurIf x.logged true (1130 + i) else s'

def causeUnimpl : Nat := 0x1
def causePriv : Nat := 0x2
def causePair : Nat := 0x3
def causeDual : Nat := 0x4
def causeBusy : Nat := 0x5
def causeSplit : Nat := 0x6
def causeRange : Nat := 0x7
def causeDie : Nat := 0x8
def causePoison : Nat := 0x9
def causeMse : Nat := 0xA
def causeDoorbell : Nat := 0xB

def State.reply (s : State) (r : AccessReply) : State := { s with reg := { s.reg with reply := r } }

/-- An access to an unimplemented or refused location (R402). -/
def State.refuse (s : State) (m : Master) (addr : Nat) (write : Bool) : State :=
  match m with
  | .func f => if write then (s.logAccess f addr causeUnimpl true).reply .dropped else s.reply .completerAbort
  | .island _ => if write && s.isStandby m then s.reply .dropped else (s.logAccess 9 addr causeUnimpl write).reply .busError
  | .peer _ => (s.logAccess 10 addr causeUnimpl write).reply .errorReply
  | .ohmis => s
  | .mint => s

/-- Blocks of the armed state of R395: no two blocks share 32 KiB of a window. -/
def addrBlock (a : Nat) : Nat := a / 0x8000
/-- A guard or dual write that fails: logged with its cause, and a class C fault (R394-R397). -/
def State.guardFail (s : State) (m : Master) (addr cause : Nat) : State := (s.logAccess (instOf m) addr cause true).raise { source := 299, addr := addr }
/-- A first dual write of the master in the block is interrupted by another write (R397). -/
def State.failDual (s : State) (m : Master) (block : Nat) : State :=
  match s.reg.dual.find? (fun a => a.master == m && a.block == block) with
  | some a => ({ s with reg := { s.reg with dual := s.reg.dual.filter (fun a => !(a.master == m && a.block == block)) } }).guardFail m a.addr causeDual
  | none => s

/-! ## Die windows (R10, R42) -/

/-- Dies: 0-3 K0-K3, 4-7 H0-H3, 8-9 V0-V1, 10 M. -/
def dieWindow (d : Nat) : Nat := 0xF000000000 + d * 0x10000000
/-- Address of a command-queue register of tile t (R141). -/
def tqAddr (t ofs : Nat) : Nat := dieWindow (t / 8) + 0x200000 + t % 8 * 0x1000 + ofs
def hearthAddr (h ofs : Nat) : Nat := dieWindow (4 + h) + 0x400000 + ofs

/-! ## Levels of event sources (R413) -/

/-- Tile t's completion event: the latch is set, and every such completion is an occurrence (R417). -/
def State.tileEvent (s : State) (t : Nat) : State :=
  ({ s with reg := { s.reg with latches := s.reg.latches ||| BitVec.ofNat 32 (2 ^ t) } } : State).occurFrom (s.reg.latches.getLsbD t) (1024 + t)
def Tile.numLevel (x : Tile) : Bool := x.numSticky &&& x.numEvmask != 0
/-- Replace a tile's numeric registers, with the occurrence of its event (R102). -/
def State.setNumeric (s : State) (t : Nat) (sticky mask : Word) : State :=
  let x := s.tile t
  let x' := { x with numSticky := sticky, numEvmask := mask }
  (s.setTile t x').occurIf x.numLevel x'.numLevel (1056 + t)
/-- Partition p's tally event level (R413, R414). -/
def State.tallyLevel (s : State) (p : Nat) : Bool :=
  (List.range 4).any (fun h => ((s.hearth h).ovf || (s.hearth h).broken) && (s.hearth h).contrib.getLsbD p)

/-- Record a refusal in OHM_ERR (R508): 0 WARE, 1 SEAL, 2 MGMT, 3 none of the bits. -/
def State.ohmErr (s : State) (kind code part : Nat) : State :=
  { s with sec := { s.sec with
      errWare := s.sec.errWare || kind == 0
      errSeal := s.sec.errSeal || kind == 1
      errMgmt := s.sec.errMgmt || kind == 2
      lastCode := code
      lastPart := part } }

end Sys2Proof.Machine
end

