-- ==== Sys2Proof/Machine/Coherence.lean ====
section
/-! DEFINITION.  Coherence (R190-R195, R209): homes and directory states, what ECC events do (R180, R184), the remote
caches, and the two operations through which every agent reads and writes memory with its poison (R183, R210, R211). -/
namespace Sys2Proof.Machine
open Sys2Proof

/-! ## Homes and directory states (R192) -/

/-- The home of a line: a vault for DRAM, the hearth of a store; none elsewhere. -/
inductive Home
  | vault (v chan : Nat)
  | hearth (h t : Nat)
  deriving DecidableEq, Repr

def State.home (s : State) (a : Nat) : Option Home :=
  match s.region a with
  | .dram => let c := s.channelOf a; some (.vault (c / 24) c)
  | .store t _ => some (.hearth (t / 8) t)
  | _ => none
def Home.die : Home → Nat
  | .vault v _ => 8 + v
  | .hearth h _ => 4 + h
/-- Partition holding an address's DRAM unit or store; 8 for none. -/
def State.addrPart (s : State) (a : Nat) : Nat :=
  match s.region a with
  | .dram => s.unitPart (a / 0x4000000)
  | .store t _ => s.tilePart t
  | _ => 8
/-- The home works in directory mode: every store home, and DRAM homes with inline ECC on (R194). -/
def State.directory (s : State) (h : Home) : Bool :=
  match h with
  | .vault _ _ => s.mem.ecc
  | .hearth _ _ => true

def State.dirOf (s : State) (line : Nat) : Nat := sget 0 s.mem.dir line
/-- The 16-bit check word of a line that no error has met: directory state and SEC-DED code (R179). -/
def State.checkWord (s : State) (line : Nat) : BitVec 16 :=
  BitVec.ofNat 16 (s.dirOf line % 32 + 32 * (Config.secDed (s.readBytes (line * 64) 64) (s.dirOf line)).toNat)
/-- Bits [4:0] are one of the three states. -/
def dirValid (d : Nat) : Bool := decide (d < 16) || (decide (d < 32) && d / 4 % 4 == 0)
def owned (d : Nat) : Bool := decide (16 ≤ d)
/-- Hearths that hold a copy under a directory state. -/
def holders (d : Nat) : List Nat := if owned d then [d % 4] else (List.range 4).filter (fun h => bit d h)

/-- Set a line's state, keeping the exports of its page (R195). -/
def State.setDir (s : State) (line d : Nat) : State :=
  let old := (holders (s.dirOf line)).length
  let new := (holders d).length
  let page := line / 64
  let ex := if 0xD000000000 ≤ line * 64 then
      sset 0 s.mem.exports page (sget 0 s.mem.exports page + new - old) else s.mem.exports
  { s with mem := { s.mem with dir := sset 0 s.mem.dir line d, exports := ex } }

/-! ## ECC events (R180, R183, R184) -/

/-- A line is poisoned for a cause of VLT_ECC_LAST, and counts where the vault counts it (R183, R215).  A hearth counts errors, not
poisoned lines (R213). -/
def State.poisonLine (s : State) (line cause : Nat) : State :=
  let s := { s with mem := s.mem.setPoison line true }
  match s.home (line * 64) with
  | some (.vault v c) =>
    let x := s.vault v
    s.setVault v { x with ueCount := satAdd (2 ^ 32 - 1) x.ueCount 1, lastAddr := line * 64, lastChan := c, lastCause := cause }
  | _ => s

/-- What a read of a line at its home meets: counts, poison and faults (R180).  ECC outcomes come with the rows that name
one; every other access of the model meets none (log entry 62). -/
def State.eccEvent (s : State) (line : Nat) (e : EccEvent) : State :=
  match s.home (line * 64), e with
  | _, .clean => s
  | none, _ => s
  | some (.vault v c), .corrected =>
    if !s.mem.ecc then s
    else
      let x := s.vault v
      (s.setVault v { x with ceCount := satAdd (2 ^ 32 - 1) x.ceCount 1 }).raise { source := 133 + c, addr := line * 64 }
  | some (.hearth h _), .corrected =>
    let x := s.hearth h
    (s.setHearth h { x with ceCount := satAdd (2 ^ 32 - 1) x.ceCount 1 }).raise { source := 68 + h, addr := line * 64 }
  | some (.vault _ c), .uncorrectable cw =>
    if !s.mem.ecc then s
    else (s.poisonLine line (b2n cw)).raise { source := 181 + c, owner := s.addrPart (line * 64), addr := line * 64 }
  | some (.hearth h _), .uncorrectable _ =>
    let x := s.hearth h
    ((s.setHearth h { x with ueCount := satAdd (2 ^ 32 - 1) x.ueCount 1 }).poisonLine line 0).raise { source := 72 + h, owner := s.addrPart (line * 64), addr := line * 64 }

/-! ## Remote caches (R190, R191) -/

def Hearth.line (h : Hearth) (line : Nat) : Option RcLine := sget none h.rc line
def Hearth.setLine (h : Hearth) (line : Nat) (v : Option RcLine) : Hearth := { h with rc := sset none h.rc line v }
/-- Ways of partition p at a hearth: first and count (R191). -/
def Hearth.wayRange (h : Hearth) (p : Nat) : Nat × Nat :=
  (2 * ((List.range p).map (fun q => sget 0 h.ways q)).sum, 2 * sget 0 h.ways p)
/-- Set of a line (log entry 12). -/
def rcSet (line : Nat) : Nat := line % 32768

/-- The home stores a dirty copy written back: a whole line, which clears its poison unless the copy itself is held poisoned (R183, R211). -/
def State.wroteBack (s : State) (line : Nat) (c : RcLine) : State :=
  if c.dirty && !c.poisoned then { s with mem := s.mem.setPoison line false } else s

/-- A hearth's copy leaves it: a dirty one is written back, a clean one sends its notice (R193). -/
def State.dropCopy (s : State) (h line : Nat) : State :=
  match (s.hearth h).line line with
  | none => s
  | some c =>
    let s := (s.setHearth h ((s.hearth h).setLine line none)).wroteBack line c
    let d := s.dirOf line
    if c.dirty then s.setDir line 0
    else if owned d then (if d % 4 = h then s.setDir line 0 else s)
    else s.setDir line (Nat.xor d (if bit d h then 2 ^ h else 0))

/-- Ways of a hearth that a partition's misses may use; none for the system tag. -/
def State.hasWays (s : State) (h p : Nat) : Bool := decide (p < 8) && decide (0 < ((s.hearth h).wayRange p).2)

/-- A hit: the line becomes the most recently used of its set (R191). -/
def State.hit (s : State) (h line : Nat) : State :=
  let x := s.hearth h
  match x.line line with
  | none => s
  | some c => s.setHearth h ({ x with rcClock := x.rcClock + 1 }.setLine line (some { c with used := x.rcClock + 1 }))

/-- Bring a line into a hearth's cache for partition p, replacing its own least recently used line where it must. -/
def State.fill (s : State) (h line p : Nat) (dirty poisoned : Bool) : State :=
  let x := s.hearth h
  let used := x.rcClock + 1
  let entry (w : Nat) : RcLine := { way := w, dirty := dirty, used := used, poisoned := poisoned,
                                    stale := if dirty then s.readBytes (line * 64) 64 else [] }
  match x.line line with
  | some c => s.setHearth h ({ x with rcClock := used }.setLine line (some { entry c.way with
      stale := if c.dirty then c.stale else (entry c.way).stale }))
  | none =>
    let (first, count) := x.wayRange p
    let inSet := x.rc.filterMap (fun e => match e.2 with
      | some c => if rcSet e.1 = rcSet line ∧ first ≤ c.way ∧ c.way < first + count then some (e.1, c) else none
      | none => none)
    match ((List.range count).map (fun i => first + i)).find? (fun w => inSet.all (fun e => e.2.way != w)) with
    | some w => s.setHearth h ({ x with rcClock := used }.setLine line (some (entry w)))
    | none =>
      match inSet.foldl (fun (m : Option (Nat × RcLine)) e => match m with
        | some k => if e.2.used < k.2.used then some e else m
        | none => some e) none with
      | none => s
      | some (vl, vc) =>
        let s := s.dropCopy h vl
        let x := s.hearth h
        s.setHearth h ({ x with rcClock := used }.setLine line (some (entry vc.way)))

/-- A recorded owner turns out not to hold the line (R209). -/
def State.lostOwner (s : State) (line o : Nat) : State :=
  (s.poisonLine line 2).raise { source := 80 + o, owner := s.addrPart (line * 64), addr := line * 64 }

/-- Hearth k answers what a home asks of it: it is ready and there is a route; otherwise the neighbouring port answers that the line is
not present (R210). -/
def State.hearthUp (s : State) (hm : Home) (k : Nat) : Bool := s.die (4 + k) == .ready && s.reach hm.die (4 + k)
/-- The copy of a line that hearth k gives a home on request (R210). -/
def State.answered (s : State) (hm : Home) (line k : Nat) : Option RcLine :=
  match (s.hearth k).line line with
  | some c => if s.hearthUp hm k then some c else none
  | none => none

/-- Recall a line from its owner: it is written back, and the owner keeps a clean copy or is invalidated (R193, R209). -/
def State.recall (s : State) (hm : Home) (line o : Nat) (keep : Bool) : State :=
  match s.answered hm line o with
  | some c =>
    let x := (s.hearth o).setLine line (if keep then some { c with dirty := false, stale := [] } else none)
    ((s.setHearth o x).wroteBack line c).setDir line (if keep then 2 ^ o else 0)
  | none => (s.lostOwner line o).setDir line 0

/-- The directory state to work from; an invalid one reads as SHARED by all and raises a class C fault (R192). -/
def State.dirRead (s : State) (line : Nat) (h : Home) : Nat × State :=
  let d := s.dirOf line
  if dirValid d then (d, s)
  else
    let src := match h with | .vault _ c => 133 + c | .hearth hh _ => 68 + hh
    (15, s.raise { source := src, addr := line * 64 })

/-- The copy of a line goes from every other hearth that answers: invalidation, a dirty one written back first (R193, R210). -/
def State.invalidateOthers (s : State) (hm : Home) (line h : Nat) : State :=
  (List.range 4).foldl (fun s k => if k = h || (s.answered hm line k).isNone then s else s.dropCopy k line) s

/-- Every other hearth is snooped for an owned copy (R194): what one that answers held dirty is written back (R210; log entry 88). -/
def State.snoop (s : State) (hm : Home) (line h : Nat) : State :=
  (List.range 4).foldl (fun s k =>
    if k = h then s
    else match s.answered hm line k with
      | some c => if c.dirty then (s.setHearth k ((s.hearth k).setLine line (some { c with dirty := false, stale := [] }))).wroteBack line c else s
      | none => s) s

/-- The home answers requests from die `from_`: it is ready and there is a route (R210). -/
def State.homeUpFor (s : State) (from_ : Nat) (hm : Home) : Bool := s.die hm.die == .ready && s.reach from_ hm.die

/-- A read miss of hearth h at the home, for partition p. -/
def readMiss (s : State) (h line p : Nat) (e : EccEvent) : State :=
  match s.home (line * 64) with
  | none => s
  | some hm =>
    if !s.homeUpFor (4 + h) hm then s.fill h line p false true   -- the neighbouring port answers with poison (R210)
    else
      let s := s.eccEvent line e
      if s.directory hm then
        let (d, s) := s.dirRead line hm
        let s := if owned d then (if d % 4 = h then (s.lostOwner line h).setDir line 0 else s.recall hm line (d % 4) true) else s
        let d' := if owned d then s.dirOf line else d
        (s.setDir line (d' ||| 2 ^ h)).fill h line p false (s.mem.poisoned line)
      else
        let s := s.snoop hm line h
        s.fill h line p false (s.mem.poisoned line)

/-- An ownership request of hearth h at the home, for partition p: a whole-line write fetches no data, a byte-masked one of a line that
the hearth does not hold fetches it first and meets its ECC outcome and its poison (R190); a copy held poisoned stays so until a whole-line
write (R211). -/
def ownershipRequest (s : State) (h line p : Nat) (whole : Bool) (e : EccEvent) : State :=
  match s.home (line * 64) with
  | none => s
  | some hm =>
    if !s.homeUpFor (4 + h) hm then s
    else
      let held := (s.hearth h).line line
      let s := if whole || held.isSome then s else s.eccEvent line e
      let s := if s.directory hm then
          let (d, s) := s.dirRead line hm
          let s := if owned d then
              (if d % 4 = h then (if ((s.hearth h).line line).isSome then s else s.lostOwner line h)
               else s.recall hm line (d % 4) false)
            else s
          (s.invalidateOthers hm line h).setDir line (16 + h)
        else s.invalidateOthers hm line h
      s.fill h line p true (!whole && match held with | some c => c.poisoned | none => s.mem.poisoned line)

/-- A home-side agent reads or writes a line (R193); a home that does not answer takes no part. -/
def homeSide (s : State) (line : Nat) (write : Bool) : State :=
  match s.home (line * 64) with
  | none => s
  | some hm =>
    if s.die hm.die != .ready then s
    else if s.directory hm then
      let (d, s) := s.dirRead line hm
      if write then
        let s := if owned d ∧ (s.answered hm line (d % 4)).isNone then s.lostOwner line (d % 4) else s
        (s.invalidateOthers hm line 4).setDir line 0
      else if owned d then s.recall hm line (d % 4) true else s.setDir line d
    else if write then s.invalidateOthers hm line 4
    else s.snoop hm line 4

/-- A line can be poisoned: with inline ECC off no DRAM line is (R185). -/
def State.poisonable (s : State) (line : Nat) : Bool :=
  match s.home (line * 64) with
  | some (.vault _ _) => s.mem.ecc
  | some (.hearth _ _) => true
  | none => false

/-- An error of a remote-cache line itself (R180): a corrected one counts; a clean line is dropped and fetched again; a dirty
one poisons the line at its home, or, where nothing is poisoned (R185), leaves its bytes to free values (log entry 88). -/
def rcError (s : State) (h line p : Nat) (e : EccEvent) : State :=
  match (s.hearth h).line line, e with
  | none, _ => s
  | some _, .clean => s.hit h line
  | some _, .corrected =>
    let x := s.hearth h
    ((s.setHearth h { x with ceCount := satAdd (2 ^ 32 - 1) x.ceCount 1 }).raise { source := 68 + h, addr := line * 64 }).hit h line
  | some c, .uncorrectable _ =>
    let x := s.hearth h
    let s := s.setHearth h { x with ueCount := satAdd (2 ^ 32 - 1) x.ueCount 1 }
    if c.dirty then
      let s := s.dropCopy h line
      (if s.poisonable line then s.poisonLine line 3 else s.freeBytes (line * 64) 64).raise { source := 72 + h, owner := p, addr := line * 64 }
    else (readMiss (s.dropCopy h line) h line p .clean).raise { source := 68 + h, addr := line * 64 }

/-- Lines that a hearth's cache may hold: DRAM, and stores of other hearths outside context areas (R190). -/
def State.cacheable (s : State) (h a : Nat) : Bool :=
  match s.region a with
  | .dram => true
  | .store t ctx => !ctx && t / 8 != h
  | _ => false

/-! ## Accesses of the agents (R183, R193, R207, R208, R210) -/

/-- Who reads or writes memory: a tile's command, its page DMA engine, an agent on a vault (wheel, ingest engine, ring writer,
BAR4), or the mint. -/
inductive Agent
  | tile (t : Nat)
  | engine (t : Nat)
  | vault (v : Nat)
  | mint
  deriving DecidableEq, Repr

/-- The die whose ports an agent's requests leave from. -/
def Agent.die : Agent → Nat
  | .tile t => 4 + t / 8
  | .engine t => 4 + t / 8
  | .vault v => 8 + v
  | .mint => 10
/-- The hearth whose remote cache an agent's own lines may be in, with its partition. -/
def State.cacheOf (s : State) : Agent → Option (Nat × Nat)
  | .tile t => if s.hasWays (t / 8) (s.tilePart t) then some (t / 8, s.tilePart t) else none
  | .engine t => if s.hasWays (t / 8) (s.tilePart t) then some (t / 8, s.tilePart t) else none
  | _ => none

/-- The die that answers an address does not, for requests from die d (R210): it is not ready, or no route is left. -/
def State.lost (s : State) (d a : Nat) : Bool :=
  match s.region a with
  | .dram => let v := 8 + s.channelOf a / 24; s.die v != .ready || !s.reach d v
  | .store t _ => s.die (4 + t / 8) != .ready || !s.reach d (4 + t / 8)
  | .host => s.die 8 != .ready || !s.reach d 8
  | _ => false
/-- Lines of a range. -/
def linesOf (a n : Nat) : List Nat := (List.range ((a % 64 + n + 63) / 64)).map (fun i => a / 64 + i)
/-- Some address of a range is not answered. -/
def State.meetsLost (s : State) (d a n : Nat) : Bool :=
  (List.range 6).any (fun i => s.die (4 + i) != .ready || !s.reach d (4 + i)) &&
    (List.range ((a % 4096 + n + 4095) / 4096)).any (fun i => s.lost d (a - a % 4096 + i * 4096))
/-- A line lies in a range. -/
def lineIn (a n line : Nat) : Bool := decide (0 < n) && decide (a / 64 ≤ line) && decide (line ≤ (a + n - 1) / 64)
/-- A line whose recorded owner does not give it: the first request for it finds it lost (R209, R210). -/
def State.ownerGone (s : State) (line : Nat) : Bool :=
  let d := s.dirOf line
  owned d && (match s.home (line * 64) with | some hm => (s.answered hm line (d % 4)).isNone | none => true)
/-- Another hearth gives back a dirty copy that is not poisoned, which clears the home's poison before the line is read (R183, R193). -/
def State.goodOwner (s : State) (line : Nat) : Bool :=
  match s.home (line * 64) with
  | some hm => (List.range 4).any (fun k => match s.answered hm line k with | some c => c.dirty && !c.poisoned | none => false)
  | none => false
/-- The copy of a line that the agent's own hearth holds for it. -/
def State.copyFor (s : State) (g : Agent) (line : Nat) : Option RcLine :=
  match s.cacheOf g with
  | some c => (s.hearth c.1).line line
  | none => none
/-- A line is poisoned as an agent sees it: in the copy its hearth holds, else at the home (R183, R211). -/
def State.seesPoison (s : State) (g : Agent) (line : Nat) : Bool :=
  match s.copyFor g line with
  | some c => c.poisoned
  | none => s.mem.poisoned line
/-- A hearth holds some line of a range poisoned (R211). -/
def Hearth.holdsPoison (x : Hearth) (a n : Nat) : Bool :=
  x.rc.any (fun e => lineIn a n e.1 && match e.2 with | some c => c.poisoned | none => false)
/-- What a read of a range by an agent meets: a poisoned line, one whose owner has lost it, a line its cache holds poisoned, or
a home that does not answer (R183, R209-R211). -/
def State.meetsPoison (s : State) (g : Agent) (a n : Nat) : Bool :=
  let away (l : Nat) : Bool := (s.copyFor g l).isNone
  decide (0 < n) && (s.mem.poison.any (fun e => lineIn a n e.1 && away e.1 && !s.goodOwner e.1) ||
    s.mem.dir.any (fun e => lineIn a n e.1 && away e.1 && s.ownerGone e.1) ||
    (match s.cacheOf g with | some c => (s.hearth c.1).holdsPoison a n | none => false) ||
    (s.meetsLost g.die a n && (linesOf a n).any (fun l => s.lost g.die (l * 64) && away l)))
/-- Lines of a range that some hearth may hold: those with a directory state or in a remote cache. -/
def State.listed (s : State) (a n : Nat) : List Nat :=
  ((s.mem.dir.map (·.1) ++ (List.range 4).flatMap (fun h => (s.hearth h).rc.map (·.1))).filter (lineIn a n)).dedup
/-- A home-side access to a range (R193). -/
def State.homeRange (s : State) (a n : Nat) (write : Bool) : State := (s.listed a n).foldl (fun s l => homeSide s l write) s

/-- Hearth h reads a line for a tile: a hit, or a miss at the home; lines it may not hold are read at the home. -/
def State.readLine (s : State) (h p line : Nat) : State :=
  if !s.cacheable h (line * 64) then homeSide s line false
  else if ((s.hearth h).line line).isSome then s.hit h line
  else readMiss s h line p .clean
/-- Hearth h writes a line for a tile or an engine: by ownership; lines it may not hold are written at the home.  A byte-masked write of a
copy held poisoned is not merged and asks for nothing (R183, R211). -/
def State.writeLine (s : State) (h p line : Nat) (whole : Bool) : State :=
  if !s.cacheable h (line * 64) then homeSide s line true
  else match (s.hearth h).line line with
  | some c =>
    let s := if c.dirty || (c.poisoned && !whole) then s.hit h line else ownershipRequest s h line p whole .clean
    if whole then match (s.hearth h).line line with
      | some c => s.setHearth h ((s.hearth h).setLine line (some { c with poisoned := false }))
      | none => s
    else s
  | none => ownershipRequest s h line p whole .clean

/-- What reading a range does to caches and directories.  An engine's reads do not allocate (R208). -/
def State.fetch (s : State) (g : Agent) (a n : Nat) : State :=
  match g, s.cacheOf g with
  | .tile _, some (h, p) => (linesOf a n).foldl (fun s l => s.readLine h p l) s
  | .engine t, _ => ((s.listed a n).filter (fun l => ((s.hearth (t / 8)).line l).isNone)).foldl (fun s l => homeSide s l false) s
  | _, _ => s.homeRange a n false
/-- Read all ranges of a list. -/
def State.fetchAll (s : State) (g : Agent) (l : List (Nat × Nat)) : State := l.foldl (fun s r => s.fetch g r.1 r.2) s
/-- What writing a range does to caches and directories, before the bytes are stored. -/
def State.claim (s : State) (g : Agent) (a n : Nat) : State :=
  match s.cacheOf g with
  | some (h, p) => (linesOf a n).foldl (fun s l =>
      if s.lost g.die (l * 64) then s else s.writeLine h p l (decide (a ≤ l * 64) && decide (l * 64 + 64 ≤ a + n))) s
  | none => s.homeRange a n true

/-- Agent g stores bytes at `a`; true when a byte-masked write met poison, or a line's home did not answer. -/
def State.store (s : State) (g : Agent) (a : Nat) (bs : List Byte) : State × Bool :=
  let s := s.claim g a bs.length
  let gone := s.meetsLost g.die a bs.length
  let r := MemState.store (fun l => gone && s.lost g.die (l * 64)) (s.seesPoison g) (bs.length / 64 + 2) s.mem a bs
  ({ s with mem := r.1 }, r.2)
/-- An agent's write under tag p, checked against its bounds as it is made (R41, R44): a failed check logs a bounds fault and writes
nothing; true where nothing, or not all, was written. -/
def State.guardStore (s : State) (g : Agent) (p a : Nat) (bs : List Byte) : State × Bool :=
  if s.bound p a bs.length ≠ .ok then (s.boundsFault p a, true) else s.store g a bs
/-- Store bytes, keeping only the state. -/
def State.put (s : State) (g : Agent) (a : Nat) (bs : List Byte) : State := (s.store g a bs).1

end Sys2Proof.Machine
end

