-- ==== Sys2Proof/Machine/Fp.lean ====
section
/-! DEFINITION.  Floating point: FP32, FP16, BF16 and the two FP8 formats (R79, R83, R152, R154, R161), computed
exactly on dyadic numbers and rounded once at the end.  EXP2 and LOG2 are correctly rounded from fixed-point series
(log entry 7). -/
namespace Sys2Proof.Machine
open Sys2Proof

/-- A floating-point format: exponent and fraction bits, bias, whether it has infinities. -/
structure FpFmt where
  ebits : Nat
  mbits : Nat
  bias : Nat
  hasInf : Bool
  deriving DecidableEq, Repr

def fp32 : FpFmt := ⟨8, 23, 127, true⟩
def fp16 : FpFmt := ⟨5, 10, 15, true⟩
def bf16 : FpFmt := ⟨8, 7, 127, true⟩
/-- OCP E4M3: no infinity, NaN S.1111.111 (R83). -/
def e4m3 : FpFmt := ⟨4, 3, 7, false⟩
def e5m2 : FpFmt := ⟨5, 2, 15, true⟩

/-- A value: NaN, an infinity, or sign, magnitude and power of two: (−1)^neg · m · 2^e. -/
inductive FV
  | nan
  | inf (neg : Bool)
  | fin (neg : Bool) (m : Nat) (e : Int)
  deriving DecidableEq, Repr

/-- Exponent of the least significant bit of the smallest numbers of a format. -/
def FpFmt.lsb (f : FpFmt) : Int := 1 - (f.bias : Int) - (f.mbits : Int)
/-- Encoding without sign of the largest finite value. -/
def FpFmt.maxFin (f : FpFmt) : Nat :=
  if f.hasInf then (2 ^ f.ebits - 1) * 2 ^ f.mbits - 1 else 2 ^ (f.ebits + f.mbits) - 2
def FpFmt.signBit (f : FpFmt) : Nat := 2 ^ (f.ebits + f.mbits)
/-- The canonical NaN: 0x7FC0_0000 in FP32, 0x7FC0 in BF16 (R152); quiet and positive in every format. -/
def FpFmt.nanBits (f : FpFmt) : Nat :=
  if f.hasInf then (2 ^ f.ebits - 1) * 2 ^ f.mbits + 2 ^ (f.mbits - 1) else 2 ^ (f.ebits + f.mbits) - 1
def FpFmt.infBits (f : FpFmt) : Nat := (2 ^ f.ebits - 1) * 2 ^ f.mbits

/-- The value that an encoding stands for. -/
def FpFmt.decode (f : FpFmt) (b : Nat) : FV :=
  let neg := b / f.signBit % 2 == 1
  let ex := b / 2 ^ f.mbits % 2 ^ f.ebits
  let fr := b % 2 ^ f.mbits
  if f.hasInf && ex == 2 ^ f.ebits - 1 then (if fr = 0 then .inf neg else .nan)
  else if !f.hasInf && ex == 2 ^ f.ebits - 1 && fr == 2 ^ f.mbits - 1 then .nan
  else if ex = 0 then .fin neg fr f.lsb
  else .fin neg (2 ^ f.mbits + fr) (f.lsb + (ex : Int) - 1)

/-- Rounding modes: R90, R152 and RND of R161. -/
inductive Rnd
  | rne | zero | up | down | away
  /-- Stochastic with a 24-bit draw. -/
  | stoch (draw : Nat)
  deriving DecidableEq, Repr

/-- Whether a remainder `rem` of `2^sh` parts rounds the magnitude `q` up. -/
def Rnd.roundsUp (r : Rnd) (neg : Bool) (q rem sh : Nat) : Bool :=
  match r with
  | .rne => decide (2 ^ sh < 2 * rem) || (decide (2 * rem = 2 ^ sh) && q % 2 == 1)
  | .zero => false
  | .up => !neg && decide (0 < rem)
  | .down => neg && decide (0 < rem)
  | .away => decide (2 ^ sh ≤ 2 * rem)
  | .stoch d => decide (0 < rem) && decide (2 ^ 24 ≤ rem * 2 ^ 24 / 2 ^ sh + d)

/-- Round m · 2^e to the format: the encoding without sign, which may lie above `maxFin`. -/
def FpFmt.roundMag (f : FpFmt) (r : Rnd) (neg : Bool) (m : Nat) (e : Int) : Nat :=
  if m = 0 then 0
  else
    let top : Int := (Nat.log2 m : Int) + e
    let u : Int := max f.lsb (top - (f.mbits : Int))
    if u ≤ e then ((u - f.lsb).toNat <<< f.mbits) + (m <<< (e - u).toNat)
    else
      let sh := (u - e).toNat
      let q := m >>> sh
      let rem := m % 2 ^ sh
      ((u - f.lsb).toNat <<< f.mbits) + q + b2n (r.roundsUp neg q rem sh)

/-- Encode a magnitude with its sign, an overflow becoming infinity (E4M3: NaN). -/
def FpFmt.pack (f : FpFmt) (neg : Bool) (mag : Nat) : Nat :=
  if f.maxFin < mag then (if f.hasInf then b2n neg * f.signBit + f.infBits else f.nanBits)
  else b2n neg * f.signBit + mag

/-- Round a value to the format. -/
def FpFmt.encode (f : FpFmt) (r : Rnd) (v : FV) : Nat :=
  match v with
  | .nan => f.nanBits
  | .inf neg => if f.hasInf then b2n neg * f.signBit + f.infBits else f.nanBits
  | .fin neg m e => f.pack neg (f.roundMag r neg m e)

/-- A signed integer scaled by 2^e as a value; zero is positive. -/
def FV.ofInt (i : Int) (e : Int) : FV := .fin (decide (i < 0)) i.natAbs e
/-- The signed significand of a finite value. -/
def FV.sig (neg : Bool) (m : Nat) : Int := if neg then -(m : Int) else (m : Int)

def FV.neg : FV → FV
  | .nan => .nan
  | .inf n => .inf (!n)
  | .fin n m e => .fin (!n) m e

/-- Exact sum; a zero sum of non-zero numbers or of opposite zeros is +0 (roundTiesToEven). -/
def FV.add (a b : FV) : FV :=
  match a, b with
  | .nan, _ => .nan
  | _, .nan => .nan
  | .inf x, .inf y => if x = y then .inf x else .nan
  | .inf x, .fin _ _ _ => .inf x
  | .fin _ _ _, .inf y => .inf y
  | .fin x m e, .fin y n g =>
    let u := min e g
    let i := FV.sig x m * 2 ^ (e - u).toNat + FV.sig y n * 2 ^ (g - u).toNat
    if i = 0 then .fin (x && y) 0 u else FV.ofInt i u

/-- Exact product. -/
def FV.mul (a b : FV) : FV :=
  match a, b with
  | .nan, _ => .nan
  | _, .nan => .nan
  | .inf x, .inf y => .inf (x != y)
  | .inf x, .fin y n _ => if n = 0 then .nan else .inf (x != y)
  | .fin x m _, .inf y => if m = 0 then .nan else .inf (x != y)
  | .fin x m e, .fin y n g => .fin (x != y) (m * n) (e + g)

/-- Order of two values that are not NaN: negative, zero or positive as a is below, equal to or above b. -/
def FV.cmp (a b : FV) : Int :=
  match a, b with
  | .inf x, .inf y => if x = y then 0 else if x then -1 else 1
  | .inf x, _ => if x then -1 else 1
  | _, .inf y => if y then 1 else -1
  | .fin x m e, .fin y n g =>
    let u := min e g
    let d := FV.sig x m * 2 ^ (e - u).toNat - FV.sig y n * 2 ^ (g - u).toNat
    if d < 0 then -1 else if d = 0 then 0 else 1
  | _, _ => 0

def FV.isNan : FV → Bool
  | .nan => true
  | _ => false
def FV.isZero : FV → Bool
  | .fin _ m _ => m == 0
  | _ => false
def FV.isNeg : FV → Bool
  | .nan => false
  | .inf n => n
  | .fin n _ _ => n
def FV.lt (a b : FV) : Bool := !a.isNan && !b.isNan && decide (FV.cmp a b < 0)
def FV.le (a b : FV) : Bool := !a.isNan && !b.isNan && decide (FV.cmp a b ≤ 0)
def FV.eq (a b : FV) : Bool := !a.isNan && !b.isNan && decide (FV.cmp a b = 0)

/-- MAX and MIN: NaN if either is; −0 below +0 (R152). -/
def FV.max (a b : FV) : FV :=
  if a.isNan || b.isNan then .nan
  else if a.isZero && b.isZero then (if a.isNeg then b else a)
  else if FV.lt a b then b else a
def FV.min (a b : FV) : FV :=
  if a.isNan || b.isNan then .nan
  else if a.isZero && b.isZero then (if a.isNeg then a else b)
  else if FV.lt b a then b else a

/-! ## Functions (R154) -/

/-- Integer square root, one bit a step from bit `k` down. -/
def isqrtFrom (n : Nat) (k : Nat) (r : Nat) : Nat :=
  match k with
  | 0 => r
  | k + 1 => let r' := r + 2 ^ k; isqrtFrom n k (if r' * r' ≤ n then r' else r)
def isqrt (n : Nat) : Nat := isqrtFrom n (Nat.log2 n / 2 + 1) 0

/-- m · 2^e with something non-zero below it. -/
def stickyFin (neg : Bool) (m : Nat) (e : Int) (more : Bool) : FV := .fin neg (2 * m + b2n more) (e - 1)

/-- 1 / v as a value that rounds correctly: 64 quotient bits and a sticky bit. -/
def FV.rcp : FV → FV
  | .nan => .nan
  | .inf n => .fin n 0 0
  | .fin n m e =>
    if m = 0 then .inf n
    else
      let k := Nat.log2 m + 64
      stickyFin n (2 ^ k / m) (-e - (k : Int)) (2 ^ k % m != 0)

/-- 1 / √v. -/
def FV.rsqrt : FV → FV
  | .nan => .nan
  | .inf n => if n then .nan else .fin false 0 0
  | .fin n m e =>
    if m = 0 then .inf n
    else if n then .nan
    else
      let m' := if e % 2 = 0 then m else 2 * m
      let e' := if e % 2 = 0 then e else e - 1
      let k := Nat.log2 m' + 64
      let r := isqrt (2 ^ (2 * k) / m')
      stickyFin false r (-(e' / 2) - (k : Int)) (r * r * m' != 2 ^ (2 * k))

/-- Working precision of the series, in fraction bits. -/
def fixP : Nat := 200

/-- Σ z^(2k+1) / (2k+1) from term k on, with z and z² in fixed point. -/
def atanhFrom (fuel k p z2 acc : Nat) : Nat :=
  match fuel with
  | 0 => acc
  | fuel + 1 => atanhFrom fuel (k + 1) (p * z2 / 2 ^ fixP) z2 (acc + p / (2 * k + 1))
/-- 2 · atanh (num / den) in fixed point, for num / den at most 1/3. -/
def twoAtanh (num den : Nat) : Nat :=
  let z := num * 2 ^ fixP / den
  2 * atanhFrom 130 0 z (z * z / 2 ^ fixP) 0
/-- ln 2 in fixed point. -/
def ln2Fix : Nat := twoAtanh 1 3
/-- Σ y^k / k! in fixed point. -/
def expFrom (fuel k term y acc : Nat) : Nat :=
  match fuel with
  | 0 => acc
  | fuel + 1 => expFrom fuel (k + 1) (term * y / 2 ^ fixP / k) y (acc + term)
/-- 2^f in fixed point for a fixed-point f below 1. -/
def exp2Frac (f : Nat) : Nat := expFrom 70 1 (2 ^ fixP) (f * ln2Fix / 2 ^ fixP) 0

/-- 2^v. -/
def FV.exp2 : FV → FV
  | .nan => .nan
  | .inf n => if n then .fin false 0 0 else .inf false
  | .fin n m e =>
    if m = 0 then .fin false 1 0
    else if 9 < (Nat.log2 m : Int) + e then (if n then .fin false 0 0 else .inf false)
    else
      -- v = i + f / 2^P, with f's dropped bits as sticky
      let x : Int := FV.sig n m
      let exact := decide (0 ≤ e)
      let i : Int := if 0 ≤ e then x * 2 ^ e.toNat else x / 2 ^ (-e).toNat
      let fr : Nat := if 0 ≤ e then 0 else (x % 2 ^ (-e).toNat).toNat
      if exact || fr = 0 then .fin false 1 i
      else stickyFin false (exp2Frac (fr * 2 ^ fixP / 2 ^ (-e).toNat)) (i - (fixP : Int)) true

/-- log2 v. -/
def FV.log2 : FV → FV
  | .nan => .nan
  | .inf n => if n then .nan else .inf false
  | .fin n m e =>
    if m = 0 then .inf true
    else if n then .nan
    else
      let k := Nat.log2 m
      let ex : Int := (k : Int) + e
      if m = 2 ^ k then FV.ofInt ex 0
      else
        -- mantissa m / 2^k in [1, 2); above √2 take half of it and one more in the exponent
        let hi := decide (2 * 2 ^ (2 * k) < m * m)
        let one := if hi then 2 ^ (k + 1) else 2 ^ k
        let ex := if hi then ex + 1 else ex
        let low := decide (m < one)
        let lnm := twoAtanh (if low then one - m else m - one) (m + one)
        let l2 : Nat := lnm * 2 ^ fixP / ln2Fix
        let tot : Int := ex * 2 ^ fixP + (if low then -(l2 : Int) else (l2 : Int))
        match FV.ofInt tot (-(fixP : Int)) with
        | .fin ng mm ee => stickyFin ng mm ee true
        | v => v

/-! ## FP32 operations on encodings -/

def f32 (w : Word) : FV := fp32.decode w.toNat
def toF32 (v : FV) : Word := BitVec.ofNat 32 (fp32.encode .rne v)
def fadd (a b : Word) : Word := toF32 ((f32 a).add (f32 b))
def fsub (a b : Word) : Word := toF32 ((f32 a).add (f32 b).neg)
def fmul (a b : Word) : Word := toF32 ((f32 a).mul (f32 b))
def ffma (a b c : Word) : Word := toF32 (((f32 a).mul (f32 b)).add (f32 c))
def fexp2 (a : Word) : Word := toF32 (f32 a).exp2
def flog2 (a : Word) : Word := toF32 (f32 a).log2
def frcp (a : Word) : Word := toF32 (f32 a).rcp
def fmax (a b : Word) : Word := toF32 ((f32 a).max (f32 b))
def flt (a b : Word) : Bool := (f32 a).lt (f32 b)
def fle (a b : Word) : Bool := (f32 a).le (f32 b)
def feq (a b : Word) : Bool := (f32 a).eq (f32 b)
/-- A quotient rounded once (R231, R237). -/
def fdivV (a b : FV) : FV :=
  match a, b with
  | .nan, _ => .nan
  | _, .nan => .nan
  | .inf _, .inf _ => .nan
  | .inf x, .fin y _ _ => .inf (x != y)
  | .fin x _ _, .inf y => .fin (x != y) 0 0
  | .fin x m e, .fin y n g =>
    if n = 0 then (if m = 0 then .nan else .inf (x != y))
    else
      let k := Nat.log2 n + 64
      stickyFin (x != y) (m * 2 ^ k / n) (e - g - (k : Int)) (m * 2 ^ k % n != 0)
def fdiv (a b : Word) : Word := toF32 (fdivV (f32 a) (f32 b))

/-- Largest integer at or below a value (FLOOR); NaN, infinities and zeros stand. -/
def FV.floor : FV → FV
  | .fin n m e =>
    if 0 ≤ e then .fin n m e
    else
      let i : Int := FV.sig n m / 2 ^ (-e).toNat
      if i = 0 then .fin n 0 0 else FV.ofInt i 0
  | v => v

/-- Round a value to an integer under a mode; none for NaN and infinities. -/
def FV.toInt (r : Rnd) : FV → Option Int
  | .fin n m e =>
    if 0 ≤ e then some (FV.sig n m * 2 ^ e.toNat)
    else
      let sh := (-e).toNat
      let q := m >>> sh
      let q' := q + b2n (r.roundsUp n q (m % 2 ^ sh) sh)
      some (FV.sig n q')
  | _ => none

/-- The counter-based generator g (R164), rounds `r` to 9. -/
def genFrom (fuel r x0 x1 k0 k1 : Nat) : Nat :=
  match fuel with
  | 0 => x0
  | fuel + 1 =>
    let p := x0 * 0xC5A308E9
    let kr := ((if r % 2 = 1 then k1 else k0) + r * 0x9E3779B9) % 2 ^ 32
    genFrom fuel (r + 1) (Nat.xor (Nat.xor (p / 2 ^ 32 % 2 ^ 32) x1) kr) (p % 2 ^ 32) k0 k1
def gen (k x : Nat) : Nat :=
  genFrom 10 0 (x % 2 ^ 32) (x / 2 ^ 32 % 2 ^ 32) (k % 2 ^ 32) (k / 2 ^ 32 % 2 ^ 32)
/-- A 24-bit draw. -/
def draw24 (k x : Nat) : Nat := gen k x / 256

end Sys2Proof.Machine
end

