-- ==== Sys2Proof/Machine/Check.lean ====
section
/-! DEFINITION.  What the tile commands share: the descriptor header (R109), the ordered check of R113 and its
status codes (R114), operand formats (R79, R80), and how a command's outputs end when it fails (R115). -/
namespace Sys2Proof.Machine
open Sys2Proof

/-! ## Header fields (R109) -/

def dOp (d : BitVec 512) : Nat := dfld d 0 1
def dCpl (d : BitVec 512) : Bool := dbits d 1 0 1 == 1
def dEvt (d : BitVec 512) : Bool := dbits d 1 1 1 == 1
def dAsync (d : BitVec 512) : Bool := dbits d 1 2 1 == 1
def dTag (d : BitVec 512) : Nat := dfld d 4 4
def dTally (d : BitVec 512) : Nat := dbits d 8 0 14
def dDoneEn (d : BitVec 512) : Bool := dbits d 9 7 1 == 1
def dAdd (d : BitVec 512) : Nat := dfld d 10 2
def dUser (d : BitVec 512) : Nat := dfld d 12 4
/-- A 48-bit device address field (R111). -/
def dAddr (d : BitVec 512) (b : Nat) : Nat := dfld d b 6

/-! ## Status codes (R114) -/

def stOk : Nat := 0x00
def stOpcode : Nat := 0x01
def stReserved : Nat := 0x02
def stFormat : Nat := 0x03
def stRange : Nat := 0x04
def stLimit : Nat := 0x05
def stAlign : Nat := 0x06
def stTally : Nat := 0x07
def stAddress : Nat := 0x08
def stContext : Nat := 0x09
def stMismatch : Nat := 0x0A
def stTimeout : Nat := 0x0B
def stAbandoned : Nat := 0x0C
def stPoison : Nat := 0x0D
def stProgram : Nat := 0x0E
def stHw : Nat := 0x0F

/-! ## The check of R113 -/

/-- What a descriptor's own table makes of it: each Bool says that the check fails. -/
structure Checks where
  reserved : Bool := false
  format : Bool := false
  range : Bool := false
  limit : Bool := false
  /-- Address fields that must be multiples of 64. -/
  aligns : List Nat := []
  tallies : List Nat := []
  /-- Ranges the command reads and writes: address and bytes. -/
  ins : List (Nat × Nat) := []
  outs : List (Nat × Nat) := []
  deriving DecidableEq, Repr

/-- Two ranges share a byte. -/
def overlaps (x y : Nat × Nat) : Bool :=
  decide (0 < x.2) && decide (0 < y.2) && decide (x.1 < y.1 + y.2) && decide (y.1 < x.1 + x.2)
/-- Some range of one list meets some range of another. -/
def anyOverlap (xs ys : List (Nat × Nat)) : Bool := xs.any (fun x => ys.any (overlaps x))

/-- Checks of the header itself (R109). -/
def headerReserved (d : BitVec 512) : Bool := dbits d 1 3 5 != 0 || dfld d 2 2 != 0 || dbits d 9 6 1 != 0
def headerRange (d : BitVec 512) : Bool :=
  (dAsync d && dOp d != 0x06 && dOp d != 0x07) || (dDoneEn d && dAdd d == 0)

/-- The first range that fails R44, by its address. -/
def firstBad (s : State) (p : Nat) (b : Bound) (l : List (Nat × Nat)) : Option Nat :=
  (l.find? (fun r => s.bound p r.1 r.2 == b)).map (·.1)

/-- The status of the first check that fails, in the order of R113, and the address an ADDRESS refusal reports. -/
def Checks.verdict (c : Checks) (s : State) (p : Nat) : Nat × Nat :=
  if c.reserved then (stReserved, 0)
  else if c.format then (stFormat, 0)
  else if c.range then (stRange, 0)
  else if c.limit then (stLimit, 0)
  else if c.aligns.any (fun a => a % 64 != 0) then (stAlign, 0)
  else if p != 8 && c.tallies.any (fun n => s.tallyPart n != p) then (stTally, 0)
  else match firstBad s p .address (c.ins ++ c.outs) with
  | some a => (stAddress, a)
  | none => match firstBad s p .context (c.ins ++ c.outs) with
    | some a => (stContext, a)
    | none => (stOk, 0)

/-! ## Ends of a command -/

/-- What running a command gave. -/
structure Done where
  s : State
  status : Nat := 0
  numeric : Nat := 0
  opflags : Nat := 0
  result : Nat := 0
  /-- Ranges that a VEC_RUN stored to (R115, R160). -/
  outs : List (Nat × Nat) := []

/-- A command that fails after starting: every output range it names is undefined (R115).  Its NUMERIC and OPFLAGS are 0 and
nothing joins KLN_NUM_STICKY: the spec does not say that flags gathered so far are reported (DESIGN CHOICE, log entry 63). -/
def failed (s : State) (outs : List (Nat × Nat)) (st : Nat) : Done :=
  { s := outs.foldl (fun s r => s.freeBytes r.1 r.2) s, status := st }

/-- Run a body on the state in which an agent has read the command's inputs, unless one of them meets poison (R183). -/
def reading (s : State) (g : Agent) (c : Checks) (k : State → Done) : Done :=
  let s := s.fetchAll g c.ins
  if c.ins.any (fun r => s.meetsPoison g r.1 r.2) then failed s c.outs stPoison else k s

/-- Write rows of bytes, each at its address; true where a byte-masked write met poison or a home did not answer. -/
def writeRows (s : State) (g : Agent) : List (Nat × List Byte) → State × Bool
  | [] => (s, false)
  | (a, bs) :: r =>
    let x := s.store g a bs
    let y := writeRows x.1 g r
    (y.1, x.2 || y.2)

/-- Finish with writes: OK, or POISON with the outputs undefined. -/
def finishRows (s : State) (g : Agent) (c : Checks) (rows : List (Nat × List Byte)) (numeric opflags result : Nat) : Done :=
  let x := writeRows s g rows
  if x.2 then failed x.1 c.outs stPoison
  else { s := x.1, numeric := numeric, opflags := opflags, result := result }

/-- What a command that writes piece by piece produces: its pieces in order, the status and address of the failure that ends it
after them, and its counts. -/
structure Pieces where
  rows : List (Nat × List Byte)
  fail : Option (Nat × Nat) := none
  numeric : Nat := 0
  opflags : Nat := 0
  result : Nat := 0

/-- Write pieces in order and stop at one that meets poison: the state, bytes written, and whether it stopped. -/
def piecesWrite (s : State) (g : Agent) : List (Nat × List Byte) → Nat → State × Nat × Bool
  | [], n => (s, n, false)
  | (a, bs) :: r, n =>
    let x := s.store g a bs
    if x.2 then (x.1, n, true) else piecesWrite x.1 g r (n + bs.length)

/-- Bytes `n` on of a list of ranges. -/
def rangesFrom : List (Nat × Nat) → Nat → List (Nat × Nat)
  | [], _ => []
  | (a, l) :: r, n => if l ≤ n then rangesFrom r (n - l) else (a + n, l - n) :: rangesFrom r 0

/-- Write the pieces that a command's work has not written yet and end it: bytes already written stay, the rest of its outputs
is undefined after a failure (R208, R245, R272). -/
def Pieces.run (z : Pieces) (s : State) (g : Agent) (p : Nat) (outs : List (Nat × Nat)) (done : Nat) : Done :=
  let w := piecesWrite s g (z.rows.drop done) ((z.rows.take done).map (fun r => r.2.length)).sum
  let stop : Option (Nat × Nat) := if w.2.2 then some (stPoison, 0) else z.fail
  match stop with
  | none => { s := w.1, numeric := z.numeric, opflags := z.opflags, result := z.result }
  | some (st, a) =>
    let f := failed w.1 (rangesFrom outs w.2.1) st
    if st = stAddress then { f with s := f.s.boundsFault p a } else f

/-- One yield unit of a command that writes piece by piece: its next piece; none where the command would end in it, which is after its last piece
where it fails and in it where it does not. -/
def pieceUnit (s : State) (g : Agent) (rows : List (Nat × List Byte)) (fails : Bool) (w : Work) : Option (State × Work) :=
  if rows.length + b2n fails ≤ w.row + 1 then none
  else match rows[w.row]? with
  | none => none
  | some r => let x := s.store g r.1 r.2; if x.2 then none else some (x.1, { w with row := w.row + 1 })

/-- SAMPLE and the vision commands leave v0-v63, the tables and lane scratch undefined (R170, R239), and issue vector
instructions whose number the spec does not state (R174): free values (log entry 3). -/
def State.vecUsed (s : State) (t : Nat) (d : BitVec 512) : State :=
  let x := s.tile t
  { (s.setTile t { x with
      vec := { scalars := x.vec.scalars, pc := x.vec.pc, sweep := x.vec.sweep, width := x.vec.width, undef := some s.free }
      vecIssue := x.vecIssue + Config.busyCycles s.free d }) with free := s.free + 1 }

/-! ## Formats (R79, R80) -/

/-- Bits of an element of a format code; 0 for a code that names none. -/
def fmtWidth (c : Nat) : Nat :=
  match c with
  | 0x0 => 2 | 0x1 => 4 | 0x2 => 8 | 0x3 => 16 | 0x5 => 4 | 0x6 => 8 | 0x7 => 16
  | 0x8 => 8 | 0x9 => 8 | 0xA => 16 | 0xB => 16 | 0xC => 32 | 0xD => 32 | 0xE => 160 | _ => 0
/-- The floating-point format of a code. -/
def fmtFloat (c : Nat) : Option FpFmt :=
  match c with
  | 0x8 => some e4m3 | 0x9 => some e5m2 | 0xA => some fp16 | 0xB => some bf16 | 0xC => some fp32 | _ => none

/-- Bytes that n packed elements of w bits take. -/
def packedBytes (w n : Nat) : Nat := (w * n + 7) / 8
/-- A row of n elements of w bits, padded to a multiple of 64 bytes (R118, R216). -/
def rowPitch (w n : Nat) : Nat := roundUp (packedBytes w n) 64

/-- Element k of a packed row at `a` (R80). -/
def State.elem (s : State) (a w k : Nat) : Nat :=
  if w < 8 then (s.readByte (a + w * k / 8)).toNat / 2 ^ (w * k % 8) % 2 ^ w
  else s.readNat (a + w * k / 8) (w / 8)
/-- The same element as a two's-complement integer. -/
def State.elemInt (s : State) (a w k : Nat) : Int := signed w (s.elem a w k)

/-- Pack elements of w bits, zero elements filling the last byte. -/
def packElems (w : Nat) (l : List Nat) : List Byte :=
  if w < 8 then
    (List.range (packedBytes w l.length)).map (fun i =>
      BitVec.ofNat 8 (((List.range (8 / w)).map (fun j => ((l[i * (8 / w) + j]?).getD 0) % 2 ^ w * 2 ^ (w * j))).sum))
  else l.flatMap (fun v => toLE (w / 8) v)
/-- Bytes padded with zeros to n. -/
def padTo (n : Nat) (l : List Byte) : List Byte := l ++ List.replicate (n - l.length) 0
/-- Saturate an integer to n bits of two's complement. -/
def clampInt (n : Nat) (i : Int) : Int := max (-(2 ^ (n - 1) : Nat)) (min i ((2 ^ (n - 1) : Nat) - 1))

end Sys2Proof.Machine
end

