-- ==== Sys2Proof/Machine/Slab.lean ====
section
/-! DEFINITION.  Slab arithmetic: operands (R79-R82), ingest conversion (R83, R84), integer accumulation (R85), block
chunks and the long accumulator (R86-R90), SLAB_LOAD, SLAB_MATMUL (R119, R120) and SLAB_CONV (R121, R216-R225). -/
namespace Sys2Proof.Machine
open Sys2Proof

/-! ## NUMERIC flags (R99) -/

def nSat : Nat := 0x01
def nLongOvf : Nat := 0x02
def nNanOut : Nat := 0x04
def nInf : Nat := 0x08
def nLowLoss : Nat := 0x10
def nIngestLoss : Nat := 0x20
def nIngestSpecial : Nat := 0x40
def flag (b : Bool) (n : Nat) : Nat := if b then n else 0

/-! ## Operands -/

/-- A slab operand: integer or block, its width, and the source an ingest converter reads (R82). -/
structure Operand where
  blk : Bool
  w : Nat
  src : Option FpFmt := none
  /-- Bits of a stored element. -/
  sw : Nat
  deriving DecidableEq, Repr

/-- The operand that a format code and a target field name, where R79 and R82 allow one. -/
def operand (fmt tgt : Nat) : Option Operand :=
  let conv (f : FpFmt) (ts : List Nat) : Option Operand :=
    if ts.contains tgt then some { blk := true, w := 2 ^ (tgt + 1), src := some f, sw := fmtWidth fmt } else none
  match fmt with
  | 0x0 | 0x1 | 0x2 | 0x3 => if tgt = 0 then some { blk := false, w := fmtWidth fmt, sw := fmtWidth fmt } else none
  | 0x5 | 0x6 | 0x7 => if tgt = 0 then some { blk := true, w := fmtWidth fmt, sw := fmtWidth fmt } else none
  | 0x8 => conv e4m3 [1, 2]
  | 0x9 => conv e5m2 [1, 2]
  | 0xA => conv fp16 [2, 3]
  | 0xB => conv bf16 [2, 3]
  | _ => none

/-- Fraction bits of a block format of width w (R81). -/
def blkFrac (w : Nat) : Nat := w - 2

/-- A block of 32 elements: NaN block, exponent, significands (R81). -/
structure Blk where
  nan : Bool := false
  e : Nat := 0
  sig : List Int := []
  deriving DecidableEq, Repr

/-- Unbiased exponent and significand of a non-special encoding; a subnormal has the minimum exponent (R84). -/
def expSig (f : FpFmt) (b : Nat) : Int × Nat :=
  let ex := b / 2 ^ f.mbits % 2 ^ f.ebits
  let fr := b % 2 ^ f.mbits
  if ex = 0 then (1 - (f.bias : Int), fr) else ((ex : Int) - f.bias, 2 ^ f.mbits + fr)
/-- A NaN or an infinity. -/
def isSpecial (f : FpFmt) (b : Nat) : Bool :=
  match f.decode b with
  | .fin _ _ _ => false
  | _ => true

/-- Convert elements of a block to a block of fraction bits `fb`; INGEST_LOSS and INGEST_SPECIAL flags (R84). -/
def ingest (f : FpFmt) (fb : Nat) (xs : List Nat) : Blk × Nat :=
  if xs.any (isSpecial f) then ({ nan := true, e := 0xFF, sig := xs.map (fun _ => 0) }, nIngestSpecial)
  else if xs.all (fun b => (expSig f b).2 = 0) then ({ sig := xs.map (fun _ => 0) }, 0)
  else
    let emax := xs.foldl (fun m b => if (expSig f b).2 = 0 then m else max m (expSig f b).1) (-(f.bias : Int) - (f.mbits : Int))
    let one (b : Nat) : Int × Bool :=
      let sh : Int := (fb : Int) - (f.mbits : Int) - (emax - (expSig f b).1)
      let m := (expSig f b).2
      let mag := if 0 ≤ sh then m <<< sh.toNat else m >>> (-sh).toNat
      (FV.sig (b / f.signBit % 2 == 1) mag, decide (sh < 0) && m % 2 ^ (-sh).toNat != 0)
    ({ e := (emax + 127).toNat, sig := xs.map (fun b => (one b).1) }, flag (xs.any (fun b => (one b).2)) nIngestLoss)

/-- Block j of the row at `a` with its exponents at `ea`, and the ingest flags. -/
def State.block (s : State) (o : Operand) (a ea j : Nat) : Blk × Nat :=
  let xs := (List.range 32).map (fun i => s.elem a o.sw (32 * j + i))
  match o.src with
  | some f => ingest f (blkFrac o.w) xs
  | none =>
    let e := (s.readByte (ea + j)).toNat
    (if e = 0xFF then { nan := true, e := e, sig := xs.map (fun _ => 0) } else { e := e, sig := xs.map (signed o.w) }, 0)

/-! ## Long accumulator (R86-R89) -/

/-- An L128 entry (R88). -/
structure L128 where
  val : Int := 0
  chunks : Nat := 0
  pos : Bool := false
  neg : Bool := false
  nan : Bool := false
  low : Bool := false
  deriving DecidableEq, Repr

def L128.decode (l : List Byte) : L128 :=
  let t := lfld l 16 4
  { val := signed 128 (lfld l 0 16), chunks := t % 2 ^ 24, pos := bit t 24, neg := bit t 25, nan := bit t 26, low := bit t 27 }
def L128.encode (x : L128) : List Byte :=
  toLE 16 (unsigned 128 x.val) ++
    toLE 4 (x.chunks + b2n x.pos * 2 ^ 24 + b2n x.neg * 2 ^ 25 + b2n x.nan * 2 ^ 26 + b2n x.low * 2 ^ 27)

/-- Combine two entries, with the count limit (R88). -/
def L128.combine (x y : L128) : L128 :=
  let n := x.chunks + y.chunks
  let past := decide (2 ^ 24 ≤ n)
  { val := if past then 0 else x.val + y.val
    chunks := if past then 2 ^ 24 - 1 else n
    pos := x.pos || y.pos, neg := x.neg || y.neg, nan := x.nan || y.nan || past, low := x.low || y.low }

/-- A chunk: NaN, or P · 2^x (R86). -/
def chunk (wa wb : Nat) (a b : Blk) : Option (Int × Int) :=
  if a.nan || b.nan then none
  else some ((List.zipWith (· * ·) a.sig b.sig).sum,
             (a.e : Int) + (b.e : Int) - 254 - (blkFrac wa : Int) - (blkFrac wb : Int))

/-- An entry of one chunk aligned to ACC_LSB, truncated toward zero (R87, R88). -/
def chunkEntry (lsb : Int) (c : Option (Int × Int)) : L128 :=
  match c with
  | none => { chunks := 1, nan := true }
  | some (p, x) =>
    let up := (x - lsb).toNat
    let dn := (lsb - x).toNat
    let mag := if lsb ≤ x then p.natAbs <<< up else p.natAbs >>> dn
    let low := decide (x < lsb) && p.natAbs % 2 ^ dn != 0
    if mag < 2 ^ 103 then { val := FV.sig (decide (p < 0)) mag, chunks := 1, low := low }
    else { chunks := 1, pos := decide (0 < p), neg := decide (p < 0), low := low }

/-- FP32 result of an entry and its NAN_OUT and FP32_INF flags (R89, R90). -/
def L128.toFp32 (x : L128) (lsb : Int) (r : Rnd) : Nat × Nat :=
  if x.nan || (x.pos && x.neg) then (0x7FC00000, nNanOut)
  else if x.pos then (0x7F800000, 0)
  else if x.neg then (0xFF800000, 0)
  else
    let v := fp32.encode r (FV.ofInt x.val lsb)
    (v, flag (v % 2 ^ 31 == 0x7F800000) nInf)

/-- Entry of a block dot product: the chunks combined into `init`, with LONG_OVF and LOW_LOSS (R87, R88). -/
def blockDot (wa wb : Nat) (lsb : Int) (init : L128) (a b : List Blk) : L128 × Nat :=
  (List.zipWith (chunk wa wb) a b).foldl (fun r c =>
    let e := chunkEntry lsb c
    (r.1.combine e, r.2 ||| flag (e.pos || e.neg) nLongOvf ||| flag e.low nLowLoss)) (init, 0)

/-! ## Integer accumulation (R85) -/

/-- Exact dot products of the passes of `k` elements, in ascending K. -/
def passDots (k : Nat) (a b : List Int) : List Int :=
  (List.range ((a.length + k - 1) / max 1 k)).map (fun i =>
    (List.zipWith (· * ·) ((a.drop (i * k)).take k) ((b.drop (i * k)).take k)).sum)
/-- One saturating addition and the SAT flag. -/
def satAccum (r : Int × Nat) (c : Int) : Int × Nat :=
  let v := r.1 + c
  (clampInt 32 v, r.2 ||| flag (clampInt 32 v != v) nSat)

/-- Output entry of an integer command: bytes and flags. -/
def intEntry (outFmt k : Nat) (prior : Option (List Byte)) (a b : List Int) : List Byte × Nat :=
  if outFmt = 0xE then
    let e := (passDots k a b).foldl (fun x c => x.combine (chunkEntry 0 (some (c, 0))))
      ((prior.map L128.decode).getD {})
    (e.encode, 0)
  else
    let r := (passDots k a b).foldl satAccum ((prior.map (fun l => signed 32 (leNat l))).getD 0, 0)
    (toLE 4 (unsigned 32 r.1), r.2)

def orAll (l : List Nat) : Nat := l.foldl (· ||| ·) 0

/-! ## SLAB_LOAD (R119) -/

def slabLoadChecks (d : BitVec 512) : Checks :=
  let fa := dbits d 30 0 4
  let fw := dbits d 30 4 4
  let oa := operand fa (dbits d 31 0 2)
  let ow := operand fw (dbits d 31 2 2)
  let k := dfld d 26 2
  let n := dfld d 28 2
  let exps := dfld d 22 4
  let rows := if (ow.map (·.blk)).getD false && (ow.map (·.src.isNone)).getD false
    then [(dAddr d 16 + exps, n * roundUp ((k + 31) / 32) 64)] else []
  { reserved := headerReserved d || dbits d 31 4 4 != 0 || dfld d 32 32 != 0
    format := match oa, ow with
      | some a, some w => a.blk != w.blk
      | _, _ => true
    range := headerRange d || match oa, ow with
      | some a, some w => k == 0 || decide (1024 / a.w < k) || n == 0 || decide (1024 / w.w < n) ||
          (w.blk && k % 32 != 0) || exps % 64 != 0 || ((!w.blk || w.src.isSome) && exps != 0)
      | _, _ => false
    aligns := [dAddr d 16]
    ins := (dAddr d 16, n * rowPitch ((ow.map (·.sw)).getD 8) k) :: rows }

/-- The weight tile goes to the shadow buffer, with the flags of its ingest conversion (R84, R99); the caller makes the
preload record (R92, R108). -/
def slabLoadRun (d : BitVec 512) (t : Nat) (s : State) : Done :=
  let c := slabLoadChecks d
  reading s (.tile t) c (fun s =>
    let k := dfld d 26 2
    let num := match operand (dbits d 30 4 4) (dbits d 31 2 2) with
      | some o =>
        if o.src.isNone then 0
        else orAll ((List.range (dfld d 28 2)).flatMap (fun r => (List.range (k / 32)).map (fun j =>
          (s.block o (dAddr d 16 + r * rowPitch o.sw k) 0 j).2)))
      | none => 0
    { s := s.setTile t { s.tile t with shadow := c.ins.flatMap (fun r => s.readBytes r.1 r.2) }, numeric := num })

/-! ## SLAB_MATMUL (R120) -/

structure Mat where
  oa : Operand
  ow : Operand
  a : Nat
  w : Nat
  out : Nat
  ae : Nat
  we : Nat
  m : Nat
  k : Nat
  n : Nat
  outFmt : Nat
  lsb : Int
  rnd : Nat
  accum : Bool
  deriving DecidableEq, Repr

/-- The fields of a SLAB_MATMUL, where its operands have formats. -/
def matFields (d : BitVec 512) : Option Mat :=
  match operand (dbits d 48 0 4) (dbits d 55 1 2), operand (dbits d 48 4 4) (dbits d 55 3 2) with
  | some oa, some ow => some
    { oa := oa, ow := ow, a := dAddr d 16, w := dAddr d 22, out := dAddr d 28,
      ae := dfld d 34 4, we := dfld d 38 4, m := dfld d 42 2, k := dfld d 44 2, n := dfld d 46 2,
      outFmt := dbits d 49 0 4, lsb := signed 16 (dfld d 50 2), rnd := dbits d 49 4 2, accum := dbits d 49 7 1 == 1 }
  | _, _ => none

def entryBytes (outFmt : Nat) : Nat := if outFmt = 0xE then 20 else 4
/-- Bytes of an accumulator: 4 for integers with I32 results, 20 otherwise (R93). -/
def accBytes (blk : Bool) (outFmt : Nat) : Nat := if blk || outFmt == 0xE then 20 else 4

def Mat.pitchA (x : Mat) : Nat := rowPitch x.oa.sw x.k
def Mat.pitchW (x : Mat) : Nat := rowPitch x.ow.sw x.k
def Mat.pitchE (x : Mat) : Nat := roundUp ((x.k + 31) / 32) 64
def Mat.pitchOut (x : Mat) : Nat := roundUp (x.n * entryBytes x.outFmt) 64
def Mat.outSpan (x : Mat) : Nat × Nat := (x.out, x.m * x.pitchOut)
/-- Ranges of activations and weights, exponent planes included. -/
def Mat.inSpans (x : Mat) : List (Nat × Nat) :=
  [(x.a, x.m * x.pitchA), (x.w, x.n * x.pitchW)] ++
    (if x.oa.blk && x.oa.src.isNone then [(x.a + x.ae, x.m * x.pitchE)] else []) ++
    (if x.ow.blk && x.ow.src.isNone then [(x.w + x.we, x.n * x.pitchE)] else [])

def matChecks (d : BitVec 512) : Checks :=
  let mblk := dfld d 52 2
  let units := dfld d 54 1
  let res := headerReserved d || dbits d 55 5 3 != 0
  match matFields d with
  | none => { reserved := res, format := true }
  | some x =>
    { reserved := res
      format := x.oa.blk != x.ow.blk ||
        (if x.oa.blk then x.outFmt != 0xC && x.outFmt != 0xE else x.outFmt != 0xD && x.outFmt != 0xE) ||
        (x.accum && x.outFmt == 0xC)
      range := headerRange d || x.m == 0 || x.k == 0 || x.n == 0 || (x.oa.blk && x.k % 32 != 0) ||
        x.ae % 64 != 0 || x.we % 64 != 0 ||
        ((!x.oa.blk || x.oa.src.isSome) && x.ae != 0) || ((!x.ow.blk || x.ow.src.isSome) && x.we != 0) ||
        decide (1 < x.rnd) ||
        (if x.oa.blk then decide (x.lsb < -320) || decide (255 < x.lsb) else x.lsb != 0) ||
        mblk == 0 || units == 0 || decide (120 < units) ||
        decide (units * 8192 < mblk * x.n * accBytes x.oa.blk x.outFmt) ||
        (dbits d 49 6 1 == 1 && decide (min 8 (64 / x.oa.w) < x.m))
      aligns := [x.a, x.w, x.out]
      ins := x.inSpans ++ (if x.accum then [x.outSpan] else [])
      outs := [x.outSpan] }

/-- What an entry starts from: the contents of OUT with ACCUM set, or the accumulator that earlier passes over `k0` elements
have left at place `n` of the block (R96). -/
def priorOf (s : State) (accum : Bool) (at_ outFmt size : Nat) (w : Work) (n : Nat) : Option (List Byte) :=
  if w.k = 0 then (if accum then some (s.readBytes at_ (entryBytes outFmt)) else none)
  else some ((w.acc.drop (n * size)).take size)

/-- Elements of K in one pass (R85). -/
def Mat.step (x : Mat) : Nat := 1024 / max 1 x.oa.w
def Mat.accSize (x : Mat) : Nat := accBytes x.oa.blk x.outFmt

/-- Entry (i, j) of the result: bytes and flags. -/
def matEntry (s : State) (d : BitVec 512) (x : Mat) (w : Work) (i j : Nat) (ai wj : List Int) (ab wb : List Blk) : List Byte × Nat :=
  let prior := priorOf s x.accum (x.out + i * x.pitchOut + j * entryBytes x.outFmt) x.outFmt x.accSize w ((i - w.row) * x.n + j)
  if x.oa.blk then
    let r := blockDot x.oa.w x.ow.w x.lsb ((prior.map L128.decode).getD {}) (ab.drop (w.k / 32)) (wb.drop (w.k / 32))
    if x.outFmt = 0xE then (r.1.encode, r.2)
    else
      let rnd := if x.rnd = 1
        then Rnd.stoch (draw24 (dfld d 56 4) ((dfld d 60 2 + i) * 2 ^ 32 + (dfld d 62 2 + j))) else Rnd.rne
      let v := r.1.toFp32 x.lsb rnd
      (toLE 4 v.1, r.2 ||| v.2)
  else intEntry x.outFmt x.step prior (ai.drop w.k) (wj.drop w.k)
/-- Accumulator (i, j) after one more pass: bytes and flags (R96). -/
def matPass (s : State) (x : Mat) (w : Work) (i j : Nat) (ai wj : List Int) (ab wb : List Blk) : List Byte × Nat :=
  let prior := priorOf s x.accum (x.out + i * x.pitchOut + j * entryBytes x.outFmt) x.outFmt x.accSize w ((i - w.row) * x.n + j)
  if x.oa.blk then
    let cut (l : List Blk) : List Blk := (l.drop (w.k / 32)).take (x.step / 32)
    let r := blockDot x.oa.w x.ow.w x.lsb ((prior.map L128.decode).getD {}) (cut ab) (cut wb)
    (r.1.encode, r.2)
  else intEntry x.outFmt x.step prior ((ai.drop w.k).take x.step) ((wj.drop w.k).take x.step)

/-! ## Weight tiles (R92, R94, R221)

The array computes from its weight buffers.  The ranges that a running command names stay unchanged until it ends (R96), and PRELOADED never changes
a result (R108), so what it computes is said over memory; the buffers hold what the model shows of them (log entry 89). -/

/-- The command streams its weights (R94). -/
def matStreamed (d : BitVec 512) : Bool := dbits d 49 6 1 == 1
/-- Columns of a weight tile: 1,024/W of a STATIONARY command (R92), 16A/W of a STREAMED one (R94). -/
def Mat.cols (x : Mat) (streamed : Bool) : Nat := if streamed then 16 * x.oa.w / max 1 x.ow.w else 1024 / max 1 x.ow.w
/-- Where `n` rows of a tensor, from row r, have their elements [k, k + len): row by row, the exponent bytes of all after them. -/
def rowParts (o : Operand) (a ea pitch pitchE r n k len : Nat) : List (Nat × Nat) :=
  (List.range n).map (fun i => (a + (r + i) * pitch + o.sw * k / 8, packedBytes o.sw len)) ++
    (if o.blk && o.src.isNone then (List.range n).map (fun i => (ea + (r + i) * pitchE + k / 32, (len + 31) / 32)) else [])
def State.gather (s : State) (l : List (Nat × Nat)) : List Byte := l.flatMap (fun r => s.readBytes r.1 r.2)
/-- The weight tile of a SLAB_MATMUL at element k of K and column j: a whole K of a STREAMED command, one pass of a STATIONARY one. -/
def matTile (s : State) (x : Mat) (streamed : Bool) (k j : Nat) : List Byte :=
  s.gather (rowParts x.ow x.w (x.w + x.we) x.pitchW x.pitchE j (min (x.cols streamed) (x.n - j)) k (if streamed then x.k else min x.step (x.k - k)))
/-- The weight tile that the array computes from where its work stands, and the one the shadow loads next: the next columns of the pass, else
the first of the next pass or activation block; a STREAMED command's tiles pass one at a time. -/
def matTiles (s : State) (d : BitVec 512) (x : Mat) (w : Work) : List Byte × List Byte :=
  if matStreamed d then (matTile s x true 0 w.col, [])
  else (matTile s x false w.k 0,
        if x.cols false < x.n then matTile s x false w.k (x.cols false)
        else if w.k + x.step < x.k then matTile s x false (w.k + x.step) 0
        else if w.row + dfld d 52 2 < x.m then matTile s x false 0 0 else [])
/-- Tile t's weight buffers. -/
def State.setWeights (s : State) (t : Nat) (b : List Byte × List Byte) : State :=
  s.setTile t { s.tile t with weights := b.1, shadow := b.2 }
/-- The last weight tile of a SLAB_MATMUL. -/
def matLast (s : State) (d : BitVec 512) (x : Mat) : List Byte :=
  matTile s x (matStreamed d) (if matStreamed d then 0 else (x.k - 1) / max 1 x.step * x.step) ((x.n - 1) / max 1 (x.cols (matStreamed d)) * x.cols (matStreamed d))

/-- The held vectors' ranges, exponent plane included (R94, R96). -/
def Mat.actSpans (x : Mat) : List (Nat × Nat) :=
  (x.a, x.m * x.pitchA) :: (if x.oa.blk && x.oa.src.isNone then [(x.a + x.ae, x.m * x.pitchE)] else [])
/-- Bytes held elsewhere stand in for those of their ranges in memory. -/
def MemState.overlay (m : MemState) : List (Nat × Nat) → List Byte → MemState
  | [], _ => m
  | (a, n) :: r, bs => (m.writeBytes a (bs.take n)).overlay r (bs.drop n)

/-- The operands of a SLAB_MATMUL as lists of rows: integers, and blocks with their ingest flags.  Held STREAMED activations
stand in for those in memory (R96). -/
structure MatIn where
  ai : List (List Int)
  wi : List (List Int)
  ab : List (List (Blk × Nat))
  wb : List (List (Blk × Nat))

def matInputs (s : State) (x : Mat) (held : List Byte) : MatIn :=
  let sa : State := if held.isEmpty then s else { s with mem := s.mem.overlay x.actSpans held }
  let ints (s : State) (o : Operand) (a pitch n : Nat) : List (List Int) :=
    if o.blk then List.replicate n []
    else (List.range n).map (fun r => (List.range x.k).map (fun k => s.elemInt (a + r * pitch) o.w k))
  let blks (s : State) (o : Operand) (a ea pitch n : Nat) : List (List (Blk × Nat)) :=
    if o.blk then (List.range n).map (fun r => (List.range (x.k / 32)).map (fun j =>
      s.block o (a + r * pitch) (ea + r * x.pitchE) j))
    else List.replicate n []
  { ai := ints sa x.oa x.a x.pitchA x.m, wi := ints s x.ow x.w x.pitchW x.n
    ab := blks sa x.oa x.a (x.a + x.ae) x.pitchA x.m, wb := blks s x.ow x.w (x.w + x.we) x.pitchW x.n }
/-- Flags of the ingest conversions. -/
def MatIn.flags (z : MatIn) : Nat := orAll ((z.ab ++ z.wb).flatMap (fun r => r.map (·.2)))
def MatIn.arow (z : MatIn) (i : Nat) : List Int × List Blk := ((z.ai[i]?).getD [], ((z.ab[i]?).getD []).map (·.1))
def MatIn.wrow (z : MatIn) (j : Nat) : List Int × List Blk := ((z.wi[j]?).getD [], ((z.wb[j]?).getD []).map (·.1))
/-- Rows [first, last) of the result, columns [w.col, hi). -/
def matRows (s : State) (d : BitVec 512) (x : Mat) (w : Work) (z : MatIn) (first last hi : Nat) : List (Nat × List (List Byte × Nat)) :=
  (List.range (last - first)).map (fun r =>
    let i := first + r
    let v : Work := if i < w.row + dfld d 52 2 then w else {}
    (i, ((List.range hi).drop w.col).map (fun j => matEntry s d x v i j (z.arow i).1 (z.wrow j).1 (z.arow i).2 (z.wrow j).2)))
/-- The bytes of result rows, each at its address; the last columns bring the padding of R118. -/
def Mat.place (x : Mat) (col hi : Nat) (rows : List (Nat × List (List Byte × Nat))) : List (Nat × List Byte) :=
  rows.map (fun r =>
    let at_ := col * entryBytes x.outFmt
    (x.out + r.1 * x.pitchOut + at_, padTo (if hi = x.n then x.pitchOut - at_ else 0) (r.2.flatMap (·.1))))
def rowFlags (rows : List (Nat × List (List Byte × Nat))) : Nat := orAll (rows.flatMap (fun r => r.2.map (·.2)))

/-- OUT = A × W or OUT += A × W (R120), from where its work stands (R96).  The outputs are undefined where OUT meets A or W
(R96, log entry 8). -/
def matRun (d : BitVec 512) (t : Nat) (w : Work) (s : State) : Done :=
  match matFields d with
  | none => { s := s, status := stFormat }
  | some x =>
    let c := matChecks d
    reading s (.tile t) c (fun s =>
      let z := matInputs s x w.held
      let rows := matRows s d x w z w.row x.m x.n
      let s := s.setWeights t (matLast s d x, [])
      let num := w.numeric.toNat ||| rowFlags rows ||| z.flags
      if anyOverlap x.inSpans [x.outSpan] then { s := s.freeBytes x.outSpan.1 x.outSpan.2, numeric := num }
      else finishRows s (.tile t) c (x.place w.col x.n rows) num 0 0)

/-- One yield unit of a SLAB_MATMUL: a STATIONARY pass over its activation block, after whose last pass the block's rows are written, or a
weight tile of a STREAMED one, whose columns are written; none where the command would end in it (R92, R94, R96, R132).  The model's yield points
lie between passes (log entry 67). -/
def matUnit (d : BitVec 512) (t : Nat) (w : Work) (s : State) : Option (State × Work) :=
  match matFields d with
  | none => none
  | some x =>
    let c := matChecks d
    let s := s.fetchAll (.tile t) c.ins
    let last := min x.m (w.row + dfld d 52 2)
    if anyOverlap x.inSpans [x.outSpan] || c.ins.any (fun r => s.meetsPoison (.tile t) r.1 r.2) then none
    else
      let held := if matStreamed d && w.held.isEmpty then s.gather x.actSpans else w.held
      let z := matInputs s x held
      if matStreamed d then
        let hi := w.col + max 1 (x.cols true)
        if x.n ≤ hi then none
        else
          let rows := matRows s d x w z 0 x.m hi
          let r := writeRows s (.tile t) (x.place w.col hi rows)
          let w' : Work := { w with col := hi, held := held, numeric := w.numeric ||| BitVec.ofNat 8 (rowFlags rows) }
          if r.2 then none else some (r.1.setWeights t (matTiles r.1 d x w'), w')
      else
      let staged := s.gather (rowParts x.oa x.a (x.a + x.ae) x.pitchA x.pitchE w.row (last - w.row) w.k (min x.step (x.k - w.k)))
      if w.k + x.step < x.k then
        let acc := (List.range (last - w.row)).flatMap (fun r => (List.range x.n).map (fun j =>
          let i := w.row + r
          matPass s x w i j (z.arow i).1 (z.wrow j).1 (z.arow i).2 (z.wrow j).2))
        let w' : Work := { w with k := w.k + x.step, acc := acc.flatMap (·.1), staged := staged,
                                  numeric := w.numeric ||| BitVec.ofNat 8 (orAll (acc.map (·.2))) }
        some (s.setWeights t (matTiles s d x w'), w')
      else if x.m ≤ last then none
      else
        let rows := matRows s d x w z w.row last x.n
        let r := writeRows s (.tile t) (x.place 0 x.n rows)
        let w' : Work := { w with row := last, k := 0, acc := [], staged := staged, numeric := w.numeric ||| BitVec.ofNat 8 (rowFlags rows) }
        if r.2 then none else some (r.1.setWeights t (matTiles r.1 d x w'), w')

/-! ## SLAB_CONV (R121, R216-R225) -/

structure Conv where
  wa : Nat
  ww : Nat
  inA : Nat
  w : Nat
  out : Nat
  inC : Nat
  inH : Nat
  inW : Nat
  outC : Nat
  fh : Nat
  fw : Nat
  sh : Nat
  sw : Nat
  dh : Nat
  dw : Nat
  top : Nat
  bottom : Nat
  left : Nat
  right : Nat
  outFmt : Nat
  accum : Bool
  groups : Nat
  pad : Nat
  /-- Space-to-depth factor of the input and depth-to-space factor of the output; 1 for none. -/
  fi : Nat
  fo : Nat
  deriving DecidableEq, Repr

def convFields (d : BitVec 512) : Conv :=
  let f := 2 ^ dbits d 54 0 2
  let dir := dbits d 54 2 1
  { wa := fmtWidth (dbits d 48 0 4), ww := fmtWidth (dbits d 48 4 4)
    inA := dAddr d 16, w := dAddr d 22, out := dAddr d 28
    inC := dfld d 34 2, inH := dfld d 36 2, inW := dfld d 38 2, outC := dfld d 40 2
    fh := dfld d 42 1, fw := dfld d 43 1
    sh := dbits d 44 0 4 + 1, sw := dbits d 44 4 4 + 1, dh := dbits d 45 0 4 + 1, dw := dbits d 45 4 4 + 1
    top := dbits d 46 0 4, bottom := dbits d 46 4 4, left := dbits d 47 0 4, right := dbits d 47 4 4
    outFmt := dbits d 49 0 4, accum := dbits d 49 7 1 == 1
    groups := dfld d 50 2, pad := dfld d 52 2
    fi := if dir = 0 then f else 1, fo := if dir = 1 then f else 1 }

/-- Input geometry after space-to-depth (R223). -/
def Conv.rc (x : Conv) : Nat := x.inC * x.fi * x.fi
def Conv.rh (x : Conv) : Nat := x.inH / x.fi
def Conv.rw (x : Conv) : Nat := x.inW / x.fi
/-- Output extent along one axis, as an integer (R121). -/
def convExtent (n p q dil f stride : Nat) : Int := ((n + p + q : Int) - dil * ((f : Int) - 1) - 1) / stride + 1
def Conv.oh (x : Conv) : Int := convExtent x.rh x.top x.bottom x.dh x.fh x.sh
def Conv.ow (x : Conv) : Int := convExtent x.rw x.left x.right x.dw x.fw x.sw
def Conv.inPitch (x : Conv) : Nat := rowPitch x.wa x.inW
def Conv.outW (x : Conv) : Nat := x.ow.toNat * x.fo
def Conv.outH (x : Conv) : Nat := x.oh.toNat * x.fo
def Conv.outPitch (x : Conv) : Nat := roundUp (x.outW * entryBytes x.outFmt) 64
def Conv.outPlanes (x : Conv) : Nat := x.outC / (x.fo * x.fo)
/-- Input channels and outputs of a group, and its reduction length (R219). -/
def Conv.gc (x : Conv) : Nat := x.rc / max 1 x.groups
def Conv.gn (x : Conv) : Nat := x.outC / max 1 x.groups
def Conv.kg (x : Conv) : Nat := x.gc * x.fh * x.fw
def Conv.outSpan (x : Conv) : Nat × Nat := (x.out, x.outPlanes * x.outH * x.outPitch)
def Conv.inSpans (x : Conv) : List (Nat × Nat) :=
  [(x.inA, x.inC * x.inH * x.inPitch), (x.w, x.outC * rowPitch x.ww x.kg)]

def convChecks (d : BitVec 512) : Checks :=
  let x := convFields d
  let fa := dbits d 48 0 4
  let fw := dbits d 48 4 4
  let units := dfld d 55 1
  let mblk := dfld d 56 2
  { reserved := headerReserved d || dbits d 49 4 2 != 0 || dbits d 54 3 5 != 0 || dfld d 58 6 != 0
    format := decide (3 < fa) || decide (3 < fw) || (x.outFmt != 0xD && x.outFmt != 0xE)
    range := headerRange d || x.inC == 0 || x.inH == 0 || x.inW == 0 || x.outC == 0 || x.fh == 0 || x.fw == 0 ||
      x.groups == 0 || x.inC % max 1 x.groups != 0 || x.outC % max 1 x.groups != 0 ||
      decide (2 ^ x.wa ≤ x.pad) ||
      ((x.fi != 1 || x.fo != 1) && x.groups != 1) || x.inH % x.fi != 0 || x.inW % x.fi != 0 ||
      decide (65535 < x.inC * x.fi * x.fi * (x.fo * x.fo)) || x.outC % (x.fo * x.fo) != 0 ||
      units == 0 || decide (120 < units) || mblk == 0 ||
      decide (units * 8192 < mblk * x.gn * accBytes false x.outFmt) ||
      anyOverlap [x.outSpan] x.inSpans
    limit := decide (16 < x.fh) || decide (16 < x.fw) || decide (8 < x.sh) || decide (8 < x.sw) ||
      decide (8 < x.dh) || decide (8 < x.dw) || decide (x.oh < 1) || decide (x.ow < 1) ||
      decide (65535 < x.outH) || decide (65535 < x.outW)
    aligns := [x.inA, x.w, x.out]
    ins := x.inSpans ++ (if x.accum then [x.outSpan] else [])
    outs := [x.outSpan] }

/-- Regrouped input element (c, y, x), PAD_VALUE outside the tensor (R218, R223). -/
def convIn (s : State) (x : Conv) (c : Nat) (iy ix : Int) : Int :=
  if 0 ≤ iy ∧ iy < x.rh ∧ 0 ≤ ix ∧ ix < x.rw then
    let f := x.fi
    let cc := c / (f * f)
    let y := iy.toNat * f + c % (f * f) / f
    let xx := ix.toNat * f + c % f
    s.elemInt (x.inA + cc * (x.inH * x.inPitch) + y * x.inPitch) x.wa xx
  else signed x.wa x.pad

/-- Activations and weights that entry (oy, ox) of output channel `co` sums over. -/
def convTerms (s : State) (x : Conv) (co oy ox : Nat) : List Int × List Int :=
  let g := co / max 1 x.gn
  ((List.range x.gc).flatMap (fun c => (List.range x.fh).flatMap (fun fy => (List.range x.fw).map (fun fx =>
    convIn s x (g * x.gc + c) ((oy * x.sh + fy * x.dh : Nat) - (x.top : Int)) ((ox * x.sw + fx * x.dw : Nat) - (x.left : Int))))),
   (List.range x.kg).map (fun k => s.elemInt (x.w + co * rowPitch x.ww x.kg) x.ww k))

def Conv.step (x : Conv) : Nat := 1024 / max 1 x.wa
/-- Output row n of the command, counted over planes and lines: its address. -/
def Conv.rowAddr (x : Conv) (n : Nat) : Nat :=
  x.out + n / max 1 x.outH * (x.outH * x.outPitch) + n % max 1 x.outH * x.outPitch
/-- Entries of output row n from where the work stands: bytes and flags; with `part` one pass more, else to the end. -/
def convRow (s : State) (x : Conv) (w : Work) (n : Nat) (part : Bool) : List (List Byte × Nat) :=
  let f := x.fo
  let p := n / max 1 x.outH
  let y := n % max 1 x.outH
  (List.range x.outW).map (fun xx =>
    let (a, b) := convTerms s x (p * f * f + y % f * f + xx % f) (y / f) (xx / f)
    let prior := priorOf s x.accum (x.rowAddr n + xx * entryBytes x.outFmt) x.outFmt (accBytes false x.outFmt) w xx
    if part then intEntry x.outFmt x.step prior ((a.drop w.k).take x.step) ((b.drop w.k).take x.step)
    else intEntry x.outFmt x.step prior (a.drop w.k) (b.drop w.k))
def Conv.rows (x : Conv) : Nat := x.outPlanes * x.outH

/-- Groups that one weight tile packs: 1 where a group does not fit in one (R221). -/
def Conv.packs (x : Conv) : Nat :=
  let cols := 1024 / max 1 x.ww
  if x.kg ≤ x.step ∧ x.gn ≤ cols then max 1 (min (min (x.step / max 1 x.kg) (cols / max 1 x.gn)) x.groups) else 1
/-- The weight tile that output channel `co` is computed from at element k of its K: whole groups packed block-diagonally, with zero weights in
the cells outside a group's block, or one pass of one group's columns (R92, R221). -/
def convTile (s : State) (x : Conv) (co k : Nat) : List Byte :=
  let g := co / max 1 x.gn
  let row (c : Nat) : Nat := x.w + c * rowPitch x.ww x.kg
  let cols := max 1 (1024 / max 1 x.ww)
  if x.kg ≤ x.step ∧ x.gn ≤ cols then
    let first := g / x.packs * x.packs
    let n := min x.packs (x.groups - first)
    (List.range (n * x.gn)).flatMap (fun c => packElems x.ww ((List.range (n * x.kg)).map (fun e =>
      if e / max 1 x.kg = c / max 1 x.gn then s.elem (row (first * x.gn + c)) x.ww (e % max 1 x.kg) else 0)))
  else
    let j := co % max 1 x.gn / cols * cols
    (List.range (min cols (x.gn - j))).flatMap (fun c =>
      s.readBytes (row (g * x.gn + j + c) + x.ww * k / 8) (packedBytes x.ww (min x.step (x.kg - k))))
/-- First output channel of output row n (R223). -/
def Conv.chan (x : Conv) (n : Nat) : Nat := n / max 1 x.outH * x.fo * x.fo + n % max 1 x.outH % x.fo * x.fo
/-- The weight tile that the array computes from where its work stands, and the one the shadow loads next. -/
def convTiles (s : State) (x : Conv) (w : Work) : List Byte × List Byte :=
  (convTile s x (x.chan w.row) w.k,
   if w.k + x.step < x.kg then convTile s x (x.chan w.row) (w.k + x.step)
   else if w.row + 1 < x.rows then convTile s x (x.chan (w.row + 1)) 0 else [])
/-- The activations of one pass over output row n. -/
def convStaged (s : State) (x : Conv) (w : Work) : List Byte :=
  let f := x.fo
  let y := w.row % max 1 x.outH
  (List.range x.outW).flatMap (fun xx =>
    packElems x.wa ((((convTerms s x (x.chan w.row + xx % f) (y / f) (xx / f)).1.drop w.k).take x.step).map (unsigned x.wa)))

def convRun (d : BitVec 512) (t : Nat) (w : Work) (s : State) : Done :=
  let x := convFields d
  let c := convChecks d
  reading s (.tile t) c (fun s =>
    let rows := (List.range (x.rows - w.row)).map (fun r => (w.row + r, convRow s x (if r = 0 then w else {}) (w.row + r) false))
    let s := s.setWeights t (convTile s x (x.outC - 1) ((x.kg - 1) / max 1 x.step * x.step), [])
    finishRows s (.tile t) c (rows.map (fun r => (x.rowAddr r.1, padTo x.outPitch (r.2.flatMap (·.1)))))
      (w.numeric.toNat ||| rowFlags rows) 0 0)

/-- One yield unit of a SLAB_CONV: a pass over an output row, written after its last pass; none where the command would end
in it (R96, R132; log entry 67). -/
def convUnit (d : BitVec 512) (t : Nat) (w : Work) (s : State) : Option (State × Work) :=
  let x := convFields d
  let c := convChecks d
  let s := s.fetchAll (.tile t) c.ins
  if c.ins.any (fun r => s.meetsPoison (.tile t) r.1 r.2) then none
  else if w.k + x.step < x.kg then
    let acc := convRow s x w w.row true
    let w' : Work := { w with k := w.k + x.step, acc := acc.flatMap (·.1), staged := convStaged s x w,
                              numeric := w.numeric ||| BitVec.ofNat 8 (orAll (acc.map (·.2))) }
    some (s.setWeights t (convTiles s x w'), w')
  else if x.rows ≤ w.row + 1 then none
  else
    let row := convRow s x w w.row false
    let r := s.store (.tile t) (x.rowAddr w.row) (padTo x.outPitch (row.flatMap (·.1)))
    let w' : Work := { w with row := w.row + 1, k := 0, acc := [], staged := convStaged s x w,
                              numeric := w.numeric ||| BitVec.ofNat 8 (orAll (row.map (·.2))) }
    if r.2 then none else some (r.1.setWeights t (convTiles r.1 x w'), w')

/-- The weight buffers of a slab command that begins, or goes on after a restore, where its work stands: its current tile, or the preloaded one
swapped in where the record matches the command, and the next in the shadow (R92, R96, R108). -/
def State.loadWeights (s : State) (t : Nat) (preloaded : Bool) (d : BitVec 512) (w : Work) : State :=
  let b := match dOp d with
    | 0x02 => (match matFields d with | some x => matTiles s d x w | none => ([], []))
    | _ => convTiles s (convFields d) w
  s.setWeights t (if preloaded then (s.tile t).shadow else b.1, b.2)

end Sys2Proof.Machine
end

