-- ==== Sys2Proof/Machine/Vector.lean ====
section
/-! DEFINITION.  The vector unit: sweeps (R147-R149), the instruction set (R150, R151), its arithmetic (R152-R161),
program faults (R163) and VEC_RUN (R123). -/
namespace Sys2Proof.Machine
open Sys2Proof

/-! ## The unit while a program runs -/

/-- Vector unit, program and memory during one VEC_RUN. -/
structure Vm extends VecWork where
  s : State
  tile : Nat
  part : Nat
  args : List Nat
  count : Nat
  base : Nat

/-- How an instruction ended: go on, end of sweep, end of command, a program fault, or an access that failed. -/
inductive VEnd
  | go | halt | exit
  | fault (cause : Nat)
  | address (a : Nat)
  | poison
  deriving DecidableEq, Repr

def zeroReg : List Word := List.replicate 256 0
def Vm.reg (m : Vm) (v : Nat) : List Word := match m.regs.find? (fun e => e.1 = v) with | some e => e.2 | none => zeroReg
def Vm.setReg (m : Vm) (v : Nat) (x : List Word) : Vm := { m with regs := sins m.regs v x }
def Vm.sc (m : Vm) (n : Nat) : Word := (m.scal[n]?).getD 0
def Vm.setSc (m : Vm) (n : Nat) (x : Word) : Vm := { m with scal := m.scal.set n x }
def Vm.arg (m : Vm) (n : Nat) : Nat := (m.args[n]?).getD 0

/-- The element of lane l in the sweep (R148), W = 256. -/
def Vm.e (m : Vm) (l : Nat) : Nat := m.sweep * m.w + l
def wInt (x : Word) : Int := signed 32 x.toNat
def ofInt32 (i : Int) : Word := BitVec.ofNat 32 (unsigned 32 i)
def sat32 (i : Int) : Word := ofInt32 (clampInt 32 i)
def allOnes : Word := 0xFFFFFFFF
def lo16 (x : Word) : Nat := x.toNat % 65536
def hi16 (x : Word) : Nat := x.toNat / 65536
def join16 (l h : Nat) : Word := BitVec.ofNat 32 (h % 65536 * 65536 + l % 65536)

/-- A floating-point operation on a lane: FP32 for TY 0, the two BF16 values for TY 1 (R152). -/
def flane (ty : Nat) (op : FV → FV → FV → FV) (a b c : Word) : Word :=
  if ty = 0 then toF32 (op (f32 a) (f32 b) (f32 c))
  else
    let h (x y z : Nat) : Nat := bf16.encode .rne (op (bf16.decode x) (bf16.decode y) (bf16.decode z))
    join16 (h (lo16 a) (lo16 b) (lo16 c)) (h (hi16 a) (hi16 b) (hi16 c))
/-- A comparison on a lane: all ones or zero per element. -/
def clane (ty : Nat) (op : FV → FV → Bool) (iop : Int → Int → Bool) (a b : Word) : Word :=
  if ty = 2 then (if iop (wInt a) (wInt b) then allOnes else 0)
  else if ty = 0 then (if op (f32 a) (f32 b) then allOnes else 0)
  else
    let h (x y : Nat) : Nat := if op (bf16.decode x) (bf16.decode y) then 0xFFFF else 0
    join16 (h (lo16 a) (lo16 b)) (h (hi16 a) (hi16 b))
def FV.abs : FV → FV
  | .nan => .nan
  | .inf _ => .inf false
  | .fin _ m e => .fin false m e

/-- Lane operation of an R-format arithmetic opcode (R151). -/
def laneOp (op ty : Nat) (a b c : Word) : Word :=
  let i (f : Int → Int → Int) : Word := sat32 (f (wInt a) (wInt b))
  match op with
  | 0x01 => if ty = 2 then i (· + ·) else flane ty (fun x y _ => x.add y) a b c
  | 0x02 => if ty = 2 then i (· - ·) else flane ty (fun x y _ => x.add y.neg) a b c
  | 0x03 => if ty = 2 then i (· * ·) else flane ty (fun x y _ => x.mul y) a b c
  | 0x04 => flane ty (fun x y z => (x.mul y).add z) a b c
  | 0x05 => flane ty (fun x y z => (x.mul y).add z.neg) a b c
  | 0x06 => if ty = 2 then i min else flane ty (fun x y _ => x.min y) a b c
  | 0x07 => if ty = 2 then i max else flane ty (fun x y _ => x.max y) a b c
  | 0x08 => if ty = 2 then sat32 (wInt a).natAbs else flane ty (fun x _ _ => x.abs) a b c
  | 0x09 => flane ty (fun x _ _ => x.floor) a b c
  | 0x0A => clane ty FV.eq (fun x y => x == y) a b
  | 0x0B => clane ty FV.lt (fun x y => decide (x < y)) a b
  | 0x0C => clane ty FV.le (fun x y => decide (x ≤ y)) a b
  | 0x0D => if ty = 1 then join16 (if lo16 c ≠ 0 then lo16 a else lo16 b) (if hi16 c ≠ 0 then hi16 a else hi16 b)
            else if c ≠ 0 then a else b
  | 0x0E => flane ty (fun x _ _ => x.exp2) a b c
  | 0x0F => flane ty (fun x _ _ => x.log2) a b c
  | 0x10 => flane ty (fun x _ _ => x.rcp) a b c
  | 0x11 => flane ty (fun x _ _ => x.rsqrt) a b c
  | 0x13 => a &&& b
  | 0x14 => a ||| b
  | 0x15 => BitVec.ofNat 32 (a.toNat <<< (b.toNat % 32))
  | 0x16 => ofInt32 (wInt a / 2 ^ (b.toNat % 32))
  | _ => a

/-- TBL on one lane (R156).  Where LO makes u a NaN the lane is the canonical NaN (DESIGN CHOICE, log entry 85). -/
def tblLane (t : VTable) (x : Word) : Word :=
  if (f32 x).isNan then 0x7FC00000
  else
    let u := f32 (fmul (fsub x t.lo) t.scale)
    if u.isNan then 0x7FC00000
    else
      let u := (u.max (.fin false 0 0)).min (.fin false 1024 0)
      let i : Nat := match u.toInt .zero with | some k => min k.toNat 1023 | none => 0
      let f := toF32 (u.add (FV.ofInt (-(i : Int)) 0))
      ffma ((t.entries[2 * i + 1]?).getD 0) f ((t.entries[2 * i]?).getD 0)

/-! ## Reductions (R157, R158) -/

/-- One level of the pairwise tree. -/
def pairUp {α : Type} (op : α → α → α) : List α → List α
  | a :: b :: r => op a b :: pairUp op r
  | l => l
/-- The fixed pairwise tree over up to 2^levels values. -/
def treeFold {α : Type} (op : α → α → α) (d : α) : Nat → List α → α
  | 0, l => l.headD d
  | n + 1, l => treeFold op d n (pairUp op l)

/-- Elements of a register in tree order: active flag, element number, and value as FP32 or I32 (R148, R157).  The two BF16 values of
a lane of a W = 256 sweep both have the lane's one element number (DESIGN CHOICE, log entry 83). -/
def Vm.elements (m : Vm) (ty v : Nat) : List (Bool × Nat × Word) :=
  if ty = 1 then
    (m.reg v).zipIdx.flatMap (fun (x, l) =>
      let e0 := if m.w = 512 then m.sweep * 512 + 2 * l else m.e l
      let e1 := if m.w = 512 then e0 + 1 else e0
      [(decide (e0 < m.count), e0, toF32 (bf16.decode (lo16 x))), (decide (e1 < m.count), e1, toF32 (bf16.decode (hi16 x)))])
  else (m.reg v).zipIdx.map (fun (x, l) => (decide (m.e l < m.count), m.e l, x))

def negInf : Word := 0xFF800000
/-- RSUM's tree (R157).  An I32 sum saturates at every node and in the scalar's addition (DESIGN CHOICE, log entry 84). -/
def treeSum (ty : Nat) (l : List (Bool × Nat × Word)) : Word :=
  let xs := l.map (fun x => if x.1 then x.2.2 else 0)
  if ty = 2 then treeFold (fun a b => sat32 (wInt a + wInt b)) 0 9 xs else treeFold fadd 0 9 xs
def treeMax (ty : Nat) (l : List (Bool × Nat × Word)) : Word :=
  if ty = 2 then treeFold (fun a b => if wInt a < wInt b then b else a) 0 9 (l.map (fun x => if x.1 then x.2.2 else 0x80000000))
  else treeFold fmax 0 9 (l.map (fun x => if x.1 then x.2.2 else negInf))

def oneF : Word := 0x3F800000
/-- Rescale factor EXP2(m − m′), exactly 1 when the maximum stands (R158, R261). -/
def rescale (m m' : Word) : Word := if feq m' m then oneF else fexp2 (fsub m m')

/-! ## Memory access (R159, R160) -/

/-- Check and read ranges: the unit that has read them, or how the command ends (R160). -/
def Vm.read (m : Vm) (l : List (Nat × Nat)) : Vm × VEnd :=
  match l.find? (fun r => m.s.bound m.part r.1 r.2 != .ok) with
  | some r => (m, .address r.1)
  | none =>
    let s := m.s.fetchAll (.tile m.tile) l
    ({ m with s := s }, if l.any (fun r => s.meetsPoison (.tile m.tile) r.1 r.2) then .poison else .go)
/-- Store bytes, each piece at its address, and note them (R160). -/
def Vm.write (m : Vm) (l : List (Nat × List Byte)) : Vm × VEnd :=
  let r := writeRows m.s (.tile m.tile) l
  let put (st : Store Byte) (p : Nat × List Byte) : Store Byte := p.2.zipIdx.foldl (fun st b => sins st (p.1 + b.2) b.1) st
  ({ m with s := r.1, stored := l.foldl put m.stored }, if r.2 then .poison else .go)

/-- Bits of an element read into a lane. -/
def widen (fmt v : Nat) : Word :=
  match fmt with
  | 0xC | 0xD => BitVec.ofNat 32 v
  | _ => match fmtFloat fmt with
    | some f => toF32 (f.decode v)
    | none => ofInt32 (signed (fmtWidth fmt) v)
/-- A lane rounded to a stored element.  E4M3 has no infinity: a value beyond 448 is stored as its NaN (DESIGN CHOICE, log
entry 64). -/
def narrow (fmt : Nat) (x : Word) : Nat :=
  match fmt with
  | 0xC | 0xD => x.toNat
  | _ => match fmtFloat fmt with
    | some f => f.encode .rne (f32 x)
    | none => unsigned (fmtWidth fmt) (clampInt (fmtWidth fmt) (wInt x))

/-- Element index x of lane element e (R159). -/
def Vm.index (m : Vm) (idx : Nat) (ofs : Int) (e : Nat) : Int :=
  let s15 := wInt (m.sc 15)
  match idx with
  | 0 => (e : Int) + ofs
  | 1 => (e : Int) % s15 + ofs
  | _ => s15 + ofs

/-- Byte address of element x of a tensor. -/
def elemAddr (base w : Nat) (x : Int) : Nat := base + x.toNat * w / 8

/-- What LD and ST check before they access memory (R159): of several faults the one of the lowest cause (DESIGN CHOICE, log
entry 24: the spec gives no order). -/
def Vm.accessFault (m : Vm) (arg fmt idx : Nat) (ofs : Int) : Option Nat :=
  let w := fmtWidth fmt
  if idx = 3 then some 0x02
  else if m.w = 512 ∧ fmt ≠ 0xB then some 0x03
  else if m.arg arg = 0 then some 0x06
  else if ¬ [0x0, 0x1, 0x2, 0x3, 0x8, 0x9, 0xA, 0xB, 0xC, 0xD].contains fmt then some 0x07
  else if w < 8 ∧ (idx ≠ 0 ∨ ofs % (8 / w : Nat) ≠ 0) then some 0x07
  else if idx = 1 ∧ wInt (m.sc 15) < 1 then some 0x0C
  else none

/-- The elements of lanes with their indices: lane, half, element. -/
def Vm.laneElems (m : Vm) : List (Nat × Bool × Nat) :=
  if m.w = 512 then (List.range 256).flatMap (fun l => [(l, false, m.sweep * 512 + 2 * l), (l, true, m.sweep * 512 + 2 * l + 1)])
  else (List.range 256).map (fun l => (l, false, m.e l))

/-- LD (R159). -/
def Vm.ld (m : Vm) (v arg fmt idx : Nat) (ofs : Int) : Vm × VEnd :=
  match m.accessFault arg fmt idx ofs with
  | some c => (m, .fault c)
  | none =>
    let w := fmtWidth fmt
    let used (e : Nat) : Option Int :=
      let x := m.index idx ofs e
      if e < m.count ∧ 0 ≤ x ∧ x < m.count then some x else none
    let els := m.laneElems
    let touched := els.filterMap (fun x => used x.2.2)
    let r := m.read (touched.map (fun x => (elemAddr (m.arg arg) w x, (w + 7) / 8)))
    if r.2 ≠ .go then r
    else
        let m := r.1
        let val (e : Nat) : Nat := match used e with
          | some x => m.s.elem (m.arg arg) w x.toNat
          | none => 0
        let lanes := (List.range 256).map (fun l =>
          if m.w = 512 then join16 (val (m.sweep * 512 + 2 * l)) (val (m.sweep * 512 + 2 * l + 1))
          else match used (m.e l) with
            | some _ => widen fmt (val (m.e l))
            | none => 0)
        (m.setReg v lanes, .go)

/-- Contiguous runs of a table of bytes. -/
def runsOf : Store Byte → List (Nat × List Byte)
  | [] => []
  | (a, b) :: r =>
    match runsOf r with
    | (a', bs) :: rs => if a' = a + 1 then (a, b :: bs) :: rs else (a, [b]) :: (a', bs) :: rs
    | [] => [(a, [b])]

/-- ST (R159).  Two active lanes that store different values to one element leave it a free value (log entry 9).  Elements
below COUNT that share a written byte and belong to inactive lanes become zero (DESIGN CHOICE, log entry 64). -/
def Vm.st (m : Vm) (v arg fmt idx : Nat) (ofs : Int) : Vm × VEnd :=
  match m.accessFault arg fmt idx ofs with
  | some c => (m, .fault c)
  | none =>
    let w := fmtWidth fmt
    let base := m.arg arg
    let reg := m.reg v
    let writes : List (Int × Nat) := m.laneElems.filterMap (fun (l, h, e) =>
      let x := m.index idx ofs e
      let lane := (reg[l]?).getD 0
      let val := if m.w = 512 then (if h then hi16 lane else lo16 lane) else narrow fmt lane
      if e < m.count ∧ 0 ≤ x ∧ x < m.count then some (x, val) else none)
    let clash := idx != 0 && writes.any (fun a => writes.any (fun b => a.1 == b.1 && a.2 != b.2))
    let bytes : Store Byte :=
      if w < 8 then
        writes.foldl (fun st (x, val) =>
          let a := elemAddr base w x
          sins st a (BitVec.ofNat 8 ((sget 0 st a).toNat + val * 2 ^ (w * x.toNat % 8)))) []
      else writes.foldl (fun st (x, val) =>
          let a := elemAddr base w x
          let dirty := clash && writes.any (fun b => b.1 == x && b.2 != val)
          (List.range (w / 8)).foldl (fun st i =>
            sins st (a + i) (if dirty then Config.freeByte m.s.free (x.toNat * 4 + i) else BitVec.ofNat 8 (val / 256 ^ i))) st) []
    match writes.find? (fun x => m.s.bound m.part (elemAddr base w x.1) ((w + 7) / 8) != .ok) with
    | some x => ({ m with outs := m.outs.insert (base, packedBytes w m.count) }, .address (elemAddr base w x.1))
    | none =>
      let r := { m with outs := m.outs.insert (base, packedBytes w m.count) }.write (runsOf bytes)
      ({ r.1 with s := if clash then { r.1.s with free := r.1.s.free + 1 } else r.1.s }, r.2)

/-! ## Conversions (R161) -/

/-- The codes CVT takes. -/
def cvtFmt (c : Nat) : Bool := [0x1, 0x2, 0x3, 0x8, 0x9, 0xA, 0xB, 0xC, 0xD].contains c
/-- The lane holds a value of format c. -/
def holds (c : Nat) (x : Word) : Bool :=
  match fmtFloat c with
  | some f => c == 0xC || toF32 (f.decode (f.encode .rne (f32 x))) == x
  | none => clampInt (fmtWidth c) (wInt x) == wInt x

/-- CVT on one lane that holds a value of SRC. -/
def cvtLane (src dst : Nat) (r : Rnd) (sat : Bool) (x : Word) : Word :=
  let v : FV := match fmtFloat src with
    | some _ => f32 x
    | none => FV.ofInt (wInt x) 0
  match fmtFloat dst with
  | some f =>
    match v with
    | .nan => toF32 (f.decode f.nanBits)
    | .inf n =>
      if dst = 0xC then x
      else if sat then toF32 (f.decode (b2n n * f.signBit + f.maxFin))
      else toF32 (f.decode (f.pack n (f.maxFin + 1)))
    | .fin n m e =>
      let mag := f.roundMag r n m e
      if f.maxFin < mag ∧ sat then toF32 (f.decode (b2n n * f.signBit + f.maxFin))
      else toF32 (f.decode (f.pack n mag))
  | none =>
    let w := fmtWidth dst
    match v with
    | .nan => 0
    | .inf n =>
      let ext := if n then -(2 ^ 31 : Int) else 2 ^ 31 - 1
      if sat then ofInt32 (clampInt w ext) else ofInt32 (signed w (unsigned 32 ext))
    | v =>
      let i := (v.toInt r).getD 0
      if sat then ofInt32 (clampInt w i) else ofInt32 (signed w (unsigned 32 (clampInt 32 i)))

def rndOf (c draw : Nat) : Rnd :=
  match c with
  | 0 => .rne | 1 => .zero | 2 => .up | 3 => .down | 4 => .away | _ => .stoch draw

/-! ## Instructions -/

/-- Types allowed for an R or S opcode (R151): F 0, 1; I 2.  In a sweep of 512 every opcode that has a TY field counts as typed, SPLAT too
(R149; DESIGN CHOICE, log entry 90). -/
def tyAllowed (op ty w : Nat) : Bool :=
  let ok := match op with
    | 0x01 | 0x02 | 0x03 | 0x06 | 0x07 | 0x08 | 0x0A | 0x0B | 0x0C | 0x19 | 0x1A => ty ≠ 3
    | 0x04 | 0x05 | 0x09 | 0x0E | 0x0F | 0x10 | 0x11 | 0x1B | 0x1C | 0x1D => ty = 0 ∨ ty = 1
    | 0x0D => (ty = 2 ∧ w = 256) ∨ (ty = 1 ∧ w = 512)
    | 0x12 => ty = 0
    | 0x13 | 0x14 | 0x15 | 0x16 | 0x17 => ty = 2
    | 0x1E => ty ≠ 3
    | 0x1F | 0x20 => ty = 0 ∨ ty = 2
    | _ => true
  ok && (w == 256 || ty == 1)

/-- Operand registers used by an R opcode: VA, VB, VC. -/
def usesB (op : Nat) : Bool := [0x01, 0x02, 0x03, 0x04, 0x05, 0x06, 0x07, 0x0A, 0x0B, 0x0C, 0x0D, 0x12, 0x13, 0x14, 0x15, 0x16].contains op
def usesC (op : Nat) : Bool := [0x04, 0x05, 0x0D].contains op

/-- R-format opcodes 0x01 to 0x17.  A TBL whose VB names no table gives cause RESERVED (R151; DESIGN CHOICE, log entry 90). -/
def Vm.execR (m : Vm) (i op : Nat) : Vm × VEnd :=
  let vd := bits i 20 6
  let va := bits i 14 6
  let vb := bits i 8 6
  let vc := bits i 2 6
  let ty := bits i 0 2
  if (!usesB op && vb != 0) || (!usesC op && vc != 0) || (op == 0x17 && va != 0) || (op == 0x12 && decide (3 < vb)) then (m, .fault 0x02)
  else if !tyAllowed op ty m.w then (m, .fault 0x03)
  else if op = 0x17 then (m.setReg vd ((List.range 256).map (fun l => BitVec.ofNat 32 (m.e l))), .go)
  else if op = 0x12 then
    match m.tabs.find? (fun t => t.1 = vb) with
    | some t => (m.setReg vd ((m.reg va).map (tblLane t.2)), .go)
    | none => (m, .fault 0x09)
  else
    let c := m.reg vc
    (m.setReg vd ((List.zipWith (fun (p : Word × Word) z => laneOp op ty p.1 p.2 z) ((m.reg va).zip (m.reg vb)) c)), .go)

/-- CVT.  A lane that holds no value of its narrow SRC gives a free value (log entry 10). -/
def Vm.execCvt (m : Vm) (i : Nat) : Vm × VEnd :=
  let src := bits i 10 4
  let dst := bits i 6 4
  let rnd := bits i 3 3
  let sat := bit i 2
  if bits i 0 2 ≠ 0 ∨ 5 < rnd then (m, .fault 0x02)
  else if m.w = 512 then (m, .fault 0x03)
  else if !cvtFmt src || !cvtFmt dst then (m, .fault 0x07)
  else
    let va := m.reg (bits i 14 6)
    let out := va.zipIdx.map (fun (x, l) =>
      if holds src x then
        cvtLane src dst (rndOf rnd (draw24 (m.sc 14).toNat (m.pc * 2 ^ 32 + m.e l))) sat x
      else BitVec.ofNat 32 (leNat ((List.range 4).map (fun k => Config.freeByte m.s.free (4 * l + k)))))
    let m := if va.all (holds src) then m else { m with s := { m.s with free := m.s.free + 1 } }
    (m.setReg (bits i 20 6) out, .go)

/-- S-format opcodes: reductions, softmax helpers and SPLAT. -/
def Vm.execS (m : Vm) (i op : Nat) : Vm × VEnd :=
  let vd := bits i 20 6
  let va := bits i 14 6
  let sd := bits i 10 4
  let sa := bits i 6 4
  let ty := bits i 0 2
  let reserved := bits i 2 4 != 0 ||
    (if op = 0x1E then va != 0 || sd != 0 else sa != 0 || (op != 0x1D && vd != 0))
  if reserved then (m, .fault 0x02)
  else if !tyAllowed op ty m.w then (m, .fault 0x03)
  else if (op = 0x1B ∧ 14 < sd) ∨ ((op = 0x1C ∨ op = 0x1D) ∧ 13 < sd) then (m, .fault 0x08)
  else
    let els := m.elements ty va
    match op with
    | 0x19 =>
      let t := treeSum ty els
      (m.setSc sd (if ty = 2 then sat32 (wInt (m.sc sd) + wInt t) else fadd (m.sc sd) t), .go)
    | 0x1A =>
      let t := treeMax ty els
      (m.setSc sd (if ty = 2 then (if wInt (m.sc sd) < wInt t then t else m.sc sd) else fmax (m.sc sd) t), .go)
    | 0x1B =>
      let r := els.foldl (fun (b : Word × Word) x => if x.1 && flt b.1 x.2.2 then (x.2.2, BitVec.ofNat 32 x.2.1) else b)
        (m.sc sd, m.sc (sd + 1))
      ((m.setSc sd r.1).setSc (sd + 1) r.2, .go)
    | 0x1C =>
      let mx := m.sc sd
      let m' := fmax mx (treeMax ty els)
      let f := rescale mx m'
      (((m.setSc (sd + 1) (fmul (m.sc (sd + 1)) f)).setSc (sd + 2) f).setSc sd m', .go)
    | 0x1D =>
      let mx := m.sc sd
      let one (act : Bool) (x : Word) : Word := if !act || x == negInf then 0 else fsub x mx
      let ex (act : Bool) (x : Word) : FV := if !act || x == negInf then .fin false 0 0 else (f32 (one act x)).exp2
      let vals := els.map (fun x => (x.1, x.2.1, if ty = 1 then toF32 (bf16.decode (bf16.encode .rne (ex x.1 x.2.2))) else toF32 (ex x.1 x.2.2)))
      let lanes := if ty = 1
        then (List.range 256).map (fun l => join16 (bf16.encode .rne (f32 (((vals[2 * l]?).map (·.2.2)).getD 0)))
          (bf16.encode .rne (f32 (((vals[2 * l + 1]?).map (·.2.2)).getD 0))))
        else vals.map (·.2.2)
      ((m.setReg vd lanes).setSc (sd + 1) (fadd (m.sc (sd + 1)) (treeSum 0 vals)), .go)
    | _ =>
      let x := m.sc sa
      let v := if ty = 1 then (let b := bf16.encode .rne (f32 x); join16 b b) else x
      (m.setReg vd (List.replicate 256 v), .go)

/-- SADD and SMUL. -/
def Vm.execSS (m : Vm) (i op : Nat) : Vm × VEnd :=
  let a := m.sc (bits i 18 4)
  let b := m.sc (bits i 14 4)
  let ty := bits i 0 2
  if bits i 2 12 ≠ 0 then (m, .fault 0x02)
  else if !tyAllowed op ty m.w then (m, .fault 0x03)
  else
    let v := if ty = 2 then sat32 (if op = 0x1F then wInt a + wInt b else wInt a * wInt b)
             else if op = 0x1F then fadd a b else fmul a b
    (m.setSc (bits i 22 4) v, .go)

/-- TLD (R155).  An offset that is no multiple of 64 ends the command with cause TABLE (DESIGN CHOICE, log entry 24). -/
def Vm.execTld (m : Vm) (i : Nat) : Vm × VEnd :=
  let tbl := bits i 24 2
  let arg := m.arg (bits i 22 2)
  let ofs := (m.sc (bits i 18 4)).toNat
  let m' := { m with tabs := m.tabs.filter (fun t => t.1 ≠ tbl) }
  if bits i 0 18 ≠ 0 then (m, .fault 0x02)
  else if arg = 0 then (m, .fault 0x06)
  else if ofs % 64 ≠ 0 then (m', .fault 0x09)
  else
    let r := m'.read [(arg + ofs, 8256)]
    if r.2 ≠ .go then r
    else
      let b := r.1.s.readBytes (arg + ofs) 8256
      let scale : Word := BitVec.ofNat 32 (lfld b 4 4)
      let good := match f32 scale with
        | .fin n k _ => !n && k != 0
        | _ => false
      if !good || !lzero b 8 56 then (r.1, .fault 0x09)
      else
        let ents := (List.range 2048).map (fun k => BitVec.ofNat 32 (lfld b (64 + 4 * k) 4))
        ({ r.1 with tabs := (tbl, ⟨BitVec.ofNat 32 (lfld b 0 4), scale, ents⟩) :: r.1.tabs }, .go)

/-- LDS and STS.  A slot that the command has not written reads as free values (R147, log entry 3). -/
def Vm.execScratch (m : Vm) (i : Nat) (store : Bool) : Vm × VEnd :=
  let v := bits i 20 6
  let slot := bits i 0 12
  if bits i 12 8 ≠ 0 then (m, .fault 0x02)
  else if 159 < slot then (m, .fault 0x0B)
  else if store then ({ m with scratch := (slot, m.reg v) :: m.scratch.filter (fun e => e.1 ≠ slot) }, .go)
  else match m.scratch.find? (fun e => e.1 = slot) with
    | some e => (m.setReg v e.2, .go)
    | none =>
      let x := (List.range 256).map (fun l => BitVec.ofNat 32 (leNat ((List.range 4).map (fun k => Config.freeByte m.s.free (4 * l + k)))))
      (({ m with s := { m.s with free := m.s.free + 1 } } : Vm).setReg v x, .go)

/-- SLD and SST. -/
def Vm.execSM (m : Vm) (i : Nat) (store : Bool) : Vm × VEnd :=
  let sd := bits i 22 4
  let arg := m.arg (bits i 20 2)
  let a := arg + 4 * bits i 0 20
  if arg = 0 then (m, .fault 0x06)
  else if store then
    (if m.s.bound m.part a 4 ≠ .ok then ({ m with outs := m.outs.insert (a, 4) }, .address a)
     else { m with outs := m.outs.insert (a, 4) }.write [(a, toLE 4 (m.sc sd).toNat)])
  else
    let r := m.read [(a, 4)]
    if r.2 ≠ .go then r else (r.1.setSc sd (BitVec.ofNat 32 (r.1.s.readNat a 4)), .go)

/-- Move the program counter by a signed offset from `pc`; leaving 0 to 16,383 is cause PC (R163). -/
def Vm.jump (m : Vm) (ofs : Int) : Vm × VEnd :=
  let t : Int := (m.pc : Int) + ofs
  if t < 0 ∨ 16383 < t then (m, .fault 0x04) else ({ m with pc := t.toNat }, .go)

/-- One instruction, the program counter moved past it. -/
def Vm.exec1 (m : Vm) : Vm × VEnd :=
  let i := (sget 0 (m.s.tile m.tile).program m.pc).toNat
  let op := bits i 26 6
  let next (r : Vm × VEnd) : Vm × VEnd := if r.2 = .go then r.1.jump 1 else r
  if op = 0x00 ∨ op = 0x2D ∨ op = 0x2E then
    if bits i 0 26 ≠ 0 then (m, .fault 0x02)
    else if op = 0x2D then (m, .halt) else if op = 0x2E then (m, .exit) else next (m, .go)
  else if op ≤ 0x17 then next (m.execR i op)
  else if op = 0x18 then next (m.execCvt i)
  else if op ≤ 0x1E then next (m.execS i op)
  else if op ≤ 0x20 then next (m.execSS i op)
  else if op = 0x21 then
    if bits i 20 2 ≠ 0 then (m, .fault 0x02) else next (m.setSc (bits i 22 4) (BitVec.ofNat 32 (bits i 0 20 * 4096)), .go)
  else if op = 0x22 then
    if bits i 20 2 ≠ 0 then (m, .fault 0x02) else next (m.setSc (bits i 22 4) (ofInt32 (signed 20 (bits i 0 20))), .go)
  else if op = 0x23 then next (m.ld (bits i 20 6) (bits i 18 2) (bits i 14 4) (bits i 12 2) (signed 12 (bits i 0 12)))
  else if op = 0x24 then next (m.st (bits i 20 6) (bits i 18 2) (bits i 14 4) (bits i 12 2) (signed 12 (bits i 0 12)))
  else if op = 0x25 then next (m.execScratch i false)
  else if op = 0x26 then next (m.execScratch i true)
  else if op = 0x27 then next (m.execSM i false)
  else if op = 0x28 then next (m.execSM i true)
  else if op = 0x29 then next (m.execTld i)
  else if op ≤ 0x2C then
    if bits i 14 8 ≠ 0 ∨ (op = 0x2A ∧ bits i 22 4 ≠ 0) then (m, .fault 0x02)
    else
      let z := m.sc (bits i 22 4) == 0
      m.jump (if op = 0x2A ∨ (op = 0x2B ∧ z) ∨ (op = 0x2C ∧ !z) then signed 14 (bits i 0 14) else 1)
  else if op = 0x2F then
    if bits i 20 6 ≠ 0 ∨ 1 < bits i 0 20 then (m, .fault 0x02)
    else if m.pc ≠ m.base then (m, .fault 0x0A) else next (m, .go)
  else (m, .fault 0x01)

/-- One instruction of a program, counted (R163, R174): at HALT the next sweep begins, and the last sweep's HALT ends the
command.  The instruction that ends a command counts as issued, at a program fault too (DESIGN CHOICE, log entry 65).  The 65,537th instruction of a
sweep gives RUNAWAY whatever it is (R163; DESIGN CHOICE, log entry 90). -/
def Vm.step (m : Vm) : Vm × VEnd :=
  if 65536 ≤ m.inSweep then (m, .fault 0x05)
  else
    let r := m.exec1
    let m' := { r.1 with issued := r.1.issued + 1, inSweep := r.1.inSweep + 1 }
    if r.2 = .halt then
      (if (m.sweep + 1) * m.w < m.count then ({ m' with sweep := m.sweep + 1, pc := m.base, inSweep := 0 }, .go) else (m', .exit))
    else (m', r.2)
/-- A program run on for at most `n` instructions. -/
def Vm.run : Nat → Vm → Vm × VEnd
  | 0, m => (m, .go)
  | n + 1, m => let r := m.step; if r.2 = .go then Vm.run n r.1 else r
/-- Instructions that a command's sweeps can issue (R163). -/
def Vm.limit (m : Vm) : Nat := (m.count / max 1 m.w + 1) * 65537

/-! ## VEC_RUN (R123, R147) -/

def vecChecks (d : BitVec 512) : Checks :=
  let ofs := dfld d 40 2
  let len := dfld d 46 2
  let src := dAddr d 48
  { reserved := headerReserved d || dfld d 62 2 != 0
    range := headerRange d || ofs % 4 != 0 || dfld d 42 4 == 0 ||
      (if src = 0 then len != 0 else len == 0 || decide (16384 < len) || decide (65536 < ofs + 4 * len))
    aligns := [dAddr d 16, dAddr d 22, dAddr d 28, dAddr d 34, src]
    ins := if src = 0 then [] else [(src, 4 * len)] }

/-- The tile's vector unit after a run.  Tables loaded before a failed load stay marked loaded (R171; DESIGN CHOICE, log entry 90). -/
def Vm.unit (m : Vm) (v : VecUnit) : VecUnit :=
  let flat (k : Nat) (l : List Word) : Store Word := l.zipIdx.filterMap (fun (x, i) => if x = 0 then none else some (k + i, x))
  { v with
    regs := (m.regs.flatMap (fun r => flat (256 * r.1) r.2))
    scalars := flat 0 m.scal
    tableLo := m.tabs.foldl (fun st t => sset 0 st t.1 t.2.lo) []
    tableScale := m.tabs.foldl (fun st t => sset 0 st t.1 t.2.scale) []
    tables := (List.range 4).flatMap (fun k => match m.tabs.find? (fun t => t.1 = k) with
      | some t => flat (4096 * k) t.2.entries
      | none => [])
    tableLoaded := BitVec.ofNat 4 ((m.tabs.map (fun t => 2 ^ t.1)).sum)
    scratch := m.scratch.foldl (fun st e => (List.range 256).foldl (fun st l => sset 0 st (256 * e.1 + l) ((e.2[l]?).getD 0)) st) v.scratch
    pc := m.pc, sweep := m.sweep, width := m.w
    undef := none }

/-- The unit at the start of a VEC_RUN: its program loaded, everything cleared (R147). -/
def vecStart (d : BitVec 512) (t p : Nat) (s : State) : Vm :=
  let base := dfld d 40 2 / 4
  let src := dAddr d 48
  let x := s.tile t
  let prog := (List.range (dfld d 46 2)).foldl
    (fun st i => sset 0 st (base + i) (BitVec.ofNat 32 (s.readNat (src + 4 * i) 4))) x.program
  let first := (sget 0 prog base).toNat
  { s := s.setTile t { x with program := prog }, tile := t, part := p, args := [dAddr d 16, dAddr d 22, dAddr d 28, dAddr d 34],
    count := dfld d 42 4, base := base, w := if bits first 26 6 = 0x2F ∧ bits first 0 20 = 1 then 512 else 256, pc := base,
    scal := BitVec.ofNat 32 (dfld d 54 4) :: BitVec.ofNat 32 (dfld d 58 4) :: List.replicate 14 0 }
/-- The unit of a VEC_RUN that a take interrupted, with whatever its tile's program store now holds (R171). -/
def vecResume (d : BitVec 512) (t p : Nat) (w : VecWork) (s : State) : Vm :=
  { toVecWork := w, s := s, tile := t, part := p, args := [dAddr d 16, dAddr d 22, dAddr d 28, dAddr d 34],
    count := dfld d 42 4, base := dfld d 40 2 / 4 }

/-- What the named outputs of a failed program are left as: undefined in every part that the command may write, but for the bytes
stored before an ADDRESS or POISON end, which stay (R115, R160).  The outputs are the tensors that its ST and SST instructions
have addressed (DEDUCED, log entry 66). -/
def Vm.spoil (m : Vm) (keep : Bool) : State :=
  let s := (m.outs.flatMap (m.s.reachable m.part)).foldl (fun s r => s.freeBytes r.1 r.2) m.s
  if keep then { s with mem := m.stored.foldl (fun x b => x.writeByte b.1 b.2) s.mem } else s

/-- How a program's end becomes the command's end; `counted` of its instructions have been counted as they were issued. -/
def vecEnd (counted : Nat) (m : Vm) (e : VEnd) : Done :=
  let keep (s : State) : State :=
    let x := s.tile m.tile
    s.setTile m.tile { x with vec := m.unit x.vec, vecIssue := x.vecIssue + BitVec.ofNat 64 (m.issued - counted) }
  match e with
  | .fault cause =>
    let s := keep (m.spoil false)
    { s := s.setTile m.tile { s.tile m.tile with vecFaultCause := cause, vecFaultPc := m.pc, vecFaultSweep := m.sweep % 2 ^ 32 },
      status := stProgram }
  | .address a => { s := (keep (m.spoil true)).boundsFault m.part a, status := stAddress }
  | .poison => { s := keep (m.spoil true), status := stPoison }
  | _ => { s := keep m.s, outs := m.outs }

/-- VEC_RUN from its beginning, or from where a take left it. -/
def vecRun (d : BitVec 512) (t p : Nat) (w : Option VecWork) (s : State) : Done :=
  match w with
  | some w => let m := vecResume d t p w s; let r := m.run m.limit; vecEnd w.issued r.1 r.2
  | none => reading s (.tile t) (vecChecks d) (fun s => let m := vecStart d t p s; let r := m.run m.limit; vecEnd 0 r.1 r.2)
/-- One yield unit of a VEC_RUN: an instruction that does not end it, counted as it is issued (R132, R171, R174); the model's unit is one
instruction (log entry 67). -/
def vecUnit (d : BitVec 512) (t p : Nat) (w : Option VecWork) (s : State) : Option (State × VecWork) :=
  let s := if w.isNone then s.fetchAll (.tile t) (vecChecks d).ins else s
  if w.isNone ∧ (vecChecks d).ins.any (fun r => s.meetsPoison (.tile t) r.1 r.2) then none
  else
    let m := match w with
      | some w => vecResume d t p w s
      | none => vecStart d t p s
    let r := m.step
    if r.2 = .go then
      let x := r.1.s.tile t
      some (r.1.s.setTile t { x with vecIssue := x.vecIssue + BitVec.ofNat 64 (r.1.issued - m.issued) }, r.1.toVecWork)
    else none

end Sys2Proof.Machine
end

