-- ==== Sys2Proof/Machine/Sample.lean ====
section
/-! DEFINITION.  SAMPLE: candidates, weights, nucleus and draw (R165-R169), and VERIFY (R298). -/
namespace Sys2Proof.Machine
open Sys2Proof

structure SampleCmd where
  logits : Nat
  vocab : Nat
  fmt : Nat
  topK : Nat
  topP : Nat
  temp : Nat
  req : Nat
  pos : Nat
  seed : Nat
  stepSeq : Nat
  ring : Bool
  write : Bool
  verify : Bool
  rows : Nat
  aux : Nat
  deriving DecidableEq, Repr

def sampleFields (d : BitVec 512) : SampleCmd :=
  { logits := dAddr d 16, vocab := dfld d 22 3, fmt := dfld d 25 1, topK := dfld d 26 2, topP := dfld d 28 2,
    temp := dfld d 30 2, req := dfld d 32 2, pos := dfld d 34 4, seed := dfld d 38 8, stepSeq := dfld d 46 2,
    ring := dbits d 48 0 1 == 1, write := dbits d 48 1 1 == 1, verify := dbits d 48 2 1 == 1,
    rows := dfld d 49 1, aux := dAddr d 50 }

/-- TEMP of R166 and R167: none when refused, some 0 for greedy, otherwise its FP32 encoding. -/
def tempOf (t : Nat) : Option Word :=
  match fp16.decode t with
  | .nan => none
  | .inf _ => none
  | .fin n m e => if t / 1024 % 32 = 0 then some 0 else if n then none else some (toF32 (.fin n m e))
/-- TOP_P is a number above 0 and at most 1. -/
def topPOk (p : Nat) : Bool :=
  match fp16.decode p with
  | .nan => false
  | .inf _ => false
  | .fin n m e => !n && m != 0 && FV.le (.fin n m e) (.fin false 1 0)

def SampleCmd.pitch (x : SampleCmd) : Nat := rowPitch (fmtWidth x.fmt) x.vocab

def sampleChecks (d : BitVec 512) (s : State) (p : Nat) : Checks :=
  let x := sampleFields d
  { reserved := headerReserved d || dbits d 48 3 5 != 0 || dfld d 56 8 != 0
    format := x.fmt != 0xC && x.fmt != 0xB
    range := headerRange d || x.vocab == 0 || decide (1048576 < x.vocab) || decide (256 < x.topK) || !topPOk x.topP ||
      (tempOf x.temp).isNone || (p != 8 && s.reqPart x.req != p) || (!x.ring && !x.write) || (x.write && x.verify) ||
      x.rows == 0 || decide (9 < x.rows) || (decide (1 < x.rows) && !x.verify)
    aligns := [x.logits, x.aux]
    ins := (x.logits, x.rows * x.pitch) :: (if x.verify then [(x.aux, (x.rows - 1) * 8)] else [])
    outs := if x.write then [(x.aux, x.rows * 8)] else [] }

/-- Logits of row r as SAMPLE uses them (R165). -/
def sampleRow (s : State) (x : SampleCmd) (r : Nat) : List Word :=
  let l := (List.range x.vocab).map (fun i =>
    let v := widen x.fmt (s.elem (x.logits + r * x.pitch) (fmtWidth x.fmt) i)
    if (f32 v).isNan then negInf else if v = 0x7F800000 then (0x7F7FFFFF : Word) else v)
  if l.all (· == negInf) then l.map (fun _ => 0) else l

/-- Insert into a list in descending value order, after equal ones. -/
def insertDesc (v : Word) (i : Nat) : List (Word × Nat) → List (Word × Nat)
  | [] => [(v, i)]
  | e :: r => if flt e.1 v then (v, i) :: e :: r else e :: insertDesc v i r
/-- Tokens in descending logit order, ties to the lower index (R167 step 2). -/
def rankTokens (l : List Word) : List (Word × Nat) := l.zipIdx.foldl (fun acc (v, i) => insertDesc v i acc) []

/-- Running sums of the weights in candidate order (R167 step 3). -/
def running : List (Nat × Word) → Word → List (Nat × Word × Word)
  | [], _ => []
  | (i, w) :: r, c => (i, w, fadd c w) :: running r (fadd c w)
def runningSums (l : List (Nat × Word)) : List (Nat × Word × Word) :=
  match l with
  | [] => []
  | (i, w) :: r => (i, w, w) :: running r w

/-- Candidates up to and including the first whose sum reaches the threshold. -/
def cutAt (th : Word) : List (Nat × Word × Word) → List (Nat × Word × Word)
  | [] => []
  | c :: r => if fle th c.2.2 then [c] else c :: cutAt th r

def logE : Word := 0x3FB8AA3B

/-- Kept candidates with weights and running sums (R167 steps 2-4). -/
def keptCandidates (x : SampleCmd) (temp : Word) (l : List Word) : List (Nat × Word × Word) :=
  let ranked := rankTokens l
  let lmax := (ranked.head?.map (·.1)).getD 0
  let cand := if x.topK = 0 then ranked else ranked.take (min x.topK x.vocab)
  let r := frcp temp
  let ws := cand.map (fun c => (c.2, fexp2 (fmul (fmul (fsub c.1 lmax) r) logE)))
  let sums := runningSums ws
  let total := (sums.getLast?.map (·.2.2)).getD 0
  if x.topP = 0x3C00 then sums else cutAt (fmul (toF32 (fp16.decode x.topP)) total) sums

/-- A 24-bit draw as a number below 1. -/
def unitDraw (k x : Nat) : Word := toF32 (.fin false (draw24 k x) (-24))

/-- Draw a token (R167 step 5); `d` where no candidate is kept. -/
def drawToken (u : Word) (kept : List (Nat × Word × Word)) (d : Nat) : Nat :=
  let total := (kept.getLast?.map (·.2.2)).getD 0
  let th := fmul u total
  match kept.find? (fun c => flt th c.2.2) with
  | some c => c.1
  | none => (kept.getLast?.map (·.1)).getD d

/-- Log-probability of a token, FP16 (R168). -/
def logProb (l : List Word) (tok : Nat) : BitVec 16 :=
  let lmax := l.foldl (fun m v => if flt m v then v else m) negInf
  let s1 := l.foldl (fun acc v => fadd acc (fexp2 (fmul (fsub v lmax) logE))) 0
  let lt := (l[tok]?).getD 0
  let v := toF32 (((f32 lt).add (f32 lmax).neg).add (f32 (fmul (flog2 s1) 0x3F317218)).neg)
  BitVec.ofNat 16 (fp16.encode .rne (f32 v))

/-- The token of one row under R167. -/
def sampleToken (x : SampleCmd) (temp : Word) (l : List Word) (r : Nat) : Nat :=
  if temp = 0 then ((rankTokens l).head?.map (·.2)).getD 0
  else drawToken (unitDraw x.seed ((x.pos + r) * 2 ^ 32)) (keptCandidates x temp l) 0

/-- One row of VERIFY against its draft: the token and whether the draft was accepted (R298). -/
def verifyRow (x : SampleCmd) (temp : Word) (l : List Word) (r draft : Nat) : Nat × Bool :=
  if temp = 0 then
    let g := sampleToken x temp l r
    (g, g == draft)
  else
    let kept := keptCandidates x temp l
    let total := (kept.getLast?.map (·.2.2)).getD 0
    let th := fmul (unitDraw x.seed ((x.pos + r) * 2 ^ 32 + 1)) total
    match kept.find? (fun c => c.1 = draft) with
    | some c =>
      if flt th c.2.1 then (draft, true)
      else (drawToken (unitDraw x.seed ((x.pos + r) * 2 ^ 32))
              (runningSums ((kept.filter (fun c => c.1 ≠ draft)).map (fun c => (c.1, c.2.1)))) draft, false)
    | none => (drawToken (unitDraw x.seed ((x.pos + r) * 2 ^ 32)) kept draft, false)

/-- Tokens and log-probabilities of rows r on; `n` rows are left. -/
def verifyRows (s : State) (x : SampleCmd) (temp : Word) : Nat → Nat → List (Nat × BitVec 16)
  | 0, _ => []
  | n + 1, r =>
    let l := sampleRow s x r
    if n = 0 then
      let t := sampleToken x temp l r
      [(t, logProb l t)]
    else
      let v := verifyRow x temp l r (s.readNat (x.aux + 8 * r) 4)
      (v.1, logProb l v.1) :: (if v.2 then verifyRows s x temp n (r + 1) else [])

def sampleRun (d : BitVec 512) (t p : Nat) (s : State) : Done :=
  let x := sampleFields d
  let c := sampleChecks d s p
  let s := s.vecUsed t d
  reading s (.tile t) c (fun s =>
    let temp := (tempOf x.temp).getD 0
    let toks := if x.verify then verifyRows s x temp x.rows 0
      else (List.range x.rows).map (fun r => let l := sampleRow s x r; let k := sampleToken x temp l r; (k, logProb l k))
    let recs := toks.zipIdx.map (fun (k, r) =>
      ({ req := x.req, stepSeq := x.stepSeq, token := BitVec.ofNat 32 k.1, logprob := k.2, accept := toks.length,
         position := x.pos + r, last := r + 1 == toks.length } : RingRec))
    let r := finishRows s (.tile t) c (if x.write then [(x.aux, toks.flatMap (fun k => toLE 4 k.1 ++ toLE 2 k.2.toNat ++ [0, 0]))] else [])
      0 (flag x.ring 4) toks.length
    if r.status = 0 ∧ x.ring then { r with s := { r.s with teller := { r.s.teller with ringRecs := r.s.teller.ringRecs ++ recs } } }
    else r)

end Sys2Proof.Machine
end

