-- ==== Sys2Proof/Machine/Vision.lean ====
section
/-! DEFINITION.  CROP_RESIZE (R229-R232), BOX_DECODE (R233, R234) and NMS (R235-R238), descriptors of R131. -/
namespace Sys2Proof.Machine
open Sys2Proof

def fin32 (x : Word) : Bool := !(isSpecial fp32 x.toNat)
/-- An integer as FP32, rounded to nearest even. -/
def fromNat32 (n : Nat) : Word := toF32 (.fin false n 0)
def halfF : Word := 0x3F000000
def word (l : List Byte) (b : Nat) : Word := BitVec.ofNat 32 (lfld l b 4)
/-- FP16 widened exactly. -/
def widen16 (h : Nat) : Word := toF32 (fp16.decode h)

/-! ## CROP_RESIZE -/

structure Crop where
  img : Nat
  box : Nat
  out : Nat
  count : Nat
  h : Nat
  w : Nat
  ch : Nat
  oh : Nat
  ow : Nat
  fmt : Nat
  nearest : Bool
  half : Bool
  fill : Nat
  deriving DecidableEq, Repr

def cropFields (d : BitVec 512) : Crop :=
  { img := dAddr d 16, box := dAddr d 22, out := dAddr d 28, count := dfld d 34 2, h := dfld d 36 2, w := dfld d 38 2,
    ch := dfld d 40 2, oh := dfld d 42 1, ow := dfld d 43 1, fmt := dbits d 44 0 4, nearest := dbits d 44 4 1 == 1,
    half := dbits d 44 5 1 == 1, fill := dfld d 46 2 }

def Crop.inPitch (x : Crop) : Nat := rowPitch (fmtWidth x.fmt) x.w
def Crop.outPitch (x : Crop) : Nat := rowPitch (fmtWidth x.fmt) x.ow
def Crop.cropPitch (x : Crop) : Nat := x.ch * x.oh * x.outPitch

def cropChecks (d : BitVec 512) : Checks :=
  let x := cropFields d
  let ins := [(x.img, x.ch * x.h * x.inPitch), (x.box, 16 * x.count)]
  let outs := [(x.out, x.count * x.cropPitch)]
  { reserved := headerReserved d || dbits d 44 6 2 != 0 || dfld d 45 1 != 0 || dfld d 48 16 != 0
    format := !([0x2, 0x3, 0xA, 0xB, 0xC].contains x.fmt)
    range := headerRange d || x.count == 0 || x.h == 0 || x.w == 0 || x.ch == 0 || decide (4096 < x.ch) || x.oh == 0 ||
      x.ow == 0 || (x.fmt == 0x2 && decide (255 < x.fill)) || anyOverlap ins outs
    limit := decide (4096 < x.count) || decide (64 < x.oh) || decide (64 < x.ow)
    aligns := [x.img, x.box, x.out]
    ins := ins
    outs := outs }

/-- Coordinates of the samples along one axis (R230). -/
def cropCoords (half : Bool) (n : Nat) (a b : Word) : List Word :=
  if half then
    let step := fdiv (fsub b a) (fromNat32 n)
    (List.range n).map (fun i => fsub (fadd a (fmul (fadd (fromNat32 i) halfF) step)) halfF)
  else if n = 1 then [fmul (fadd a b) halfF]
  else
    let step := fdiv (fsub b a) (fromNat32 (n - 1))
    (List.range n).map (fun i => fadd a (fmul (fromNat32 i) step))

/-- A sample coordinate lies in [−0.5, n − 0.5]; a NaN does not. -/
def inImage (n : Nat) (c : Word) : Bool := fle 0xBF000000 c && FV.le (f32 c) (.fin false (2 * n - 1) (-1))
def clampF (lo hi c : Word) : Word := toF32 (((f32 c).max (f32 lo)).min (f32 hi))
def floorNat (c : Word) : Nat := match (f32 c).floor.toInt .zero with | some i => i.toNat | none => 0

/-- The element value of one sample (R231). -/
def cropSample (x : Crop) (px : Nat → Nat → Word) (y xx : Word) : Word :=
  let y := clampF 0 (fromNat32 (x.h - 1)) y
  let xx := clampF 0 (fromNat32 (x.w - 1)) xx
  if x.nearest then px (min (floorNat (fadd y halfF)) (x.h - 1)) (min (floorNat (fadd xx halfF)) (x.w - 1))
  else
    let ya := floorNat y
    let yb := min (ya + 1) (x.h - 1)
    let xa := floorNat xx
    let xb := min (xa + 1) (x.w - 1)
    let fy := fsub y (fromNat32 ya)
    let fx := fsub xx (fromNat32 xa)
    let lerp (a b f : Word) : Word := fadd a (fmul f (fsub b a))
    lerp (lerp (px ya xa) (px ya xb) fx) (lerp (px yb xa) (px yb xb) fx) fy

/-- FP32 to an image element, integers saturating (R231). -/
def toElem (fmt : Nat) (v : Word) : Nat :=
  match fmtFloat fmt with
  | some f => f.encode .rne (f32 v)
  | none => unsigned (fmtWidth fmt) (clampInt (fmtWidth fmt) (((f32 v).toInt .rne).getD 0))
/-- An image element widened exactly to FP32. -/
def fromElem (fmt e : Nat) : Word :=
  match fmtFloat fmt with
  | some f => if fmt = 0xC then BitVec.ofNat 32 e else toF32 (f.decode e)
  | none => toF32 (FV.ofInt (signed (fmtWidth fmt) e) 0)

def Crop.fillElem (x : Crop) : Nat := if x.fmt = 0xC then (widen16 x.fill).toNat else x.fill

/-- The crops of a command: whether a coordinate lies outside the image, and the rows written. -/
def cropOut (s : State) (x : Crop) : List (Bool × List (Nat × List Byte)) :=
  (List.range x.count).map (fun b =>
    let bx := s.readBytes (x.box + 16 * b) 16
    let bad := (List.range 4).any (fun i => !(fin32 (word bx (4 * i))))
    let ys := cropCoords x.half x.oh (word bx 0) (word bx 8)
    let xs := cropCoords x.half x.ow (word bx 4) (word bx 12)
    let out := bad || ys.any (fun y => !inImage x.h y) || xs.any (fun v => !inImage x.w v)
    let rows := (List.range x.ch).flatMap (fun ch => ys.zipIdx.map (fun (y, i) =>
      (x.out + b * x.cropPitch + (ch * x.oh + i) * x.outPitch,
       padTo x.outPitch (packElems (fmtWidth x.fmt) (xs.map (fun v =>
         if bad || !inImage x.h y || !inImage x.w v then x.fillElem
         else toElem x.fmt (cropSample x (fun r k =>
           fromElem x.fmt (s.elem (x.img + (ch * x.h + r) * x.inPitch) (fmtWidth x.fmt) k)) y v)))))))
    (out, rows))

def cropRun (d : BitVec 512) (t : Nat) (w : Work) (s : State) : Done :=
  let x := cropFields d
  let c := cropChecks d
  let s := s.vecUsed t d
  reading s (.tile t) c (fun s =>
    let crops := cropOut s x
    finishRows s (.tile t) c ((crops.flatMap (·.2)).drop w.row) 0 (flag (crops.any (·.1)) 8) x.count)

/-! ## BOX_DECODE -/

structure BoxDec where
  delta : Nat
  anchor : Nat
  out : Nat
  count : Nat
  centre : Bool
  clamp : Bool
  fmt : Nat
  cw : Nat
  chh : Nat
  scales : List Nat
  logClamp : Nat
  deriving DecidableEq, Repr

def boxFields (d : BitVec 512) : BoxDec :=
  { delta := dAddr d 16, anchor := dAddr d 22, out := dAddr d 28, count := dfld d 34 4, centre := dbits d 38 0 1 == 1,
    clamp := dbits d 38 1 1 == 1, fmt := dfld d 39 1, cw := dfld d 40 2, chh := dfld d 42 2,
    scales := (List.range 4).map (fun i => dfld d (44 + 2 * i) 2), logClamp := dfld d 52 2 }

def boxChecks (d : BitVec 512) : Checks :=
  let x := boxFields d
  let ins := [(x.delta, x.count * (fmtWidth x.fmt / 2)), (x.anchor, 16 * x.count)]
  let outs := [(x.out, 16 * x.count)]
  { reserved := headerReserved d || dbits d 38 2 6 != 0 || dfld d 54 10 != 0
    format := x.fmt != 0xA && x.fmt != 0xB && x.fmt != 0xC
    range := headerRange d || x.count == 0 || decide (65536 < x.count) || x.cw == 0 || x.chh == 0 ||
      x.scales.any (isSpecial fp16) || (x.centre && isSpecial fp16 x.logClamp) || anyOverlap ins outs
    aligns := [x.delta, x.anchor, x.out]
    ins := ins
    outs := outs }

/-- EXP2(v × log2 e) (R233). -/
def expF (v : Word) : Word := fexp2 (fmul v logE)
def fminW (a b : Word) : Word := toF32 ((f32 a).min (f32 b))

/-- Decode one box: deltas scaled, anchor corners, result corners y0, x0, y1, x1 (R233, R234). -/
def decodeBox (x : BoxDec) (dl an : List Word) : List Word :=
  let g (l : List Word) (i : Nat) : Word := (l[i]?).getD 0
  let sc (i : Nat) : Word := fmul (g dl i) (widen16 ((x.scales[i]?).getD 0))
  let ha := fsub (g an 2) (g an 0)
  let wa := fsub (g an 3) (g an 1)
  let r : List Word :=
    if x.centre then
      let lim := widen16 x.logClamp
      let axis (a0 len dc ds : Word) : Word × Word :=
        let c := fadd (fadd a0 (fmul halfF len)) (fmul dc len)
        let h := fmul len (expF (fminW ds lim))
        (fsub c (fmul halfF h), fadd c (fmul halfF h))
      let y := axis (g an 0) ha (sc 0) (sc 2)
      let xx := axis (g an 1) wa (sc 1) (sc 3)
      [y.1, xx.1, y.2, xx.2]
    else [fadd (g an 0) (fmul (sc 0) ha), fadd (g an 1) (fmul (sc 1) wa),
          fadd (g an 2) (fmul (sc 2) ha), fadd (g an 3) (fmul (sc 3) wa)]
  if x.clamp then r.zipIdx.map (fun (v, i) => clampF 0 (fromNat32 (if i % 2 = 0 then x.chh else x.cw)) v) else r

/-- The decoded boxes as one piece. -/
def boxOut (s : State) (x : BoxDec) : List (Nat × List Byte) :=
  let w := fmtWidth x.fmt
  let boxes := (List.range x.count).map (fun i =>
    decodeBox x ((List.range 4).map (fun k => fromElem x.fmt (s.elem x.delta w (4 * i + k))))
      ((List.range 4).map (fun k => BitVec.ofNat 32 (s.readNat (x.anchor + 16 * i + 4 * k) 4))))
  [(x.out, boxes.flatMap (fun b => b.flatMap (fun v => toLE 4 v.toNat)))]

def boxRun (d : BitVec 512) (t : Nat) (s : State) : Done :=
  let x := boxFields d
  let c := boxChecks d
  let s := s.vecUsed t d
  reading s (.tile t) c (fun s => finishRows s (.tile t) c (boxOut s x) 0 0 0)

/-! ## NMS -/

structure NmsCmd where
  box : Nat
  score : Nat
  out : Nat
  count : Nat
  maxOut : Nat
  iou : Nat
  thr : Word
  cls : Nat
  perClass : Bool
  deriving DecidableEq, Repr

def nmsFields (d : BitVec 512) : NmsCmd :=
  { box := dAddr d 16, score := dAddr d 22, out := dAddr d 28, count := dfld d 34 4, maxOut := dfld d 38 2,
    iou := dfld d 40 2, thr := BitVec.ofNat 32 (dfld d 42 4), cls := dAddr d 46, perClass := dbits d 52 0 1 == 1 }

/-- IOU_THR is a number from 0 to 1. -/
def iouOk (h : Nat) : Bool :=
  FV.le (.fin false 0 0) (fp16.decode h) && FV.le (fp16.decode h) (.fin false 1 0)

def nmsChecks (d : BitVec 512) : Checks :=
  let x := nmsFields d
  let ins := [(x.box, 16 * x.count), (x.score, 4 * x.count)] ++ (if x.perClass then [(x.cls, 2 * x.count)] else [])
  let outs := [(x.out, 26624)]
  { reserved := headerReserved d || dbits d 52 1 7 != 0 || dfld d 53 11 != 0
    range := headerRange d || x.count == 0 || decide (65536 < x.count) || x.maxOut == 0 || decide (1024 < x.maxOut) ||
      !iouOk x.iou || (f32 x.thr).isNan || (x.perClass != (x.cls != 0)) || anyOverlap ins outs
    aligns := [x.box, x.score, x.out, x.cls]
    ins := ins
    outs := outs }

structure Cand where
  i : Nat
  score : Word
  box : List Word
  cls : Nat
  deriving DecidableEq, Repr

/-- IoU of two boxes exceeds the threshold (R237). -/
def iouExceeds (thr : Word) (a b : List Word) : Bool :=
  let g (l : List Word) (i : Nat) : Word := (l[i]?).getD 0
  let pos (v : Word) : Word := fmax 0 v
  let area (l : List Word) : Word := fmul (pos (fsub (g l 2) (g l 0))) (pos (fsub (g l 3) (g l 1)))
  let ext (lo hi : Nat) : Word := pos (fsub (fminW (g a hi) (g b hi)) (fmax (g a lo) (g b lo)))
  let inter := fmul (ext 0 2) (ext 1 3)
  let union := fsub (fadd (area a) (area b)) inter
  flt 0 union && flt (fmul thr union) inter

/-- Walk the ranking: kept candidates, newest first, and TRUNCATED (R236). -/
def nmsWalk (thr : Word) (perClass : Bool) (maxOut : Nat) : List Cand → List Cand → List Cand × Bool
  | [], kept => (kept, false)
  | c :: r, kept =>
    if kept.any (fun k => (!perClass || k.cls == c.cls) && iouExceeds thr k.box c.box) then nmsWalk thr perClass maxOut r kept
    else if maxOut ≤ kept.length then (kept, true)
    else nmsWalk thr perClass maxOut r (c :: kept)

def insertCand (c : Cand) : List Cand → List Cand
  | [] => [c]
  | e :: r => if flt e.score c.score then c :: e :: r else e :: insertCand c r

/-- The kept candidates, and TRUNCATED (R236). -/
def nmsKept (s : State) (x : NmsCmd) : List Cand × Bool :=
  let cands := (List.range x.count).map (fun i =>
    ({ i := i, score := BitVec.ofNat 32 (s.readNat (x.score + 4 * i) 4)
       box := (List.range 4).map (fun k => BitVec.ofNat 32 (s.readNat (x.box + 16 * i + 4 * k) 4))
       cls := if x.perClass then s.readNat (x.cls + 2 * i) 2 else 0 } : Cand))
  let eligible := cands.filter (fun k => flt x.thr k.score && k.box.all fin32)
  let ranked := eligible.foldl (fun acc k => insertCand k acc) []
  let r := nmsWalk (widen16 x.iou) x.perClass x.maxOut ranked []
  (r.1.reverse, r.2)
/-- The four arrays of the output. -/
def nmsOut (x : NmsCmd) (kept : List Cand) : List (Nat × List Byte) :=
  [(x.out, kept.flatMap (fun k => toLE 4 k.i)),
   (x.out + 0x1000, kept.flatMap (fun k => k.box.flatMap (fun v => toLE 4 v.toNat))),
   (x.out + 0x5000, kept.flatMap (fun k => toLE 4 k.score.toNat)),
   (x.out + 0x6000, kept.flatMap (fun k => toLE 2 k.cls))]

def nmsRun (d : BitVec 512) (t : Nat) (w : Work) (s : State) : Done :=
  let x := nmsFields d
  let c := nmsChecks d
  let s := s.vecUsed t d
  reading s (.tile t) c (fun s =>
    let r := nmsKept s x
    finishRows s (.tile t) c ((nmsOut x r.1).drop w.row) 0 (flag r.2 2) r.1.length)

end Sys2Proof.Machine
end

