-- ==== Sys2Proof/Machine/Attend.lean ====
section
/-! DEFINITION.  Latent records (R241, R242), page lists (R243-R245), the attention parameter and expansion blocks
(R246, R247, R251), expand-on-read (R252), and ATTEND (R122, R248-R265). -/
namespace Sys2Proof.Machine
open Sys2Proof

/-- Result of a step that can end the command: status and the address to report. -/
abbrev Try (α : Type) := Except (Nat × Nat) α

/-- Read a range for an agent under the tag's bounds and poison rules (R245, R183). -/
def tryRead (s : State) (g : Agent) (p a n : Nat) : Try (List Byte) :=
  if s.bound p a n != .ok then .error (stAddress, a)
  else if s.meetsPoison g a n then .error (stPoison, a)
  else .ok (s.readBytes a n)

/-! ## Records (R241) -/

/-- KV_FMT codes. -/
def kvOk (f : Nat) : Bool := [0x5, 0x6, 0x7, 0x2].contains f
def blocksOf (dim : Nat) : Nat := (dim + 31) / 32
/-- S: bytes of the significand part. -/
def recS (fmt dim : Nat) : Nat := roundUp (packedBytes (fmtWidth fmt) (32 * blocksOf dim)) 64
/-- Smallest power of two at or above n, from 2^k on. -/
def powAbove (n : Nat) : Nat → Nat → Nat
  | 0, k => 2 ^ k
  | f + 1, k => if n ≤ 2 ^ k then 2 ^ k else powAbove n f (k + 1)
/-- R_B. -/
def recBytes (fmt dim : Nat) : Nat := powAbove (recS fmt dim + 64) 6 7

/-- The blocks of a record's bytes; an I8 record is B8 with one exponent for all (R242). -/
def recBlocks (fmt dim : Nat) (bs : List Byte) : List Blk :=
  let w := fmtWidth fmt
  let sN := recS fmt dim
  (List.range (blocksOf dim)).map (fun j =>
    let e := lfld bs (sN + if fmt = 0x2 then 0 else j) 1
    let sig := (List.range 32).map (fun i =>
      let k := 32 * j + i
      signed w (lfld bs (w * k / 8) (max 1 (w / 8)) / 2 ^ (w * k % 8) % 2 ^ w))
    if e = 0xFF then { nan := true, e := e, sig := sig.map (fun _ => 0) } else { e := e, sig := sig })

/-! ## Page lists (R243-R245) -/

structure PageList where
  addr : Nat
  firstK : Nat
  capK : Nat
  fmt : Nat
  dim : Nat
  seqLen : Nat
  entries : Nat
  deriving DecidableEq, Repr

/-- Read and check a page-list header.  One whose SEQ_LEN or ENTRIES lies outside the range of R243 counts as invalid (R245; DESIGN CHOICE, log
entry 91). -/
def readList (s : State) (g : Agent) (p a : Nat) : Try PageList := do
  let h ← tryRead s g p a 64
  let l : PageList := { addr := a, firstK := lfld h 0 1, capK := lfld h 1 1, fmt := lfld h 2 1, dim := lfld h 4 2,
                        seqLen := lfld h 8 4, entries := lfld h 12 4 }
  if l.firstK < 12 ∨ 21 < l.firstK ∨ l.capK < l.firstK ∨ 21 < l.capK ∨ !kvOk l.fmt ∨ l.dim = 0 ∨ 1024 < l.dim ∨
     !lzero h 3 1 ∨ !lzero h 6 2 ∨ !lzero h 16 48 ∨ 2 ^ 24 ≤ l.seqLen ∨ 65535 < l.entries then .error (stAddress, a)
  else .ok l

/-- Page entry and offset of logical byte b (R244): index, log2 of the page's size, offset. -/
def pageIndex (l : PageList) (b : Nat) : Nat × Nat × Nat :=
  let f := l.firstK
  let c := l.capK
  let head := 2 ^ c - 2 ^ f
  if b < head then
    let i := Nat.log2 (b / 2 ^ f + 1)
    (i, f + i, b - (2 ^ (f + i) - 2 ^ f))
  else ((c - f) + (b - head) / 2 ^ c, c, (b - head) % 2 ^ c)

/-- Address of logical byte b and the bytes left in its page, which lies in DRAM or in a tile store (R245). -/
def pageAt (s : State) (g : Agent) (p : Nat) (l : PageList) (b : Nat) : Try (Nat × Nat) := do
  let (i, k, ofs) := pageIndex l b
  if l.entries ≤ i then .error (stAddress, l.addr)
  else
    let e := leNat (← tryRead s g p (l.addr + 64 + 8 * i) 8)
    let page := e % 2 ^ 36 * 4096
    if e / 2 ^ 36 % 16 + 12 ≠ k ∨ page % 2 ^ k ≠ 0 ∨ e / 2 ^ 40 ≠ 0 then .error (stAddress, page)
    else if s.bound p page (2 ^ k) != .ok || decide (hostWindow ≤ page) then .error (stAddress, page)
    else .ok (page + ofs, 2 ^ k - ofs)

/-! ## Expansion block (R251, R252) -/

structure Expand where
  uk : Nat
  uv : Nat
  ukE : Nat
  uvE : Nat
  wFmt : Nat
  outFmt : Nat
  which : Nat
  lsb : Int
  heads : Nat
  hd : Nat
  dim : Nat
  kvFmt : Nat
  deriving DecidableEq, Repr

def expandFields (b : List Byte) : Expand :=
  { uk := lfld b 0 6, uv := lfld b 6 6, ukE := lfld b 12 4, uvE := lfld b 16 4, wFmt := lfld b 20 1,
    outFmt := lfld b 21 1 % 16, which := lfld b 21 1 / 16 % 4, lsb := signed 16 (lfld b 22 2), heads := lfld b 24 1,
    hd := lfld b 25 1, dim := lfld b 26 2, kvFmt := lfld b 28 1 }

def Expand.rowPitch (x : Expand) : Nat := Machine.rowPitch (fmtWidth x.wFmt) x.dim
def Expand.rows (x : Expand) : Nat := x.heads * x.hd * 8
/-- Ranges of the up-projections used: keys, values. -/
def Expand.spans (x : Expand) (keys values : Bool) : List (Nat × Nat) :=
  let e := x.rows * roundUp (blocksOf x.dim) 64
  (if keys then [(x.uk, x.rows * x.rowPitch), (x.uk + x.ukE, e)] else []) ++
    (if values then [(x.uv, x.rows * x.rowPitch), (x.uv + x.uvE, e)] else [])

def expandChecks (b : List Byte) (keys values : Bool) : Checks :=
  let x := expandFields b
  { reserved := lfld b 21 1 / 64 != 0 || !lzero b 29 35
    format := !([0x5, 0x6, 0x7].contains x.wFmt) || !([0x6, 0x7].contains x.outFmt) || !kvOk x.kvFmt
    range := x.ukE % 64 != 0 || x.uvE % 64 != 0 || decide (x.lsb < -320) || decide (255 < x.lsb) || x.heads == 0 ||
      decide (64 < x.heads) || x.hd == 0 || decide (32 < x.hd) || x.dim == 0 || decide (1024 < x.dim)
    aligns := [x.uk, x.uv]
    ins := x.spans keys values }

/-- The expanded row of head h of a record: FP32 elements re-blocked to OUT_FMT (R252). -/
def expandHead (s : State) (x : Expand) (u ue h : Nat) (rec : List Blk) (recW : Nat) : List Blk :=
  let o : Operand := { blk := true, w := fmtWidth x.wFmt, sw := fmtWidth x.wFmt }
  let vals := (List.range (x.hd * 8)).map (fun dI =>
    let r := h * x.hd * 8 + dI
    let ub := (List.range (blocksOf x.dim)).map (fun j =>
      (s.block o (u + r * x.rowPitch) (ue + r * roundUp (blocksOf x.dim) 64) j).1)
    ((blockDot o.w recW x.lsb {} ub rec).1.toFp32 x.lsb .rne).1)
  (List.range (blocksOf (x.hd * 8))).map (fun j =>
    (ingest fp32 (blkFrac (fmtWidth x.outFmt)) ((List.range 32).map (fun i => (vals[32 * j + i]?).getD 0))).1)

/-! ## ATTEND -/

structure Att where
  q : Nat
  param : Nat
  out : Nat
  rows : Nat
  pos0 : Nat
  heads : Nat
  kFirst : Nat
  kCount : Nat
  qFmt : Nat
  kvFmt : Nat
  causal : Bool
  segments : Bool
  bias : Bool
  absorbed : Bool
  final : Bool
  split : Nat
  part : Nat
  dim : Nat
  hd : Nat
  deriving DecidableEq, Repr

def attFields (d : BitVec 512) : Att :=
  { q := dAddr d 16, param := dAddr d 22, out := dAddr d 28, rows := dfld d 34 2, pos0 := dfld d 36 3, heads := dfld d 39 1,
    kFirst := dfld d 40 3, kCount := dfld d 43 3, qFmt := dbits d 46 0 4, kvFmt := dbits d 46 4 4,
    causal := dbits d 47 0 1 == 1, segments := dbits d 47 1 1 == 1, bias := dbits d 47 2 1 == 1,
    absorbed := dbits d 47 3 1 == 1, final := dbits d 47 4 1 == 1, split := dfld d 48 1, part := dfld d 49 1,
    dim := dfld d 50 2, hd := dfld d 52 1 }

/-- Elements of a query row and of a value row (R259, R262). -/
def Att.ds (x : Att) : Nat := if x.absorbed then x.dim else x.hd * 8
def qBlk (f : Nat) : Bool := f == 0x6 || f == 0x7
def Att.qPitch (x : Att) : Nat := if qBlk x.qFmt then recS x.qFmt x.ds + 64 else roundUp (2 * x.ds) 64
/-- P of R264. -/
def attPitch (dv : Nat) : Nat := 64 + (dv + 15) / 16 * 64
def Att.outSpan (x : Att) : Nat × Nat := (x.out, x.rows * x.heads * attPitch x.ds)

def attChecks (d : BitVec 512) : Checks :=
  let x := attFields d
  { reserved := headerReserved d || dbits d 47 5 3 != 0 || dfld d 53 11 != 0
    format := !([0xA, 0xB, 0x6, 0x7].contains x.qFmt) || !kvOk x.kvFmt
    range := headerRange d || x.rows == 0 || decide (512 < x.rows) || x.heads == 0 || decide (64 < x.heads) ||
      x.split == 0 || decide (32 < x.split) || decide (x.split ≤ x.part) || x.dim == 0 || decide (1024 < x.dim) ||
      x.hd == 0 || decide (32 < x.hd) || (x.final != (x.split == 1)) || decide (2 ^ 24 < x.kFirst + x.kCount) ||
      decide (2 ^ 24 < x.pos0 + x.rows)
    aligns := [x.q, x.param, x.out]
    ins := [(x.q, x.rows * x.heads * x.qPitch), (x.param, 256)]
    outs := [x.outSpan] }

structure Param where
  list : Nat
  stage : Nat
  stagePos : Nat
  stageN : Nat
  new : Nat
  newPos : Nat
  newN : Nat
  append : Bool
  biasSigned : Bool
  biasPerHead : Bool
  biasA : Nat
  qSeg : Nat
  kSeg : Nat
  exp : Nat
  scale : Word
  lsbS : Int
  lsbV : Int
  deriving DecidableEq, Repr

def paramFields (b : List Byte) : Param :=
  let f := lfld b 30 1
  { list := lfld b 0 6, stage := lfld b 6 6, stagePos := lfld b 12 3, stageN := lfld b 15 3, new := lfld b 18 6,
    newPos := lfld b 24 3, newN := lfld b 28 2, append := bit f 0, biasSigned := bit f 1, biasPerHead := bit f 2,
    biasA := lfld b 32 6, qSeg := lfld b 38 6, kSeg := lfld b 44 6, exp := lfld b 50 6, scale := BitVec.ofNat 32 (lfld b 56 4),
    lsbS := signed 16 (lfld b 60 2), lsbV := signed 16 (lfld b 62 2) }

/-- Checks of the parameter block as part of the descriptor (R246, R247). -/
def paramChecks (x : Att) (b : List Byte) : Checks :=
  let y := paramFields b
  let lsbBad (l : Int) : Bool := decide (l < -320) || decide (255 < l)
  { reserved := !lzero b 27 1 || lfld b 30 1 / 8 != 0 || !lzero b 31 1 || !lzero b 64 192
    range := ((y.stage == 0) != (y.stageN == 0)) || ((y.new == 0) != (y.newN == 0)) || decide (512 < y.newN) ||
      ((y.biasA != 0) != x.bias) || ((y.qSeg != 0) != x.segments) || ((y.kSeg != 0) != x.segments) ||
      ((y.exp == 0) != x.absorbed) || !(fin32 y.scale) || (f32 y.scale).isNeg || (f32 y.scale).isZero ||
      lsbBad y.lsbS || lsbBad y.lsbV || decide (2 ^ 24 < y.newPos + y.newN) || decide (2 ^ 24 < y.stagePos + y.stageN)
    aligns := [y.list, y.stage, y.new, y.biasA, y.qSeg, y.kSeg, y.exp]
    ins := (if x.bias then [(y.biasA, 16384 * if y.biasPerHead then x.heads else 1)] else []) ++
      (if y.exp = 0 then [] else [(y.exp, 64)]) }

/-- Blocks of a query row of pair n (R259). -/
def queryBlocks (s : State) (x : Att) (n : Nat) : List Blk :=
  let a := x.q + n * x.qPitch
  if qBlk x.qFmt then recBlocks x.qFmt x.ds (s.readBytes a x.qPitch)
  else (List.range (blocksOf x.ds)).map (fun j =>
    (ingest ((fmtFloat x.qFmt).getD fp16) 14 ((List.range 32).map (fun i =>
      if 32 * j + i < x.ds then s.readNat (a + 2 * (32 * j + i)) 2 else 0))).1)
def qWidth (f : Nat) : Nat := if f = 0x6 then 8 else 16

/-- Where the record of position j lies: none where the position has no key (R248). -/
def keyPlace (s : State) (g : Agent) (p : Nat) (x : Att) (y : Param) (j : Nat) : Try (Option Nat) := do
  let rb := recBytes x.kvFmt x.dim
  if y.newPos ≤ j ∧ j < y.newPos + y.newN then return some (y.new + (j - y.newPos) * rb)
  else if y.stagePos ≤ j ∧ j < y.stagePos + y.stageN then return some (y.stage + (j - y.stagePos) * rb)
  else if y.list = 0 then return none
  else
    let l ← readList s g p y.list
    if l.fmt ≠ x.kvFmt ∨ l.dim ≠ x.dim then .error (stAddress, y.list)
    else if l.seqLen ≤ j then return none
    else return some (← pageAt s g p l (j * rb)).1

/-- A 16-bit segment number. -/
def segAt (s : State) (g : Agent) (p a j : Nat) : Try Nat := do return leNat (← tryRead s g p (a + 2 * j) 2)

/-- The fresh records as pieces at their places in the pages, and the failure that stops the copy (R249).  With LIST_ADDR 0 the header is read at
address 0 (DESIGN CHOICE, log entry 91). -/
def appendPieces (s : State) (g : Agent) (p : Nat) (x : Att) (y : Param) : Pieces :=
  let rb := recBytes x.kvFmt x.dim
  let go (i : Nat) : Try (Nat × List Byte) := do
    let l ← readList s g p y.list
    if l.fmt ≠ x.kvFmt ∨ l.dim ≠ x.dim then .error (stAddress, y.list)
    else
      let r ← tryRead s g p (y.new + i * rb) rb
      let a ← pageAt s g p l ((y.newPos + i) * rb)
      return (a.1, r)
  (List.range (if y.append then y.newN else 0)).foldl (fun z i =>
    if z.fail.isSome then z
    else match go i with
    | .ok r => { z with rows := z.rows ++ [r] }
    | .error e => { z with fail := some e }) { rows := [] }

/-- A key as the tile uses it: key blocks and value blocks per head, and whether the record is NaN. -/
structure Key where
  pos : Nat
  nan : Bool
  keys : List (List Blk)
  vals : List (List Blk)
  seg : Nat

/-- Widths of the key and value blocks. -/
def keyWidth (x : Att) (e : Expand) : Nat := if x.absorbed then fmtWidth x.kvFmt else fmtWidth e.outFmt

/-- Address of the bias entry of head h for query i and key j (R258). -/
def biasAddr (y : Param) (h i j : Nat) : Nat :=
  let dist : Int := (i : Int) - j
  let k := if y.biasSigned then (min (max (dist + 2048) 0) 4095).toNat else min dist.natAbs 4095
  y.biasA + (if y.biasPerHead then h * 0x4000 else 0) + 4 * k
/-- Bias of head h for query i and key j, and whether it makes the key inadmissible (R256, R258). -/
def biasOf (s : State) (x : Att) (y : Param) (h i j : Nat) : Option Word :=
  if !x.bias then some 0
  else
    let v : Word := BitVec.ofNat 32 (s.readNat (biasAddr y h i j) 4)
    if v = negInf then (if i = j then some 0 else none) else if v = 0x7F800000 then some 0x7F7FFFFF else some v

/-- Score of a key for a pair: none when the key is inadmissible (R255, R260).  The key at the query's own position stays
admissible unless its dot product itself is −∞ (R256); a score of it that overflows to −∞ is read as 0xFF7FFFFF (DESIGN
CHOICE, log entry 68). -/
def scoreOf (s : State) (x : Att) (y : Param) (kw h i qseg : Nat) (q : List Blk) (k : Key) : Option Word :=
  if (x.causal && decide (i < k.pos)) || (x.segments && (qseg != k.seg || qseg == 0xFFFF)) then none
  else match biasOf s x y h i k.pos with
  | none => none
  | some b =>
    let dot : Word := BitVec.ofNat 32 ((blockDot (qWidth x.qFmt) kw y.lsbS {} q ((k.keys[h]?).getD [])).1.toFp32 y.lsbS .rne).1
    let v := fadd (fmul dot y.scale) b
    if v = negInf then (if i = k.pos ∧ dot ≠ negInf then some 0xFF7FFFFF else none)
    else if v = 0x7F800000 then some 0x7F7FFFFF else some v

/-- Running softmax of a pair: m, s, o (R261). -/
structure Soft where
  m : Word := negInf
  s : Word := 0
  o : List Word := []
  nan : Bool := false
  empty : Bool := true

/-- Value of element i re-blocked over up to 32 keys: shared exponent and significands (R262). -/
def reblock (i : Nat) (ks : List (Option (List Blk))) : Blk :=
  let pick (b : List Blk) : Blk := (b[i / 32]?).getD {}
  let e := ks.foldl (fun m k => match k with | some b => max m (pick b).e | none => m) 0
  { nan := ks.any (fun k => match k with | some b => (pick b).nan | none => false)
    e := e
    sig := ks.map (fun k => match k with
      | some b => let v := ((pick b).sig[i % 32]?).getD 0; FV.sig (decide (v < 0)) (v.natAbs >>> (e - (pick b).e))
      | none => 0) }

/-- One chunk of 256 aligned positions (R261): scores by lane and keys by lane. -/
def softChunk (y : Param) (vw dv h : Nat) (st : Soft) (lanes : List (Option (Word × Key))) : Soft :=
  let adm := lanes.filterMap (fun l => l)
  if adm.isEmpty then st
  else if adm.any (fun a => (f32 a.1).isNan || a.2.nan) then { st with nan := true, empty := false }
  else
    let mc := adm.foldl (fun m a => fmax m a.1) negInf
    let m' := fmax st.m mc
    let f := rescale st.m m'
    let ps := lanes.map (fun l => match l with | some a => fexp2 (fsub a.1 m') | none => 0)
    let pb := (List.range 8).map (fun k => (ingest fp32 14 ((List.range 32).map (fun i => ((ps[32 * k + i]?).getD 0).toNat))).1)
    let conv := pb.flatMap (fun b => b.sig.map (fun v => toF32 (FV.ofInt v ((b.e : Int) - 127 - 14))))
    let sc := treeFold fadd 0 8 conv
    let vals := lanes.map (fun l => match l with | some a => (a.2.vals[h]?) | none => none)
    let o' := (List.range dv).map (fun i =>
      let vb := (List.range 8).map (fun k => reblock i ((List.range 32).map (fun j => ((vals[32 * k + j]?).getD none))))
      let c := ((blockDot 16 vw y.lsbV {} pb vb).1.toFp32 y.lsbV .rne).1
      fadd (fmul ((st.o[i]?).getD 0) f) (BitVec.ofNat 32 c))
    { m := m', s := fadd (fmul st.s f) sc, o := o', nan := st.nan, empty := false }

/-- An attention row (R263-R265). -/
def attRow (final : Bool) (split part pos h dv : Nat) (st : Soft) : List Byte :=
  let nanW : Word := 0x7FC00000
  let m := if st.nan then nanW else if st.empty then negInf else st.m
  let sm := if st.nan then nanW else if st.empty then 0 else st.s
  let v (i : Nat) : Word := if st.nan then nanW else if st.empty then 0
    else if final then fmul ((st.o[i]?).getD 0) (frcp st.s) else (st.o[i]?).getD 0
  let head := toLE 4 m.toNat ++ toLE 4 sm.toNat ++ toLE 1 split ++ toLE 1 (if final then 0xFF else part) ++
    toLE 1 (flag (st.empty && !st.nan) 1 + flag st.nan 2) ++ [0] ++ toLE 3 pos ++ toLE 1 h
  padTo (attPitch dv) (padTo 64 head ++ (List.range dv).flatMap (fun i => toLE 4 (v i).toNat))

/-- A position of the command's range: its segment, and its key where a query row of that segment may need it; each is read
as the row that first needs it would (R245, R248). -/
structure KeyAt where
  pos : Nat
  seg : Try Nat
  key : Try (Option Key)

/-- The segment of each query row, as the row that needs it would read it (R257). -/
def attSegs (s : State) (g : Agent) (p : Nat) (x : Att) (y : Param) : List (Try Nat) :=
  (List.range x.rows).map (fun r => if x.segments then segAt s g p y.qSeg r else .ok 0)
/-- A query row's segment is v. -/
def segIs (v : Nat) (q : Try Nat) : Bool := match q with | .ok u => u == v | .error _ => false

/-- The positions of the command's range, in ascending order. -/
def attKeys (s : State) (g : Agent) (p : Nat) (x : Att) (y : Param) (e : Expand) (qsegs : List (Try Nat)) : List KeyAt :=
  let spoilt := !x.absorbed && (e.spans true true).any (fun r => s.meetsPoison g r.1 r.2)
  (List.range x.kCount).map (fun n =>
    let j := x.kFirst + n
    let seg : Try Nat := if x.segments then segAt s g p y.kSeg j else .ok 0
    let wanted : Bool := match seg with | .ok v => !x.segments || (v != 0xFFFF && qsegs.any (segIs v)) | .error _ => false
    let key : Try (Option Key) := if !wanted then .ok none else do
      match ← keyPlace s g p x y j with
      | none => return none
      | some a =>
        if spoilt then throw (stPoison, e.uk)
        let bs ← tryRead s g p a (recBytes x.kvFmt x.dim)
        let rb := recBlocks x.kvFmt x.dim bs
        let w := fmtWidth x.kvFmt
        let hs := List.range x.heads
        let keys := if x.absorbed then hs.map (fun _ => rb) else hs.map (fun h => expandHead s e e.uk (e.uk + e.ukE) h rb w)
        let vals := if x.absorbed then keys else hs.map (fun h => expandHead s e e.uv (e.uv + e.uvE) h rb w)
        return some { pos := j, nan := rb.any (·.nan), keys := keys, vals := vals, seg := match seg with | .ok v => v | .error _ => 0 }
    { pos := j, seg := seg, key := key })

/-- The keys that a pair of head h needs, its query at position i with segment `qseg`, in ascending position, each with its bias entry, or the
first failure met (R245, R257, R258). -/
def rowKeys (s : State) (g : Agent) (x : Att) (y : Param) (h i qseg : Nat) (l : List KeyAt) : Try (List Key) :=
  (l.filter (fun k => !x.causal || decide (k.pos ≤ i))).foldlM (fun acc k => do
    let seg ← k.seg
    if x.segments && (seg != qseg || qseg == 0xFFFF) then return acc
    else match ← k.key with
    | none => return acc
    | some v =>
      if x.bias && s.meetsPoison g (biasAddr y h i k.pos) 4 then throw (stPoison, biasAddr y h i k.pos)
      return acc ++ [v]) []

/-- Softmax of pair n over its keys (R259-R265). -/
def attSoft (s : State) (x : Att) (y : Param) (e : Expand) (n qseg : Nat) (keys : List Key) : Soft :=
  let kw := keyWidth x e
  let c0 := x.kFirst / 256
  let nc := (x.kFirst + x.kCount + 255) / 256 - c0
  let h := n % x.heads
  let q := queryBlocks s x n
  (List.range nc).foldl (fun st c =>
    let inC := keys.filter (fun k => k.pos / 256 = c0 + c)
    if inC.isEmpty then st
    else softChunk y kw x.ds h st ((List.range 256).map (fun l =>
      match inC.find? (fun k => k.pos % 256 = l) with
      | some k => (scoreOf s x y kw h (x.pos0 + n / x.heads) qseg q k).map (fun v => (v, k))
      | none => none))) ({} : Soft)

/-- Pairs of ATTEND in order, up to the first whose keys cannot be read: each pair's softmax, and that failure. -/
def attPairs (s : State) (g : Agent) (x : Att) (y : Param) (e : Expand) (qsegs : List (Try Nat)) (keys : List KeyAt) :
    List Nat → List (Nat × Soft) × Option (Nat × Nat)
  | [] => ([], none)
  | n :: r =>
    let pair : Try (Nat × List Key) := do
      let qseg ← (qsegs[n / x.heads]?).getD (.ok 0)
      return (qseg, ← rowKeys s g x y (n % x.heads) (x.pos0 + n / x.heads) qseg keys)
    match pair with
    | .error f => ([], some f)
    | .ok (qseg, ks) =>
      let z := attPairs s g x y e qsegs keys r
      ((n, attSoft s x y e n qseg ks) :: z.1, z.2)

/-- Multiply-accumulates of expanding one record's keys or values (R252, R275). -/
def Expand.macs (x : Expand) : Nat := x.rows * x.dim
/-- The expand-on-read unit of tile t has expanded `n` key or value rows of records: COUNT, and NAN_REC where it met a NaN record
or produced a NaN block (R275). -/
def expandUsed (s : State) (t : Nat) (e : Expand) (n : Nat) (nan : Bool) : State :=
  let h := s.hearth (t / 8)
  let u := t % 8
  s.setHearth (t / 8) { h with
    expNan := if nan then h.expNan ||| BitVec.ofNat 8 (2 ^ u) else h.expNan
    expMac := sset 0 h.expMac u (sget 0 h.expMac u + BitVec.ofNat 64 (n * e.macs)) }

/-- What the expand-on-read unit does for an ATTEND, by the pair that begins a block of pairs: each block passes over its keys once, and expands a
key row and a value row of each (R253, R271).  `done` is the pair that could not be computed, or their number. -/
def attUsed (x : Att) (qsegs : List (Try Nat)) (keys : List KeyAt) (done : Nat) : List (Nat × Nat × Bool) :=
  let total := x.rows * x.heads
  let b := max 1 (786432 / (4 * x.ds + 64))
  let needs (first : Nat) (k : KeyAt) : Option Key := match k.key with
    | .ok (some v) =>
      let r0 := first / max 1 x.heads
      let r1 := (min total (first + b) - 1) / max 1 x.heads
      if (List.range (r1 + 1 - r0)).any (fun i => (!x.causal || decide (k.pos ≤ x.pos0 + r0 + i)) &&
          (!x.segments || segIs v.seg ((qsegs[r0 + i]?).getD (.ok 0)))) then some v else none
    | _ => none
  if x.absorbed then []
  else ((List.range ((total + b - 1) / b)).filter (fun k => decide (k * b ≤ done))).map (fun k =>
    let used := keys.filterMap (needs (k * b))
    (k * b, 2 * used.length, used.any (fun v => v.nan || (v.keys ++ v.vals).any (fun l => l.any (·.nan)))))
/-- The unit's counts for the blocks of pairs that begin in [lo, hi). -/
def attCount (s : State) (t : Nat) (e : Expand) (used : List (Nat × Nat × Bool)) (lo hi : Nat) : State :=
  (used.filter (fun u => decide (lo ≤ u.1) && decide (u.1 < hi))).foldl (fun s u => expandUsed s t e u.2.1 u.2.2) s

/-- The refusals of R247 beyond the descriptor's own: status and address.  The parameter block's checks 2-9 come before the expansion block's
(DESIGN CHOICE, log entry 91). -/
def attBlockVerdict (s : State) (g : Agent) (p : Nat) (d : BitVec 512) : Nat × Nat :=
  let x := attFields d
  if s.meetsPoison g x.param 256 then (stPoison, x.param)
  else
    let b := s.readBytes x.param 256
    let v := (paramChecks x b).verdict s p
    if v.1 ≠ stOk ∨ x.absorbed then v
    else
      let y := paramFields b
      if s.meetsPoison g y.exp 64 then (stPoison, y.exp)
      else
        let eb := s.readBytes y.exp 64
        let e := expandFields eb
        let c := expandChecks eb true true
        ({ c with range := c.range || e.heads != x.heads || e.hd != x.hd || e.dim != x.dim || e.kvFmt != x.kvFmt } : Checks).verdict s p

/-- Output ranges of an ATTEND, the pages of its APPEND included (R249, R272). -/
def attOuts (s : State) (g : Agent) (p : Nat) (d : BitVec 512) : List (Nat × Nat) :=
  let x := attFields d
  let y := paramFields (s.readBytes x.param 256)
  let rb := recBytes x.kvFmt x.dim
  let pages := if y.append then
      match readList s g p y.list with
      | .ok l => (List.range y.newN).filterMap (fun i => match pageAt s g p l ((y.newPos + i) * rb) with
        | .ok a => some (a.1, rb)
        | .error _ => none)
      | .error _ => []
    else []
  x.outSpan :: pages

/-- Ranges of memory that an ATTEND reads beside its queries and its parameter block. -/
def attReads (s : State) (g : Agent) (p : Nat) (x : Att) (y : Param) : List (Nat × Nat) :=
  let rb := recBytes x.kvFmt x.dim
  (if x.bias then [(y.biasA, 16384 * if y.biasPerHead then x.heads else 1)] else []) ++
  (if x.segments then [(y.qSeg, 2 * x.rows), (y.kSeg + 2 * x.kFirst, 2 * x.kCount)] else []) ++
  (if x.absorbed then [] else (y.exp, 64) :: (expandFields (s.readBytes y.exp 64)).spans true true) ++
  (match readList s g p y.list with
   | .ok l => [(y.list, 64 + 8 * l.entries)]
   | .error _ => []) ++
  (List.range x.kCount).filterMap (fun n => match keyPlace s g p x y (x.kFirst + n) with
    | .ok (some a) => some (a, rb)
    | _ => none)

/-- What ATTEND produces on memory as it stands: its rows as pieces and then the records of APPEND (DESIGN CHOICE, log entry 91: R249 does not say
when they are written), and what its expand-on-read unit expands. -/
def attPieces (s : State) (g : Agent) (p : Nat) (d : BitVec 512) : Pieces × List (Nat × Nat × Bool) :=
  let x := attFields d
  let y := paramFields (s.readBytes x.param 256)
  let e := if x.absorbed then expandFields [] else expandFields (s.readBytes y.exp 64)
  let qsegs := attSegs s g p x y
  let keys := attKeys s g p x y e qsegs
  let r := attPairs s g x y e qsegs keys (List.range (x.rows * x.heads))
  let rows := r.1.map (fun (n, st) =>
    (x.out + n * attPitch x.ds, attRow x.final x.split x.part (x.pos0 + n / x.heads) (n % x.heads) x.ds st))
  let app := appendPieces s g p x y
  ({ rows := rows ++ (if r.2.isNone then app.rows else [])
     fail := if r.2.isNone then app.fail else r.2
     opflags := flag (r.1.any (fun r => r.2.empty && !r.2.nan)) 1
     result := x.rows }, attUsed x qsegs keys r.1.length)

/-- ATTEND from where its work stands (R122, R245, R249, R272). -/
def attRun (d : BitVec 512) (t p : Nat) (w : Work) (s : State) : Done :=
  let g : Agent := .tile t
  let c := attChecks d
  reading s g c (fun s =>
    let x := attFields d
    let y := paramFields (s.readBytes x.param 256)
    let s := s.fetchAll g (attReads s g p x y)
    let r := attPieces s g p d
    let outs := attOuts s g p d
    let s := attCount s t (expandFields (s.readBytes y.exp 64)) r.2 w.row (x.rows * x.heads)
    r.1.run s g p outs w.row)

end Sys2Proof.Machine
end

