-- ==== Sys2Proof/Machine/Move.lean ====
section
/-! DEFINITION.  MOVE and GATHER_PAGES (R125, R126, R208, R254), the folds of REDUCE (R127, R128, R267, R268), and the
bodies of TALLY_WAIT, TALLY_SIGNAL, YIELD and END (R129, R130). -/
namespace Sys2Proof.Machine
open Sys2Proof

/-! ## MOVE -/

structure MoveCmd where
  src : Nat
  dst : Nat
  rowBytes : Nat
  rows : Nat
  srcStride : Nat
  dstStride : Nat
  fill : Bool
  byte : Nat
  deriving DecidableEq, Repr

def moveFields (d : BitVec 512) : MoveCmd :=
  { src := dAddr d 16, dst := dAddr d 22, rowBytes := dfld d 28 4, rows := dfld d 32 4, srcStride := dfld d 36 4,
    dstStride := dfld d 40 4, fill := dbits d 44 0 1 == 1, byte := dfld d 45 1 }

/-- Ranges of the rows at a base; one range where the rows lie end to end. -/
def rowRanges (base rowBytes rows stride : Nat) : List (Nat × Nat) :=
  if stride = rowBytes ∨ rows = 1 then [(base, rowBytes * rows)]
  else (List.range rows).map (fun r => (base + r * stride, rowBytes))

def moveChecks (d : BitVec 512) : Checks :=
  let x := moveFields d
  let ins := if x.fill then [] else rowRanges x.src x.rowBytes x.rows x.srcStride
  let outs := rowRanges x.dst x.rowBytes x.rows x.dstStride
  { reserved := headerReserved d || dbits d 44 1 7 != 0 || dfld d 46 18 != 0
    range := headerRange d || x.rowBytes == 0 || x.rows == 0 ||
      (x.rows != 1 && ((!x.fill && decide (x.srcStride < x.rowBytes)) || decide (x.dstStride < x.rowBytes))) ||
      anyOverlap ins outs
    ins := ins
    outs := outs }

/-- Row r of the data to write. -/
def moveRow (s : State) (x : MoveCmd) (r : Nat) : List Byte :=
  if x.fill then List.replicate x.rowBytes (BitVec.ofNat 8 x.byte)
  else s.readBytes (x.src + if x.rows = 1 then 0 else r * x.srcStride) x.rowBytes
/-- All rows as pieces to write. -/
def moveRows (s : State) (x : MoveCmd) : List (Nat × List Byte) :=
  if x.dstStride = x.rowBytes ∨ x.rows = 1 then [(x.dst, (List.range x.rows).flatMap (moveRow s x))]
  else (List.range x.rows).map (fun r => (x.dst + r * x.dstStride, moveRow s x r))

def moveRun (d : BitVec 512) (t : Nat) (w : Work) (s : State) : Done :=
  let c := moveChecks d
  reading s (.tile t) c (fun s => finishRows s (.tile t) c ((moveRows s (moveFields d)).drop w.row) 0 0 0)

/-- The failure that stops an engine at row r, whose ranges it checks as it reaches them (R208): status and address. -/
def moveRowFails (s : State) (g : Agent) (p : Nat) (x : MoveCmd) (r : Nat) : Option (Nat × Nat) :=
  let src := x.src + if x.rows = 1 then 0 else r * x.srcStride
  let dst := x.dst + if x.rows = 1 then 0 else r * x.dstStride
  if s.bound p dst x.rowBytes != .ok then some (stAddress, dst)
  else if !x.fill && s.bound p src x.rowBytes != .ok then some (stAddress, src)
  else if !x.fill && s.meetsPoison g src x.rowBytes then some (stPoison, src)
  else none
/-- What an engine does with a MOVE: the rows up to the first that fails. -/
def movePieces (s : State) (g : Agent) (p : Nat) (x : MoveCmd) : Pieces :=
  match (List.range x.rows).find? (fun r => (moveRowFails s g p x r).isSome) with
  | none => { rows := moveRows s x }
  | some r => { rows := if r = 0 then [] else moveRows s { x with rows := r }, fail := moveRowFails s g p x r }

/-! ## GATHER_PAGES -/

structure Gather where
  list : Nat
  dst : Nat
  ofs : Nat
  len : Nat
  expand : Bool
  exp : Nat
  deriving DecidableEq, Repr

def gatherFields (d : BitVec 512) : Gather :=
  { list := dAddr d 16, dst := dAddr d 22, ofs := dfld d 28 4, len := dfld d 32 4, expand := dbits d 36 0 1 == 1,
    exp := dAddr d 37 }

def gatherChecks (d : BitVec 512) : Checks :=
  let x := gatherFields d
  { reserved := headerReserved d || dbits d 36 1 7 != 0 || dfld d 43 21 != 0
    range := headerRange d || x.ofs % 64 != 0 || x.len == 0 || x.len % 64 != 0 || (!x.expand && x.exp != 0)
    aligns := [x.list, x.dst, x.exp]
    ins := (x.list, 64) :: (if x.expand then [(x.exp, 64)] else [])
    outs := if x.expand then [] else [(x.dst, x.len)] }

/-- Bytes of an expanded row: significand part and whole row (R254). -/
def Expand.sigBytes (e : Expand) : Nat := packedBytes (fmtWidth e.outFmt) (32 * blocksOf (e.hd * 8))
def Expand.outRow (e : Expand) : Nat := roundUp (e.heads * e.sigBytes) 64 + roundUp (e.heads * blocksOf (e.hd * 8)) 64
def Expand.perRecord (e : Expand) : Nat := e.outRow * if e.which = 2 then 2 else 1

/-- An expanded key or value row as bytes, and whether a NaN block was produced. -/
def expandRow (s : State) (e : Expand) (u ue : Nat) (bs : List Byte) : List Byte × Bool :=
  let rec_ := recBlocks e.kvFmt e.dim bs
  let w := fmtWidth e.outFmt
  let heads := (List.range e.heads).map (fun h => expandHead s e u ue h rec_ (fmtWidth e.kvFmt))
  let sigs := heads.flatMap (fun h => packElems w (h.flatMap (fun b => b.sig.map (unsigned w))))
  let exps := heads.flatMap (fun h => h.map (fun b => BitVec.ofNat 8 b.e))
  (padTo (roundUp (e.heads * e.sigBytes) 64) sigs ++ padTo (roundUp (e.heads * blocksOf (e.hd * 8)) 64) exps,
   heads.any (fun h => h.any (·.nan)) || rec_.any (·.nan))

/-- The refusals of R254 and the output range of an expanding gather: status, address, outputs. -/
def gatherVerdict (s : State) (g : Agent) (p : Nat) (d : BitVec 512) : (Nat × Nat) × List (Nat × Nat) :=
  let x := gatherFields d
  if !x.expand then ((stOk, 0), [(x.dst, x.len)])
  else if s.meetsPoison g x.exp 64 then ((stPoison, x.exp), [])
  else
    let eb := s.readBytes x.exp 64
    let e := expandFields eb
    let c := expandChecks eb (e.which != 1) (e.which != 0)
    let rb := recBytes e.kvFmt (min 1024 e.dim)
    let differs := match readList s g p x.list with
      | .ok l => l.fmt != e.kvFmt || l.dim != e.dim
      | .error _ => false
    let outs := [(x.dst, x.len / rb * e.perRecord)]
    let v := ({ c with range := c.range || e.which == 3 || x.ofs % rb != 0 || x.len % rb != 0 || differs, outs := outs } : Checks).verdict s p
    (v, outs)

/-- Bytes of the sequence's stream that are cached: positions at or above SEQ_LEN are never read (R250). -/
def PageList.cached (l : PageList) : Nat := l.seqLen * recBytes l.fmt l.dim

/-- Pieces of a plain gather from byte `b`, `n` bytes left: what is written where, and the failure that stops it.  Every byte needs a valid entry
(R245) and a destination within bounds (R208); those that are not cached are free values (log entry 69). -/
def gatherPieces (s : State) (g : Agent) (p : Nat) (l : PageList) (dst : Nat) :
    Nat → Nat → Nat → List (Nat × List Byte) × Option (Nat × Nat)
  | 0, _, _ => ([], none)
  | fuel + 1, b, n =>
    if n = 0 then ([], none)
    else match pageAt s g p l b with
    | .error e => ([], some e)
    | .ok (a, left) =>
      let cached := decide (b < l.cached)
      let k := if cached then min (min n left) (l.cached - b) else min n left
      if s.bound p dst k != .ok then ([], some (stAddress, dst))
      else if cached && s.meetsPoison g a k then ([], some (stPoison, a))
      else
        let r := gatherPieces s g p l (dst + k) fuel (b + k) (n - k)
        ((dst, if cached then s.readBytes a k else (List.range k).map (fun i => Config.freeByte s.free (dst + i))) :: r.1, r.2)

/-- Pieces of an expanding gather, record by record, the failure that stops it, and for each piece how many key and value rows were expanded and
whether a NaN was met. -/
def expandPieces (s : State) (g : Agent) (p : Nat) (l : PageList) (e : Expand) (dst : Nat) :
    Nat → Nat → List (Nat × List Byte) × Option (Nat × Nat) × List (Nat × Bool)
  | 0, _ => ([], none, [])
  | n + 1, b =>
    let rb := recBytes e.kvFmt e.dim
    let rec_ : Try (Option (List Byte)) := do
      let a ← pageAt s g p l b
      if s.bound p dst e.perRecord != .ok then throw (stAddress, dst)
      if l.cached ≤ b then return none
      return some (← tryRead s g p a.1 rb)
    match rec_ with
    | .error x => ([], some x, [])
    | .ok bs =>
      let r := expandPieces s g p l e (dst + e.perRecord) n (b + rb)
      match bs with
      | none => ((dst, (List.range e.perRecord).map (fun k => Config.freeByte s.free (dst + k))) :: r.1, r.2.1, (0, false) :: r.2.2)
      | some bs =>
        let k := if e.which = 1 then ([], false) else expandRow s e e.uk (e.uk + e.ukE) bs
        let v := if e.which = 0 then ([], false) else expandRow s e e.uv (e.uv + e.uvE) bs
        ((dst, k.1 ++ v.1) :: r.1, r.2.1, (if e.which = 2 then 2 else 1, k.2 || v.2) :: r.2.2)

/-- All pieces of a GATHER_PAGES: writes and the failure that ends it, and for each piece of an expanding one the rows expanded and whether a NaN
was met.  The expansion block and its projections are checked as they are reached (R208). -/
def gatherAll (s : State) (g : Agent) (p : Nat) (d : BitVec 512) : Pieces × List (Nat × Bool) :=
  let x := gatherFields d
  match readList s g p x.list with
  | .error e => ({ rows := [], fail := some e }, [])
  | .ok l =>
    if x.expand then
      let e := expandFields (s.readBytes x.exp 64)
      let spans := (x.exp, 64) :: e.spans (e.which != 1) (e.which != 0)
      match spans.find? (fun r => s.bound p r.1 r.2 != .ok), spans.find? (fun r => s.meetsPoison g r.1 r.2) with
      | some r, _ => ({ rows := [], fail := some (stAddress, r.1) }, [])
      | none, some r => ({ rows := [], fail := some (stPoison, r.1) }, [])
      | none, none =>
        let r := expandPieces s g p l e x.dst (x.len / recBytes e.kvFmt e.dim) x.ofs
        ({ rows := r.1, fail := r.2.1 }, r.2.2)
    else
      let r := gatherPieces s g p l x.dst (x.len / 64) x.ofs x.len
      ({ rows := r.1, fail := r.2 }, [])

/-- Ranges of memory that a GATHER_PAGES reads: its list, its pages, and with EXPAND its block and projections. -/
def gatherReads (s : State) (g : Agent) (p : Nat) (d : BitVec 512) : List (Nat × Nat) :=
  let x := gatherFields d
  let e := expandFields (s.readBytes x.exp 64)
  (x.list, 64) :: (if x.expand then (x.exp, 64) :: e.spans (e.which != 1) (e.which != 0) else []) ++
  match readList s g p x.list with
  | .ok l => (x.list + 64, 8 * l.entries) :: (List.range (x.len / 64)).filterMap (fun k =>
      if l.cached ≤ x.ofs + 64 * k then none
      else match pageAt s g p l (x.ofs + 64 * k) with | .ok a => some (a.1, 64) | .error _ => none)
  | .error _ => []

/-- The state after the expand-on-read unit served some of a gather's pieces (R275). -/
def gatherUsed (s : State) (t : Nat) (d : BitVec 512) (l : List (Nat × Bool)) : State :=
  l.foldl (fun s u => expandUsed s t (expandFields (s.readBytes (gatherFields d).exp 64)) u.1 u.2) s

/-- GATHER_PAGES run by an agent of tile t, its first `keep` pieces written already. -/
def gatherBody (d : BitVec 512) (g : Agent) (t p : Nat) (keep : Nat) (s : State) : Done :=
  let s := s.fetchAll g (gatherReads s g p d)
  let outs := (gatherVerdict s g p d).2
  let r := gatherAll s g p d
  let s := gatherUsed s t d (r.2.drop keep)
  let e := r.1.run s g p outs keep
  { e with s := { e.s with free := e.s.free + 1 } }

def gatherRun (d : BitVec 512) (t p : Nat) (w : Work) (s : State) : Done := gatherBody d (.tile t) t p w.row s

/-! ## What a page DMA engine does with a transfer (R126, R208) -/

/-- The first n bytes of a list of pieces. -/
def piecesTake : List (Nat × List Byte) → Nat → List (Nat × List Byte)
  | [], _ => []
  | (a, bs) :: r, n => if n = 0 then [] else (a, bs.take n) :: piecesTake r (n - bs.length)

/-- A transfer run to its end (R126), or stopped by an abandon at a 4 KiB boundary (R136): bytes already written stay, the rest of
the destination is undefined after a failure or an abandon (R208).  At which boundary a stopped transfer stands is a free
value (log entry 70). -/
def dmaRun (d : BitVec 512) (t p : Nat) (stop : Bool) (s : State) : Done :=
  let g : Agent := .engine t
  if dOp d = 0x06 then
    let x := moveFields d
    let outs := (moveChecks d).outs
    let s := s.fetchAll g (moveChecks d).ins
    let z := movePieces s g p x
    if stop then
      let total := (z.rows.map (fun r => r.2.length)).sum
      let n := 4096 * ((Config.freeWord s.free).toNat % (total / 4096 + 1))
      let w := piecesWrite { s with free := s.free + 1 } g (piecesTake z.rows n) 0
      failed w.1 (rangesFrom outs w.2.1) stAbandoned
    else z.run s g p outs 0
  else if stop then
    let s := s.fetchAll g (gatherReads s g p d)
    let outs := (gatherVerdict s g p d).2
    let z := gatherAll s g p d
    let total := (z.1.rows.map (fun r => r.2.length)).sum
    let n := 4096 * ((Config.freeWord s.free).toNat % (total / 4096 + 1))
    let l := piecesTake z.1.rows n
    let w := piecesWrite { gatherUsed s t d (z.2.take l.length) with free := s.free + 1 } g l 0
    failed w.1 (rangesFrom outs w.2.1) stAbandoned
  else gatherBody d g t p 0 s

/-! ## REDUCE -/

structure Red where
  src : Nat
  dst : Nat
  mask : BitVec 32
  count : Nat
  fmt : Nat
  op : Nat
  root : Nat
  bcast : Bool
  id : Nat
  soft : Nat
  deriving DecidableEq, Repr

def redFields (d : BitVec 512) : Red :=
  { src := dAddr d 16, dst := dAddr d 22, mask := BitVec.ofNat 32 (dfld d 28 4), count := dfld d 32 4, fmt := dfld d 36 1,
    op := dfld d 37 1, root := dfld d 38 1, bcast := dbits d 39 0 1 == 1, id := dfld d 40 2, soft := dfld d 42 2 }

/-- Bytes of one element. -/
def Red.esz (x : Red) : Nat := if x.op = 3 then attPitch x.soft else if x.fmt = 0xE then 20 else 4
/-- The fields that every participant must give alike (R127). -/
def Red.key (x : Red) : Nat × BitVec 32 × Nat × Nat × Nat × Nat × Nat := (x.id, x.mask, x.count, x.fmt, x.op, x.root, x.soft)
def Red.writes (x : Red) (t : Nat) : Bool := x.bcast || t == x.root
/-- Participants in ascending tile number. -/
def Red.tiles (x : Red) : List Nat := (List.range 32).filter (fun t => x.mask.getLsbD t)

def redChecks (d : BitVec 512) (s : State) (t p : Nat) : Checks :=
  let x := redFields d
  { reserved := headerReserved d || dbits d 39 1 7 != 0 || dfld d 44 20 != 0
    format := (x.fmt != 0xC && x.fmt != 0xD && x.fmt != 0xE) || (x.op == 3 && x.fmt != 0xC)
    range := headerRange d || !x.mask.getLsbD t || x.tiles.any (fun u => s.tilePart u != p) || x.count == 0 ||
      decide (16777216 < x.count) || decide (3 < x.op) || decide (31 < x.root) || !x.mask.getLsbD x.root ||
      (if x.op = 3 then x.soft == 0 || decide (1024 < x.soft) else x.soft != 0)
    aligns := [x.src, x.dst]
    ins := [(x.src, x.count * x.esz)]
    outs := if x.writes t then [(x.dst, x.count * x.esz)] else [] }

/-- Fold of one I32 or FP32 element: value and SAT (R128). -/
def foldWord (fmt op : Nat) : List Word → Word × Bool
  | [] => (0, false)
  | a :: r => r.foldl (fun (acc : Word × Bool) b =>
      if fmt = 0xD then
        if op = 0 then
          let v := wInt acc.1 + wInt b
          (sat32 v, acc.2 || clampInt 32 v != v)
        else if op = 1 then (if wInt acc.1 < wInt b then b else acc.1, acc.2)
        else (if wInt b < wInt acc.1 then b else acc.1, acc.2)
      else if op = 0 then (fadd acc.1 b, acc.2)
      else if op = 1 then (fmax acc.1 b, acc.2)
      else (fminW acc.1 b, acc.2)) (a, false)

def L128.isNan (x : L128) : Bool := x.nan || (x.pos && x.neg)
/-- An entry orders below another: NEG_OVF as −∞, POS_OVF as +∞, otherwise by value (R128). -/
def L128.below (x y : L128) : Bool :=
  let rank (z : L128) : Int := if z.pos then 1 else if z.neg then -1 else 0
  decide (rank x < rank y) || (decide (rank x = rank y) && rank x == 0 && decide (x.val < y.val))
def foldLong (op : Nat) : List L128 → L128
  | [] => {}
  | a :: r => r.foldl (fun acc b =>
      if op = 0 then acc.combine b
      else if acc.isNan || b.isNan then { nan := true }
      else if op = 1 then (if acc.below b then b else acc)
      else (if b.below acc then b else acc)) (if op ≠ 0 ∧ a.isNan then { nan := true } else a)

/-- An attention row as SOFTMAX folds it. -/
structure SoftRow where
  st : Soft
  split : Nat
  part : Nat
  pos : Nat
  head : Nat

def softRow (dim : Nat) (b : List Byte) : SoftRow :=
  let fl := lfld b 10 1
  { st := { m := BitVec.ofNat 32 (lfld b 0 4), s := BitVec.ofNat 32 (lfld b 4 4), empty := bit fl 0, nan := bit fl 1,
            o := (List.range dim).map (fun i => BitVec.ofNat 32 (lfld b (64 + 4 * i) 4)) },
    split := lfld b 8 1, part := lfld b 9 1, pos := lfld b 12 3, head := lfld b 15 1 }

/-- Combine two rows, a folded so far and b next (R268). -/
def softCombine (a b : Soft) : Soft :=
  if b.empty && !b.nan then a
  else if a.empty && !a.nan then b
  else if a.nan || b.nan then { a with nan := true, empty := false }
  else
    let m := fmax a.m b.m
    let fa := fexp2 (fsub a.m m)
    let fb := fexp2 (fsub b.m m)
    let mix (x y : Word) : Word := fadd (fmul x fa) (fmul y fb)
    { m := m, s := mix a.s b.s, o := List.zipWith mix a.o b.o, nan := false, empty := false }

/-- Combine the partials of all participants, in ascending tile number: status, NUMERIC of the root, result bytes. -/
def redCombine (x : Red) (parts : List (List Byte)) : Nat × Nat × List Byte :=
  let el (b : List Byte) (j : Nat) : List Byte := (b.drop (j * x.esz)).take x.esz
  if x.op = 3 then
    let rows := parts.map (fun b => (List.range x.count).map (fun j => softRow x.soft (el b j)))
    let bad := rows.zipIdx.any (fun (l, rank) => l.zipIdx.any (fun (r, j) =>
      match (rows.headD [])[j]? with
      | some h => r.split != parts.length || r.part != rank || r.pos != h.pos || r.head != h.head
      | none => true))
    if bad then (stMismatch, 0, [])
    else
      (stOk, 0, (List.range x.count).flatMap (fun j =>
        let rs := rows.filterMap (fun l => l[j]?)
        match rs with
        | [] => []
        | a :: r => attRow true parts.length 0xFF a.pos a.head x.soft (r.foldl (fun acc b => softCombine acc b.st) a.st)))
  else if x.fmt = 0xE then
    (stOk, 0, (List.range x.count).flatMap (fun j => (foldLong x.op (parts.map (fun b => L128.decode (el b j)))).encode))
  else
    let rs := (List.range x.count).map (fun j => foldWord x.fmt x.op (parts.map (fun b => BitVec.ofNat 32 (leNat (el b j)))))
    (stOk, flag (rs.any (·.2)) nSat, rs.flatMap (fun r => toLE 4 r.1.toNat))

/-- Output ranges that a command leaves undefined when it is abandoned (R136); SAMPLE writes no entry (R171). -/
def descOuts (d : BitVec 512) (t p : Nat) (s : State) : List (Nat × Nat) :=
  match dOp d with
  | 0x02 => (matChecks d).outs
  | 0x03 => (convChecks d).outs
  | 0x04 => attOuts s (.tile t) p d
  | 0x06 => (moveChecks d).outs
  | 0x07 => (gatherVerdict s (.tile t) p d).2
  | 0x08 => (redChecks d s t p).outs
  | 0x0D => (cropChecks d).outs
  | 0x0E => (boxChecks d).outs
  | 0x0F => (nmsChecks d).outs
  | _ => []

/-- What an abandoned command leaves: the outputs it had begun are undefined (R136); of a VEC_RUN, the tensors that its program
had addressed (R171, log entry 66). -/
def abandonedOuts (c : RunCmd) (t p : Nat) (s : State) : State :=
  if dOp c.desc = 0x05 then
    match c.work.vec with
    | some w => (vecResume c.desc t p w s).spoil false
    | none => s
  else (failed s (descOuts c.desc t p s) stAbandoned).s

/-- A weight load takes more than one unit of 256 cycles: it fills more than 256 cell rows, or comes from elsewhere than the tile's own store at
128 bytes a cycle (R92, R94, R112). -/
def longLoad (d : BitVec 512) (t : Nat) : Bool :=
  let c := slabLoadChecks d
  let a := match operand (dbits d 30 0 4) (dbits d 31 0 2) with | some o => o.w | none => 0
  decide (512 < dfld d 26 2 * a) ||
    (decide (32768 < (c.ins.map (·.2)).sum) && c.ins.any (fun r => r.1 / 0x1000000 != storeBase t / 0x1000000))

/-- One yield unit of a running command (R112, R132): what memory and its work are after it; none where it has no unit before its
last one.  A unit of ATTEND, of a synchronous MOVE or GATHER_PAGES and of CROP_RESIZE and NMS is one piece of output; SAMPLE, BOX_DECODE and a long
SLAB_LOAD have one unit before the last, in which they write (log entry 67). -/
def commandUnit (d : BitVec 512) (t p : Nat) (w : Work) (s : State) : Option (State × Work) :=
  let g : Agent := .tile t
  let pieces (ins reads : List (Nat × Nat)) (rows : State → List (Nat × List Byte) × Bool) : Option (State × Work) :=
    let s := s.fetchAll g (ins ++ reads)
    if ins.any (fun r => s.meetsPoison g r.1 r.2) then none
    else let l := rows s; pieceUnit s g l.1 l.2 w
  let twice (more : Bool) : Option (State × Work) := if more && w.row == 0 then some (s, { w with row := 1 }) else none
  match dOp d with
  | 0x01 => twice (longLoad d t)
  | 0x02 => matUnit d t w s
  | 0x03 => convUnit d t w s
  | 0x04 =>
    let x := attFields d
    let y := paramFields (s.readBytes x.param 256)
    (pieces (attChecks d).ins (attReads s g p x y) (fun s => let z := (attPieces s g p d).1; (z.rows, z.fail.isSome))).map (fun r =>
      (attCount r.1 t (expandFields (s.readBytes y.exp 64)) (attPieces s g p d).2 w.row (w.row + 1), r.2))
  | 0x05 => (vecUnit d t p w.vec s).map (fun r => (r.1, { w with vec := some r.2 }))
  | 0x06 => if dAsync d then none else pieces (moveChecks d).ins [] (fun s => (moveRows s (moveFields d), false))
  | 0x07 => if dAsync d then none
            else (pieces [] (gatherReads s g p d) (fun s => let z := (gatherAll s g p d).1; (z.rows, z.fail.isSome))).map (fun r =>
              (gatherUsed r.1 t d (((gatherAll s g p d).2.drop w.row).take 1), r.2))
  | 0x0C => twice true
  | 0x0D => (pieces (cropChecks d).ins [] (fun s => ((cropOut s (cropFields d)).flatMap (·.2), false))).map (fun r => (r.1.vecUsed t d, r.2))
  | 0x0E => twice true
  | 0x0F => (pieces (nmsChecks d).ins [] (fun s => (nmsOut (nmsFields d) (nmsKept s (nmsFields d)).1, false))).map (fun r => (r.1.vecUsed t d, r.2))
  | _ => none

/-! ## TALLY_WAIT, TALLY_SIGNAL, YIELD, END -/

def waitChecks (d : BitVec 512) : Checks :=
  { reserved := headerReserved d || dfld d 26 38 != 0
    range := headerRange d || decide (16383 < dfld d 16 2)
    tallies := [dfld d 16 2] }
def signalChecks (d : BitVec 512) : Checks :=
  { reserved := headerReserved d || dfld d 23 41 != 0
    range := headerRange d || decide (16383 < dfld d 16 2) || decide (1 < dfld d 22 1)
    tallies := [dfld d 16 2] }
def yieldChecks (d : BitVec 512) : Checks :=
  let mode := dfld d 16 1
  let units := dfld d 18 2
  { reserved := headerReserved d || dfld d 17 1 != 0 || dfld d 20 44 != 0
    range := headerRange d || decide (1 < mode) || (mode == 1 && units == 0) || (mode == 0 && units != 0) }
def endChecks (d : BitVec 512) : Checks :=
  { reserved := headerReserved d || dfld d 18 46 != 0, range := headerRange d }

/-- The check of R113 on a whole descriptor: status and the address an ADDRESS refusal reports. -/
def descVerdict (d : BitVec 512) (t p : Nat) (s : State) : Nat × Nat :=
  let done := if dDoneEn d then [dTally d] else []
  let v (c : Checks) : Nat × Nat := ({ c with tallies := c.tallies ++ done } : Checks).verdict s p
  match dOp d with
  | 0x01 => v (slabLoadChecks d)
  | 0x02 => v (matChecks d)
  | 0x03 => v (convChecks d)
  | 0x04 => let r := v (attChecks d); if r.1 ≠ stOk then r else attBlockVerdict s (.tile t) p d
  | 0x05 => v (vecChecks d)
  | 0x06 => v (moveChecks d)
  | 0x07 => let r := v (gatherChecks d); if r.1 ≠ stOk then r else (gatherVerdict s (.tile t) p d).1
  | 0x08 => v (redChecks d s t p)
  | 0x09 => v (waitChecks d)
  | 0x0A => v (signalChecks d)
  | 0x0B => v (yieldChecks d)
  | 0x0C => v (sampleChecks d s p)
  | 0x0D => v (cropChecks d)
  | 0x0E => v (boxChecks d)
  | 0x0F => v (nmsChecks d)
  | 0x10 => v (endChecks d)
  | _ => (stOpcode, 0)

end Sys2Proof.Machine
end

