-- ==== Sys2Proof/Machine/TileOps.lean ====
section
/-! DEFINITION.  Queues, takes and ends of tile commands (R106, R107, R114-R117, R132-R137), abandonment (R136),
tallies at their homes (R201-R205), and the page DMA hand-over (R126, R207), as shared operations. -/
namespace Sys2Proof.Machine
open Sys2Proof

/-! ## Tallies -/

def State.tally (s : State) (n : Nat) : Word := sget 0 s.mem.tallies n
def State.setTally (s : State) (n : Nat) (v : Word) : State := { s with mem := { s.mem with tallies := sset 0 s.mem.tallies n v } }
def State.tallyBad (s : State) (n : Nat) : Bool := sget false s.mem.talliesBroken n
def State.setTallyBad (s : State) (n : Nat) (b : Bool) : State :=
  { s with mem := { s.mem with talliesBroken := sset false s.mem.talliesBroken n b } }
/-- Home hearth of a tally (R201). -/
def tallyHome (n : Nat) : Nat := n / 4096
/-- The home answers requests from die d (R210, R211). -/
def State.homeUp (s : State) (d n : Nat) : Bool := s.dieReady (4 + tallyHome n) && s.reach d (4 + tallyHome n)
def State.pushSignal (s : State) (g : Signal) : State := { s with mem := { s.mem with signals := s.mem.signals ++ [g] } }

/-- The waiter of tile t at hearth h. -/
def Hearth.waiter (h : Hearth) (t : Nat) : Option Waiter := sget none h.waiters t
/-- Wake the waits on tally n that its value satisfies (R203). -/
def State.wakeWaiters (s : State) (n : Nat) : State :=
  let h := s.hearth (tallyHome n)
  s.setHearth (tallyHome n) { h with waiters := h.waiters.map (fun e => match e.2 with
    | some w => if w.tally = n ∧ w.threshold ≤ (s.tally n).toNat then (e.1, some { w with woken := true }) else e
    | none => e) }
/-- Remove tile t's registration wherever it is held (R203). -/
def State.dropWaiter (s : State) (t : Nat) : State :=
  (List.range 4).foldl (fun s h => let x := s.hearth h; s.setHearth h { x with waiters := sset none x.waiters t none }) s
/-- Remove tile t's contribution to a reduction. -/
def State.dropContribution (s : State) (t : Nat) : State :=
  { s with mem := { s.mem with reductions := s.mem.reductions.filter (fun c => c.tile ≠ t) } }

/-- Note a partition in a hearth's contributor mask with its tally event (R413, R414). -/
def State.tallyMark (s : State) (h p : Nat) (f : Hearth → Hearth) : State :=
  let x := f (s.hearth h)
  let s' := s.setHearth h { x with contrib := if p < 8 then x.contrib ||| BitVec.ofNat 8 (2 ^ p) else x.contrib }
  if p < 8 then s'.occurIf (s.tallyLevel p) (s'.tallyLevel p) (1088 + p) else s'

/-- SIGNAL at the home: saturating add, OVF, wakes (R201, R202); false when the operation is dropped (R205, R211). -/
def State.signalTally (s : State) (d n v : Nat) : State × Bool :=
  if !s.homeUp d n || s.tallyBad n then (s, false)
  else
    let sum := (s.tally n).toNat + v
    let s := s.setTally n (BitVec.ofNat 32 (min sum (2 ^ 32 - 1)))
    let s := if 2 ^ 32 ≤ sum
      then s.tallyMark (tallyHome n) (s.tallyPart n) (fun h => { h with ovf := true, lastOvf := n % 4096 }) else s
    (s.wakeWaiters n, true)

/-- RESET at the home (R201, R205). -/
def State.resetTally (s : State) (d n : Nat) (v : Word) : State × Bool :=
  if !s.homeUp d n then (s, false)
  else (((s.setTally n v).setTallyBad n false).wakeWaiters n, true)

/-! ## The end of a command -/

/-- Post a completion record (R116). -/
def State.postRecord (s : State) (r : TileDone) : State := { s with teller := { s.teller with records := s.teller.records ++ [r] } }

def isSlab (op : Nat) : Bool := op == 0x01 || op == 0x02 || op == 0x03
/-- Opcodes that use the slab array (R108). -/
def usesArray (op : Nat) : Bool := isSlab op || op == 0x04

/-- Advance or halt the queue of a command that ends with `st` (R107, R115, R136, R137). -/
def endQueue (q : TileQueue) (c : RunCmd) (st : Nat) : TileQueue :=
  if c.flushed then { q with head := q.tail, marked := [] }
  else if st = stOk ∨ st = stAbandoned then { q with head := (c.slot + 1) % 64, marked := q.marked.filter (fun m => m ≠ c.slot) }
  else { q with halted := true }

/-- End command c of tile t with its status and counts: queue, record, LAST_ERR, event, NUMERIC. -/
def endCommand (s : State) (t : Nat) (c : RunCmd) (st num opf res : Nat) : State :=
  let x := s.tile t
  let op := dOp c.desc
  let x := { x with lastErr := if st = stOk ∨ st = stAbandoned then x.lastErr else st }
  let s := s.setTile t (x.setQ c.queue (endQueue (x.q c.queue) c st))
  let s := if isSlab op then s.setNumeric t ((s.tile t).numSticky ||| BitVec.ofNat 32 (num % 128)) (s.tile t).numEvmask else s
  let s := if dEvt c.desc then s.tileEvent t else s
  if (st = stOk ∧ dCpl c.desc) ∨ st ≠ stOk ∨ op = 0x10 then
    s.postRecord { opcode := op, status := st, numeric := BitVec.ofNat 8 num, opflags := BitVec.ofNat 8 opf, queue := c.queue,
                   tile := t, taken := c.taken, result := res, tag := dTag c.desc, user := dUser c.desc,
                   tally := dTally c.desc, add := dAdd c.desc }
  else s

/-- End the running command of tile t. -/
def endRunning (s : State) (t : Nat) (c : RunCmd) (st num opf res : Nat) : State :=
  let s := (s.dropWaiter t).dropContribution t
  endCommand (s.setTile t { s.tile t with running := none }) t c st num opf res

/-- A command has done its work: it ends, or waits for its DONE_TALLY signal to reach the home (R109, R205). -/
def finishCommand (s : State) (t : Nat) (c : RunCmd) (r : Done) : State :=
  if r.status = stOk ∧ dDoneEn c.desc then
    let c' := { c with numeric := BitVec.ofNat 8 r.numeric, opflags := BitVec.ofNat 8 r.opflags, result := r.result, unit := 1,
                       wait := .signal, work := { c.work with outs := r.outs } }
    let s := (r.s.dropWaiter t).dropContribution t
    (s.setTile t { s.tile t with running := some c' }).pushSignal
      { src := 4 + t / 8, tally := dTally c.desc, value := dAdd c.desc, after := .command t }
  else endRunning r.s t c r.status r.numeric r.opflags r.result

/-- Tile t goes on with its work: its dies are ready (R27, R354), and no DRAM access has to wait (R428, log entry 86). -/
def State.tileWorks (s : State) (t : Nat) : Bool := s.tileUp t && s.dramOpen
/-- The running command of tile t, where it is `op`, the tile works, the command has not begun to wait and no spill or restore runs. -/
def State.runnable (s : State) (t op : Nat) : Option RunCmd :=
  let x := s.tile t
  if x.spilling.isSome || x.restoring.isSome || !s.tileWorks t then none
  else match x.running with
  | some c => if dOp c.desc = op ∧ c.wait = .none then some c else none
  | none => none

/-- The array has computed for a command, or for one of its units: a free count of cycles (R103, log entry 3). -/
def State.slabUsed (s : State) (t : Nat) (d : BitVec 512) : State :=
  let x := s.tile t
  { (s.setTile t { x with slabActive := x.slabActive + Config.busyCycles s.free d }) with free := s.free + 1 }

/-- The running command c of tile t does one more of its yield units, after which a yield point lies; none where it ends without one: in its last
unit, or while it only waits for its own signal (R112, R132). -/
def unitOf (s : State) (t : Nat) (c : RunCmd) : Option State :=
  match c.wait with
  | .signal => none
  | .none => (commandUnit c.desc t (s.tilePart t) c.work s).map (fun r =>
      let s := r.1.setTile t { r.1.tile t with running := some { c with work := r.2 } }
      if usesArray (dOp c.desc) && dOp c.desc != 0x01 then s.slabUsed t c.desc else s)
  | _ => some s

/-- An abandoned or flushed command ends at its next yield point, where one lies ahead of it; otherwise it runs to its end (R136, R137). -/
def stopsFirst (s : State) (t : Nat) (c : RunCmd) : Bool := (c.abandoned || c.flushed) && (unitOf s t c).isSome

/-- It ends there with ABANDONED: the outputs it had begun are undefined (R136). -/
def endAbandoned (s : State) (t : Nat) (c : RunCmd) : State :=
  endRunning (abandonedOuts c t (s.tilePart t) s) t c stAbandoned 0 0 0

/-- What the running command `op` of tile t does when its row comes, where it is that command: it ends at a yield point where it must, else `k`. -/
def whenRunning (s : State) (t op : Nat) (k : RunCmd → State) : Host.Outcome State Fault Refusal :=
  match s.runnable t op with
  | some c => .next (if stopsFirst s t c then endAbandoned s t c else k c)
  | none => .next s

/-- Perform the running command `op` of tile t from where its work stands, where it is one (log entries 1 and 11). -/
def perform (s : State) (t op : Nat) (k : BitVec 512 → Nat → Work → State → Done) : Host.Outcome State Fault Refusal :=
  whenRunning s t op (fun c => finishCommand s t c (k c.desc (s.tilePart t) c.work s))

/-! ## Starting commands (R107, R113) -/

/-- The frame that holds a context of queue q. -/
def Tile.frameOf (x : Tile) (q : Nat) : Option Nat :=
  if (x.frame0.map (·.cmd.queue)) = some q then some 0 else if (x.frame1.map (·.cmd.queue)) = some q then some 1 else none
def Tile.frame (x : Tile) (f : Nat) : Option Frame := if f = 0 then x.frame0 else x.frame1
def Tile.setFrame (x : Tile) (f : Nat) (v : Option Frame) : Tile := if f = 0 then { x with frame0 := v } else { x with frame1 := v }

/-- Queue q of a tile is ready (R107). -/
def Tile.ready (x : Tile) (q : Nat) : Bool :=
  (x.q q).en && !(x.q q).halted && !(x.q q).ceding && ((x.q q).head != (x.q q).tail || (x.frameOf q).isSome)
/-- The ready queue of highest priority. -/
def Tile.best (x : Tile) : Option Nat := (List.range 4).find? x.ready

/-- A command of queue q begins to use the array, or goes on after a restore: a preload record of another queue is cleared, and
the array holds the preloaded weight tile, or the command's own current one (R92, R96, R108). -/
def State.useArray (s : State) (t q : Nat) (d : BitVec 512) (w : Option Work) : State :=
  let fresh := w.isNone
  if !usesArray (dOp d) then s
  else
    let x := s.tile t
    let keep := match x.preload with
      | some r => if r.queue != q then none else some r
      | none => none
    let s := s.setTile t { x with preload := keep }
    if dOp d = 0x01 ∨ dOp d = 0x04 then s
    else
      let fmts := dfld d 48 1
      let (pre, tgt) := if dOp d = 0x02 then (dbits d 55 0 1 == 1, dbits d 55 1 4) else (dbits d 49 6 1 == 1, 0)
      let hit := fresh && pre && (match keep with
        | some r => r.wAddr == dAddr d 22 && r.fmts == fmts && r.tgt == tgt
        | none => false)
      s.loadWeights t hit d (w.getD {})

/-- A command boundary of tile t: resume a spilled context, skip a marked slot, or fetch and check a descriptor. -/
def boundary (s : State) (t : Nat) : State :=
  let x := s.tile t
  if x.running.isSome || x.spilling.isSome || x.restoring.isSome || s.tileOut t || !s.tileUp t then s
  else
    let s := s.settlePower t
    match x.best with
    | none => s
    | some q =>
    match x.frameOf q with
    | some f => s.setTile t { x with restoring := some f }
    | none =>
      let tq := x.q q
      if tq.marked.contains tq.head then
        s.setTile t (x.setQ q { tq with head := (tq.head + 1) % 64, marked := tq.marked.filter (fun m => m ≠ tq.head) })
      else
        let d := sget 0 tq.slots tq.head
        let p := s.tilePart t
        let c : RunCmd := { desc := d, queue := q, slot := tq.head }
        let v := descVerdict d t p s
        if v.1 = stOk then
          (s.setTile t { x with running := some c }).useArray t q d none
        else
          let s := if v.1 = stAddress ∨ v.1 = stTally then s.boundsFault p v.2 else s
          endCommand s t c v.1 0 0 0

/-! ## Takes (R132, R133, R137) -/

/-- The frame a take by queue q uses, where it is free (R132). -/
def Tile.takeFrame (x : Tile) (q : Nat) : Option Nat :=
  if q = 0 then (if x.frame1.isNone then some 1 else none)
  else if q = 1 ∨ q = 2 then (if x.frame0.isNone then some 0 else none)
  else none

/-- A yield point of the running command, after one more of its units, where one lies ahead of it: it ends where it is abandoned or flushed, else
it is taken where a queue of higher priority is ready and a frame is free (R132, R136, R137); a take removes a registered wait (R203). -/
def yieldPoint (s : State) (t : Nat) : State :=
  let x := s.tile t
  if x.spilling.isSome || x.restoring.isSome || !s.tileWorks t then s
  else match x.running with
  | none => s
  | some c =>
    match unitOf s t c with
    | none => s
    | some r =>
    if c.abandoned || c.flushed then endAbandoned s t c
    else
      let s := r.settlePower t
      let x := s.tile t
      match x.best with
      | none => s
      | some q =>
        if q < c.queue then
          match x.takeFrame q with
          | some f => (s.setTile t { x with spilling := some (f, q), takeCount := x.takeCount + 1, preload := none }).dropWaiter t
          | none => s
        else s

/-- The wait of a spilled command: its registration is removed and sent again on restore (R203). -/
def spilledWait (w : Waiting) : Waiting :=
  match w with
  | .tallyHeld => .tallySent
  | w => w

/-- The bytes of context frame f of tile t: where they lie and how many a spill writes (R133, R134). -/
def frameBase (t f : Nat) : Nat := storeBase t + 0xD00000 + f * 0x180000
def frameBytes : Nat := 1327104

/-- The spill completes (R133, R137), and the queue that takes the tile begins.  The frame's bytes in the store hold the context
in a layout that the spec does not give: free values (log entry 71). -/
def spillDone (s : State) (t : Nat) : State :=
  let x := s.tile t
  match x.spilling, x.running with
  | some (f, _), some c =>
    let s := s.freeBytes (frameBase t f) frameBytes
    let x := { x with spilling := none, running := none }
    let c := { c with taken := true, wait := spilledWait c.wait }
    let s :=
      if c.flushed then
        (s.dropContribution t).setTile t (x.setQ c.queue (endQueue (x.q c.queue) c stAbandoned))
      else if c.abandoned then
        endCommand (((abandonedOuts c t (s.tilePart t) s).dropContribution t).setTile t x) t c stAbandoned 0 0 0
      else s.setTile t (x.setFrame f (some { cmd := c, vec := x.vec }))
    boundary s t
  | _, _ => s

/-- The restore completes (R133): the context is read back and the current weight tile loaded again. -/
def restoreDone (s : State) (t : Nat) : State :=
  let x := s.tile t
  match x.restoring with
  | none => s
  | some f => match x.frame f with
    | none => s.setTile t { x with restoring := none }
    | some fr =>
      (s.setTile t ({ x with restoring := none, running := some fr.cmd, vec := fr.vec }.setFrame f none)).useArray t fr.cmd.queue
        fr.cmd.desc (some fr.cmd.work)

/-- A restore is broken off when a queue of higher priority becomes ready (R133). -/
def breakRestore (x : Tile) : Tile :=
  match x.restoring with
  | some f => match x.frame f, x.best with
    | some fr, some q => if q < fr.cmd.queue then { x with restoring := none } else x
    | _, _ => x
  | none => x

/-! ## KLN_TQ_CTRL, TAIL and KLN_ABANDON (R136, R142, R144) -/

/-- FLUSH of queue q (R137, R142): a running command of it ends at its next yield point, or, where it only waits for its own
signal, when that is applied, and the queue then empties. -/
def flushQueue (s : State) (t q : Nat) : State :=
  let x := s.tile t
  let tq := { x.q q with halted := false, marked := [] }
  let runs := (x.running.map (·.queue)) = some q
  let drop := if runs then (s.dropWaiter t) else s
  let x := (match x.running with
    | some c => if c.queue = q then { x with running := some { c with flushed := true } } else x
    | none => x)
  let held := x.frameOf q
  let x := match held with
    | some f => { x with restoring := if x.restoring = some f then none else x.restoring }.setFrame f none
    | none => x
  let drop := if held.isSome then drop.dropContribution t else drop
  drop.setTile t (x.setQ q (if runs then tq else { tq with head := tq.tail }))

/-- RESUME of queue q (R142). -/
def resumeQueue (x : Tile) (q : Nat) : Tile :=
  let tq := x.q q
  if tq.halted then x.setQ q { tq with halted := false, head := (tq.head + 1) % 64, marked := tq.marked.filter (fun m => m ≠ tq.head) }
  else x

/-- A write of KLN_TQ_CTRL: EN, then FLUSH, then RESUME. -/
def ctrlWrite (s : State) (t : Nat) (v : Word) : State :=
  let x := (List.range 4).foldl (fun (x : Tile) q => x.setQ q { x.q q with en := v.getLsbD q }) (s.tile t)
  let s := s.setTile t x
  let s := (List.range 4).foldl (fun s q => if v.getLsbD (4 + q) then flushQueue s t q else s) s
  let x := (List.range 4).foldl (fun x q => if v.getLsbD (8 + q) then resumeQueue x q else x) (s.tile t)
  s.setTile t (breakRestore x)

/-- The first action of the log that a TAIL write would carry out. -/
def Action.isTail (a : Action) (t q v : Nat) : Bool := !a.applied && a.kind == .tail t q v
/-- Mark the first unapplied action of the log that the write carries out; the tile keeps its number (R446). -/
def markAction (s : State) (t q v : Nat) : State :=
  let rec go : List Action → List Action
    | [] => []
    | a :: r => if a.isTail t q v then { a with applied := true } :: r else a :: go r
  let x := s.islands
  { s with islands := { x with acts := go x.acts, lastAct := match x.acts.find? (·.isTail t q v) with
    | some a => sset 0 x.lastAct t a.num
    | none => x.lastAct } }

/-- A TAIL write (R144). -/
def tailWrite (s : State) (t q : Nat) (v : Word) : State :=
  let x := s.tile t
  let s := s.setTile t (breakRestore (x.setQ q { x.q q with tail := v.toNat % 64 }))
  markAction s t q (v.toNat % 64)

/-- Mark a command that carries the tag. -/
def abandonCmd (tag : Nat) (c : RunCmd) : RunCmd := if dTag c.desc = tag ∧ c.wait ≠ .signal then { c with abandoned := true } else c
/-- Slots of a queue that hold a descriptor with the tag, the running or spilled one's own slot left out. -/
def tagSlots (tq : TileQueue) (tag : Nat) (own : Option Nat) : List Nat :=
  ((List.range ((tq.tail + 64 - tq.head) % 64)).map (fun i => (tq.head + i) % 64)).filter
    (fun sl => dTag (sget 0 tq.slots sl) = tag ∧ some sl ≠ own ∧ !tq.marked.contains sl)

/-- A write of KLN_ABANDON (R136, R144). -/
def abandonWrite (s : State) (t : Nat) (tag : Word) : State :=
  let x := s.tile t
  if tag = 0 then s
  else if 16 ≤ x.abandonList.length then s.setTile t { x with abandonFull := true }
  else
    let g := tag.toNat
    let own (q : Nat) : Option Nat :=
      match x.running with
      | some c => if c.queue = q then some c.slot else (x.frameOf q).bind (fun f => (x.frame f).map (·.cmd.slot))
      | none => (x.frameOf q).bind (fun f => (x.frame f).map (·.cmd.slot))
    let fr (f : Option Frame) : Option Frame := f.map (fun f => { f with cmd := abandonCmd g f.cmd })
    let en (e : Option Transfer) : Option Transfer := e.map (fun e => if dTag e.desc = g then { e with stop := true } else e)
    let waiting : Bool := match x.running with
      | some c => decide (dTag c.desc = g ∧ c.wait ≠ .signal)
      | none => false
    let x' := { x with
      abandonList := x.abandonList ++ [g], abandonFull := false, lastAbandon := tag,
      running := x.running.map (abandonCmd g), frame0 := fr x.frame0, frame1 := fr x.frame1,
      engine0 := en x.engine0, engine1 := en x.engine1 }
    let x' := (List.range 4).foldl (fun (y : Tile) q =>
      y.setQ q { y.q q with marked := (y.q q).marked ++ tagSlots (y.q q) g (own q) }) x'
    let s := if waiting then (s.dropWaiter t).dropContribution t else s
    s.setTile t x'

/-- Put an action of the active island into the action log (R446). -/
def State.logAct (s : State) (k : ActKind) (applied : Bool) : State :=
  { s with islands := { s.islands with acts := s.islands.acts ++ [{ num := s.islands.nextAct, kind := k, cycle := s.islands.cycle, applied := applied }],
                                       nextAct := (s.islands.nextAct + 1) % 2 ^ 32 } }
/-- The TAIL writes of tile t that stand in the log reach it in the log's order, before what is written to it later (R446). -/
def applyTails (s : State) (t : Nat) : State :=
  s.islands.acts.foldl (fun s a => match a.kind with
    | .tail u q v => if u = t ∧ !a.applied then tailWrite s t q (BitVec.ofNat 32 v) else s
    | _ => s) s
/-- Descriptors that still wait to be copied into a queue of tile t are dropped where a test holds of them. -/
def State.dropFeeds (s : State) (t : Nat) (gone : BitVec 512 → Bool) : State :=
  { s with teller := { s.teller with feeds := s.teller.feeds.filterMap (fun f =>
      if f.1 ≠ t then some f
      else
        let l := f.2.2.filter (fun d => !gone d)
        if l.isEmpty then none else some (f.1, f.2.1, l)) } }
/-- The TAIL writes that stand in the log for tile t, and the descriptors that wait to be copied there, are given up. -/
def State.dropTails (s : State) (t : Nat) : State :=
  let tailOf (a : Action) : Bool := match a.kind with | .tail u _ _ => u == t && !a.applied | _ => false
  let s := s.dropFeeds t (fun _ => true)
  { s with islands := { s.islands with acts := s.islands.acts.filter (fun a => !tailOf a) } }

/-- The Teller writes a tag to KLN_ABANDON, behind the TAIL writes it has logged for the tile, copies no descriptor of the tag any more,
and keeps the tag to be written again where the tile's list is full (R136, R296, R446). -/
def sendAbandon (s : State) (t tag : Nat) : State :=
  let s := ((applyTails s t).dropFeeds t (fun d => dTag d == tag)).logAct (.other (0x8000000 + t)) true
  let s' := abandonWrite s t (BitVec.ofNat 32 tag)
  if (s.tile t).abandonList.length < 16 then s'
  else { s' with teller := { s'.teller with abandons := s'.teller.abandons ++ [(t, tag)] } }
/-- Write the dropped tags again. -/
def retryAbandons (s : State) : State :=
  s.teller.abandons.foldl (fun s e => sendAbandon s e.1 e.2) { s with teller := { s.teller with abandons := [] } }
/-- The tile has acted on a tag (KLN_TQ_STATUS.BUSY for it is clear), and no write of it is owed. -/
def State.actedOn (s : State) (t tag : Nat) : Bool :=
  !(s.tile t).abandonList.contains tag && !s.teller.abandons.contains (t, tag)

/-- Free a frame whose command is abandoned, its command ending with ABANDONED, unless a restore reads it (R136, R137). -/
def freeAbandoned (s : State) (t f tag : Nat) : State :=
  let x := s.tile t
  match x.frame f with
  | some fr =>
    if fr.cmd.abandoned ∧ dTag fr.cmd.desc = tag ∧ x.restoring ≠ some f
    then endCommand (((abandonedOuts fr.cmd t (s.tilePart t) s).dropContribution t).setTile t (x.setFrame f none)) t fr.cmd stAbandoned 0 0 0 else s
  | none => s

/-- The tile has acted on a tag: its frames are freed, and the entry leaves the list once nothing carries it (R136). -/
def abandonActed (s : State) (t tag : Nat) : State :=
  if !(s.tile t).abandonList.contains tag then s
  else
    let s := freeAbandoned (freeAbandoned s t 0 tag) t 1 tag
    let x := s.tile t
    let cmdHas (c : RunCmd) : Bool := c.abandoned && dTag c.desc == tag
    let engHas (e : Option Transfer) : Bool := match e with | some e => e.stop && dTag e.desc == tag | none => false
    let busy := (match x.running with | some c => cmdHas c | none => false) ||
      (match x.frame0 with | some f => cmdHas f.cmd | none => false) ||
      (match x.frame1 with | some f => cmdHas f.cmd | none => false) || engHas x.engine0 || engHas x.engine1
    if busy then s else retryAbandons (s.setTile t { x with abandonList := x.abandonList.filter (fun g => g ≠ tag) })

/-! ## Page DMA engines (R126, R207) -/

/-- Hand a command over to the lower-numbered free engine, which checks its tile's abandon list (R126): the transfer of a tag on it stops at its
next 4 KiB boundary (R136). -/
def Tile.give (x : Tile) (c : RunCmd) : Option Tile :=
  let tr : Transfer := { desc := c.desc, queue := c.queue, taken := c.taken, stop := c.abandoned || x.abandonList.contains (dTag c.desc) }
  if x.engine0.isNone then some { x with engine0 := some tr }
  else if x.engine1.isNone then some { x with engine1 := some tr } else none

/-- The queue moves on from a command that was handed over. -/
def Tile.moveOn (x : Tile) (c : RunCmd) : Tile := x.setQ c.queue (endQueue (x.q c.queue) c stOk)

/-- Serve the waiting hand-over of highest priority, of the running command or of a frame (R207). -/
def handover (s : State) (t : Nat) : State :=
  let x := s.tile t
  let waits (c : RunCmd) : Bool := c.wait == .engine && !c.abandoned && !c.flushed
  let cands : List (Nat × Nat × RunCmd) :=
    (match x.running with | some c => if waits c then [(c.queue, 2, c)] else [] | none => []) ++
    (match x.frame0 with | some f => if waits f.cmd && x.restoring != some 0 then [(f.cmd.queue, 0, f.cmd)] else [] | none => []) ++
    (match x.frame1 with | some f => if waits f.cmd && x.restoring != some 1 then [(f.cmd.queue, 1, f.cmd)] else [] | none => [])
  match (List.range 4).findSome? (fun q => cands.find? (fun k => k.1 = q)) with
  | none => s
  | some (_, place, c) =>
    if x.spilling.isSome && place == 2 then s
    else match x.give c with
    | none => s
    | some x' =>
      let x'' := if place = 2 then { x' with running := none } else x'.setFrame place none
      s.setTile t (x''.moveOn c)

/-- ASYNC: hand over at once, or wait for an engine. -/
def startAsync (s : State) (t : Nat) (c : RunCmd) : State :=
  let x := s.tile t
  match x.give c with
  | some x' => s.setTile t ({ x' with running := none }.moveOn c)
  | none => s.setTile t { x with running := some { c with wait := .engine } }

/-- A transfer's end: its event and record, where it posts one, and LAST_ERR (R126, R143). -/
def transferRecord (s : State) (d : TileDone) (cpl evt : Bool) : State :=
  let s := if d.status = stOk ∨ d.status = stAbandoned then s else s.setTile d.tile { s.tile d.tile with lastErr := d.status }
  let s := if evt then s.tileEvent d.tile else s
  if cpl || d.status != stOk then s.postRecord d else s

/-- Engine e of tile t ends its transfer (R126, R208), once its hearth and DRAM serve it (R428, log entry 86). -/
def transferDone (s : State) (t e : Nat) : State :=
  let x := s.tile t
  match (if !s.dieReady (4 + t / 8) || !s.dramOpen then none else if e = 0 then x.engine0 else x.engine1) with
  | none => s
  | some tr =>
    let p := s.tilePart t
    let r := dmaRun tr.desc t p tr.stop s
    let x := r.s.tile t
    let s := r.s.setTile t (if e = 0 then { x with engine0 := none } else { x with engine1 := none })
    let d : TileDone := { opcode := dOp tr.desc, status := r.status, queue := tr.queue, tile := t, taken := tr.taken,
                          tag := dTag tr.desc, user := dUser tr.desc, tally := dTally tr.desc, add := dAdd tr.desc }
    if r.status = stOk ∧ dDoneEn tr.desc then
      s.pushSignal { src := 4 + t / 8, tally := dTally tr.desc, value := dAdd tr.desc, after := .transfer d (dCpl tr.desc) (dEvt tr.desc) (descOuts tr.desc t p s) }
    else transferRecord s d (dCpl tr.desc) (dEvt tr.desc)

/-! ## What follows a tally operation at its issuer (R198, R205) -/

/-- The issuer learns that its operation was applied (`ok`) or dropped: then the command or transfer ends with HW_FAULT and its outputs are
undefined (R115). -/
def afterSignal (s : State) (a : After) (ok : Bool) : State :=
  match a with
  | .nothing => s
  | .transfer d cpl evt outs => transferRecord (if ok then s else (failed s outs stHw).s) { d with status := if ok then stOk else stHw } cpl evt
  | .command t =>
    match (s.tile t).running with
    | some c =>
      if c.wait ≠ .signal then s
      else if !ok then endRunning (failed s (descOuts c.desc t (s.tilePart t) s ++ c.work.outs.flatMap (s.reachable (s.tilePart t))) stHw).s t c stHw 0 0 0
      else if dOp c.desc = 0x0A ∧ c.unit = 0 ∧ dDoneEn c.desc then
        (s.setTile t { s.tile t with running := some { c with unit := 1 } }).pushSignal
          { src := 4 + t / 8, tally := dTally c.desc, value := dAdd c.desc, after := .command t }
      else endRunning s t c stOk c.numeric.toNat c.opflags.toNat c.result
    | none => s

/-- Take the oldest tally operation of one kind from the route. -/
def State.popSignal (s : State) (reset : Bool) : Option (Signal × State) :=
  match s.mem.signals.find? (fun g => g.reset == reset) with
  | some g => some (g, { s with mem := { s.mem with signals := s.mem.signals.eraseP (fun g => g.reset == reset) } })
  | none => none

/-- A tally's value meets an error (R205, R213): a corrected one counts and raises a class C fault; an uncorrectable one marks
the tally broken, with its event and fault, and every registered wait ends with HW_FAULT. -/
def breakTally (s : State) (n : Nat) (e : EccEvent) : State :=
  let h := tallyHome n
  match e with
  | .clean => s
  | .corrected =>
    let x := s.hearth h
    (s.setHearth h { x with ceCount := satAdd (2 ^ 32 - 1) x.ceCount 1 }).raise { source := 68 + h, addr := hearthAddr h (0x10000 + n % 4096 * 8) }
  | .uncorrectable _ =>
    let s := s.setTallyBad n true
    let s := s.tallyMark h (s.tallyPart n) (fun x => { x with broken := true, lastBroken := n % 4096,
                                                              ueCount := satAdd (2 ^ 32 - 1) x.ueCount 1 })
    let s := s.raise { source := 76 + h, owner := s.tallyPart n, addr := hearthAddr h (0x10000 + n % 4096 * 8) }
    (List.range 32).foldl (fun s t =>
      match (s.hearth h).waiter t, (s.tile t).running with
      | some w, some c => if w.tally = n then endRunning s t c stHw 0 0 0 else s
      | _, _ => s) s

end Sys2Proof.Machine
end

