-- ==== Sys2Proof/Machine/Memory.lean ====
section
/-! DEFINITION.  Coherence at the homes (R190-R195, R209), ECC (R180, R184), accounting windows (R187, R215), zero
writing (R207), and the hearth memory registers (R212, R213). -/
namespace Sys2Proof.Machine
open Sys2Proof

/-! ## Transactions at the homes (R193) -/

/-- Hearth h may bring the line of an address into its cache: the hearth is ready, may hold the line, and the partition of the
line has ways there (R190, R191). -/
def State.mayCache (s : State) (h addr : Nat) : Bool :=
  decide (h < 4) && s.dieReady (4 + h) && s.cacheable h addr && s.hasWays h (s.addrPart addr)

/-- A read miss of a line that hearth h does not hold (R193); of one it holds, the ECC outcome is its own (R180). -/
def execReadMiss (h addr : Nat) (e : EccEvent) (s : State) : Host.Outcome State Fault Refusal :=
  if !s.mayCache h addr then .next s
  else if ((s.hearth h).line (addr / 64)).isSome then .next (rcError s h (addr / 64) (s.addrPart addr) e)
  else .next (readMiss s h (addr / 64) (s.addrPart addr) e)
/-- An ownership request (R193), of a whole-line write or of a byte-masked one, which fetches the line first (R190). -/
def execOwnershipRequest (h : Nat) (x : OwnerAsk) (s : State) : Host.Outcome State Fault Refusal :=
  if s.mayCache h x.addr then .next (ownershipRequest s h (x.addr / 64) (s.addrPart x.addr) x.whole x.event) else .next s
/-- A write-back from an owner (R193). -/
def execWriteBack (h addr : Nat) (s : State) : Host.Outcome State Fault Refusal :=
  match (s.hearth h).line (addr / 64) with
  | some c => if h < 4 ∧ c.dirty then .next (s.dropCopy h (addr / 64)) else .next s
  | none => .next s
/-- An eviction notice of a clean copy (R193). -/
def execEvictionNotice (h addr : Nat) (s : State) : Host.Outcome State Fault Refusal :=
  match (s.hearth h).line (addr / 64) with
  | some c => if h < 4 ∧ !c.dirty then .next (s.dropCopy h (addr / 64)) else .next s
  | none => .next s
/-- An access by a home-side agent (R193). -/
def execHomeSideAccess (addr : Nat) (write : Bool) (s : State) : Host.Outcome State Fault Refusal :=
  .next (homeSide s (addr / 64) write)

/-! ## Patrol and accounting -/

/-- Working channels of a vault, as places in the list of working channels. -/
def State.vaultChannels (s : State) (v : Nat) : List Nat :=
  (List.range s.channels).filter (fun i => s.workingChannel i / 24 = v)
/-- Lines of a vault's data. -/
def State.vaultLines (s : State) (v : Nat) : Nat := (s.vaultChannels v).length * (0x3E0000000 / 64)
/-- Line number of the n-th line a vault's patrol reads: granule by granule, in ascending address (log entry 13). -/
def State.patrolLine (s : State) (v n : Nat) : Nat :=
  let cs := s.vaultChannels v
  let g := n / 64
  let k := max 1 cs.length
  (g / k * s.channels + (cs[g % k]?).getD 0) * 64 + n % 64

/-- The patrol scrubber reads its next line (R184), once its channel serves it (R428).  With inline ECC off there is nothing to check, and
the patrol stands still (DESIGN CHOICE, log entry 95). -/
def execPatrolRead (v : Nat) (e : EccEvent) (s : State) : Host.Outcome State Fault Refusal :=
  let x := s.vault v
  if 2 ≤ v ∨ x.patrolOff ∨ !s.mem.ecc ∨ !s.dieReady (8 + v) ∨ s.vaultLines v = 0 ∨ s.chanPaused (s.patrolLine v x.patrolLine * 64) then .next s
  else
    let s := s.eccEvent (s.patrolLine v x.patrolLine) e
    let x := s.vault v
    let n := x.patrolLine + 1
    .next (s.setVault v (if s.vaultLines v ≤ n then { x with patrolLine := 0, passes := (x.passes + 1) % 65536 }
                         else { x with patrolLine := n }))

/-- One partition's part of a window's end: bytes served, and a shortfall, which counts once for a vault's window whichever of its
channels report it (R187, R215). -/
def windowPart (b : Nat) (short : Bool) (p : Nat) (x : Vault) : Vault :=
  { x with
    bwBytes := sset 0 x.bwBytes p (sget 0 x.bwBytes p + BitVec.ofNat 64 b)
    bwShort := if short && !sget false x.counted p then sset 0 x.bwShort p (satAdd (2 ^ 32 - 1) (sget 0 x.bwShort p) 1) else x.bwShort
    counted := if short then sset false x.counted p true else x.counted }

/-- A channel's 10 µs window ends: bytes served to each partition, and which had requests queued (R187, R215).  A vault's windows
end together, and its channels' rows may come in any order: a channel's second row opens the next window (DESIGN CHOICE, log
entry 72). -/
def execAccountingWindowEnd (chan : Nat) (served : List Nat) (queued : BitVec 8) (s : State) : Host.Outcome State Fault Refusal :=
  if 48 ≤ chan then .next s
  else
    let v := chan / 24
    let x := s.vault v
    let x := if x.windowDone.contains chan then { x with windowDone := [chan], counted := [] }
             else { x with windowDone := x.windowDone ++ [chan] }
    .next ((List.range 8).foldl (fun s p =>
      match s.part? p with
      | none => s
      | some r =>
        let b := (served[p]?).getD 0
        let short := queued.getLsbD p && decide (b * 48 < r.bwMin * 80000)
        let s := s.setVault v (windowPart b short p (s.vault v))
        if short then s.raise { source := 229 + chan } else s) (s.setVault v x))

/-- Zero a range: every cached copy is invalidated first, and the export counts follow (R195, R207). -/
def State.zeroRange (s : State) (base n : Nat) : State :=
  let inR (l : Nat) : Bool := decide (base ≤ l * 64) && decide (l * 64 < base + n)
  let s := (List.range 4).foldl (fun s h =>
    let x := s.hearth h
    s.setHearth h { x with rc := x.rc.filter (fun e => !inR e.1) }) s
  let s := (s.mem.dir.filter (fun e => inR e.1)).foldl (fun s e => s.setDir e.1 0) s
  s.zero base n

/-! ## Hearth memory registers (R212, R213) -/

/-- Blocks with posted writes: the memory block of hearth h, and the fault collector. -/
def hearthBlock (h : Nat) : Nat := 40 + h
def faultBlock : Nat := 60
/-- Accept a posted write, or drop it while the block is busy (R398). -/
def State.post (s : State) (m : Master) (block addr : Nat) (v : DWord) (busy : State → State) : State :=
  if s.reg.posted.any (fun p => p.block = block) then (s.logAccess (instOf m) addr causeBusy true).reply .dropped
  else (busy { s with reg := { s.reg with posted := s.reg.posted ++ [{ block := block, addr := addr, value := v, master := m }] } }).reply .accepted

/-- HRT_RC_FLUSH, a posted mint write (R212, R213). -/
def execHrtRcFlush (m : Master) (h : Nat) (v : Word) (s : State) : Host.Outcome State Fault Refusal :=
  if s.isStandby m then .next (s.reply .dropped)
  else if s.isMint m ∧ h < 4 ∧ s.dieReady (4 + h) then
    .next ((s.failDual m (addrBlock (hearthAddr h 0x18))).post m (hearthBlock h) (hearthAddr h 0x18) (v.zeroExtend 64) (fun s =>
      s.setHearth h { s.hearth h with flushBusy := true }))
  else .next (s.refuse m (hearthAddr h 0x18) true)

/-- The flush is carried out: the partition's ways are written back, and invalidated with INVAL. -/
def applyFlush (s : State) (h : Nat) (v : DWord) : State :=
  let part := v.toNat % 8
  let inval := v.getLsbD 3
  let (first, count) := (s.hearth h).wayRange part
  let s := (s.hearth h).rc.foldl (fun s e => match e.2 with
    | some c =>
      if first ≤ c.way ∧ c.way < first + count then
        (if inval then s.dropCopy h e.1
         else if c.dirty then
           let s := (s.setHearth h ((s.hearth h).setLine e.1 (some { c with dirty := false, stale := [] }))).wroteBack e.1 c
           if owned (s.dirOf e.1) then s.setDir e.1 (2 ^ h) else s
         else s)
      else s
    | none => s) s
  s.setHearth h { s.hearth h with flushPart := part, flushInval := inval, flushBusy := false }

/-- A mint write of HRT_TALLY_VALn is a RESET (R213). -/
def execHrtTallyValWrite (m : Master) (n : Nat) (v : Word) (s : State) : Host.Outcome State Fault Refusal :=
  let a := hearthAddr (tallyHome n) (0x10000 + n % 4096 * 8)
  if s.isStandby m then .next (s.reply .dropped)
  else if s.isMint m ∧ n < 16384 ∧ s.homeUp 10 n then
    .next (((s.failDual m (addrBlock a)).resetTally 10 n v).1.reply .accepted)
  else .next (s.refuse m a true)

/-- Clear OVF and BROKEN where a write has 1s; both clear empties the contributor mask (R213, R414). -/
def State.tallyStatClear (s : State) (h : Nat) (v : Word) : State :=
  let x := s.hearth h
  let ovf := x.ovf && !v.getLsbD 0
  let broken := x.broken && !v.getLsbD 1
  s.setHearth h { x with ovf := ovf, broken := broken, contrib := if ovf || broken then x.contrib else 0 }

/-- A mint write of HRT_TALLY_STAT (R212). -/
def execHrtTallyStatClear (m : Master) (h : Nat) (v : Word) (s : State) : Host.Outcome State Fault Refusal :=
  if s.isStandby m then .next (s.reply .dropped)
  else if s.isMint m ∧ h < 4 ∧ s.dieReady (4 + h) then
    .next (((s.failDual m (addrBlock (hearthAddr h 0x28))).tallyStatClear h v).reply .accepted)
  else .next (s.refuse m (hearthAddr h 0x28) true)

end Sys2Proof.Machine
end

