-- ==== Sys2Proof/Machine/Pool.lean ====
section
/-! DEFINITION.  Page pools and page lists as the Teller keeps them (R243, R286-R290, R299): the buddy allocator, list
regions, reservations, and what is freed. -/
namespace Sys2Proof.Machine
open Sys2Proof

/-! ## The buddy allocator (R287) -/

/-- A block put into a list by rising address. -/
def insBlock (b : Block) : List Block → List Block
  | [] => [b]
  | c :: r => if b.addr < c.addr then b :: c :: r else c :: insBlock b r
/-- A freed block merges with its free buddy at once; blocks reach at most 2^21 bytes. -/
def freeBlock (fuel : Nat) (fs : List Block) (b : Block) : List Block :=
  match fuel with
  | 0 => insBlock b fs
  | fuel + 1 =>
    let buddy : Block := { addr := if b.addr / 2 ^ b.k % 2 = 0 then b.addr + 2 ^ b.k else b.addr - 2 ^ b.k, k := b.k }
    if b.k < 21 ∧ fs.contains buddy then freeBlock fuel (fs.erase buddy) { addr := min b.addr buddy.addr, k := b.k + 1 }
    else insBlock b fs
def Pool.give (x : Pool) (b : Block) : Pool := { x with freeBlocks := freeBlock 10 x.freeBlocks b }

/-- A 2 MiB unit is being shrunk out (R290). -/
def Pool.shrinks (x : Pool) (u : Nat) : Bool := x.shrinking.any (fun r => decide (r.1 ≤ u) && decide (u < r.1 + r.2.1))
def blockUnit (b : Block) : Nat := b.addr / 2 ^ 21
/-- Free blocks that may be allocated, by rising address. -/
def Pool.open_ (x : Pool) : List Block := x.freeBlocks.filter (fun b => !x.shrinks (blockUnit b))

/-- One block of 2^k bytes. -/
def Pool.alloc (x : Pool) (k : Nat) : Option (Block × Pool) :=
  match x.open_.find? (fun b => b.k = k) with
  | some b => some (b, { x with freeBlocks := x.freeBlocks.erase b })
  | none =>
    match x.open_.find? (fun b => k < b.k) with
    | some b =>
      let halves : List Block := (List.range (b.k - k)).map (fun j => { addr := b.addr + 2 ^ (k + j), k := k + j })
      some ({ addr := b.addr, k := k }, { x with freeBlocks := halves.foldl (fun fs c => insBlock c fs) (x.freeBlocks.erase b) })
    | none => none

/-- Smallest k from 12 with n ≤ 2^k. -/
def sizeK (n : Nat) : Nat := ((List.range 10).find? (fun j => n ≤ 2 ^ (12 + j))).elim 21 (12 + ·)
/-- A region of n bytes: one block up to 2 MiB, whole adjacent units at the lowest addresses above. -/
def Pool.region (x : Pool) (n : Nat) : Option (List Block × Pool) :=
  if n ≤ 2 ^ 21 then (x.alloc (sizeK n)).map (fun r => ([r.1], r.2))
  else
    let c := (n + 2 ^ 21 - 1) / 2 ^ 21
    let whole := (x.open_.filter (fun b => b.k = 21)).map (·.addr)
    match whole.find? (fun a => (List.range c).all (fun i => whole.contains (a + i * 2 ^ 21))) with
    | some a =>
      let bs : List Block := (List.range c).map (fun i => { addr := a + i * 2 ^ 21, k := 21 })
      some (bs, { x with freeBlocks := x.freeBlocks.filter (fun b => !bs.contains b) })
    | none => none

/-- Free bytes of the pool that may be allocated, and its bytes less those being shrunk (R304). -/
def Pool.freeBytes (x : Pool) : Nat := (x.open_.map (fun b => 2 ^ b.k)).sum
def Pool.totalBytes (x : Pool) : Nat := (x.units.filter (fun u => !x.shrinks u)).length * 2 ^ 21
/-- No block is held or waits for its zero writer in a range of units (R290). -/
def Pool.rangeFree (x : Pool) (first count : Nat) : Bool :=
  let inR (u : Nat) : Bool := decide (first ≤ u) && decide (u < first + count)
  ((x.freeBlocks.filter (fun b => inR (blockUnit b))).map (fun b => 2 ^ b.k)).sum == (x.units.filter inR).length * 2 ^ 21
/-- The range leaves the pool. -/
def Pool.dropRange (x : Pool) (first count : Nat) : Pool :=
  let inR (u : Nat) : Bool := decide (first ≤ u) && decide (u < first + count)
  { x with units := x.units.filter (fun u => !inR u), freeBlocks := x.freeBlocks.filter (fun b => !inR (blockUnit b)),
           shrinking := x.shrinking.filter (fun r => r.1 ≠ first) }
/-- Units given by POOL_ADD; those the pool has already stand as they are. -/
def Pool.add (x : Pool) (first count : Nat) : Pool :=
  (List.range count).foldl (fun (x : Pool) i =>
    if x.units.contains (first + i) then x
    else { x with units := x.units ++ [first + i], freeBlocks := insBlock { addr := (first + i) * 2 ^ 21, k := 21 } x.freeBlocks }) x

/-- Blocks that a request of partition p gives up: into the pool, or to a zero writer first in a CONFIDENTIAL one (R499). -/
def State.returnBlocks (s : State) (p : Nat) (bs : List Block) : State :=
  if s.confidential p then
    let s := s.setPool p { s.pool p with zeroing := (s.pool p).zeroing ++ bs }
    { s with mem := { s.mem with zeroJobs := s.mem.zeroJobs ++ bs.map (fun b => { base := b.addr, bytes := 2 ^ b.k, purpose := 2, part := p }) } }
  else s.setPool p (bs.foldl Pool.give (s.pool p))

/-! ## List regions (R286) -/

/-- A ware's plan, or an empty one. -/
def State.planOf (s : State) (w : Nat) : Plan := match s.ware? w with | some x => x.plan | none => {}
def planRb (pl : Plan) : Nat := recBytes pl.kvFmt pl.latentDim
/-- Page index of a position (R244), and the first position of a page. -/
def pageOfPos (pl : Plan) (pos : Nat) : Nat :=
  (pageIndex { addr := 0, firstK := pl.firstK, capK := pl.capK, fmt := 0, dim := 0, seqLen := 0, entries := 0 } (pos * planRb pl)).1
def pageFirst (pl : Plan) (i : Nat) : Nat :=
  (if i ≤ pl.capK - pl.firstK then 2 ^ (pl.firstK + i) - 2 ^ pl.firstK
   else 2 ^ pl.capK - 2 ^ pl.firstK + (i - (pl.capK - pl.firstK)) * 2 ^ pl.capK) / planRb pl
/-- Entries of a page list for n records. -/
def listEntries (pl : Plan) (n : Nat) : Nat := if n = 0 then 0 else pageOfPos pl (n - 1) + 1
/-- Bytes of a page list for n records, rounded up to 4 KiB. -/
def listBytes1 (pl : Plan) (n : Nat) : Nat := roundUp (64 + 8 * listEntries pl n) 4096

def hasDraft (r : Request) : Bool := r.draft != 0xFFFF
/-- LIST_BYTES of a request: the larger of its models' lists (log entry 15). -/
def State.listBytes (s : State) (r : Request) : Nat :=
  let n := r.promptLen + r.maxNew
  max (listBytes1 (s.planOf r.ware) n) (if hasDraft r then listBytes1 (s.planOf r.draft) n else 0)
def State.draftLayers (s : State) (r : Request) : Nat := if hasDraft r then (s.planOf r.draft).layers else 0
/-- Bytes of the list region. -/
def State.regionBytes (s : State) (r : Request) : Nat :=
  4096 + ((s.planOf r.ware).layers + s.draftLayers r) * s.listBytes r
/-- Address of a page list: target lists in layer order, then the draft lists. -/
def State.listAddr (s : State) (r : Request) (draft : Bool) (layer : Nat) : Nat :=
  r.listBase + 4096 + (if draft then (s.planOf r.ware).layers + layer else layer) * s.listBytes r
/-- The lists of one model. -/
def State.listsOf (s : State) (r : Request) (draft : Bool) : List Nat :=
  (List.range (if draft then s.draftLayers r else (s.planOf r.ware).layers)).map (s.listAddr r draft)

/-- Header of a page list (R243). -/
def listHeader (pl : Plan) : List Byte :=
  toLE 1 pl.firstK ++ toLE 1 pl.capK ++ toLE 1 pl.kvFmt ++ [0] ++ toLE 2 pl.latentDim ++ List.replicate 58 0
/-- Write the list region's header and empty page lists. -/
def State.writeRegion (s : State) (r : Request) : State :=
  let s := s.put .mint r.listBase (toLE 6 r.promptAddr ++ [0, 0] ++ toLE 4 (s.listBytes r) ++ toLE 2 (s.planOf r.ware).layers ++
    toLE 2 (s.draftLayers r) ++ List.replicate 4080 0)
  let s := (s.listsOf r false).foldl (fun s' a => s'.put .mint a (listHeader (s.planOf r.ware))) s
  (s.listsOf r true).foldl (fun s' a => s'.put .mint a (listHeader (s.planOf r.draft))) s

/-- Write SEQ_LEN into every page-list header of a request (R281). -/
def State.writeSeqLen (s : State) (r : Request) (n : Nat) : State :=
  (s.listsOf r false ++ s.listsOf r true).foldl (fun s a => s.put .mint (a + 8) (toLE 4 n)) s
/-- Write ENTRIES into the page-list headers of one model. -/
def State.writeEntries (s : State) (r : Request) (draft : Bool) (n : Nat) : State :=
  (s.listsOf r draft).foldl (fun s a => s.put .mint (a + 12) (toLE 4 n)) s

/-! ## Reservation (R288) -/

/-- Entries that the lists of one model hold. -/
def Request.entries (r : Request) (draft : Bool) : Nat := (r.pages.filter (fun g => g.draft == draft && g.layer == 0)).length

/-- Pages still missing in one model's lists up to a position: layer by layer, then by index. -/
def State.missing (s : State) (r : Request) (draft : Bool) (last : Nat) : List (Nat × Nat) :=
  let n := r.entries draft
  let need := pageOfPos (s.planOf (if draft then r.draft else r.ware)) last + 1
  (List.range (if draft then s.draftLayers r else (s.planOf r.ware).layers)).flatMap
    (fun l => (List.range (need - n)).map (fun i => (l, n + i)))

/-- Reserve the pages of one model up to position `last`, all or nothing; SEQ_LEN is left as it is. -/
def State.reserve (s : State) (i : Nat) (draft : Bool) (last : Nat) : Option State :=
  let r := s.request i
  let p := s.reqPart i
  let pl := s.planOf (if draft then r.draft else r.ware)
  let todo := s.missing r draft last
  let got : Option (Pool × List PageRef) := todo.foldl (fun acc w => match acc with
    | none => none
    | some (x, ps) => match x.alloc (min (pl.firstK + w.2) pl.capK) with
      | some (b, x') => some (x', ps ++ [{ draft := draft, layer := w.1, index := w.2, block := b }])
      | none => none) (some (s.pool p, []))
  match got with
  | none => none
  | some (_, []) => some s
  | some (x, ps) =>
    let s := s.setPool p x
    let s := s.setRequest i { r with pages := r.pages ++ ps }
    let s := ps.foldl (fun s g => s.put .mint (s.listAddr r draft g.layer + 64 + 8 * g.index)
      (toLE 8 (g.block.addr / 4096 + (g.block.k - 12) * 2 ^ 36))) s
    some (s.writeEntries r draft (pageOfPos pl last + 1))

/-- Roll back to SEQ_LEN n (R299): lists of both models, and pages whose first position lies above it. -/
def State.rollBack (s : State) (i n : Nat) : State :=
  let r := s.request i
  let above (g : PageRef) : Bool := decide (n < pageFirst (s.planOf (if g.draft then r.draft else r.ware)) g.index)
  let gone := r.pages.filter above
  let kept := { r with seqLen := n, pages := r.pages.filter (fun g => !above g) }
  let s := (s.setRequest i kept).writeSeqLen r n
  let s := if gone.any (fun g => !g.draft) then s.writeEntries r false (kept.entries false) else s
  let s := if gone.any (fun g => g.draft) then s.writeEntries r true (kept.entries true) else s
  if gone.isEmpty then s else s.returnBlocks (s.reqPart i) (gone.map (·.block))

end Sys2Proof.Machine
end

