-- ==== Sys2Proof/Machine/Serve.lean ====
section
/-! DEFINITION.  The life of a request (R281, R282, R288-R301): stalls, ends, step composition and dispatch, boundaries
and the ring writer on V0, as shared operations. -/
namespace Sys2Proof.Machine
open Sys2Proof

/-- Entries from ADMITTED to DRAINING (R304). -/
def ReqState.active : ReqState → Bool
  | .free | .retired => false
  | _ => true
/-- Entries that CANCEL acts on (R282). -/
def ReqState.live : ReqState → Bool
  | .free | .retired | .draining => false
  | _ => true
def ReqState.held : ReqState → Bool
  | .stalled | .suspended => true
  | _ => false

/-- Insert into a list ordered by a test. -/
def insBy {α : Type} (lt : α → α → Bool) (a : α) : List α → List α
  | [] => [a]
  | b :: r => if lt a b then a :: b :: r else b :: insBy lt a r
def sortBy {α : Type} (lt : α → α → Bool) : List α → List α
  | [] => []
  | a :: r => insBy lt a (sortBy lt r)

/-- Requests of partition p. -/
def State.requestsOf (s : State) (p : Nat) : List (Nat × Request) := s.teller.requests.filter (fun e => s.reqPart e.1 == p)
/-- A step or chunk of partition p is running. -/
def State.stepRunning (s : State) (p : Nat) : Bool :=
  s.teller.wares.any (fun e => e.2.part == p && (e.2.step.isSome || e.2.chunk.isSome))
/-- Every admitted request of p is STALLED or SUSPENDED and no step runs (R289). -/
def State.allStalled (s : State) (p : Nat) : Bool :=
  let l := (s.requestsOf p).filter (fun e => e.2.state.active)
  !l.isEmpty && l.all (fun e => e.2.state.held) && !s.stepRunning p
/-- Raise ALL_STALLED while it holds (R289, R304). -/
def State.noteStalled (s : State) (p : Nat) : State := if s.allStalled p then s.setPevt p 1 else s

/-! ## Ends (R292, R295) -/

/-- Release a pin of an adapter version (R300). -/
def State.unpin (s : State) (r : Request) : State :=
  if r.adapter = 0xFFFF then s
  else match s.ware? r.ware with
  | none => s
  | some w =>
    let a := sget {} w.adapters r.adapter
    let vs := a.versions.map (fun v => if v.1 = r.adapterVer then (v.1, v.2.1, v.2.2 - 1) else v)
    s.setWare r.ware { w with adapters := sset {} w.adapters r.adapter { a with versions := vs } }

/-- The key of a closing session is erased once its requests have retired (R499). -/
def State.reapSession (s : State) (p k : Nat) : State :=
  let x := s.session p k
  if x.closing && !(s.requestsOf p).any (fun e => e.2.state.active && e.2.session == some k) then s.setSession p k {} else s

/-- The Teller asks V0 for a record: the request is logged first (R446). -/
def State.pushRing (s : State) (r : RingRec) : State :=
  let s := s.logAct (.ring r.req) true
  { s with teller := { s.teller with ringRecs := s.teller.ringRecs ++ [r] } }

/-- The request retires (R295): pages, list region and pin go, the END record is asked for where none has been written. -/
def State.retire (s : State) (i : Nat) : State :=
  let r := s.request i
  let p := s.reqPart i
  let s := s.setRequest i { r with state := .retired, resumeTo := .free, pages := [], listBlocks := [], promptCopy := [], inStep := none,
                                   cancelNow := false, cancelSrc := none, taggedDone := [], stallCause := 0, suspendReq := false,
                                   lastPass := false,
                                   kOut := if (s.ring i).ended then 0 else r.kOut }
  let s := s.returnBlocks p (r.pages.map (·.block) ++ r.listBlocks ++ r.promptCopy)
  let s := s.unpin r
  let s := if (s.ring i).ended then { s with sec := { s.sec with keyCache := sset none s.sec.keyCache i none } }
    else s.pushRing { req := i, stepSeq := r.stepSeq, token := 0, noToken := true, position := r.seqLen, endReason := r.endReason }
  match r.session with
  | some k => s.reapSession p k
  | none => s

/-- Work of request i is still about: a tile of its partition has not acted on its tag, or holds a command or a transfer of it (R273). -/
def State.tagBusy (s : State) (i : Nat) : Bool :=
  let p := s.reqPart i
  let tag := 0x80000000 + i
  (List.range 32).any (fun t => s.tilePart t == p &&
    (let x := s.tile t
     let eng (e : Option Transfer) : Bool := match e with | some e => dTag e.desc == tag | none => false
     let fr (f : Option Frame) : Bool := match f with | some f => dTag f.cmd.desc == tag | none => false
     let run : Bool := match x.running with | some c => dTag c.desc == tag | none => false
     !s.actedOn t tag || eng x.engine0 || eng x.engine1 || fr x.frame0 || fr x.frame1 || run))

/-- The request ends for a reason (R282): DRAINING, and at once RETIRED where no step is in flight and no work of it is left
(R273, R295). -/
def State.drain (s : State) (i reason : Nat) : State :=
  let r := s.request i
  let s := s.setRequest i { r with state := .draining, resumeTo := .free, endReason := if r.endReason = 0 then reason else r.endReason,
                                   suspendReq := false }
  if r.inStep.isSome || s.tagBusy i then s else s.retire i

/-- The request stalls (R288, R292): cause 1 pages, with one STALL record for an episode; cause 2 ring space. -/
def State.stall (s : State) (i cause : Nat) : State :=
  let r := s.request i
  let r' := { r with state := .stalled, resumeTo := if r.state = .stalled then r.resumeTo else r.state, stallCause := cause,
                     stallOrder := if r.state = .stalled then r.stallOrder else s.teller.nextStall,
                     stallPosted := if cause = 1 then true else if r.state = .stalled then r.stallPosted else false }
  let s' := s.setRequest i r'
  let s' := { s' with teller := { s'.teller with nextStall := s'.teller.nextStall + 1 } }
  if cause = 1 ∧ ¬ (r.state = .stalled ∧ r.stallPosted)
  then s'.pushRing { req := i, stepSeq := r.stepSeq, token := BitVec.ofNat 32 cause, stall := true, noToken := true, position := r.seqLen }
  else s'

/-! ## What a request's next step needs (R288, R292, R297) -/

/-- Draft tokens of a round: SPEC_K, lowered near the end of the request's range (log entry 16). -/
def Request.round (r : Request) : Nat := min r.specK (r.promptLen + r.maxNew - 1 - r.seqLen)
/-- The next pass of a DECODE request is a draft pass. -/
def Request.draftTurn (r : Request) : Bool := decide (r.draftsDone < r.round)
/-- The next pass of a DECODE request is a draft pass of ware w. -/
def Request.draftPass (r : Request) (w : Nat) : Bool := hasDraft r && r.draft == w && r.draftTurn
/-- First position and count of the next pass of a DECODE request. -/
def Request.pass (r : Request) (draft : Bool) : Nat × Nat :=
  if draft then (r.seqLen + r.draftsDone, 1) else (r.seqLen, r.round + 1)
/-- Tokens of the next chunk of a request, where `room` tokens are left in it. -/
def Request.chunk (r : Request) (room : Nat) : Nat × Nat := (r.prefilled, min room (r.promptLen - r.prefilled))

/-- Free slots of a ring (R292). -/
def Ring.free (g : Ring) : Nat := 2 ^ g.log2 - (g.wr + 2 ^ 32 - g.rd) % 2 ^ 32
/-- Records of ring i that have not been written yet: on their way to V0, and in its staging. -/
def State.ringAhead (s : State) (i : Nat) : Nat :=
  (s.teller.ringRecs.filter (fun g => g.req = i)).length +
    ((sget [] s.host.staging (s.reqPart i)).filter (fun x => match x with | .ringRecord j _ _ => j == i | .completion _ => false)).length
/-- The partition's share of ring staging is full (R382). -/
def State.stagingFull (s : State) (p : Nat) : Bool := decide (8192 ≤ (sget [] s.host.staging p).length)
def State.ringRoom (s : State) (i records : Nat) : Bool :=
  decide (records + 2 + s.ringAhead i ≤ (s.ring i).free) && !s.stagingFull (s.reqPart i)

/-- A request that reserves new pages waits behind the stalled ones of its partition (R289). -/
def State.behindStall (s : State) (i : Nat) : Bool :=
  let r := s.request i
  (s.requestsOf (s.reqPart i)).any (fun e => e.1 != i && e.2.state == .stalled && e.2.stallCause == 1 &&
    (r.state != .stalled || decide (e.2.cls < r.cls) || (e.2.cls == r.cls && decide (e.2.stallOrder < r.stallOrder))))

/-- The reservation for positions up to `last` of one model (R288, R289). -/
def State.reserveFor (s : State) (i : Nat) (draft : Bool) (last : Nat) : Option State :=
  if (s.missing (s.request i) draft last).isEmpty then some s
  else if s.behindStall i then none
  else s.reserve i draft last

/-- What the next pass of a request in state `st` needs: model, last position, records.  A chunk runs the target alone. -/
def State.need (s : State) (i : Nat) (st : ReqState) : Bool × Nat × Nat :=
  let r := s.request i
  if st = .decode then
    let d := r.draftTurn
    let x := r.pass d
    (d, x.1 + x.2 - 1, if d then 0 else r.round + 1)
  else
    let x := r.chunk (max 1 (s.planOf r.ware).chunkTokens)
    (false, x.1 + x.2 - 1, 1)

/-- The stalled requests of p in their order: class, then order of stalling. -/
def State.stallOrder (s : State) (p : Nat) : List Nat :=
  (sortBy (fun (a b : Nat × Request) => decide (a.2.cls < b.2.cls) || (a.2.cls == b.2.cls && decide (a.2.stallOrder < b.2.stallOrder)))
    ((s.requestsOf p).filter (fun e => e.2.state == .stalled))).map (·.1)

/-- Stalled requests of p whose reservation and ring now succeed go back to RESUME_TO (R289); one whose reservation fails stalls on pages,
or ends where it does not wait (R288). -/
def State.resumeStalled (s : State) (p : Nat) : State :=
  (s.stallOrder p).foldl (fun s i =>
    let r := s.request i
    let n := s.need i r.resumeTo
    match s.reserveFor i n.1 n.2.1 with
    | none => if r.noWait then s.drain i 0x08 else s.stall i 1
    | some s' =>
      if !s'.ringRoom i n.2.2 then s'.setRequest i { s'.request i with stallCause := 2 }
      else s'.setRequest i { s'.request i with state := r.resumeTo, resumeTo := .free, stallCause := 0, stallPosted := false }) s

/-- A request is to enter a pass (R284 step 2): it passes R288 and R292, or stalls, or ends with NO_PAGES. -/
def State.enter (s : State) (i : Nat) (draft : Bool) (last records : Nat) : State × Bool :=
  match s.reserveFor i draft last with
  | none => (if (s.request i).noWait then s.drain i 0x08 else s.stall i 1, false)
  | some s' => if s'.ringRoom i records then (s', true) else (s'.stall i 2, false)

/-! ## Dispatch (R139, R284, R296) -/

/-- Bytes [b + n - 1 : b] of a descriptor replaced. -/
def dset (d : BitVec 512) (b n v : Nat) : BitVec 512 :=
  BitVec.ofNat 512 (d.toNat - dfld d b n * 2 ^ (8 * b) + v % 2 ^ (8 * n) * 2 ^ (8 * b))
/-- CPL set. -/
def dsetCpl (d : BitVec 512) : BitVec 512 := if dCpl d then d else BitVec.ofNat 512 (d.toNat + 2 ^ 8)
def reqTag (i : Nat) : Nat := 0x80000000 + i

/-- Value of a step symbol for a row, the `k`-th of the rows (R139, R257, R283, R297, R300). -/
def State.symbol (s : State) (w tag : Nat) (chunk : Bool) (rows : List StepRow) (k : Nat) (sym : Sym) : Nat :=
  let row := (rows[k]?).getD { req := 0, first := 0, count := 0 }
  let r := s.request row.req
  let draft := !chunk && r.draftPass w
  let before := ((rows.take k).map (·.count)).sum
  match sym with
  | .tag => tag
  | .reqTag => reqTag row.req
  | .req => row.req
  | .position => if chunk then row.first + row.count else row.first + 1
  | .seed => r.seed.toNat
  | .stepSeq => r.stepSeq
  | .pageList l => s.listAddr r draft l
  | .paramBlock o => (Config.paramAddr w o).toNat
  | .staging => (Config.stagingAddr row.req).toNat + (if draft then 8 * r.draftsDone else 0)
  | .temp => r.temp.toNat
  | .topP => r.topP.toNat
  | .topK => r.topK
  | .user => row.req
  | .verifyRows => r.round + 1
  | .drafts => r.round
  | .count => row.count
  | .total => (rows.map (·.count)).sum
  | .segment => k
  | .rowAddr base stride => base + stride * before
  | .adapter range ofs =>
    let v := ((sget {} ((s.ware? r.ware).elim [] (·.adapters)) r.adapter).versions.find? (fun v => v.1 = r.adapterVer)).map (·.2.1)
    match v.bind s.ware? with
    | some x => ((x.image[range]?).getD (0, 0)).1 + ofs
    | none => 0
  | .rank | .tile | .planTally _ | .image _ _ => 0

/-- Bits of a field replaced: TAG by a request tag. -/
def dsetTag (d : BitVec 512) (i : Nat) : BitVec 512 := dset d 4 4 (reqTag i)
/-- Commands that the Teller tags with the request they serve (R273, R296): ATTEND, GATHER_PAGES, SAMPLE.  One that names a page list
bears the tag of that list's sequence, also where it is given once for a step of several rows. -/
def tagged (op : Nat) : Bool := op == 0x04 || op == 0x07 || op == 0x0C
/-- A template descriptor for the k-th row. -/
def State.fillRow (s : State) (w tag : Nat) (chunk : Bool) (rows : List StepRow) (c : TplCmd) (k : Nat) : BitVec 512 :=
  let d := c.patches.foldl (fun d p => dset d p.byte p.len (s.symbol w tag chunk rows k p.sym)) c.desc
  let row := (rows[k]?).getD { req := 0, first := 0, count := 0 }
  let names := c.patches.any (fun p => match p.sym with | .pageList _ => true | _ => false)
  let d := if tagged (dOp d) ∧ k < rows.length ∧ (c.perRow ∨ rows.length = 1 ∨ names) then dsetTag d row.req else d
  if dTag d / 2 ^ 31 = 1 ∧ (dDoneEn d ∨ dOp d = 0x0C) then dsetCpl d else d
/-- One tile's stream for a step.  A chunk's SAMPLE serves the rows that hold their request's last prompt token (R283); a stream
without rows gets its commands once, its step symbols filled without a request. -/
def State.expand (s : State) (w tag : Nat) (chunk : Bool) (rows : List StepRow) (cmds : List TplCmd) : List (BitVec 512) :=
  let last (k : Nat) : Bool := match rows[k]? with | some row => row.first + row.count == (s.request row.req).promptLen | none => true
  cmds.flatMap (fun c =>
    let ks := if c.perRow then List.range rows.length else [0]
    (ks.filter (fun k => !chunk || dOp c.desc != 0x0C || last k)).map (s.fillRow w tag chunk rows c))

/-- TAIL of a queue once the logged writes have been applied (R446). -/
def State.tailSoon (s : State) (t q : Nat) : Nat :=
  s.islands.acts.foldl (fun v a => match a.kind with
    | .tail t' q' x => if !a.applied && t' == t && q' == q then x else v
    | _ => v) ((s.tile t).q q).tail

/-- Copy what fits of a stream into a queue and log its TAIL write; the rest waits. -/
def State.feed (s : State) (t q : Nat) (ds : List (BitVec 512)) : State :=
  let x := s.tile t
  let tl := s.tailSoon t q
  let room := 63 - (tl + 64 - (x.q q).head) % 64
  let now := ds.take room
  let slots := now.zipIdx.foldl (fun m e => sset 0 m ((tl + e.2) % 64) e.1) (x.q q).slots
  let s := s.setTile t (x.setQ q { x.q q with slots := slots })
  let s := if now.isEmpty then s else s.logAct (.tail t q ((tl + now.length) % 64)) false
  let rest := ds.drop room
  if rest.isEmpty then s else { s with teller := { s.teller with feeds := s.teller.feeds ++ [(t, q, rest)] } }
/-- Feed the waiting descriptors on. -/
def State.feedAll (s : State) : State :=
  s.teller.feeds.foldl (fun s f => s.feed f.1 f.2.1 f.2.2) { s with teller := { s.teller with feeds := [] } }

/-- Note the request-tagged commands with DONE_EN of a dispatched stream (R296). -/
def State.noteTagged (s : State) (t : Nat) (ds : List (BitVec 512)) : State :=
  ds.foldl (fun s d =>
    if dTag d / 2 ^ 31 = 1 ∧ dDoneEn d then
      let i := dTag d % 65536
      let r := s.request i
      s.setRequest i { r with taggedDone := r.taggedDone ++ [{ tile := t, user := dUser d, tally := dTally d, add := dAdd d }] }
    else s) s

/-- Queue of a role (R139), and the run of a role that is in flight. -/
def roleQueue : Role → Nat
  | .prefill => 0 | .decode => 1 | .vision => 2 | .housekeeping => 3
def Ware.run (w : Ware) : Role → Option StepRun
  | .prefill => w.chunk | .decode => w.step | .vision => w.vision | .housekeeping => w.house
def Ware.setRun (w : Ware) (r : Role) (x : Option StepRun) : Ware :=
  match r with
  | .prefill => { w with chunk := x }
  | .decode => { w with step := x }
  | .vision => { w with vision := x }
  | .housekeeping => { w with house := x }
def roles : List Role := [.prefill, .decode, .vision, .housekeeping]
/-- The runs of a ware in flight. -/
def Ware.runs (w : Ware) : List (Role × StepRun) := roles.filterMap (fun r => (w.run r).map (fun x => (r, x)))

/-- Dispatch a stream of ware h into its role's queue of every tile of the plan (R139, R284). -/
def State.dispatch (s : State) (h : Nat) (role : Role) (rows : List StepRow) (again : Bool) : State :=
  match s.ware? h with
  | none => s
  | some w =>
    let tag := s.teller.nextTag
    let s := { s with teller := { s.teller with nextTag := (tag + 1) % 2 ^ 31 } }
    let s := rows.foldl (fun s row =>
      let r := s.request row.req
      s.setRequest row.req { r with stepSeq := if again then r.stepSeq else (r.stepSeq + 1) % 65536, inStep := some tag, accepted := 0,
                                    restart := again, taggedDone := [],
                                    state := if r.state = .admitted then .prefill else r.state }) s
    let streams := w.streams.filter (fun x => x.role == role)
    let s' := streams.foldl (fun s' x =>
      let ds := s.expand h tag (role = .prefill) rows x.cmds
      let s' := if role = .prefill ∧ rows.length = 1 then s' else s'.noteTagged x.tile ds
      s'.feed x.tile (roleQueue role) ds) s
    s'.setWare h (w.setRun role (some { tag := tag, rows := rows, waiting := streams.map (·.tile) }))

/-- Requests in CLASS order, then ADMIT_STAMP, then entry. -/
def reqBefore (a b : Nat × Request) : Bool :=
  decide (a.2.cls < b.2.cls) || (a.2.cls == b.2.cls &&
    (decide (a.2.admitStamp < b.2.admitStamp) || (a.2.admitStamp == b.2.admitStamp && decide (a.1 < b.1))))

/-- An amendment in Drain releases tile t: no step is composed that uses it, and no ware is placed on it (R71). -/
def State.releasing (s : State) (t : Nat) : Bool :=
  match s.mould.amend with
  | some a => !a.suspended && a.step == .drain && a.image.parts.any (fun e => match s.part? e.1 with
    | some old => old.tiles.getLsbD t && !e.2.tiles.getLsbD t
    | none => false)
  | none => false
/-- No step of a ware is composed: ACTIVATE holds it, or a tile of it is draining (R71, R301, R523). -/
def State.composeBar (s : State) (w : Ware) : Bool := w.held || w.tiles.any s.releasing

/-- Compose and dispatch the next decode step of ware h (R284). -/
def State.composeStep (s : State) (h : Nat) : State :=
  match s.ware? h with
  | none => s
  | some w =>
    if w.step.isSome || s.composeBar w then s
    else
      let cands := sortBy reqBefore ((s.requestsOf w.part).filter (fun e => e.2.state == .decode && e.2.inStep.isNone &&
        (if e.2.draftTurn then e.2.draft == h else e.2.ware == h)))
      let r := cands.foldl (fun (acc : State × List StepRow) e =>
        if max 1 w.plan.maxRows ≤ acc.2.length then acc
        else
          let q := acc.1.request e.1
          let d := q.draftTurn
          let x := q.pass d
          let y := acc.1.enter e.1 d (x.1 + x.2 - 1) (if d then 0 else q.round + 1)
          (y.1, if y.2 then acc.2 ++ [{ req := e.1, first := x.1, count := x.2 }] else acc.2)) (s, [])
      if r.2.isEmpty then r.1 else r.1.dispatch h .decode r.2 false

/-- Dispatch the vision and housekeeping streams of ware h whose last copy has ended, at its step boundary (R138, R139; DESIGN CHOICE,
log entry 30). -/
def State.composeOther (s : State) (h : Nat) : State :=
  [Role.vision, .housekeeping].foldl (fun s r =>
    match s.ware? h with
    | none => s
    | some w => if (w.run r).isSome || s.composeBar w || !w.streams.any (fun x => x.role == r) then s else s.dispatch h r [] false) s

/-- Prompts that wait for a chunk of ware h. -/
def State.prompts (s : State) (h : Nat) (w : Ware) : List (Nat × Request) :=
  sortBy reqBefore ((s.requestsOf w.part).filter (fun e => (e.2.state == .admitted || e.2.state == .prefill) && e.2.inStep.isNone &&
    e.2.ware == h))

/-- Class of a list of rows: the best of their requests. -/
def State.rowsClass (s : State) (rows : List StepRow) : Nat := (rows.map (fun r => (s.request r.req).cls)).foldl min 3

/-- Compose the next chunk of ware h (R283, R285); with a decode step of class `limit` running, a chunk of lower class is held: it is
composed again, with the reservations it has made, at the step's boundary (log entry 74). -/
def State.composeChunk (s : State) (h : Nat) (limit : Option Nat) : State :=
  match s.ware? h with
  | none => s
  | some w =>
    if w.chunk.isSome || s.composeBar w then s
    else
      let r := (s.prompts h w).foldl (fun (acc : State × List StepRow) e =>
        let room := max 1 w.plan.chunkTokens - (acc.2.map (·.count)).sum
        let alone := acc.2.any (fun row => (acc.1.request row.req).hardAbort)
        if room = 0 ∨ alone ∨ (e.2.hardAbort ∧ ¬ acc.2.isEmpty) then acc
        else
          let x := (acc.1.request e.1).chunk room
          let y := acc.1.enter e.1 false (x.1 + x.2 - 1) 1
          (y.1, if y.2 then acc.2 ++ [{ req := e.1, first := x.1, count := x.2 }] else acc.2)) (s, [])
      let waits := match limit with | some c => decide (c < r.1.rowsClass r.2) | none => false
      if r.2.isEmpty || waits then r.1 else r.1.dispatch h .prefill r.2 false

/-! ## Boundaries (R283, R284, R299) -/

/-- Tiles of a run that have still to end: their END record, or acting on an abandoned tag, is awaited. -/
def State.awaited (s : State) (x : StepRun) : List Nat :=
  x.waiting.filter (fun t => !(x.abandoned && s.actedOn t x.tag && x.rows.all (fun r => s.actedOn t (reqTag r.req))))
/-- A run has ended: every END has come, and V0 holds none of its token records (R292). -/
def State.runEnded (s : State) (x : StepRun) : Bool :=
  (s.awaited x).isEmpty && !s.teller.ringRecs.any (fun g => !g.noToken && x.rows.any (fun r => r.req == g.req))

/-- What a request does at the boundary of its step: it ends, is held, or stands. -/
def State.atBoundary (s : State) (i : Nat) : State :=
  let r := s.request i
  let s := s.setRequest i { r with inStep := none, restart := false, taggedDone := [] }
  if r.state = .draining ∨ (s.ring i).ended then
    (if s.tagBusy i then s.setRequest i { s.request i with state := .draining, resumeTo := .free } else s.retire i)
  else if r.lastPass then s.drain i 0x06
  else if r.suspendReq then
    s.setRequest i { s.request i with state := .suspended, resumeTo := r.state, suspendReq := false }
  else s
/-- Draining requests of partition p without a step whose tags are no longer held anywhere retire (R273). -/
def State.reapDrained (s : State) (p : Nat) : State :=
  (s.requestsOf p).foldl (fun s e =>
    if e.2.state = .draining ∧ e.2.inStep.isNone ∧ !e.2.cancelNow ∧ !s.tagBusy e.1 then s.retire e.1 else s) s

/-- Write SEQ_LEN into the draft lists alone: a draft pass has appended its record (R283, R297). -/
def State.writeDraftLen (s : State) (r : Request) (n : Nat) : State :=
  (s.listsOf r true).foldl (fun s a => s.put .mint (a + 8) (toLE 4 n)) s

/-- A chunk or step of ware h has ended: its rows are taken into the table. -/
def State.finishRun (s : State) (h : Nat) (role : Role) (x : StepRun) : State :=
  let s := x.rows.foldl (fun s row =>
    let r := s.request row.req
    if r.inStep ≠ some x.tag ∨ r.cancelNow then s
    else if x.abandoned then s.atBoundary row.req
    else if role = .prefill then
      let n := row.first + row.count
      let s := (s.setRequest row.req { r with seqLen := n, prefilled := n,
                                                state := if r.state = .prefill ∧ n = r.promptLen then .decode else r.state }).writeSeqLen r n
      s.atBoundary row.req
    else if r.draftPass h then
      ((s.setRequest row.req { r with draftsDone := r.draftsDone + 1 }).writeDraftLen r (r.seqLen + r.draftsDone + 1)).atBoundary row.req
    else
      let n := r.seqLen + (if r.round = 0 then 1 else r.accepted)
      ((s.setRequest row.req { r with draftsDone := 0 }).rollBack row.req n).atBoundary row.req) s
  match s.ware? h with
  | some w => s.setWare h (w.setRun role none)
  | none => s

/-- Take in what has ended of ware h; what a kiln reset broke off is rerun instead. -/
def State.settle (s : State) (h : Nat) : State :=
  if ((s.ware? h).map (·.rerun)) = some true then s
  else
    let s := roles.foldl (fun s r =>
      match (s.ware? h).bind (·.run r) with
      | some x => if s.runEnded x then s.finishRun h r x else s
      | none => s) s
    match s.ware? h with
    | some w => s.reapDrained w.part
    | none => s

/-! ## Laying plans (R138, R139, R301, R356, R453) -/

/-- Tiles of a group meet its placement constraint; hearths are adjacent round the ring of R32. -/
def groupOk (c : Placement) (ts : List Nat) : Bool :=
  match c with
  | .any => true
  | .sameKiln => ts.all (fun t => t / 8 == (ts.head?.getD 0) / 8)
  | .sameHearthPair => (List.range 4).any (fun h => ts.all (fun t => t / 8 == h || t / 8 == (h + 1) % 4))

/-- Ways to take `n` tiles for a group from the free ones, each in ascending tile number. -/
def groupWays (c : Placement) (n : Nat) (free : List Nat) : List (List Nat) :=
  let of (h : Nat) : List Nat := free.filter (fun t => t / 8 == h)
  match c with
  | .any => if n ≤ free.length then [free.take n] else []
  | .sameKiln => (List.range 4).filterMap (fun h => if n ≤ (of h).length then some ((of h).take n) else none)
  | .sameHearthPair => (List.range 4).flatMap (fun h =>
      let a := of h
      let b := of ((h + 1) % 4)
      (List.range (n + 1)).filterMap (fun i => if i ≤ a.length ∧ n - i ≤ b.length
        then some (sortBy (fun x y => decide (x < y)) (a.take i ++ b.take (n - i))) else none))
/-- Tiles for the groups of a list, by group number, where they fit. -/
def fitGroups : List (Nat × Nat × Placement) → List Nat → Option (List (Nat × List Nat))
  | [], _ => some []
  | (g, n, c) :: r, free => (groupWays c n free).findSome? (fun ts =>
      (fitGroups r (free.filter (fun t => !ts.contains t))).map (fun l => (g, ts) :: l))
/-- A place for every group of a plan on free tiles, groups without a constraint last (R139); where more than one fits, the choice is
the model's (DESIGN CHOICE, log entry 75). -/
def fitPlan (pl : Plan) (free : List Nat) : Option (List (List Nat)) :=
  let gs := pl.groups.zipIdx.map (fun e => (e.2, e.1.1, e.1.2))
  let order := gs.filter (fun e => e.2.2 != .any) ++ gs.filter (fun e => e.2.2 == .any)
  (fitGroups order free).map (fun l => (List.range pl.groups.length).map (fun g => ((l.find? (fun e => e.1 = g)).map (·.2)).getD []))

/-- A template's load-time symbols filled for one tile of a placement: tiles by group, first tally, image ranges. -/
def bindCmd (x : List (List Nat) × Nat × List (Nat × Nat)) (rank tile : Nat) (c : TplCmd) : TplCmd :=
  c.patches.foldl (fun (c : TplCmd) q =>
    let put (v : Nat) : TplCmd := { c with desc := dset c.desc q.byte q.len v }
    match q.sym with
    | .rank => put rank
    | .tile => put tile
    | .planTally n => put (x.2.1 + n)
    | .image r o => put (((x.2.2[r]?).getD (0, 0)).1 + o)
    | _ => { c with patches := c.patches ++ [q] }) { c with patches := [] }
/-- Streams of a plan on the tiles it was placed on, ranks in ascending tile number (R139). -/
def bindStreams (pl : Plan) (x : List (List Nat) × Nat × List (Nat × Nat)) : List Stream :=
  pl.templates.flatMap (fun t => (sortBy (fun a b => decide (a < b)) ((x.1[t.2.1]?).getD [])).zipIdx.map (fun e =>
    { role := t.1, tile := e.1, cmds := t.2.2.map (bindCmd x e.2 e.1) }))
/-- The vector programs of a plan go into a tile's program store (R139 step 4). -/
def State.loadPrograms (s : State) (pl : Plan) (t : Nat) : State :=
  let y := s.tile t
  s.setTile t { y with program := pl.programs.foldl (fun m e => sset 0 m e.1 e.2) y.program }
/-- The plan tallies take their initial values (R139 step 2). -/
def State.initTallies (s : State) (pl : Plan) (base : Nat) : State :=
  pl.tallies.zipIdx.foldl (fun s e => (resetTally s 10 (base + e.2) (BitVec.ofNat 32 e.1)).1) s

/-- Firmware lays the plan of ware h onto tiles again: streams, tallies and programs; its image stays where it is. -/
def State.layWare (s : State) (h : Nat) (groups : List (List Nat)) : State :=
  match s.ware? h with
  | none => s
  | some w =>
    let tiles := groups.flatten
    let s := s.setWare h { w with streams := bindStreams w.plan (groups, w.tallyBase, w.image), tiles := tiles }
    tiles.foldl (fun s t => s.loadPrograms w.plan t) (s.initTallies w.plan w.tallyBase)

/-- A tile of partition p may hold work: p owns it, and neither it nor its kiln or hearth is fenced. -/
def State.tileKept (s : State) (p t : Nat) : Bool :=
  s.tilePart t == p && !s.faults.fenceTiles.getLsbD t && s.die (t / 8) != .fenced && s.die (4 + t / 8) != .fenced && !s.releasing t
/-- What becomes of a plan some of whose tiles are gone (R301, R356): it fits the remaining tiles, or will when those that are
resetting return, or fits no longer. -/
inductive Refit
  | fits (groups : List (List Nat)) | waits | never
  deriving DecidableEq, Repr
def State.refit (s : State) (w : Ware) : Refit :=
  let others := s.teller.wares.flatMap (fun e => if e.2.part == w.part && e.2.tiles != w.tiles then e.2.tiles else [])
  let kept := (List.range 32).filter (fun t => s.tileKept w.part t && (w.tiles.contains t || !others.contains t))
  match fitPlan w.plan (kept.filter s.tileUp) with
  | some g => .fits g
  | none => if (fitPlan w.plan kept).isSome then .waits else .never

/-- Every tile of a ware can take its streams. -/
def State.tilesUp (s : State) (w : Ware) : Bool := w.tiles.all (fun t => s.tileUp t && !s.tileOut t)

/-- Requests that use ware h end with FAULT. -/
def State.failWare (s : State) (h : Nat) : State :=
  match s.ware? h with
  | none => s
  | some w => (s.requestsOf w.part).foldl (fun s e =>
      if e.2.state.live && (e.2.ware == h || e.2.draft == h) then s.drain e.1 0x09 else s) s

/-- Before a step of ware h is composed or rerun its plan must stand on tiles that are up: it stands there, or is laid onto the
remaining tiles; false while tiles are awaited, or when it fits no longer and its requests end with FAULT (R301). -/
def State.readyWare (s : State) (h : Nat) : State × Bool :=
  match s.ware? h with
  | none => (s, false)
  | some w =>
    if w.isImage then (s, false)
    else if s.tilesUp w then (s, true)
    else match s.refit w with
    | .fits g => (s.layWare h g, true)
    | .waits => (s, false)
    | .never => (s.failWare h, false)

/-- Rerun what a kiln reset broke off (R301), once its tiles have acted on the abandon and the plan stands again. -/
def State.rerunWare (s : State) (h : Nat) : State :=
  match s.ware? h with
  | none => s
  | some w =>
    if !w.rerun || w.runs.any (fun e => !(s.awaited e.2).isEmpty) then s
    else
      let rows (r : Role) : List StepRow := ((w.run r).elim [] (·.rows)).filter (fun x => (s.request x.req).inStep.isSome)
      let clear (s : State) : State := match s.ware? h with
        | some w => s.setWare h { w with rerun := false, step := none, chunk := none, vision := none, house := none }
        | none => s
      let y := s.readyWare h
      if !y.2 then
        (if s.refit w = .never then
          (rows .decode ++ rows .prefill).foldl (fun s r => s.atBoundary r.req) (clear y.1)
        else s)
      else
        let s := (clear y.1).initTallies w.plan w.tallyBase
        let go (s : State) (role : Role) (l : List StepRow) : State :=
          let keep := l.filter (fun r => (s.request r.req).state != .draining)
          let s := (l.filter (fun r => (s.request r.req).state == .draining && !(s.request r.req).cancelNow)).foldl
            (fun s r => s.atBoundary r.req) s
          if keep.isEmpty then s else s.dispatch h role keep true
        go (go s .prefill (rows .prefill)) .decode (rows .decode)

/-! ## The ring writer (R291-R293, R493) -/

/-- The sixteen bytes of a record, PHASE left clear. -/
def ringBytes (g : RingRec) (late : Bool) (reason : Nat) : List Byte :=
  let flags := (if late then 2 else 0) + (if reason ≠ 0 then 4 else 0) + (if g.stall then 8 else 0) + (if g.noToken then 16 else 0)
  toLE 2 g.req ++ toLE 2 g.stepSeq ++ toLE 4 g.token.toNat ++ toLE 2 (if g.noToken then 0 else g.logprob.toNat) ++
    toLE 1 flags ++ toLE 1 (if g.noToken then 0 else g.accept) ++ toLE 3 g.position ++ toLE 1 reason

/-- The ring event of partition p is pending: a ring with EVT holds records beyond its read index (R413). -/
def State.ringLevel (s : State) (p : Nat) : Bool :=
  s.teller.rings.any (fun e => s.reqPart e.1 == p && e.2.set && e.2.evt && e.2.wr != e.2.rd)

/-- Write a record into its ring at WR: PHASE by the lap, sealed under key k in a CONFIDENTIAL partition (R493).  A write that fails R44
logs its bounds fault, and one that meets poison is not merged (R41, R183); WR goes on (DESIGN CHOICE, log entry 73). -/
def State.ringWrite (s : State) (i : Nat) (bytes : List Byte) (k : BitVec 128) : State :=
  let g := s.ring i
  let slot := g.wr % 2 ^ g.log2
  let phase : Byte := if g.wr / 2 ^ g.log2 % 2 = 0 then 1 else 0
  let rec' := bytes.zipIdx.map (fun e => if e.2 = 10 then e.1 ||| phase else e.1)
  let p := s.reqPart i
  let was := s.ringLevel p
  let s := s.setRing i { g with wr := (g.wr + 1) % 2 ^ 32 }
  let s :=
    if s.confidential p then
      let nonce := toLE 4 g.wr ++ List.replicate 7 0 ++ [1]
      let aad := rec'.take 4 ++ rec'.drop 10
      let plain := (rec'.drop 4).take 6
      let enc := gcmData k nonce plain
      let sealed_ := rec'.take 4 ++ enc ++ rec'.drop 10
      let s := (s.guardStore (.vault 0) p (g.base + 2 ^ g.log2 * 16 + slot * 16) (gcmTag k nonce aad enc)).1
      (s.guardStore (.vault 0) p (g.base + slot * 16) sealed_).1
    else (s.guardStore (.vault 0) p (g.base + slot * 16) rec').1
  if g.evt then s.occurFrom was (1096 + p) else s

/-- A record waits in V0 ring staging: its ring lies in host memory and its function cannot be written to. -/
def State.stageRing (s : State) (i : Nat) : Bool := decide (hostWindow ≤ (s.ring i).base) && s.funcQuiet (s.partFunc (s.reqPart i))
def State.pushStaged (s : State) (p : Nat) (x : Staged) : State :=
  { s with host := { s.host with staging := sset [] s.host.staging p (sget [] s.host.staging p ++ [x]) } }

/-- END reason that the ring writer decides on a token record (R293), 0 for none. -/
def State.endOf (s : State) (g : RingRec) : Nat :=
  let r := s.request g.req
  let pl := s.planOf r.ware
  if g.token = pl.eos ∨ (g.token = r.stopToken ∧ r.stopToken ≠ 0xFFFFFFFF) then 0x01
  else if r.generated + 1 = r.maxNew then 0x02
  else if g.position + 1 = min pl.ctxLimit (2 ^ 24 - 1) then 0x03
  else if (s.ring g.req).late ∧ r.lateStop ∧ g.last then 0x06
  else 0

/-- A record is dropped: repeated position, or after the END (R292). -/
def State.ringDrops (s : State) (g : RingRec) : Bool :=
  let x := s.ring g.req
  x.ended || (!g.noToken && (match x.lastPos with | some l => decide (g.position ≤ l) | none => false))

/-- The keys of a retired request's job are erased once V0 has taken the last record asked of it (R491). -/
def State.eraseKey (s : State) (i : Nat) : State :=
  if (s.request i).state = .retired ∧ !s.teller.ringRecs.any (fun g => g.req = i) then
    { s.setRequest i { s.request i with kOut := 0 } with sec := { s.sec with keyCache := sset none s.sec.keyCache i none } }
  else s
/-- Take a record into the ring or into staging, under its job's key, with what it tells the request table. -/
def State.ringTake (s : State) (g : RingRec) : State :=
  let x := s.ring g.req
  let k := (sget none s.sec.keyCache g.req).getD 0
  let r := s.request g.req
  let reason := if g.noToken then g.endReason else s.endOf g
  let bytes := ringBytes g x.late reason
  let s := s.setRing g.req { x with lastPos := if g.noToken then x.lastPos else some g.position, ended := reason != 0 }
  let s := s.setRequest g.req { r with generated := if g.noToken then r.generated else r.generated + 1,
                                       endReason := if reason ≠ 0 then reason else r.endReason }
  (if s.stageRing g.req then s.pushStaged (s.reqPart g.req) (.ringRecord g.req bytes k) else s.ringWrite g.req bytes k).eraseKey g.req

end Sys2Proof.Machine
end

