-- ==== Sys2Proof/Machine/Teller.lean ====
section
/-! DEFINITION.  The commands and events of request serving (chapter 9, R491-R493, R499): one meaning per row. -/
namespace Sys2Proof.Machine
open Sys2Proof

/-- The lowest code among those that apply (R279). -/
def lowest (l : List (Bool × Nat)) : Nat :=
  (l.filter (·.1)).foldl (fun m e => if m = 0 then e.2 else min m e.2) 0

/-- The entry lies in the partition. -/
def State.ownsEntry (s : State) (p i : Nat) : Bool := decide (p < 8) && s.reqPart i == p

/-! ## ADMIT (R277, R279, R288, R492) -/

/-- ADMIT's body. -/
structure AdmitCmd where
  i : Nat
  r : Request
  plen : Nat
  addr : Nat
  deriving DecidableEq, Repr

def admitCmd (f : Forwarded) : AdmitCmd :=
  let o := f.fld 25 1
  { i := f.fld 16 2, plen := f.fld 50 3, addr := f.fld 44 6,
    r := { ware := f.fld 18 2, draft := f.fld 20 2, adapter := f.fld 22 2, cls := f.fld 24 1 % 4, noWait := bit o 0,
           hardAbort := bit o 1, lateStop := bit o 2, specK := f.fld 26 1, maxNew := f.fld 28 2, topK := f.fld 30 2,
           budget := f.fld 32 4, temp := BitVec.ofNat 16 (f.fld 36 2), topP := BitVec.ofNat 16 (f.fld 38 2),
           stopToken := BitVec.ofNat 32 (f.fld 40 4), promptLen := f.fld 50 3, promptAddr := f.fld 44 6,
           seed := BitVec.ofNat 64 (f.fld 54 8) } }

/-- TEMP, TOP_K and TOP_P that R124 and R166 accept. -/
def samplingOk (temp topP topK : Nat) : Bool := (tempOf temp).isSome && topPOk topP && decide (topK ≤ 256)

/-- Bytes that ADMIT reads from PROMPT_ADDR. -/
def State.promptBytes (s : State) (p plen : Nat) : Nat := if s.confidential p then 96 + 4 * plen + 16 else 4 * plen

/-- The code of ADMIT before pages and sessions are looked at, 0 for none. -/
def State.admitCode (s : State) (p : Nat) (f : Forwarded) (c : AdmitCmd) : Nat :=
  let conf := s.confidential p
  let w := s.ware? c.r.ware
  let loaded (x : Option Ware) : Bool := match x with | some w => w.part == p && !w.isImage | none => false
  let limit := min (2 ^ 24 - 1) ((w.map (·.plan.ctxLimit)).getD (2 ^ 24 - 1))
  let n := s.promptBytes p c.plen
  let inBounds := if conf then s.inHost p c.addr n else s.bound p c.addr n == .ok
  let ad := match w with | some w => (sget {} w.adapters c.r.adapter).newest.isSome | none => false
  let st := (s.request c.i).state
  let reserved := f.fld 24 1 / 4 ≠ 0 ∨ f.fld 25 1 / 8 ≠ 0 ∨ f.fld 27 1 ≠ 0 ∨ f.fld 53 1 ≠ 0 ∨ f.fld 62 2 ≠ 0
  let zeroed := c.r.seed = 0 ∧ c.r.stopToken = 0 ∧ c.r.temp = 0 ∧ c.r.topK = 0 ∧ c.r.topP = 0
  let range := (c.r.adapter ≠ 0xFFFF ∧ 255 < c.r.adapter) ∨ 8 < c.r.specK ∨ (0 < c.r.specK ∧ c.r.draft = 0xFFFF) ∨ c.r.maxNew = 0 ∨
    c.plen = 0 ∨ c.addr % 64 ≠ 0 ∨ limit < c.plen + c.r.maxNew ∨
    (if conf then ¬ zeroed else samplingOk c.r.temp.toNat c.r.topP.toNat c.r.topK = false)
  lowest
    [(decide reserved, 0x02), (!s.ownsEntry p c.i, 0x20),
     (!inBounds && decide (c.addr < hostWindow) && !conf, 0x21),
     (decide range || (!inBounds && (decide (hostWindow ≤ c.addr) || conf)), 0x22),
     (st.active, 0x23), (!loaded w || (c.r.draft != 0xFFFF && !loaded (s.ware? c.r.draft)), 0x24),
     (c.r.adapter != 0xFFFF && !ad, 0x25), (!(s.ring c.i).set, 0x26)]

/-- What the sealed job block gives: the code that refuses it, or the request's fields and the prompt's bytes (R491, R492). -/
def State.unseal (s : State) (p : Nat) (f : Forwarded) (c : AdmitCmd) : Nat × Request × List Byte :=
  let job := s.readNat c.addr 8
  let k := s.readNat (c.addr + 8) 1
  let x := s.session p k
  let kIn := kdf x.kSess job 1
  let nonce : List Byte := toLE 8 job ++ [0, 0, 0, 0]
  let cipher := s.readBytes (c.addr + 64) (32 + 4 * c.plen)
  let tag := s.readBytes (c.addr + 96 + 4 * c.plen) 16
  if s.faults.testMode then (0x53, c.r, [])
  else if 15 < k ∨ x.use ≠ .opened ∨ x.closing then (0x28, c.r, [])
  else if tag ≠ gcmTag kIn nonce (s.readBytes c.addr 64 ++ f.body) cipher then (0x50, c.r, [])
  else if x.anyJob ∧ job ≤ x.highestJob then (0x51, c.r, [])
  else
    let plain := gcmData kIn nonce cipher
    let r := { c.r with seed := BitVec.ofNat 64 (lfld plain 0 8), stopToken := BitVec.ofNat 32 (lfld plain 8 4),
                        temp := BitVec.ofNat 16 (lfld plain 12 2), topP := BitVec.ofNat 16 (lfld plain 14 2), topK := lfld plain 16 2,
                        session := some k, job := job, kOut := kdf x.kSess job 2 }
    let prompt := (plain.drop 32).take (4 * c.plen)
    (if samplingOk r.temp.toNat r.topP.toNat r.topK then 0 else 0x22, r, prompt ++ List.replicate (4 * c.plen - prompt.length) 0)

/-- A session's tenant may use the ware (R496). -/
def State.tenantOk (s : State) (p : Nat) (r : Request) : Bool :=
  match s.ware? r.ware with
  | some w => w.tenants.isEmpty || (match r.session with | some k => w.tenants.contains (s.session p k).tenantKey | none => false)
  | none => true

/-- The list region and, in a CONFIDENTIAL partition, the prompt's copy: allocated together or not at all. -/
def State.admitAlloc (s : State) (p i : Nat) (r : Request) (prompt : List Byte) : Option State :=
  match (s.pool p).region (s.regionBytes r) with
  | none => none
  | some (bs, x) =>
    let base := (bs.head?.map (·.addr)).getD 0
    if prompt.isEmpty then
      let r := { r with listBase := base, listBlocks := bs }
      some (((s.setPool p x).setRequest i r).writeRegion r)
    else match x.region prompt.length with
    | none => none
    | some (cs, y) =>
      let copy := (cs.head?.map (·.addr)).getD 0
      let r := { r with listBase := base, listBlocks := bs, promptAddr := copy, promptCopy := cs }
      some ((((s.setPool p y).setRequest i r).writeRegion r).put .mint copy prompt)

/-- The entry takes a new request: adapter pinned, ring marks cleared. -/
def State.beginRequest (s : State) (p i : Nat) (r : Request) : State :=
  let s := s.setRing i { s.ring i with lastPos := none, ended := false, late := false }
  let s := match r.session with
    | some k => s.setSession p k { s.session p k with highestJob := r.job, anyJob := true }
    | none => s
  match s.ware? r.ware with
  | none => s
  | some w =>
    if r.adapter = 0xFFFF then s
    else
      let a := sget {} w.adapters r.adapter
      let v := a.newest.getD 0
      let vs := a.versions.map (fun x => if x.1 = v then (x.1, x.2.1, x.2.2 + 1) else x)
      (s.setWare r.ware { w with adapters := sset {} w.adapters r.adapter { a with versions := vs, pinned := true } }).setRequest i
        { s.request i with adapterVer := v }

/-- Records of the entry that the next command of queue q names, an ADMIT or a RING_SET, are still on their way to V0: the Teller retires
an entry with its END record, and acts on such a command once V0 has taken them (R292, R295; DEDUCED, log entry 76). -/
def State.ringLags (s : State) (q op : Nat) : Bool :=
  match s.forwardedAt q op with
  | some f => s.teller.ringRecs.any (fun g => g.req == f.fld 16 2)
  | none => false

/-- ADMIT (R277): refused with the lowest code, or the entry takes the request and its first pages, or stalls.  Whether a sealed block's
tag is right follows from its bytes, and the row's operand is not read. -/
def execAdmit (q : Nat) (_tagOk : Bool) (s : State) : Host.Outcome State Fault Refusal :=
  .next (if s.ringLags q 0x20 then s else onForwarded q 0x20 s (fun f s =>
    let p := s.funcPart f.fn
    let c := admitCmd f
    let code := s.admitCode p f c
    if code ≠ 0 then s.answer f code 0 0
    else
      let u := if s.confidential p then s.unseal p f c else (0, c.r, [])
      let r := { u.2.1 with admitStamp := s.teller.usec.toNat }
      let chunk := min c.plen (max 1 (s.planOf r.ware).chunkTokens)
      -- what the reservation would give, on a state that is kept only on success
      let bare := if s.confidential p ∧ u.1 ≠ 0 then List.replicate (4 * c.plen) (0 : Byte) else u.2.2
      let a := s.admitAlloc p c.i { r with state := .admitted } bare
      let got := a.bind (fun s => s.reserveFor c.i false (chunk - 1))
      let code := lowest [(a.isNone || (r.noWait && got.isNone), 0x27), (u.1 ≠ 0, u.1), (u.1 = 0 && !s.tenantOk p r, 0x52)]
      if code ≠ 0 then
        let s := if code = 0x50 ∨ code = 0x51 then (s.raise { source := 389 + p, owner := p }).ohmErr 1 code p
          else if code = 0x52 ∨ code = 0x53 then s.ohmErr 3 code p else s
        s.answer f code 0 0
      else match got, a with
      | some s', _ => (s'.beginRequest p c.i r).answer f 0 0 0
      | none, some s' => (((s'.beginRequest p c.i r).stall c.i 1).noteStalled p).answer f 0 0 0
      | none, none => s))

/-! ## CANCEL, CANCEL_NOW, REQ_SUSPEND, REQ_RESUME (R282, R295, R296) -/

/-- A command that names an entry: its reserved bits, its owner, then what it does by the entry's state. -/
def entryCommand (q op : Nat) (s : State) (k : Forwarded → Nat → Nat → State → State) : State :=
  onForwarded q op s (fun f s =>
    let p := s.funcPart f.fn
    let i := f.fld 16 2
    if bodyReserved f 18 then s.answer f 0x02 0 0
    else if !s.ownsEntry p i then s.answer f 0x20 0 0
    else if !(s.request i).state.active then s.answer f 0x23 0 0
    else k f p i s)

/-- CANCEL (R295). -/
def execCancel (q : Nat) (s : State) : Host.Outcome State Fault Refusal :=
  .next (entryCommand q 0x21 s (fun f p i s =>
    if (s.request i).state = .draining then s.answer f 0 0 0
    else (((s.setRequest i { s.request i with cancelled := true }).drain i 0x04).noteStalled p).answer f 0 0 0))

/-- Begin CANCEL_NOW of a request (R296): its tag goes to every tile of the partition while it may hold its work, and a
chunk held by it alone is abandoned by its step tag. -/
def State.startCancelNow (s : State) (i reason : Nat) (src : Option (Nat × Nat × Nat)) : State :=
  let r := s.request i
  let p := s.reqPart i
  let s := s.setRequest i { r with state := .draining, resumeTo := .free, cancelNow := true, cancelSrc := src,
                                   endReason := if (s.ring i).ended then r.endReason else reason, suspendReq := false }
  let tiles := (List.range 32).filter (fun t => s.tilePart t == p)
  let s := if r.inStep.isSome || s.tagBusy i then tiles.foldl (fun s t => sendAbandon s t (reqTag i)) s else s
  match (s.ware? r.ware).map (fun w => (w, w.chunk)) with
  | some (w, some x) =>
    if x.rows.length = 1 ∧ x.rows.any (fun row => row.req = i) then
      x.waiting.foldl (fun s t => sendAbandon s t x.tag) (s.setWare r.ware { w with chunk := some { x with abandoned := true } })
    else s
  | _ => s

/-- CANCEL_NOW (R296); on an entry draining for another cause than CANCEL it is refused with STATE. -/
def execCancelNow (q : Nat) (s : State) : Host.Outcome State Fault Refusal :=
  .next (entryCommand q 0x22 s (fun f _ i s =>
    let r := s.request i
    if r.state = .draining ∧ (r.cancelNow ∨ !r.cancelled) then s.answer f 0x23 0 0
    else s.startCancelNow i 0x05 (some (f.fn, f.sq, f.cid))))

/-- A SAMPLE of a request's last chunk is done: the request leaves PREFILL (R282). -/
def State.samplePrefill (s : State) (i : Nat) : State :=
  let r := s.request i
  let last := match (s.ware? r.ware).bind (·.chunk) with
    | some x => x.rows.any (fun row => row.req == i && row.first + row.count == r.promptLen)
    | none => false
  if r.state = .prefill ∧ last = true then s.setRequest i { r with state := .decode } else s

/-- What the Teller takes from a record of a request-tagged command that completed OK: its DONE_TALLY owes no compensation, and a
SAMPLE gives the tokens accepted (R282, R296, R298).  Of two such commands of a tile with one USER, tally and increment, either may go. -/
def State.noteDone (s : State) (d : TileDone) : State :=
  if d.status = stOk ∧ d.tag / 2 ^ 31 = 1 then
    let i := d.tag % 65536
    let r := s.request i
    let s := s.setRequest i { r with
      taggedDone := r.taggedDone.eraseP (fun e => e.tile == d.tile && e.user == d.user && e.tally == d.tally && e.add == d.add),
      accepted := if d.opcode = 0x0C then d.result else r.accepted }
    if d.opcode = 0x0C then s.samplePrefill i else s
  else s

/-- The Teller takes the records of request i's own commands that completed OK, which their tiles posted before they cleared BUSY
(R296). -/
def State.takeOk (s : State) (i : Nat) : State :=
  let own (d : TileDone) : Bool := d.tag == reqTag i && d.status == stOk
  (s.teller.records.filter own).foldl State.noteDone
    { s with teller := { s.teller with records := s.teller.records.filter (fun d => !own d) } }

/-- CANCEL_NOW completes once every tile of the partition has acted and no engine holds a transfer of the tag (R273, R296):
compensating signals, pages, END, RETIRED, completion. -/
def execCancelNowComplete (i : Nat) (s : State) : Host.Outcome State Fault Refusal :=
  let r := s.request i
  let p := s.reqPart i
  let alone := match (s.ware? r.ware).bind (·.chunk) with
    | some x => if x.abandoned && x.rows.any (fun row => row.req == i) then some x else none
    | none => none
  let acted := !s.tagBusy i && (match alone with
    | some x => (List.range 32).all (fun t => s.tilePart t != p || s.actedOn t x.tag)
    | none => true)
  if r.state ≠ .draining ∨ !r.cancelNow ∨ !acted then .next s
  else
    let s := s.takeOk i
    let s := (s.request i).taggedDone.foldl (fun s d => s.pushSignal { src := 10, tally := d.tally, value := d.add }) s
    let drop (x : StepRun) : StepRun := { x with rows := x.rows.filter (fun row => row.req ≠ i) }
    let s := { s with teller := { s.teller with wares := s.teller.wares.map (fun (w : Nat × Ware) =>
      (w.1, { w.2 with step := w.2.step.map drop,
                       chunk := match w.2.chunk with
                         | some x => if alone = some x then none else some (drop x)
                         | none => none })) } }
    let s := (s.retire i).noteStalled p
    match r.cancelSrc with
    | some (fn, sq, cid) => .next (s.due { fn := fn, cid := cid, sq := sq, cq := (s.sq sq).bind })
    | none => .next s

/-- REQ_SUSPEND (R282, R301): at the next step boundary, which is now where no step is in flight. -/
def execReqSuspend (q : Nat) (s : State) : Host.Outcome State Fault Refusal :=
  .next (entryCommand q 0x23 s (fun f p i s =>
    let r := s.request i
    if r.state = .draining ∨ r.state = .suspended then s.answer f 0x23 0 0
    else if r.inStep.isSome then (s.setRequest i { r with suspendReq := true }).answer f 0 0 0
    else
      let r := { r with state := .suspended, resumeTo := r.state, stallTo := if r.state = .stalled then r.resumeTo else r.stallTo }
      ((s.setRequest i r).noteStalled p).answer f 0 0 0))

/-- REQ_RESUME (R282, R301): back to RESUME_TO, whose next pass reserves anew. -/
def execReqResume (q : Nat) (s : State) : Host.Outcome State Fault Refusal :=
  .next (entryCommand q 0x24 s (fun f p i s =>
    let r := s.request i
    if r.state ≠ .suspended then s.answer f 0x23 0 0
    else
      let r := { r with state := r.resumeTo, resumeTo := if r.resumeTo = .stalled then r.stallTo else .free }
      ((s.setRequest i r).noteStalled p).answer f 0 0 0))

/-! ## RING_SET, POOL_ADD, POOL_SHRINK -/

/-- Bytes of a ring, both halves in a CONFIDENTIAL partition (R493). -/
def State.ringBytes (s : State) (p log2 : Nat) : Nat := 2 ^ log2 * 16 * (if s.confidential p then 2 else 1)
/-- A range meets the partition's page pool. -/
def State.meetsPool (s : State) (p a n : Nat) : Bool :=
  (s.pool p).units.any (fun u => decide (u * 2 ^ 21 < a + n) && decide (a < (u + 1) * 2 ^ 21))

/-- RING_SET (R278, R494). -/
def execRingSet (q : Nat) (s : State) : Host.Outcome State Fault Refusal :=
  .next (if s.ringLags q 0x25 then s else onForwarded q 0x25 s (fun f s =>
    let p := s.funcPart f.fn
    let i := f.fld 16 2
    let base := f.fld 18 6
    let lg := f.fld 24 1
    let lgOk := decide (4 ≤ lg) && decide (lg ≤ 16)
    let n := s.ringBytes p (if lgOk then lg else 4)
    let dram := decide (base < 0xC000000000)
    let range := !lgOk || base % 64 != 0 || base % min (16 * 2 ^ (if lgOk then lg else 4)) 4096 != 0 ||
      (if dram then s.meetsPool p base n || s.confidential p else !s.inHost p base n)
    let code := lowest [(f.fld 25 1 / 2 ≠ 0 || bodyReserved f 26, 0x02), (!s.ownsEntry p i, 0x20),
      (dram && !s.inDram p base n, 0x21), (range, 0x22), ((s.request i).state.active, 0x23)]
    if code ≠ 0 then s.answer f code 0 0
    else
      let s := s.setRing i { base := base, log2 := lg, evt := f.fld 25 1 % 2 == 1, set := true }
      s.answer f 0 0 0))

/-- Code of a pool range (R278, R279). -/
def State.poolCode (s : State) (p : Nat) (f : Forwarded) : Nat :=
  let base := f.fld 16 6
  let units := f.fld 22 4
  lowest [(bodyReserved f 26, 0x02), (base % 2 ^ 21 ≠ 0 || (units ≠ 0 && !s.inDram p base (units * 2 ^ 21)), 0x21), (units = 0, 0x22)]

/-- POOL_ADD (R286): the new blocks are free for the stalled requests (R289). -/
def execPoolAdd (q : Nat) (s : State) : Host.Outcome State Fault Refusal :=
  .next (onForwarded q 0x26 s (fun f s =>
    let p := s.funcPart f.fn
    let code := s.poolCode p f
    if code ≠ 0 then s.answer f code 0 0
    else ((s.setPool p ((s.pool p).add (f.fld 16 6 / 2 ^ 21) (f.fld 22 4))).resumeStalled p).answer f 0 0 0))

/-- A shrinking range ends: it leaves the pool and its handle completes (R290). -/
def State.endShrink (s : State) (p : Nat) (r : Nat × Nat × Nat) : State :=
  (s.setPool p ((s.pool p).dropRange r.1 r.2.1)).endHandle r.2.2 .done 0 0

/-- POOL_SHRINK (R290): a long operation, done at once where no block of the range is held. -/
def execPoolShrink (q : Nat) (s : State) : Host.Outcome State Fault Refusal :=
  .next (onForwarded q 0x27 s (fun f s =>
    let p := s.funcPart f.fn
    let o : Origin := .host f.fn f.sq f.cid
    let code := lowest [(s.poolCode p f ≠ 0, s.poolCode p f), (16 ≤ s.openHandles o, 0x09), (!(s.pool p).shrinking.isEmpty, 0x29)]
    if code ≠ 0 then s.answer f code 0 0
    else
      let u := f.fld 16 6 / 2 ^ 21
      let n := f.fld 22 4
      let h := s.newHandle { origin := o, kind := .poolShrink, part := p, cq := (s.sq f.sq).bind, base := u, units := n }
      let s := h.2.setPool p { s.pool p with shrinking := [(u, n, h.1)] }
      let s := s.answer f 0 h.1 0
      if (s.pool p).rangeFree u n then s.endShrink p (u, n, h.1) else s))

/-- The last block held in a shrinking range has returned (R290); a suspended handle waits on. -/
def execPoolShrinkDone (handle : Nat) (s : State) : Host.Outcome State Fault Refusal :=
  match s.op? handle with
  | some o =>
    match (s.pool o.part).shrinking.find? (fun r => r.2.2 = handle) with
    | some r =>
      if o.kind = .poolShrink ∧ o.state = .running ∧ !s.islands.noneActive ∧ (s.pool o.part).rangeFree r.1 r.2.1 then .next (s.endShrink o.part r) else .next s
    | none => .next s
  | none => .next s

/-! ## Adapters (R300) -/

/-- Unload a superseded version without pins: it leaves the ware, its IMAGE goes where no other version uses it, and the handle of the
publish that superseded it completes. -/
def State.unloadVersion (s : State) (w a v : Nat) : State :=
  match s.ware? w with
  | none => s
  | some x =>
    let ad := sget {} x.adapters a
    match ad.versions.find? (fun e => e.1 = v) with
    | none => s
    | some e =>
      let done := match ad.publish with | some (_, old, _) => old == some v | none => false
      let ad' := { ad with versions := ad.versions.filter (fun e => e.1 ≠ v), publish := if done then none else ad.publish }
      let s := s.setWare w { x with adapters := sset {} x.adapters a ad' }
      let used := s.teller.wares.any (fun g => g.2.adapters.any (fun b => b.2.versions.any (fun y => y.2.1 == e.2.1)))
      let s := if used then s else
        { s with teller := { s.teller with wares := s.teller.wares.filter (fun g => g.1 ≠ e.2.1 || !g.2.isImage) } }
      match ad.publish with
      | some (h, _, _) => if done then s.endHandle h .done 0 0 else s
      | none => s

/-- ADAPTER_PUBLISH (R300). -/
def execAdapterPublish (q : Nat) (s : State) : Host.Outcome State Fault Refusal :=
  .next (onForwarded q 0x28 s (fun f s =>
    let p := s.funcPart f.fn
    let w := f.fld 16 2
    let a := f.fld 18 2
    let img := f.fld 20 4
    let o : Origin := .host f.fn f.sq f.cid
    let ware := match s.ware? w with | some x => x.part == p && !x.isImage | none => false
    let image := img == w || (match s.ware? img with | some x => x.part == p && x.isImage && x.joins == w | none => false)
    let busy := match s.ware? w with | some x => (sget {} x.adapters a).publish.isSome | none => false
    let code := lowest [(bodyReserved f 24, 0x02), (16 ≤ s.openHandles o, 0x09), (255 < a, 0x22), (!ware || !image, 0x24), (busy, 0x29)]
    if code ≠ 0 then s.answer f code 0 0
    else match s.ware? w with
    | none => s
    | some x =>
      let ad := sget {} x.adapters a
      let v := ad.nextVersion % 65536
      let h := s.newHandle { origin := o, kind := .adapterPublish, part := p, cq := (s.sq f.sq).bind, base := w, arg := a }
      let ad' := { ad with newest := some v, versions := ad.versions ++ [(v, img, 0)], nextVersion := ad.nextVersion + 1,
                           publish := ad.newest.map (fun old => (h.1, some old, v)), pinned := false }
      let s := (h.2.setWare w { x with adapters := sset {} x.adapters a ad' }).answer f 0 h.1 0
      match ad.newest with
      | none => s.endHandle h.1 .done 0 0
      | some old => if (ad.versions.find? (fun e => e.1 = old)).elim true (fun e => e.2.2 == 0) then s.unloadVersion w a old else s))

/-- A superseded version's pin count reaches zero (R300); while the handle is suspended the wait stands. -/
def execAdapterUnpin (ware adapter version : Nat) (s : State) : Host.Outcome State Fault Refusal :=
  match s.ware? ware with
  | some x =>
    let ad := sget {} x.adapters adapter
    let held := match ad.publish with
      | some (h, _, _) => ((s.op? h).map (·.state)) == some OpState.suspended
      | none => false
    match ad.versions.find? (fun e => e.1 = version) with
    | some e => if e.2.2 = 0 ∧ ad.newest ≠ some version ∧ !held ∧ !s.islands.noneActive then .next (s.unloadVersion ware adapter version) else .next s
    | none => .next s
  | none => .next s

/-! ## Steps -/

/-- A command of a step halted its queue (R115, R291): every request of the step ends with PLAN_ERROR, the queue is
resumed past the failed slot, and the rest of the step is abandoned by its tags (log entry 17). -/
def State.planError (s : State) (h : Nat) (role : Role) (x : StepRun) (d : TileDone) : State :=
  match s.ware? h with
  | none => s
  | some w =>
    let s := s.setWare h (w.setRun role (some { x with abandoned := true }))
    let s := x.rows.foldl (fun s r => if (s.request r.req).state.live then s.drain r.req 0x0A else s) s
    let s := if x.rows.isEmpty then s else s.setPevt w.part 2
    let s := (s.awaited x).foldl (fun s t =>
      (x.rows.map (fun r => reqTag r.req) ++ [x.tag]).foldl (fun s g => sendAbandon s t g) s) s
    s.setTile d.tile (resumeQueue (s.tile d.tile) d.queue)

/-- The run that a record's tag belongs to: ware, role and run. -/
def State.runOf (s : State) (tag : Nat) : Option (Nat × Role × StepRun) :=
  let has (x : StepRun) : Bool := if tag / 2 ^ 31 = 1 then x.rows.any (fun r => r.req == tag % 65536) else x.tag == tag
  s.teller.wares.findSome? (fun e => (e.2.runs.find? (fun x => has x.2)).map (fun x => (e.1, x.1, x.2)))

/-- The Teller takes a completion record (R116, R250, R296). -/
def execCompletionRecord (s : State) : Host.Outcome State Fault Refusal :=
  if s.teller.held then .next s
  else match s.teller.records with
  | [] => .next s
  | d :: rest =>
    let s := ({ s with teller := { s.teller with records := rest } } : State).noteDone d
    let s := match s.runOf d.tag with
      | none => s
      | some (h, role, x) =>
        if d.opcode = 0x10 ∧ d.status = stOk then
          match s.ware? h with
          | some w => s.setWare h (w.setRun role (some { x with waiting := x.waiting.erase d.tile }))
          | none => s
        else if d.status ≠ stOk ∧ d.status ≠ stAbandoned ∧ ((s.tile d.tile).q d.queue).halted then s.planError h role x d
        else s
    .next s.feedAll

/-- A step boundary of ware h (R284, R285, R299): what has ended is taken in; then, unless ACTIVATE holds the ware, the
held chunk and the next decode step are composed, once the plan stands on tiles that are up. -/
def execStepBoundary (ware : Nat) (s : State) : Host.Outcome State Fault Refusal :=
  if s.teller.held then .next s
  else
    let s := s.settle ware
    match s.ware? ware with
    | none => .next s
    | some w =>
      if w.rerun then .next (s.rerunWare ware).feedAll
      else if w.step.isSome then .next s
      else if s.update.holdBegun then .next (s.setWare ware { w with held := true })
      else
        let y := if w.chunk.isSome then (s, s.tilesUp w) else s.readyWare ware
        if !y.2 then .next (y.1.noteStalled w.part)
        else .next ((((((y.1.resumeStalled w.part).composeChunk ware none).composeStep ware).composeOther ware).noteStalled w.part).feedAll)

/-- A prefill chunk of a class equal to or higher than the running step's is dispatched at once (R285). -/
def execChunkDispatch (ware : Nat) (s : State) : Host.Outcome State Fault Refusal :=
  if s.teller.held then .next s
  else
    let s := s.settle ware
    match s.ware? ware with
    | none => .next s
    | some w =>
      if w.rerun || !s.tilesUp w then .next s
      else if s.update.holdBegun && w.step.isNone then .next (s.setWare ware { w with held := true })
      else .next ((s.composeChunk ware (w.step.map (fun x => s.rowsClass x.rows))).noteStalled w.part).feedAll

/-- Freed pages go to the stalled requests in their order (R289). -/
def execPagesFreed (p : Nat) (s : State) : Host.Outcome State Fault Refusal :=
  if s.teller.held ∨ 8 ≤ p then .next s else .next ((s.resumeStalled p).noteStalled p)

/-- A zero writer ends its oldest job that is not suspended (R207, R499): the range reads zero, and a freed pool block
is free again. -/
def execZeroWriterDone (s : State) : Host.Outcome State Fault Refusal :=
  let runs (j : ZeroJob) : Bool := j.handle == 0 || ((s.op? j.handle).map (·.state)) == some OpState.running
  match s.mem.zeroJobs.find? runs with
  | none => .next s
  | some j =>
    let s := { s with mem := { s.mem with zeroJobs := s.mem.zeroJobs.erase j } }
    let s := s.zeroRange j.base j.bytes
    if j.purpose = 2 then
      let x := s.pool j.part
      match x.zeroing.find? (fun b => b.addr = j.base) with
      | some b => .next (s.setPool j.part (({ x with zeroing := x.zeroing.erase b } : Pool).give b))
      | none => .next s
    else if j.purpose = 1 then
      match s.op? j.handle with
      | some o => .next (s.setOp j.handle { o with doneUnits := o.doneUnits + 1, progress := min 0xFFFF ((o.doneUnits + 1) * 0x10000 / max 1 o.units) })
      | none => .next s
    else .next s

/-! ## Deadlines and token rings -/

/-- A request's deadline (R294, R301): LATE and the late mark, then its late policy. -/
def execDeadline (i : Nat) (s : State) : Host.Outcome State Fault Refusal :=
  let r := s.request i
  if s.teller.held ∨ r.budget = 0 ∨ r.late ∨ !r.state.active ∨ s.teller.usec.toNat < r.admitStamp + r.budget then .next s
  else
    let s := (s.setRequest i { r with late := true }).setRing i { s.ring i with late := true }
    let r := s.request i
    let aim := if r.state = .stalled then r.resumeTo else if r.state = .suspended then (if r.resumeTo = .stalled then r.stallTo else r.resumeTo)
      else r.state
    if r.state = .draining then .next s
    else if aim ≠ .decode then
      if r.hardAbort then
        match (s.ware? r.ware).map (fun w => (w, w.chunk)) with
        | some (w, some x) =>
          if r.inStep = some x.tag then
            let s := s.setWare r.ware { w with chunk := some { x with abandoned := true } }
            .next (x.waiting.foldl (fun s t => sendAbandon (sendAbandon s t x.tag) t (reqTag i)) (s.drain i 0x07))
          else .next ((s.drain i 0x07).noteStalled (s.reqPart i))
        | _ => .next ((s.drain i 0x07).noteStalled (s.reqPart i))
      else if r.lateStop ∧ r.state.held then .next ((s.drain i 0x06).noteStalled (s.reqPart i))
      else .next s
    else if !r.lateStop then .next s
    else if r.inStep.isSome then .next (s.setRequest i { r with lastPass := true })
    else .next ((s.drain i 0x06).noteStalled (s.reqPart i))

/-- The ring writer takes the oldest record (R292, R293); in a CONFIDENTIAL partition it waits for its key (R491), and where the
partition's share of ring staging is full for room in it (R382). -/
def execRingRecord (s : State) : Host.Outcome State Fault Refusal :=
  match s.teller.ringRecs with
  | [] => .next s
  | g :: rest =>
    let s' := { s with teller := { s.teller with ringRecs := rest } }
    if s.ringDrops g then .next (s'.eraseKey g.req)
    else if s.stageRing g.req && s.stagingFull (s.reqPart g.req) then .next s
    else if !s.dieReady 8 || (!s.dramOpen && decide ((s.ring g.req).base < hostWindow)) || (s.confidential (s.reqPart g.req) && (sget none s.sec.keyCache g.req).isNone) then .next s
    else .next (s'.ringTake g)

/-- Ohmis supplies a job's output key (R491); the cache holds 4,096 keys. -/
def execKeyCacheFill (i : Nat) (s : State) : Host.Outcome State Fault Refusal :=
  let r := s.request i
  if r.session.isNone ∨ !s.teller.ringRecs.any (fun g => g.req = i) then .next s
  else
    let c := if s.sec.keyCache.length < 4096 then s.sec.keyCache else s.sec.keyCache.drop 1
    .next { s with sec := { s.sec with keyCache := sset none c i (some r.kOut) } }

/-- Device address of a BAR2 offset (R372). -/
def bar2Addr (ofs : Nat) : Nat := dieWindow 8 + 0x1000000 + ofs
/-- A BAR access of function f reaches its function: the link and Memory Space Enable. -/
def State.barOpen (s : State) (f : Nat) : Bool := s.host.linkUp && (s.func f).mse && !(s.func f).d3hot

/-- An ignored doorbell: logged, and the bounds of the partition faulted (R376). -/
def State.badDoorbell (s : State) (f p ofs : Nat) : State :=
  (s.logAccess f (bar2Addr ofs) causeDoorbell true).raise { source := 291 + p, owner := p, addr := bar2Addr ofs }

/-- A read index reaches V0 (R292, R301, R376). -/
def execRingReadIndex (f i : Nat) (v : Word) (s : State) : Host.Outcome State Fault Refusal :=
  let p := s.funcPart f
  let ofs := 0x800000 + i * 0x40
  if !s.barOpen f then .next (s.reply .unsupported)
  else if i < 65536 ∧ s.ownsEntry p i ∧ s.dieReady 8 then
    let g := s.ring i
    let s := s.reply .accepted
    if g.set ∧ (v.toNat + 2 ^ 32 - g.rd) % 2 ^ 32 ≤ (g.wr + 2 ^ 32 - g.rd) % 2 ^ 32 then .next (s.setRing i { g with rd := v.toNat })
    else .next ((s.badDoorbell f p ofs).setPevt p 4)
  else .next (s.refuse (.func f) (bar2Addr ofs) true)

end Sys2Proof.Machine
end

