-- ==== Sys2Proof/Machine/WheelOps.lean ====
section
/-! DEFINITION.  Wheel video units as shared operations (chapter 10): the context record and its checks (R311-R314),
depacketizing (R315-R318), decode to tensor (R320-R324, R328-R331), sharing (R326), encoding (R332-R335). -/
namespace Sys2Proof.Machine
open Sys2Proof

/-! ## Events and errors -/

/-- Set bits of WHL_CTXc_EVT with the partition's wheel event (R338, R413). -/
def State.wheelLevel (s : State) (p : Nat) : Bool := s.wheels.ctxs.any (fun e => s.ctxPart e.1 == p && e.2.evtBits != 0)
def State.setCtxEvt (s : State) (c : Nat) (b : BitVec 5) : State :=
  let p := s.ctxPart c
  (s.setCtx c { s.ctx c with evtBits := (s.ctx c).evtBits ||| b }).occurIf (s.wheelLevel p) (p < 8 && (s.wheelLevel p || b != 0)) (1112 + p)
def cap16 (n : Nat) : Nat := min 65535 n
/-- A wheel error of context c: 0 POISON, 1 ADDRESS, 2 TARGET_LOST (R336, R337). -/
def State.wheelErr (s : State) (w c kind : Nat) : State :=
  let u := s.wheel w
  s.setWheel w { u with errPoison := u.errPoison || kind == 0, errAddress := u.errAddress || kind == 1,
                        errTargetLost := u.errTargetLost || kind == 2, lastCtx := c }

/-- An access of context c failed its bounds check at run time (R41, R336). -/
def State.ctxRefused (s : State) (w c a : Nat) : State := ((s.wheelErr w c 1).setCtxEvt c 8).boundsFault (s.ctxPart c) a
/-- An agent's write for context c on wheel w, checked as it is made (R44): a failed check is refused, a write to a home that does not
answer is TARGET_LOST, and one that meets poison stops with POISON (R183, R336); true where not all was written. -/
def State.ctxStore (s : State) (g : Agent) (w c a : Nat) (bs : List Byte) : State × Bool :=
  if s.bound (s.ctxPart c) a bs.length ≠ .ok then (s.ctxRefused w c a, true)
  else
    let r := s.store g a bs
    if !r.2 then r
    else if s.meetsLost g.die a bs.length then ((r.1.wheelErr w c 2).setCtxEvt c 8, true)
    else (r.1.wheelErr w c 0, true)

/-! ## The context record (R313, R314) -/

/-- A context record read from 256 bytes. -/
def ctxRecOf (b : List Byte) : CtxRec :=
  let f (i n : Nat) : Nat := lfld b i n
  let o := f 83 1
  { encode := f 0 1 == 1, cls := f 1 1 % 4, wheel := f 2 1, codec := f 3 1, hostFed := f 4 1 == 1,
    bufSkip := bit (f 5 1) 0, subframe := bit (f 5 1) 1, evt := bit (f 5 1) 2, infoAddr := f 8 6,
    bufs := (List.range (min 8 (f 80 1))).map (fun i => (f (16 + 8 * i) 6, f (22 + 8 * i) 2 % 16384)),
    g := f 81 1, elemFmt := f 82 1, layout := o % 4, nearest := bit o 2, halfPixel := bit o 3, matrix := bits o 4 2, range := bits o 6 2,
    outW := f 84 2, outH := f 86 2, cropX := f 88 2, cropY := f 90 2, cropW := f 92 2, cropH := f 94 2,
    gain := (List.range 3).map (fun i => BitVec.ofNat 16 (f (96 + 2 * i) 2)), bias := (List.range 3).map (fun i => BitVec.ofNat 16 (f (102 + 2 * i) 2)),
    dpbAddr := f 112 6, dpbBytes := f 118 4, nalAddr := f 122 6, nalLog2 := f 128 1, portMask := BitVec.ofNat 4 (f 129 1), vlan := f 130 2,
    ipVer := f 132 1, pt := f 133 1, udpPort := f 134 2, ipDst := BitVec.ofNat 128 (f 136 16), ssrc := BitVec.ofNat 32 (f 152 4),
    ssrcFilter := bit (f 156 1) 0, jitAddr := f 160 6, jitBytes := f 166 4, jitUs := f 170 2, bsAddr := f 176 6, bsLog2 := f 182 1,
    descLog2 := f 183 1, descAddr := f 184 6, rcTarget := bit (f 190 1) 0, qpInit := f 191 1, qpMin := f 192 1, qpMax := f 193 1,
    iDelta := signed 8 (f 194 1), sliceRows := f 195 1, targetBits := f 196 4, idrPeriod := f 200 2, doneTally := f 202 2 }

/-- Some byte of the listed ranges is not zero. -/
def someByte (b : List Byte) (rs : List (Nat × Nat)) : Bool := rs.any (fun r => !lzero b r.1 r.2)
/-- OUT_W or OUT_H lies between 1/8 and twice the crop on its axis; a whole-picture crop is not yet known. -/
def scaleOk (out crop : Nat) : Bool := crop == 0 || (decide (crop ≤ 8 * out) && decide (out ≤ 2 * crop))
def finite16 (h : BitVec 16) : Bool := !isSpecial fp16 h.toNat

/-- RANGE refusals of a context record: fields out of range, reserved bytes, fields its kind or source does not name. -/
def recordBad (b : List Byte) (x : CtxRec) : Bool :=
  let f (i n : Nat) : Nat := lfld b i n
  let reserved := [(6, 2), (14, 2), (108, 4), (157, 3), (172, 4), (204, 52)]
  let ingest := [(129, 28), (160, 12)]
  let decodeOnly := [(8, 6), (88, 20), (122, 7)]
  let encodeOnly := [(176, 28)]
  let bufsBad := (List.range 8).any (fun i =>
    if i < f 80 1 then f (16 + 8 * i) 6 % 64 != 0 || decide (16384 ≤ f (22 + 8 * i) 2) else !lzero b (16 + 8 * i) 8)
  let common := decide (1 < f 0 1) || decide (2 < f 1 1) || decide (3 < x.wheel) || decide (1 < x.codec) || decide (1 < f 4 1) ||
    decide (8 ≤ f 5 1) || f 80 1 == 0 || decide (8 < f 80 1) || bufsBad || x.g == 0 || x.outW == 0 || x.outH == 0 ||
    decide (8192 < x.outW) || decide (8192 < x.outH) || x.dpbBytes % 4096 != 0 || someByte b reserved
  let ingestBad := decide (16 ≤ f 129 1) || (x.vlan != 0xFFFF && (x.vlan == 0 || decide (4094 < x.vlan))) ||
    (x.ipVer != 4 && x.ipVer != 6) || (x.ipVer == 4 && !lzero b 140 12) || decide (x.pt < 96) || decide (127 < x.pt) || x.udpPort == 0 ||
    decide (2 ≤ f 156 1) || (!x.ssrcFilter && x.ssrc != 0) || decide (x.jitBytes < 65536) || decide (2 ^ 28 < x.jitBytes) || x.jitBytes % 4096 != 0
  let decodeBad := !([0x2, 0x3, 0xA, 0xB].contains x.elemFmt) || x.range == 3 || x.infoAddr % 64 != 0 || x.subframe ||
    decide (8192 < x.cropX + x.cropW) || decide (4320 < x.cropY + x.cropH) || !scaleOk x.outW x.cropW || !scaleOk x.outH x.cropH ||
    x.gain.any (fun h => !finite16 h) || x.bias.any (fun h => !finite16 h) || decide (x.nalLog2 < 16) || decide (30 < x.nalLog2) ||
    someByte b encodeOnly || (if x.hostFed then someByte b ingest else ingestBad)
  let encodeBad := x.codec != 0 || x.hostFed || x.bufSkip || x.elemFmt != 0x2 || (x.layout != 0 && x.layout != 3) || decide (4 ≤ f 83 1) ||
    x.outW % 8 != 0 || x.outH % 8 != 0 || decide (4320 < x.outH) || someByte b (ingest ++ decodeOnly) ||
    decide (x.bsLog2 < 16) || decide (30 < x.bsLog2) || decide (x.descLog2 < 4) || decide (16 < x.descLog2) || x.descAddr % 64 != 0 ||
    decide (2 ≤ f 190 1) || decide (51 < x.qpMax) || decide (x.qpInit < x.qpMin) || decide (x.qpMax < x.qpInit) ||
    decide (x.iDelta < -12) || decide (12 < x.iDelta) || decide (16384 ≤ x.doneTally)
  common || (if x.encode then encodeBad else decodeBad)

/-- Planes of the tensor in a buffer. -/
def CtxRec.planes (x : CtxRec) : Nat := if x.layout = 2 then 1 else 3
def CtxRec.pitch (x : CtxRec) : Nat := rowPitch (fmtWidth x.elemFmt) x.outW
def CtxRec.bufBytes (x : CtxRec) : Nat := x.planes * x.outH * x.pitch
def CtxRec.rowGroups (x : CtxRec) : Nat := (x.outH + x.g - 1) / max 1 x.g

/-- A range lies wholly in one tile store that p owns, below its context area (R134). -/
def State.inOneStore (s : State) (p a n : Nat) : Bool := s.inStores p a n && (a / 0x1000000 == (a + n - 1) / 0x1000000) && !meetsContext a n
/-- TARGET refusals (R311). -/
def targetBad (s : State) (p : Nat) (x : CtxRec) : Bool :=
  let ring (a n : Nat) : Bool := s.inDram p a n || s.inHost p a n
  let dram0 (a n : Nat) : Bool := n == 0 || s.inDram p a n
  x.bufs.any (fun e => !(s.inDram p e.1 x.bufBytes || s.inOneStore p e.1 x.bufBytes) || s.tallyPart e.2 != p) ||
  !dram0 x.dpbAddr x.dpbBytes ||
  (if x.encode then !ring x.bsAddr (2 ^ x.bsLog2) || !ring x.descAddr (16 * 2 ^ x.descLog2) || s.tallyPart x.doneTally != p
   else !(s.inDram p x.infoAddr (64 * x.bufs.length) || s.inOneStore p x.infoAddr (64 * x.bufs.length)) ||
     !s.inDram p x.nalAddr (2 ^ x.nalLog2) || (!x.hostFed && !s.inDram p x.jitAddr x.jitBytes))
/-- The classifier of an RTP context (R315). -/
def CtxRec.classifier (x : CtxRec) : BitVec 4 × Nat × Nat × BitVec 128 × Nat := (x.portMask, x.vlan, x.ipVer, x.ipDst, x.udpPort)
def CtxRec.rtp (x : CtxRec) : Bool := !x.encode && !x.hostFed

/-! ## Frames (R315, R316) -/

/-- A big-endian field (R14: the headers keep their standards' order). -/
def beFld (l : List Byte) (b n : Nat) : Nat := beNat ((l.drop b).take n)
/-- Sum of 16-bit big-endian words; a checksum over them is right when it leaves no remainder by 65,535. -/
def sum16 : List Byte → Nat
  | a :: b :: r => 256 * a.toNat + b.toNat + sum16 r
  | [a] => 256 * a.toNat
  | [] => 0

/-- What the ingest engine's parser finds in a frame: VLAN tags, IP, UDP and RTP fields, and the RTP payload with CSRC list, header
extension and padding removed. -/
structure Parsed where
  vlans : List Nat := []
  ipVer : Nat := 0
  ipDst : Nat := 0
  udp : Bool := false
  udpPort : Nat := 0
  fragment : Bool := false
  ipSumOk : Bool := true
  ext6 : Bool := false
  udpSumZero : Bool := false
  udpSumOk : Bool := true
  rtpVersion : Nat := 0
  pt : Nat := 0
  ssrc : Word := 0
  seq : Nat := 0
  ts : Word := 0
  payload : List Byte := []
  deriving DecidableEq, Repr

/-- VLAN tags ahead of an EtherType, then the type and what follows it. -/
def stripTags : Nat → List Byte → List Nat × Nat × List Byte
  | 0, l => ([], beFld l 0 2, l.drop 2)
  | n + 1, l =>
    if beFld l 0 2 = 0x8100 ∨ beFld l 0 2 = 0x88A8 then
      let r := stripTags n (l.drop 4)
      (beFld l 2 2 % 4096 :: r.1, r.2)
    else ([], beFld l 0 2, l.drop 2)
/-- IPv6 extension headers ahead of a transport header: whether there are any, the protocol, and what follows. -/
def stripExt6 : Nat → Nat → List Byte → Bool × Nat × List Byte
  | 0, next, l => (false, next, l)
  | n + 1, next, l =>
    let len := if next = 44 then 8 else if next = 51 then 4 * (beFld l 1 1 + 2) else 8 * (beFld l 1 1 + 1)
    if next = 0 ∨ next = 43 ∨ next = 44 ∨ next = 51 ∨ next = 60 ∨ next = 135 then
      let r := stripExt6 n (beFld l 0 1) (l.drop len)
      (true, r.2)
    else (false, next, l)
/-- RTP fields and payload of a UDP body (RFC 3550). -/
def parseRtp (l : List Byte) (x : Parsed) : Parsed :=
  let b0 := beFld l 0 1
  let r := l.drop (12 + 4 * (b0 % 16))
  let r := if bit b0 4 then r.drop (4 + 4 * beFld r 2 2) else r
  let r := if bit b0 5 then r.take (r.length - beNat (r.drop (r.length - 1))) else r
  { x with rtpVersion := b0 / 64, pt := beFld l 1 1 % 128, seq := beFld l 2 2, ts := BitVec.ofNat 32 (beFld l 4 4),
           ssrc := BitVec.ofNat 32 (beFld l 8 4), payload := r }
/-- A UDP datagram under an IP header whose addresses are `addrs`. -/
def parseUdp (addrs l : List Byte) (x : Parsed) : Parsed :=
  let n := beFld l 4 2
  let d := l.take n
  let ok := (sum16 addrs + 17 + n + sum16 d) % 65535 == 0 && n == d.length
  parseRtp (d.drop 8) { x with udp := true, udpPort := beFld l 2 2, udpSumZero := beFld l 6 2 == 0, udpSumOk := ok }
def parseFrame (b : List Byte) : Parsed :=
  let t := stripTags 4 (b.drop 12)
  let l := t.2.2
  let x : Parsed := { vlans := t.1 }
  if t.2.1 = 0x0800 ∧ beFld l 0 1 / 16 = 4 then
    let ihl := 4 * (beFld l 0 1 % 16)
    let frag := beFld l 6 2 % 16384
    let x := { x with ipVer := 4, ipDst := beFld l 16 4, fragment := frag != 0, ipSumOk := sum16 (l.take ihl) % 65535 == 0 && decide (20 ≤ ihl) }
    if beFld l 9 1 = 17 ∧ frag % 8192 = 0 then parseUdp ((l.drop 12).take 8) ((l.take (beFld l 2 2)).drop ihl) x else x
  else if t.2.1 = 0x86DD ∧ beFld l 0 1 / 16 = 6 then
    let e := stripExt6 8 (beFld l 6 1) ((l.drop 40).take (beFld l 4 2))
    let x := { x with ipVer := 6, ipDst := beFld l 24 16, ext6 := e.1 }
    if e.2.1 = 17 then parseUdp ((l.drop 8).take 32) e.2.2 x else x
  else x

/-! ## Ingest (R315-R318) -/

/-- The open RTP context that a frame is classified to, lowest number first.  IP_DST of the record is a little-endian number (R14), the
header's address a big-endian one. -/
def State.classify (s : State) (port : Nat) (f : Parsed) : Option Nat :=
  if 1 < f.vlans.length then none
  else (s.wheels.ctxs.find? (fun e =>
    let x := e.2.cfg
    (e.2.state == .waitIrap || e.2.state == .running) && x.rtp && x.portMask.getLsbD port && x.vlan == (f.vlans.head?.getD 0xFFFF) &&
    x.ipVer == f.ipVer && x.ipDst.toNat == f.ipDst && x.udpPort == f.udpPort && f.udp)).map (·.1)

/-- A stream port answers for a unicast IP_DST of an open context with the frame's VLAN (R383). -/
def State.ownAddress (s : State) (port : Nat) (vlans : List Nat) (ver a : Nat) : Bool :=
  (if ver = 4 then decide (a < 0xE0000000) else decide (a / 2 ^ 120 ≠ 0xFF)) && decide (vlans.length ≤ 1) &&
  s.wheels.ctxs.any (fun e =>
    let x := e.2.cfg
    (e.2.state == .waitIrap || e.2.state == .running) && x.rtp && x.portMask.getLsbD port && x.vlan == (vlans.head?.getD 0xFFFF) &&
    x.ipVer == ver && x.ipDst.toNat == a)
/-- The ARP reply, or the IPv6 neighbour advertisement, that a stream port sends for a received frame (R383; RFC 826, RFC 4861). -/
def State.neighbourReply (s : State) (port : Nat) (b : List Byte) : Option (List Byte) :=
  let t := stripTags 4 (b.drop 12)
  let l := t.2.2
  let mac := toBE 6 (Config.ethMac port).toNat
  let head (dst : List Byte) : List Byte := dst ++ mac ++ (match t.1.head? with
    | some v => toBE 2 0x8100 ++ toBE 2 v
    | none => [])
  let pad (f : List Byte) : List Byte := f ++ List.replicate (60 - f.length) 0
  if t.2.1 = 0x0806 then
    if (l.take 8 == toBE 2 1 ++ toBE 2 0x0800 ++ toBE 2 0x0604 ++ toBE 2 1) && s.ownAddress port t.1 4 (beFld l 24 4) then
      let sender := (l.drop 8).take 10
      some (pad (head (sender.take 6) ++ toBE 2 0x0806 ++ toBE 2 1 ++ toBE 2 0x0800 ++ toBE 2 0x0604 ++ toBE 2 2 ++ mac ++
        (l.drop 24).take 4 ++ sender))
    else none
  else if t.2.1 = 0x86DD ∧ beFld l 0 1 / 16 = 6 ∧ beFld l 6 1 = 58 ∧ beFld l 7 1 = 255 then
    let m := (l.drop 40).take (beFld l 4 2)
    let ok := (sum16 ((l.drop 8).take 32) + 58 + m.length + sum16 m) % 65535 == 0 && decide (24 ≤ m.length) && beFld m 0 2 == 0x8700
    if ok && s.ownAddress port t.1 6 (beFld m 8 16) then
      let target := (m.drop 8).take 16
      let from_ := (l.drop 8).take 16
      let unknown := beNat from_ == 0
      let dst := if unknown then toBE 16 (0xFF02 * 2 ^ 112 + 1) else from_
      let body (sum : Nat) : List Byte :=
        toBE 2 0x8800 ++ toBE 2 sum ++ toBE 4 (if unknown then 0x20000000 else 0x60000000) ++ target ++ toBE 2 0x0201 ++ mac
      let sum := 65535 - (sum16 target + sum16 dst + 58 + 32 + sum16 (body 0)) % 65535
      some (head (if unknown then toBE 6 0x333300000001 else (b.drop 6).take 6) ++ toBE 2 0x86DD ++ toBE 4 0x60000000 ++ toBE 2 32 ++
        toBE 1 58 ++ toBE 1 255 ++ target ++ dst ++ body sum)
    else none
  else none

/-- A classified frame that R316 discards. -/
def frameBad (x : CtxRec) (f : Parsed) : Bool :=
  f.fragment || (f.ipVer == 4 && !f.ipSumOk) || f.ext6 || (if f.udpSumZero then f.ipVer == 6 else !f.udpSumOk) || f.rtpVersion != 2 ||
  f.pt != x.pt || (x.ssrcFilter && f.ssrc != x.ssrc)

/-- The extended sequence number nearest to the next one expected. -/
def extSeq (next : Option Nat) (q : Nat) : Nat :=
  match next with
  | none => 65536 + q % 65536
  | some n =>
    let d := (q % 65536 + 65536 - n % 65536) % 65536
    if d < 32768 then n + d else n + d - 65536

def insPacket (p : Packet) : List Packet → List Packet
  | [] => [p]
  | a :: r => if p.seq < a.seq then p :: a :: r else a :: insPacket p r
/-- Bytes that a packet takes up in the jitter buffer: its payload in whole lines (DESIGN CHOICE, log entry 78). -/
def Packet.room (n : Nat) : Nat := roundUp (max 1 n) 64
/-- The lowest place in a context's jitter buffer that n bytes fit in, none when it is full (R317). -/
def Ctx.jitPlace (x : Ctx) (n : Nat) : Option Nat :=
  let fits (o : Nat) : Bool := decide (o + Packet.room n ≤ x.cfg.jitBytes) &&
    x.packets.all (fun p => decide (o + Packet.room n ≤ p.ofs) || decide (p.ofs + Packet.room p.len ≤ o))
  ((0 :: x.packets.map (fun p => p.ofs + Packet.room p.len)).filter fits).min?

/-- A loss marker for the decoder; the unit being assembled is lost with it. -/
def Ctx.loseUnit (x : Ctx) : Ctx := { x with fu := none, fuLost := true, pendingNals := x.pendingNals ++ [.loss] }
/-- The oldest gap is declared lost (R317). -/
def State.loseGap (s : State) (c : Nat) : State :=
  let x := s.ctx c
  match x.packets, x.nextSeq with
  | p :: _, some n =>
    if n < p.seq then
      (s.setCtx c { x.loseUnit with nextSeq := some p.seq, lost := cap16 (x.lost + (p.seq - n)) }).setCtxEvt c 4
    else s
  | _, _ => s

/-- Put bytes of context c into a ring of 2^log2 bytes at base, wrapping; true where not all was written. -/
def State.putRing (s : State) (g : Agent) (w c base log2 ofs : Nat) (bs : List Byte) : State × Bool :=
  let o := ofs % 2 ^ log2
  let k := 2 ^ log2 - o
  let r := s.ctxStore g w c (base + o) (bs.take k)
  if bs.length ≤ k then r
  else
    let q := r.1.ctxStore g w c base (bs.drop k)
    (q.1, r.2 || q.2)

/-- Write a NAL unit to the ring behind its start code; one that does not fit, or that cannot be written, is lost (R318). -/
def State.nalWrite (s : State) (c : Nat) (nal : List Byte) (ts : Word) (arrival : Nat) : State :=
  let x := s.ctx c
  let bs := [0, 0, 0, 1] ++ nal
  let lose (s : State) : State := s.setCtx c { s.ctx c with pendingNals := (s.ctx c).pendingNals ++ [.loss] }
  if 2 ^ x.cfg.nalLog2 < (x.nalTotal + 2 ^ 32 - x.rd) % 2 ^ 32 + bs.length then lose s
  else
    let r := s.putRing (.vault 1) x.cfg.wheel c x.cfg.nalAddr x.cfg.nalLog2 x.nalTotal bs
    if r.2 then lose r.1
    else
      let y := r.1.ctx c
      r.1.setCtx c { y with nalTotal := (x.nalTotal + bs.length) % 2 ^ 32,
                            pendingNals := y.pendingNals ++ [.unit x.nalTotal bs.length ts arrival] }

/-- The units of an aggregation packet: 16-bit big-endian sizes (RFC 6184, RFC 7798). -/
def aggregated (fuel : Nat) (l : List Byte) : List (List Byte) :=
  match fuel with
  | 0 => []
  | fuel + 1 =>
    match l with
    | a :: b :: r =>
      let n := a.toNat * 256 + b.toNat
      if n = 0 ∨ r.length < n then [] else r.take n :: aggregated fuel (r.drop n)
    | _ => []

/-- What a packet's payload carries. -/
inductive Payload
  | units (l : List (List Byte))
  | fragment (start final : Bool) (header data : List Byte)
  | discard

def payloadOf (h264 : Bool) (l : List Byte) : Payload :=
  match l with
  | [] => .discard
  | b :: r =>
    if h264 then
      let t := b.toNat % 32
      if 1 ≤ t ∧ t ≤ 23 then .units [l]
      else if t = 24 then .units (aggregated l.length r)
      else if t = 28 then
        match r with
        | [] => .discard
        | h :: d => .fragment (h.getLsbD 7) (h.getLsbD 6) [BitVec.ofNat 8 (b.toNat / 32 * 32 + h.toNat % 32)] d
      else .discard
    else
      let t := b.toNat / 2 % 64
      if t ≤ 47 then .units [l]
      else if t = 48 then .units (aggregated l.length (r.drop 1))
      else if t = 49 then
        match r with
        | b1 :: h :: d => .fragment (h.getLsbD 7) (h.getLsbD 6) [BitVec.ofNat 8 (b.toNat / 128 * 128 + h.toNat % 64 * 2 + b.toNat % 2), b1] d
        | _ => .discard
      else .discard

/-- Release one packet's payload to the depacketizer (R316-R318); a payload of no supported kind counts in DROPPED. -/
def State.releasePacket (s : State) (c : Nat) (ts : Word) (payload : List Byte) (arrival : Nat) : State :=
  let x := s.ctx c
  let whole (s : State) (l : List (List Byte)) : State :=
    let y := s.ctx c
    let y := if y.fu.isSome then y.loseUnit else y
    l.foldl (fun s n => s.nalWrite c n ts arrival) (s.setCtx c { y with fuLost := false })
  match payloadOf (x.cfg.codec == 1) payload with
  | .discard => s.setCtx c { x with dropped := cap16 (x.dropped + 1) }
  | .units l => whole s l
  | .fragment start final hd data =>
    if start then
      let y := if x.fu.isSome then x.loseUnit else x
      if final then whole (s.setCtx c y) [hd ++ data] else s.setCtx c { y with fu := some (hd ++ data), fuLost := false }
    else match x.fu with
    | some acc => if final then (s.setCtx c { x with fu := none }).nalWrite c (acc ++ data) ts arrival
                  else s.setCtx c { x with fu := some (acc ++ data) }
    | none => if x.fuLost then s.setCtx c { x with fuLost := !final } else s.setCtx c { x.loseUnit with fuLost := !final }

/-- The next packet in order leaves the jitter buffer (R317); one that reads as poison is lost with its unit (R183). -/
def State.releaseHead (s : State) (c arrival : Nat) : State :=
  let x := s.ctx c
  match x.packets with
  | p :: rest =>
    if x.nextSeq = some p.seq then
      let a := x.cfg.jitAddr + p.ofs
      let y := { x with packets := rest, nextSeq := some (p.seq + 1) }
      if s.bound (s.ctxPart c) a p.len ≠ .ok then (s.setCtx c y.loseUnit).ctxRefused x.cfg.wheel c a
      else if s.meetsPoison (.vault 1) a p.len then (s.setCtx c y.loseUnit).wheelErr x.cfg.wheel c 0
      else (s.setCtx c y).releasePacket c p.ts (s.readBytes a p.len) arrival
    else s
  | [] => s

/-- A full jitter buffer makes room at once: its oldest gap is lost, and what is then in order is released (R317). -/
def State.makeRoom (s : State) (c n now : Nat) : Nat → State
  | 0 => s
  | k + 1 => if ((s.ctx c).jitPlace n).isSome then s else ((s.loseGap c).releaseHead c now).makeRoom c n now k

/-! ## Samples to tensor elements (R321, R322) -/

/-- Kr and Kb of a matrix as exact fractions of 10,000. -/
def matrixK (m : Nat) : Nat × Nat := if m = 1 then (2990, 1140) else if m = 3 then (2627, 593) else (2126, 722)
/-- A fraction rounded to FP32. -/
def frac32 (a b : Nat) : Word := toF32 (fdivV (.fin false a 0) (.fin false b 0))
/-- kR, kB, kGb, kGr. -/
def matrixC (m : Nat) : Word × Word × Word × Word :=
  let k := matrixK m
  let kg := 10000 - k.1 - k.2
  (frac32 (2 * (10000 - k.1)) 10000, frac32 (2 * (10000 - k.2)) 10000,
   frac32 (2 * k.2 * (10000 - k.2)) (10000 * kg), frac32 (2 * k.1 * (10000 - k.1)) (10000 * kg))

/-- A decoded sample in the 0-255 domain. -/
def sample255 (depth v : Nat) : Word := if depth = 10 then fmul (fromNat32 v) 0x3E800000 else fromNat32 v
/-- A decoded picture as the converter sees it: its size after the conformance window, and the sample of a plane at a row and column. -/
structure PicView where
  w : Nat
  h : Nat
  depth : Nat
  matrix : Nat
  range : Nat
  at_ : Nat → Nat → Nat → Nat

/-- The value of channel ch at luma position (y, x). -/
def picChannel (pic : PicView) (x : CtxRec) (ch y xx : Nat) : Word :=
  let m := if x.matrix ≠ 0 then x.matrix else if pic.matrix ≠ 0 then pic.matrix else 2
  let full := (if x.range ≠ 0 then x.range else if pic.range ≠ 0 then pic.range else 1) == 2
  let yv := sample255 pic.depth (pic.at_ 0 y xx)
  let cbv := sample255 pic.depth (pic.at_ 1 (y / 2) (xx / 2))
  let crv := sample255 pic.depth (pic.at_ 2 (y / 2) (xx / 2))
  let sY := if full then 0x3F800000 else frac32 255 219
  let sC := if full then 0x3F800000 else frac32 255 224
  let yn := fmul (fsub yv (if full then 0 else fromNat32 16)) sY
  let cb := fmul (fsub cbv (fromNat32 128)) sC
  let cr := fmul (fsub crv (fromNat32 128)) sC
  let k := matrixC m
  let r := fadd yn (fmul k.1 cr)
  let g := fsub (fsub yn (fmul k.2.2.1 cb)) (fmul k.2.2.2 cr)
  let b := fadd yn (fmul k.2.1 cb)
  let cl (v : Word) : Word := clampF 0 (fromNat32 255) v
  match x.layout, ch with
  | 0, 0 => cl r
  | 0, 1 => cl g
  | 0, _ => cl b
  | 1, 0 => cl b
  | 1, 1 => cl g
  | 1, _ => cl r
  | 2, _ => cl yn
  | _, 0 => yv
  | _, 1 => cbv
  | _, _ => crv

/-- Rows and columns of the crop's samples (R230, R322). -/
def cropAxis (half : Bool) (n at_ len whole : Nat) : List Word :=
  if len = 0 then cropCoords half n 0 (fromNat32 whole) else cropCoords half n (fromNat32 at_) (fromNat32 (at_ + len))

/-- One output row of channel ch, and whether a sample lay outside the picture. -/
def picOutRow (pic : PicView) (x : CtxRec) (ch y : Nat) : List Byte × Bool :=
  let ys := cropAxis x.halfPixel x.outH x.cropY x.cropH pic.h
  let xs := cropAxis x.halfPixel x.outW x.cropX x.cropW pic.w
  let yc := (ys[y]?).getD 0
  let dims : Crop := { img := 0, box := 0, out := 0, count := 1, h := pic.h, w := pic.w, ch := 1, oh := x.outH, ow := x.outW,
                       fmt := x.elemFmt, nearest := x.nearest, half := x.halfPixel, fill := 0 }
  let gain := widen16 ((x.gain[ch]?.getD 0).toNat)
  let bias := widen16 ((x.bias[ch]?.getD 0).toNat)
  let out (v : Word) : Bool := !inImage pic.h yc || !inImage pic.w v
  let val (v : Word) : Nat :=
    let r := if out v then fromNat32 128 else cropSample dims (fun a b => picChannel pic x ch a b) yc v
    toElem x.elemFmt (ffma r gain bias)
  (padTo x.pitch (packElems (fmtWidth x.elemFmt) (xs.map val)), xs.any out)

/-- Output rows that the final source rows allow (R320); `final` counts rows of the picture after the conformance window. -/
def picRowsDue (pic : PicView) (x : CtxRec) (final : Nat) : Nat :=
  if pic.h ≤ final then x.outH
  else
    let ys := cropAxis x.halfPixel x.outH x.cropY x.cropH pic.h
    (ys.takeWhile (fun y => decide (min (floorNat y + 1) (pic.h - 1) < final))).length

/-! ## The decoded-picture buffer (R305, R308, R329, R330)

The spec gives it no layout: pictures stand in slots one behind the other, Y, Cb and Cr planes row by row, one byte a sample or two
for 10-bit ones (DESIGN CHOICE, log entry 79). -/

def sampleBytes (depth : Nat) : Nat := if depth = 10 then 2 else 1
def picBytes (w h depth : Nat) : Nat := w * h * 3 / 2 * sampleBytes depth
/-- Row y of a plane of the picture in a slot. -/
def CtxRec.slotRow (x : CtxRec) (w h depth slot pl y : Nat) : Nat :=
  let sb := sampleBytes depth
  x.dpbAddr + slot * picBytes w h depth +
    (if pl = 0 then y * w * sb else (w * h + (pl - 1) * (w / 2 * (h / 2)) + y * (w / 2)) * sb)
def planeWidth (w pl : Nat) : Nat := if pl = 0 then w else w / 2
/-- The picture in progress as the converter sees it. -/
def State.picView (s : State) (x : Ctx) : PicView :=
  let q := x.picSet
  { w := q.winW, h := q.winH, depth := q.depth, matrix := q.matrix, range := q.range,
    at_ := fun pl y xx =>
      let d := if pl = 0 then 1 else 2
      s.readNat (x.cfg.slotRow q.w q.h q.depth x.picSlot pl (y + q.winY / d) + (xx + q.winX / d) * sampleBytes q.depth) (sampleBytes q.depth) }

/-- A parameter set that R307 and R308 support. -/
def setOk (x : CtxRec) (q : SeqSet) : Bool :=
  let room := decide (q.dpb * picBytes q.w q.h q.depth ≤ x.dpbBytes)
  q.chroma420 && !q.extension && room &&
    (if x.codec = 0 then
      ((q.profile == .main && q.depth == 8) || (q.profile == .main10 && (q.depth == 8 || q.depth == 10))) &&
        decide (q.level ≤ 61) && decide (q.w ≤ 8192) && decide (q.h ≤ 4320)
    else
      (q.profile == .high || q.profile == .constrainedBaseline) && q.depth == 8 && !q.interlaced &&
        decide (q.level ≤ 52) && decide (q.w ≤ 4096) && decide (q.h ≤ 2304))

/-- A slot for a new picture: the first that holds neither a kept picture nor the last one, else the last one's. -/
def Ctx.freeSlot (x : Ctx) (q : SeqSet) : Nat :=
  let n := x.cfg.dpbBytes / max 1 (picBytes q.w q.h q.depth)
  let kept (k : Nat) : Bool := x.dpb.any (fun d => d.slot == k)
  let last (k : Nat) : Bool := match x.prev with | some d => d.slot == k | none => false
  match (List.range n).find? (fun k => !kept k && !last k) with
  | some k => k
  | none => ((List.range n).find? (fun k => !kept k)).getD 0

def flagIf (b : Bool) (k : Nat) : BitVec 16 := if b then BitVec.ofNat 16 (2 ^ k) else 0
/-- Mid-grey samples (R329). -/
def greyBytes (depth n : Nat) : List Byte := (List.range n).flatMap (fun _ => toLE (sampleBytes depth) (if depth = 10 then 512 else 128))

/-- The picture in a slot of context c lies within the partition's bounds (R44, R311). -/
def State.slotOk (s : State) (c : Nat) (q : SeqSet) (slot : Nat) : Bool :=
  s.bound (s.ctxPart c) ((s.ctx c).cfg.slotRow q.w q.h q.depth slot 0 0) (picBytes q.w q.h q.depth) == .ok
/-- Pictures of the buffer that the picture in progress predicts from. -/
def Ctx.usedRefs (x : Ctx) : List DpbPic := x.dpb.filter (fun d => x.picRefs.contains d.order)

/-- Reference picture number `o` of the picture that begins, where it was never decoded: a copy of the decoded picture nearest before it
in output order, or mid-grey (R330). -/
def State.substitute (s : State) (w c : Nat) (o : Int) : State :=
  let x := s.ctx c
  let q := x.picSet
  if x.dpb.any (fun d => d.order = o) then s
  else
    let near := x.dpb.foldl (fun (m : Option DpbPic) d =>
      if d.order < o ∧ d.subst = 0 ∧ s.slotOk c q d.slot then (match m with | some k => if k.order < d.order then some d else m | none => some d) else m) none
    let slot := x.freeSlot q
    let n := picBytes q.w q.h q.depth
    let bs := match near with
      | some d => s.readBytes (x.cfg.slotRow q.w q.h q.depth d.slot 0 0) n
      | none => greyBytes q.depth (q.w * q.h * 3 / 2)
    let s := (s.ctxStore (.vault (w / 2)) w c (x.cfg.slotRow q.w q.h q.depth slot 0 0) bs).1
    let y := s.ctx c
    let sub : DpbPic := { slot := slot, order := o, w := q.w, h := q.h, depth := q.depth, damaged := (near.map (·.damaged)).getD false,
                          subst := if near.isSome then 1 else 2 }
    s.setCtx c { y with dpb := y.dpb.filter (fun (d : DpbPic) => d.slot ≠ slot) ++ [sub] }

/-- A picture begins (R308, R330, R331): held back in WAIT_IRAP until an IRAP picture, discarded where it is a RASL picture of the CRA
decoding started at, or names a parameter set that is not held. -/
def State.startPicture (s : State) (w c : Nat) (p : PicStart) (unit : Nat) (ts : Word) (arrival : Nat) : State :=
  let x := s.ctx c
  match x.sets.find? (fun q => q.id = p.set) with
  | none => s
  | some q =>
    if x.state = .closing ∨ x.needSet ∨ (x.state = .waitIrap ∧ p.irap = .none) then s
    else
      let skip := if p.irap = .none then x.raslSkip else (x.state = .waitIrap && p.irap = .cra) || p.irap == .bla
      if p.rasl ∧ skip then s
      else
        let same (d : DpbPic) : Bool := d.w == q.w && d.h == q.h && d.depth == q.depth
        let s := s.setCtx c { x with
          state := .running, raslSkip := skip, dpb := x.dpb.filter (fun d => same d && p.keep.contains d.order), prev := x.prev.filter same,
          picOpen := true, picSet := q, picOrder := p.order, picUnit := max 1 unit, picRows := [], granted := false, picSkip := false,
          picFlags := 0, picIrap := p.irap != .none, picErr := false, concealedUnits := 0, outRows := 0, picTs := ts, picArrival := arrival,
          picRefs := p.refs }
        let s := p.refs.foldl (fun s o => s.substitute w c o) s
        let y := s.ctx c
        let used := y.usedRefs
        let poison := used.any (fun d => s.meetsPoison (.vault (w / 2)) (y.cfg.slotRow q.w q.h q.depth d.slot 0 0) (picBytes q.w q.h q.depth))
        let s := s.setCtx c { y with
          picSlot := y.freeSlot q, refPoison := poison, picErr := poison, syntaxErrs := cap16 (y.syntaxErrs + b2n poison),
          picFlags := flagIf (used.any (fun d => d.subst == 1)) 1 ||| flagIf (used.any (fun d => d.subst == 2)) 2 |||
            flagIf (used.any (·.damaged)) 3 }
        if poison then s.wheelErr w c 0 else s

/-- A unit column of a list of lost units. -/
def lostAt (l : List LostUnits) (u : Nat) : Bool := l.any (fun e => decide (e.first ≤ u) && decide (u < e.first + e.count))
/-- Bytes of a plane row with those of the unit columns of a test taken from another row. -/
def mergeCols (unit depth pl : Nat) (test : Nat → Bool) (old new : List Byte) : List Byte :=
  (old.zip new).zipIdx.map (fun e =>
    if test (e.2 / sampleBytes depth * (if pl = 0 then 1 else 2) / unit) then e.1.2 else e.1.1)
/-- Rows of a plane in unit row u of the picture in progress. -/
def Ctx.unitLines (x : Ctx) (pl u : Nat) : List Nat :=
  let h := if pl = 0 then x.picSet.h else x.picSet.h / 2
  let k := if pl = 0 then x.picUnit else x.picUnit / 2
  ((List.range k).map (fun i => u * k + i)).filter (fun y => decide (y < h))
/-- Rewrite the rows of unit row u in the columns of a test, from the rows another function gives. -/
def State.paintUnits (s : State) (w c u : Nat) (test : Nat → Bool) (new : Nat → Nat → List Byte) : State :=
  let x := s.ctx c
  let q := x.picSet
  (List.range 3).foldl (fun s pl => (x.unitLines pl u).foldl (fun s y =>
    let a := x.cfg.slotRow q.w q.h q.depth x.picSlot pl y
    let n := planeWidth q.w pl * sampleBytes q.depth
    (s.ctxStore (.vault (w / 2)) w c a (mergeCols x.picUnit q.depth pl test (s.readBytes a n) (padTo n (new pl y)))).1) s) s

/-- Unit rows and unit columns of the picture in progress. -/
def Ctx.unitRows (x : Ctx) : Nat := (x.picSet.h + x.picUnit - 1) / max 1 x.picUnit
def Ctx.unitCols (x : Ctx) : Nat := (x.picSet.w + x.picUnit - 1) / max 1 x.picUnit
/-- Units that a unit row lacks: all of them where the row was never decoded. -/
def Ctx.lacks (x : Ctx) (u : Nat) : List LostUnits :=
  ((x.picRows.find? (fun e => e.1 = u)).map (·.2)).getD [{ first := 0, count := x.unitCols }]
/-- A unit row's slices lie outside the picture, or hold units already decoded (R328). -/
def Ctx.badRow (x : Ctx) (r : UnitRow) : Bool :=
  decide (x.unitRows ≤ r.row) || (List.range x.unitCols).any (fun u => !lostAt (x.lacks r.row) u && !lostAt r.lost u)
/-- A unit's reference samples are poisoned (R329). -/
def State.unitPoison (s : State) (w c row u : Nat) : Bool :=
  let x := s.ctx c
  let q := x.picSet
  x.refPoison && (Config.predictedFrom x.cfg.codec x.stream row u).any (fun k => match x.usedRefs[k.1]? with
    | some d => s.meetsPoison (.vault (w / 2)) (x.cfg.slotRow q.w q.h q.depth d.slot 0 0 + k.2.1) k.2.2
    | none => false)
/-- The bytes of the reference pictures of the picture in progress. -/
def State.refBytes (s : State) (c : Nat) : List (List Byte) :=
  let x := s.ctx c
  let q := x.picSet
  x.usedRefs.map (fun d => s.readBytes (x.cfg.slotRow q.w q.h q.depth d.slot 0 0) (picBytes q.w q.h q.depth))

/-- The units of a row that its slices hold are decoded into the picture's slot (R305, R306); one whose reference samples are poisoned is
left to concealment (R329).  What the row lacks still is what it lacked and these slices do not hold. -/
def State.storeUnits (s : State) (w c : Nat) (r : UnitRow) : State :=
  let x := s.ctx c
  let old := x.lacks r.row
  let cols := List.range x.unitCols
  let grey := cols.filter (fun u => !lostAt r.lost u && s.unitPoison w c r.row u)
  let refs := s.refBytes c
  let s := s.paintUnits w c r.row (fun u => !lostAt r.lost u && !grey.contains u) (Config.decodedLine x.cfg.codec x.stream refs)
  let y := s.ctx c
  let left : List LostUnits := (cols.filter (fun u => lostAt old u && lostAt r.lost u)).map (fun u =>
      { first := u, count := 1, grey := lostAt (old.filter (·.grey)) u }) ++
    grey.map (fun u => { first := u, count := 1, grey := true })
  s.setCtx c { y with picRows := y.picRows.filter (fun e => e.1 ≠ r.row) ++ [(r.row, left)] }
/-- Conceal every unit of a picture that has ended (R329): the samples of the picture decoded just before it, mid-grey where there is
none, or where the unit's reference samples were poisoned. -/
def State.conceal (s : State) (w c : Nat) : State :=
  let x := s.ctx c
  let q := x.picSet
  let n := ((List.range x.unitRows).map (fun u => ((List.range x.unitCols).filter (lostAt (x.lacks u))).length)).sum
  let s := (List.range x.unitRows).foldl (fun s u =>
    let l := x.lacks u
    if l.isEmpty then s
    else
      let prev := x.prev.filter (fun d => s.slotOk c q d.slot)
      let grey (u : Nat) : Bool := lostAt (l.filter (fun e => e.grey || prev.isNone)) u
      let s := match prev with
        | some d => s.paintUnits w c u (fun v => lostAt l v && !grey v)
            (fun pl y => s.readBytes (x.cfg.slotRow q.w q.h q.depth d.slot pl y) (planeWidth q.w pl * sampleBytes q.depth))
        | none => s
      s.paintUnits w c u grey (fun pl _ => greyBytes q.depth (planeWidth q.w pl))) s
  let y := s.ctx c
  s.setCtx c { y with concealedUnits := cap16 n, picFlags := y.picFlags ||| flagIf (n != 0) 0,
                      picRows := (List.range x.unitRows).map (fun u => (u, [])) }
/-- Luma rows that are final: up to the last unit row with a decoded one below it, and all once the picture has ended (R320). -/
def Ctx.finalRows (x : Ctx) (ended : Bool) : Nat :=
  if ended then x.picSet.winH
  else
    let k := ((List.range x.unitRows).takeWhile (fun u => (x.lacks u).isEmpty)).length
    (k - 1) * x.picUnit - x.picSet.winY

/-! ## Sharing a wheel (R323, R326) -/

/-- What wheel w reads of a tally: the value once its own operations on it have been applied (R197, R201); 0 while the home is in
reset (R211, R336). -/
def State.tallySeen (s : State) (w n : Nat) : Nat :=
  if !s.homeUp (8 + w / 2) n then 0
  else (s.mem.signals.filter (fun g => g.src == 8 + w / 2 && g.tally == n)).foldl
    (fun v g => if g.reset then g.value else v + g.value) (s.tally n).toNat
/-- An encoded NAL unit may be posted: its slice, or its picture, is complete (R335). -/
def Ctx.nalDue (x : Ctx) : Bool := !x.encNals.isEmpty && (x.cfg.subframe || !x.picOpen)
/-- Tally value that lets CTU row r begin (R332). -/
def CtxRec.rowNeeds (x : CtxRec) (r : Nat) : Nat := (min (32 * (r + 1)) x.outH + x.g - 1) / max 1 x.g
/-- A start code 0x00_0001 stands in a list of bytes. -/
def hasStartCode : List Byte → Bool
  | a :: b :: d :: r => (a == 0 && b == 0 && d == 1) || hasStartCode (b :: d :: r)
  | _ => false
/-- Decode input is pending: a complete NAL unit or a loss marker (R326); at the end of a host-fed stream the picture in progress. -/
def State.hasInput (s : State) (c : Nat) : Bool :=
  let x := s.ctx c
  if !x.cfg.hostFed then !x.pendingNals.isEmpty
  else
    let n := (x.nalTotal + 2 ^ 32 - x.rd) % 2 ^ 32
    let size := 2 ^ x.cfg.nalLog2
    if x.eos then decide (0 < n) || x.picOpen
    else if s.bound (s.ctxPart c) x.cfg.nalAddr size ≠ .ok then decide (0 < n)
    else hasStartCode ((List.range (n - 3)).map (fun i => s.readByte (x.cfg.nalAddr + (x.rd + 3 + i) % size)))
/-- Context c is ready (R326). -/
def State.ctxReady (s : State) (c : Nat) : Bool :=
  let x := s.ctx c
  let open_ := match x.state with
    | .closed => false
    | .closing => x.closeMode == 0 && x.picOpen
    | _ => true
  open_ && (if x.cfg.encode then
      !x.nalDue && decide (x.cfg.rowNeeds x.row ≤ s.tallySeen x.cfg.wheel ((x.cfg.bufs[x.bufIndex]?.getD (0, 0)).2))
    else !x.outWaiting && (s.hasInput c || x.state == .closing))

/-- Wheel w stands in the mask of context c's partition (R305). -/
def State.wheelOwned (s : State) (w c : Nat) : Bool := match s.part? (s.ctxPart c) with | some r => r.wheels.getLsbD w | none => false
/-- The context a wheel runs next: of the highest class that is ready; within it the running one until its picture ends, or the one of
the class that ran last, then upward (R326). -/
def State.pickCtx (s : State) (w : Nat) : Option Nat :=
  let u := s.wheel w
  let l := (s.wheels.ctxs.filter (fun e => e.2.cfg.wheel == w && s.wheelOwned w e.1 && s.ctxReady e.1)).map (fun e => (e.1, e.2.cls))
  let best := (l.map (·.2)).foldl min 3
  let top := (l.filter (fun e => e.2 == best)).map (·.1)
  let last := sget 0 u.turns best
  if u.active ∧ top.contains u.ctx ∧ (s.ctx u.ctx).picOpen then some u.ctx
  else if 0 < last ∧ top.contains (last - 1) ∧ (s.ctx (last - 1)).picOpen then some (last - 1)
  else match top.find? (fun c => decide (last ≤ c)) with
  | some c => some c
  | none => top.head?

/-! ## Decoding rows (R323, R324, R328-R331) -/

/-- Take consumed items off the pending list: bytes, losses, timestamp and arrival of the first unit. -/
def takeNals (n : Nat) (l : List NalItem) : Nat × Nat × Option (Word × Nat) :=
  (l.take n).foldl (fun a i => match i with
    | .unit _ len ts ar => (a.1 + len, a.2.1, a.2.2.or (some (ts, ar)))
    | .loss => (a.1, a.2.1 + 1, a.2.2)) (0, 0, none)

/-- Parameter sets met in order: a damaged one is discarded, an unsupported one sends the context back to WAIT_IRAP (R308, R328). -/
def Ctx.takeSets (x : Ctx) (l : List SeqSet) : Ctx × Bool :=
  l.foldl (fun (a : Ctx × Bool) q =>
    if q.damaged then a
    else if setOk x.cfg q then ({ a.1 with sets := a.1.sets.filter (fun e => e.id ≠ q.id) ++ [q], needSet := false }, a.2)
    else ({ a.1 with state := if a.1.state = .closing then .closing else .waitIrap, needSet := true, picOpen := false, granted := false,
                     picSkip := false }, true)) (x, false)

/-- The pieces of a read of n bytes at position ofs of a context's NAL ring. -/
def CtxRec.nalSpans (x : CtxRec) (ofs n : Nat) : List (Nat × Nat) :=
  let size := 2 ^ x.nalLog2
  let o := ofs % size
  ([(x.nalAddr + o, min n (size - o)), (x.nalAddr, n - (size - o))] : List (Nat × Nat)).filter (fun e => e.2 ≠ 0)
/-- NAL units of Annex B bytes whose header has forbidden_zero_bit set, a unit header standing behind each start code (R328). -/
def forbiddenUnits : List Byte → Nat
  | a :: b :: d :: h :: r => (if a = 0 ∧ b = 0 ∧ d = 1 ∧ h.getLsbD 7 then 1 else 0) + forbiddenUnits (b :: d :: h :: r)
  | _ => 0
/-- No input is left for the picture in progress: the stream's end has been fed, or the context closes, and all has been consumed
(R312, R329). -/
def Ctx.inputOver (x : Ctx) : Bool :=
  (if x.cfg.hostFed then decide (x.nalTotal = x.rd) else x.pendingNals.isEmpty) && ((x.cfg.hostFed && x.eos) || x.state == .closing)

/-- The input of a row is read and taken in: position, bytes, errors, parameter sets, a picture that begins, and the units decoded.  A
loss marker opens the loss window where it stands in decode order (R331).  Where the ring, the picture's slot or a reference of it fails
its bounds check, the picture is skipped (R311, R336). -/
def State.takeRow (s : State) (w c : Nat) (r : RowReads) : State :=
  let x := s.ctx c
  let t := takeNals r.consumed x.pendingNals
  let n := if x.cfg.hostFed then min r.consumed ((x.nalTotal + 2 ^ 32 - x.rd) % 2 ^ 32) else t.1
  let spans := x.cfg.nalSpans x.rd n
  let out := spans.find? (fun e => s.bound (s.ctxPart c) e.1 e.2 != .ok)
  let poison := out.isNone && spans.any (fun e => s.meetsPoison (.vault (w / 2)) e.1 e.2)
  let bytes := if out.isNone then spans.flatMap (fun e => s.readBytes e.1 e.2) else []
  let y := x.takeSets r.sets
  let noSet := match r.start with | some p => !y.1.sets.any (fun q => q.id == p.set) && !r.errors.contains .missingSet | none => false
  let errs := r.errors.length + t.2.1 + b2n poison + b2n noSet + forbiddenUnits bytes
  let y' := { y.1 with rd := (x.rd + n) % 2 ^ 32, pendingNals := if x.cfg.hostFed then x.pendingNals else x.pendingNals.drop r.consumed,
                       stream := x.stream ++ bytes, lossWindow := x.lossWindow || t.2.1 != 0, syntaxErrs := cap16 (x.syntaxErrs + errs) }
  let s := s.setCtx c y'
  let s := if y.2 then s.setCtxEvt c 1 else s
  let s := if poison then s.wheelErr w c 0 else s
  let s := match out with | some e => s.ctxRefused w c e.1 | none => s
  let first := t.2.2.getD (0, 0)
  let s := match r.start with | some p => s.startPicture w c p r.unit first.1 first.2 | none => s
  let z := s.ctx c
  if !z.picOpen then s
  else
    let lost := (z.picSlot :: z.usedRefs.map (·.slot)).find? (fun k => !s.slotOk c z.picSet k)
    let clash := match r.rows with | some u => out.isNone && z.badRow u | none => false
    let s := s.setCtx c { z with picErr := z.picErr || errs != 0 || clash, picFlags := z.picFlags ||| flagIf (t.2.1 != 0) 5,
                                 syntaxErrs := cap16 (z.syntaxErrs + b2n clash), picSkip := z.picSkip || out.isSome || lost.isSome }
    let s := match lost with | some k => s.ctxRefused w c (z.cfg.slotRow z.picSet.w z.picSet.h z.picSet.depth k 0 0) | none => s
    if clash || out.isSome || lost.isSome then s else
    match r.rows with
    | some u =>
      let s := s.storeUnits w c u
      s.setWheel w { s.wheel w with samples := (s.wheel w).samples + BitVec.ofNat 64 (((s.ctx c).unitLines 0 u.row).length * (s.ctx c).picSet.w) }
    | none => s

/-- Write output rows from `outRows` up to `due`, signalling each whole row group, the last after the info record. -/
def State.writePicture (s : State) (w c : Nat) (due : Nat) : State :=
  let x := s.ctx c
  let pic := s.picView x
  let b := (x.cfg.bufs[x.bufIndex]?.getD (0, 0))
  let rows := (List.range (due - x.outRows)).map (· + x.outRows)
  let r := rows.foldl (fun (acc : State × Bool) y =>
    (List.range x.cfg.planes).foldl (fun (acc : State × Bool) ch =>
      let o := picOutRow pic x.cfg ch y
      (acc.1.put (.vault (w / 2)) (b.1 + (ch * x.cfg.outH + y) * x.cfg.pitch) o.1, acc.2 || o.2)) acc) (s, false)
  let groups := due / x.cfg.g - x.outRows / x.cfg.g
  let s := r.1.setCtx c { x with outRows := due, picFlags := x.picFlags ||| flagIf r.2 4 }
  let last := x.cfg.rowGroups
  let n := if due < x.cfg.outH then groups else min groups (last - 1 - x.outRows / x.cfg.g)
  (List.range n).foldl (fun s _ => s.pushSignal { src := 8 + w / 2, tally := b.2, value := 1 }) s

/-- The info record of the picture in progress (R324). -/
def infoRecord (x : Ctx) : List Byte :=
  padTo 64 (toLE 4 x.pictures ++ toLE 4 x.picTs.toNat ++ toLE 8 x.picArrival ++ toLE 2 x.picFlags.toNat ++ toLE 2 x.concealedUnits ++
    toLE 2 x.skipped ++ toLE 2 x.picSet.winW ++ toLE 2 x.picSet.winH ++ toLE 1 x.picSet.depth)

/-- The picture in progress has ended (R324, R329, R331): a clean IRAP picture clears the taint, any other within the loss window is
TAINTED; the picture joins the decoded-picture buffer. -/
def State.endPicture (s : State) (w c : Nat) : State :=
  let x := s.ctx c
  let clean := x.picIrap && !x.picErr && x.picFlags &&& 0x27 == 0
  let flags := x.picFlags ||| flagIf (x.lossWindow && !clean) 3 ||| flagIf (clean && (x.tainted || x.lossWindow)) 6
  let damaged := flags &&& 0xF != 0
  let cur : DpbPic := { slot := x.picSlot, order := x.picOrder, w := x.picSet.w, h := x.picSet.h, depth := x.picSet.depth, damaged := damaged }
  let x := { x with pictures := (x.pictures + 1) % 2 ^ 32, concealed := if flags.getLsbD 0 then cap16 (x.concealed + 1) else x.concealed,
                    picFlags := flags, lossWindow := x.lossWindow && !clean, tainted := (x.tainted || damaged) && !clean,
                    picOpen := false, granted := false, dpb := x.dpb.filter (fun (d : DpbPic) => d.slot ≠ x.picSlot) ++ [cur], prev := some cur }
  if x.picSkip then s.setCtx c { x with skipped := cap16 (x.skipped + 1), picSkip := false }
  else
    let b := (x.cfg.bufs[x.bufIndex]?.getD (0, 0))
    let s := s.put (.vault (w / 2)) (x.cfg.infoAddr + x.bufIndex * 64) (infoRecord x)
    let s := s.setCtx c { x with bufIndex := (x.bufIndex + 1) % max 1 x.cfg.bufs.length, skipped := 0 }
    let s := s.pushSignal { src := 8 + w / 2, tally := b.2, value := 1 }
    if x.cfg.evt ∧ x.picFlags &&& 0x3F ≠ 0 then s.setCtxEvt c 2 else s

/-- The target buffer and info record of a context as wheel w finds them: writable, or the error it meets, 1 ADDRESS, 2 TARGET_LOST
(R44, R336). -/
def State.targetState (s : State) (w c : Nat) : Option Nat :=
  let x := s.ctx c
  let b := (x.cfg.bufs[x.bufIndex]?.getD (0, 0))
  let p := s.ctxPart c
  let info := x.cfg.infoAddr + x.bufIndex * 64
  if s.bound p b.1 x.cfg.bufBytes ≠ .ok ∨ s.bound p info 64 ≠ .ok then some 1
  else if s.meetsLost (8 + w / 2) b.1 x.cfg.bufBytes ∨ s.meetsLost (8 + w / 2) info 64 then some 2 else none

/-- What the picture in progress can give out now, and its end: none while its output waits for a buffer (R323).  A target that is
lost or refused skips the picture (R336). -/
def State.output (s : State) (w c : Nat) (ended : Bool) : Option State :=
  if !(s.ctx c).picOpen then some s
  else
    let s := if ended then s.conceal w c else s
    let x := s.ctx c
    let b := (x.cfg.bufs[x.bufIndex]?.getD (0, 0))
    let due := picRowsDue (s.picView x) x.cfg (x.finalRows ended)
    let work := !x.picSkip && (ended || decide (x.outRows < due))
    let asks := work && !x.granted
    let bad := if work then s.targetState w c else none
    let busy := asks && bad.isNone && s.tallySeen w b.2 != 0
    if busy ∧ !x.cfg.bufSkip then none
    else
      let s := s.setCtx c { x with granted := x.granted || asks, picSkip := x.picSkip || busy || bad.isSome }
      let s := match bad with
        | some k => if k = 1 then s.ctxRefused w c b.1 else (s.wheelErr w c 2).setCtxEvt c 8
        | none => s
      -- rows that the plan has not waited for are undefined: the buffer's bytes are free values until a row is written (R227)
      let s := if asks && bad.isNone && !busy then
          ({ s with free := s.free + 1 } : State).put (.vault (w / 2)) b.1 ((List.range x.cfg.bufBytes).map (Config.freeByte s.free))
        else s
      let s := if work && bad.isNone && !busy then s.writePicture w c due else s
      some (if ended then s.endPicture w c else s)

/-- The wheel's row for a decode context: a picture in progress ends before what follows it; the row is deferred while output waits
for a buffer (R323). -/
def State.decodeRow (s : State) (w c : Nat) (r : RowReads) : State :=
  let wait (s : State) : State := s.setCtx c { s.ctx c with outWaiting := true }
  let x := s.ctx c
  let s := s.setCtx c { x with cls := x.nextClass.getD x.cls, nextClass := none }
  let first := if x.picOpen ∧ (r.start.isSome ∨ !r.sets.isEmpty) then s.output w c true else some s
  match first with
  | none => wait s
  | some s =>
    if x.state = .closing ∧ !(s.ctx c).picOpen then s
    else match (s.takeRow w c r).output w c ((s.takeRow w c r).ctx c).inputOver with
    | none => wait s
    | some s => s

/-! ## Encoding rows (R332-R335) -/

/-- QP of the picture that begins (R333). -/
def Ctx.nextQp (x : Ctx) (idr : Bool) : Nat :=
  let lo := x.cfg.qpMin
  let hi := x.cfg.qpMax
  let cl (v : Int) : Nat := (max (lo : Int) (min v (hi : Int))).toNat
  let base : Int :=
    if !x.cfg.rcTarget || x.pictures = 0 then x.cfg.qpInit
    else if 9 * x.cfg.targetBits < 8 * x.picBits then cl (x.qp + 1)
    else if 8 * x.picBits < 7 * x.cfg.targetBits then cl ((x.qp : Int) - 1)
    else cl x.qp
  if idr then cl (base + x.cfg.iDelta) else cl base

/-- The first row of a picture decides, as it begins, whether it is an IDR (R333, R334). -/
def Ctx.beginEncode (x : Ctx) : Ctx :=
  if x.picOpen then x
  else
    let idr := x.pictures == 0 || x.keyReq || (x.cfg.idrPeriod != 0 && decide (x.cfg.idrPeriod ≤ x.sinceIdr))
    { x with picOpen := true, idr := idr, keyNow := x.keyReq, keyReq := false, qp := x.nextQp idr, picBits := 0, row := 0,
             encRows := [], sliceFrom := 0, sliceIndex := 0, sinceIdr := if idr then 1 else x.sinceIdr + 1 }

/-- Give the wheel to the next ready context; an encode context that has none begins a picture. -/
def State.turnWheel (s : State) (w : Nat) : State :=
  let u := s.wheel w
  match s.pickCtx w with
  | some c =>
    let x := s.ctx c
    (s.setCtx c (if x.cfg.encode then x.beginEncode else x)).setWheel w
      { u with ctx := c, active := true, encode := x.cfg.encode, turns := sset 0 u.turns x.cls (c + 1) }
  | none => s.setWheel w { u with active := false, encode := false }

/-- An exact quotient rounded to the nearest integer, ties to even. -/
def rneQ (n : Int) (d : Nat) : Int :=
  let q := n / (d : Int)
  let r := n % (d : Int)
  if 2 * r < d ∨ (2 * r = d ∧ q % 2 = 0) then q else q + 1
/-- BT.709 limited-range luma of an RGB pixel, and 10,000 times its luma in the 0-255 domain (R332). -/
def luma709 (r g b : Nat) : Nat × Int :=
  ((rneQ (16 * 2550000 + 219 * (2126 * r + 7152 * g + 722 * b : Nat)) 2550000).toNat, (2126 * r + 7152 * g + 722 * b : Nat))
/-- Chroma of four pixels from the sums of a colour (times 10,000) and of their luma: the RNE of the exact mean (R332). -/
def chroma709 (colour luma : Int) (k : Nat) : Nat :=
  (rneQ (128 * (4 * 255 * 2 * (10000 - k : Nat)) + 224 * (colour - luma)) (4 * 255 * 2 * (10000 - k))).toNat

/-- Samples of CTU row r of the input picture as Y, Cb and Cr rows (R332). -/
def State.encInput (s : State) (x : CtxRec) (buf r : Nat) : List Byte :=
  let lines := ((List.range 32).map (fun i => 32 * r + i)).filter (fun y => decide (y < x.outH))
  let half := ((List.range 16).map (fun i => 16 * r + i)).filter (fun y => decide (y < x.outH / 2))
  if x.layout = 3 then
    let cp := rowPitch 8 (x.outW / 2)
    lines.flatMap (fun y => s.readBytes (buf + y * x.pitch) x.outW) ++
      (List.range 2).flatMap (fun c => half.flatMap (fun y =>
        s.readBytes (buf + x.outH * x.pitch + (c * (x.outH / 2) + y) * cp) (x.outW / 2)))
  else
    let px (c y xx : Nat) : Nat := (s.readByte (buf + (c * x.outH + y) * x.pitch + xx)).toNat
    let quad (y xx : Nat) : List (Nat × Nat) := [(2 * y, 2 * xx), (2 * y, 2 * xx + 1), (2 * y + 1, 2 * xx), (2 * y + 1, 2 * xx + 1)]
    let lum (y xx : Nat) : Nat × Int := luma709 (px 0 y xx) (px 1 y xx) (px 2 y xx)
    let plane (c k : Nat) : List Byte := half.flatMap (fun y => (List.range (x.outW / 2)).map (fun xx =>
      let col : Int := ((quad y xx).map (fun e => (10000 * px c e.1 e.2 : Int))).sum
      let l : Int := ((quad y xx).map (fun e => (lum e.1 e.2).2)).sum
      BitVec.ofNat 8 (chroma709 col l k)))
    lines.flatMap (fun y => (List.range x.outW).map (fun xx => BitVec.ofNat 8 (lum y xx).1)) ++ plane 2 722 ++ plane 0 2126

/-- The NAL units that CTU row r gives, the last of its picture where it ends: parameter sets ahead of an IDR, and a slice when
SLICE_ROWS rows of it are there (R333). -/
def Ctx.nalsOf (x : Ctx) (ended : Bool) (ref : List Byte) : List EncNal :=
  let mk (bytes : List Byte) (last param : Bool) (ty slice : Nat) : EncNal :=
    { bytes := [0, 0, 0, 1] ++ bytes, picNum := (x.pictures + 1) % 2 ^ 32, idr := x.idr, last := last, param := param, keyReq := x.keyNow,
      nalType := ty, slice := slice }
  let sets := if x.idr ∧ x.encRows.length = 1 then
      (List.range 3).map (fun k => mk (Config.hevcParam k x.cfg.outW x.cfg.outH) false true (32 + k) 0) else []
  let full := ended || (x.cfg.sliceRows != 0 && x.encRows.length - x.sliceFrom == x.cfg.sliceRows)
  sets ++ (if full then
      [mk (Config.hevcSlice x.cfg.outW x.cfg.outH x.qp x.sliceIndex x.idr (x.encRows.drop x.sliceFrom).flatten ref) ended false
        (if x.idr then 19 else 1) x.sliceIndex] else [])

/-- The pieces of the input buffer that CTU row r is read from (R332). -/
def CtxRec.encSpans (x : CtxRec) (buf r : Nat) : List (Nat × Nat) :=
  let lines := ((List.range 32).map (fun i => 32 * r + i)).filter (fun y => decide (y < x.outH))
  if x.layout = 3 then
    let cp := rowPitch 8 (x.outW / 2)
    let half := ((List.range 16).map (fun i => 16 * r + i)).filter (fun y => decide (y < x.outH / 2))
    lines.map (fun y => (buf + y * x.pitch, x.outW)) ++
      (List.range 2).flatMap (fun c => half.map (fun y => (buf + x.outH * x.pitch + (c * (x.outH / 2) + y) * cp, x.outW / 2)))
  else (List.range 3).flatMap (fun c => lines.map (fun y => (buf + (c * x.outH + y) * x.pitch, x.outW)))
/-- The wheel's row for an encode context: its input rows are read, its NAL units queued; at the picture's end the reconstruction becomes
the reference, and the buffer is released (R332, R333, R335).  What is read as poison, of the input or of the reference, sets the error,
and the bytes are free (R183); an area that fails its bounds check skips the picture (R336). -/
def State.encodeRow (s : State) (w c : Nat) : State :=
  let x := (s.ctx c).beginEncode
  let b := (x.cfg.bufs[x.bufIndex]?.getD (0, 0))
  let lines := min 32 (x.cfg.outH - 32 * x.row)
  let ended := decide (x.cfg.outH ≤ 32 * (x.row + 1))
  let release (s : State) : State :=
    let y := s.ctx c
    let s := s.setCtx c { y with picOpen := false, row := 0, encRows := [], bufIndex := (y.bufIndex + 1) % max 1 y.cfg.bufs.length }
    (s.pushSignal { src := 8 + w / 2, tally := b.2, value := 0, reset := true }).pushSignal { src := 8 + w / 2, tally := x.cfg.doneTally, value := 1 }
  let n := min (picBytes x.cfg.outW x.cfg.outH 8) x.cfg.dpbBytes
  if s.bound (s.ctxPart c) b.1 x.cfg.bufBytes ≠ .ok then release ((s.setCtx c x).ctxRefused w c b.1)
  else if s.bound (s.ctxPart c) x.cfg.dpbAddr n ≠ .ok then release ((s.setCtx c x).ctxRefused w c x.cfg.dpbAddr)
  else
    let poison := (x.cfg.encSpans b.1 x.row).any (fun e => s.meetsPoison (.vault (w / 2)) e.1 e.2)
    let refPoison := !x.idr && s.meetsPoison (.vault (w / 2)) x.cfg.dpbAddr n
    let ref := if x.idr then [] else if refPoison then (List.range n).map (Config.freeByte (s.free + 1)) else s.readBytes x.cfg.dpbAddr n
    let input := if poison then (List.range (x.cfg.outW * lines * 3 / 2)).map (Config.freeByte s.free) else s.encInput x.cfg b.1 x.row
    let y := { x with row := x.row + 1, encRows := x.encRows ++ [input], cls := x.nextClass.getD x.cls, nextClass := none }
    let nals := y.nalsOf ended ref
    let y := { y with picBits := y.picBits + (nals.map (fun n => 8 * n.bytes.length)).sum, encNals := y.encNals ++ nals,
                      sliceFrom := if nals.any (fun n => !n.param) then y.encRows.length else y.sliceFrom,
                      sliceIndex := if nals.any (fun n => !n.param) then y.sliceIndex + 1 else y.sliceIndex }
    let s := if poison || refPoison then ({ s with free := s.free + 2 } : State).wheelErr w c 0 else s
    let s := s.setWheel w { s.wheel w with samples := (s.wheel w).samples + BitVec.ofNat 64 (x.cfg.outW * lines) }
    if nals.any (fun n => decide (2 ^ x.cfg.bsLog2 < n.bytes.length)) then
      (s.setCtx c { y with state := .closing, closeMode := 1, encNals := x.encNals, picOpen := false }).setCtxEvt c 8
    else if ended then
      let recon := (Config.hevcRecon y.cfg.outW y.cfg.outH y.qp y.idr y.encRows.flatten ref).take n
      let s := (s.setCtx c { y with pictures := (y.pictures + 1) % 2 ^ 32 }).ctxStore (.vault (w / 2)) w c y.cfg.dpbAddr recon
      release s.1
    else s.setCtx c y

/-- A wheel works: its vault is ready and no fence holds it (R451). -/
def State.wheelUp (s : State) (w : Nat) : Bool := decide (w < 4) && s.dieReady (8 + w / 2) && !s.faults.fenceWheels.getLsbD w && s.dramOpen

/-- A row boundary of wheel w: the running context's row is taken in, and the wheel turns to the next ready context. -/
def State.rowBoundary (s : State) (w : Nat) (r : RowReads) : State :=
  if !s.wheelUp w then s
  else
    let u := s.wheel w
    let s := if u.active then
        let x := s.ctx u.ctx
        if x.state = .closed then s
        else if x.cfg.encode then s.encodeRow w u.ctx else s.decodeRow w u.ctx r
      else s
    s.turnWheel w

end Sys2Proof.Machine
end

