-- ==== Sys2Proof/Machine/Wheels.lean ====
section
/-! DEFINITION.  Stream commands and what happens at the wheels and the ingest engine (chapter 10): one meaning per row. -/
namespace Sys2Proof.Machine
open Sys2Proof

/-- A command that names a context: reserved bits from byte b on, a field refused by its value, the context's owner, then the
rest by the command. -/
def ctxCommand (q op b : Nat) (early : Forwarded → Nat) (s : State) (k : Forwarded → Nat → Nat → State → State) : State :=
  onForwarded q op s (fun f s =>
    let p := s.funcPart f.fn
    let c := f.fld 16 2
    if bodyReserved f b then s.answer f 0x02 0 0
    else if early f ≠ 0 then s.answer f (early f) 0 0
    else if 8 ≤ p ∨ s.ctxPart c ≠ p then s.answer f 0x30 0 0
    else k f p c s)

/-- STREAM_OPEN (R310, R311): refused with the lowest code, a fenced wheel with WHEEL (R451), or the context opens in WAIT_IRAP (an encode one RUNNING). -/
def execStreamOpen (q : Nat) (s : State) : Host.Outcome State Fault Refusal :=
  .next (onForwarded q 0x30 s (fun f s =>
    let p := s.funcPart f.fn
    let c := f.fld 16 2
    let a := f.fld 18 6
    let b := s.readBytes a 256
    let x := ctxRecOf b
    let cfgBad := a % 64 != 0 || !s.inDram p a 256
    let mask := match s.part? p with | some r => r.wheels.getLsbD x.wheel | none => false
    let same := s.wheels.ctxs.any (fun e => e.1 != c && e.2.state != .closed && e.2.cfg.rtp && e.2.cfg.classifier == x.classifier)
    let code := lowest [(bodyReserved f 24, 0x02), (cfgBad || recordBad b x || (s.confidential p && x.hostFed), 0x22),
      (p < 8 && s.ctxPart c == p && (s.ctx c).state != .closed, 0x23), (decide (8 ≤ p) || s.ctxPart c != p, 0x30),
      (decide (x.wheel < 4) && (!mask || s.faults.fenceWheels.getLsbD x.wheel), 0x31), (!cfgBad && targetBad s p x, 0x32), (x.rtp && same, 0x33)]
    if code ≠ 0 then s.answer f code 0 0
    else (s.setCtx c { state := if x.encode then .running else .waitIrap, cfg := x, cls := x.cls, evtBits := (s.ctx c).evtBits }).answer f 0 0 0))

/-- STREAM_CLOSE (R312): classification stops at once; the command completes when the context is CLOSED. -/
def execStreamClose (q : Nat) (s : State) : Host.Outcome State Fault Refusal :=
  .next (ctxCommand q 0x31 19 (fun f => if 1 < f.fld 18 1 then 0x22 else 0) s (fun f _ c s =>
    let x := s.ctx c
    let m := f.fld 18 1
    if x.state = .closed then s.answer f 0x23 0 0
    else s.setCtx c { x with state := .closing, closeMode := if x.state = .closing then max x.closeMode m else m,
                             closeSrc := x.closeSrc ++ [(f.fn, f.sq, f.cid)], packets := [], fu := none }))

/-- A closing context reaches CLOSED (R312, R336): mode 0 once its picture has ended, mode 1 once the wheel has left it. -/
def execStreamClosed (c : Nat) (s : State) : Host.Outcome State Fault Refusal :=
  let x := s.ctx c
  let u := s.wheel x.cfg.wheel
  let runs := u.active && u.ctx == c
  if x.state = .closing ∧ !runs ∧ (x.closeMode = 1 ∨ !x.picOpen) ∧ !(x.closeMode == 0 && x.nalDue) then
    let s := s.setCtx c { x with state := .closed, closeSrc := [], pendingNals := [], encNals := [], outWaiting := false, picOpen := false }
    .next (x.closeSrc.foldl (fun s k => s.due { fn := k.1, cid := k.2.2, sq := k.2.1, cq := (s.sq k.2.1).bind }) s)
  else .next s

/-- STREAM_FEED (R309, R310, R319); a read index of an encode context that goes back, or beyond what has been written, is out of range
(R3, R310; DEDUCED, log entry 34). -/
def execStreamFeed (q : Nat) (s : State) : Host.Outcome State Fault Refusal :=
  .next (ctxCommand q 0x32 27 (fun f => if 1 < f.fld 26 1 then 0x02 else 0) s (fun f _ c s =>
    let x := s.ctx c
    let v0 := f.fld 18 4
    let v1 := f.fld 22 4
    let e := f.fld 26 1
    let ahead := (v0 + 2 ^ 32 - x.rd) % 2 ^ 32
    let old := (x.nalTotal + 2 ^ 32 - x.rd) % 2 ^ 32
    let hostFed := !x.cfg.encode && x.cfg.hostFed
    let past (v rd wr : Nat) : Bool := decide ((wr + 2 ^ 32 - rd) % 2 ^ 32 < (v + 2 ^ 32 - rd) % 2 ^ 32)
    let code := lowest [(hostFed && x.state != .closed && (decide (2 ^ x.cfg.nalLog2 < ahead) || decide (ahead < old)), 0x22),
      (x.cfg.encode && x.state != .closed && (past v0 x.bsRd x.bsWr || past v1 x.descRd x.descWr), 0x22),
      (x.state == .closed || (!x.cfg.encode && !x.cfg.hostFed), 0x23)]
    if code ≠ 0 then s.answer f code 0 0
    else if x.cfg.encode then (s.setCtx c { x with bsRd := v0, descRd := v1 }).answer f 0 0 0
    else (s.setCtx c { x with nalTotal := v0, eos := x.eos || e == 1 }).answer f 0 0 0))

/-- STREAM_KEY (R334). -/
def execStreamKey (q : Nat) (s : State) : Host.Outcome State Fault Refusal :=
  .next (ctxCommand q 0x33 18 (fun _ => 0) s (fun f _ c s =>
    let x := s.ctx c
    if x.state = .closed ∨ !x.cfg.encode then s.answer f 0x23 0 0 else (s.setCtx c { x with keyReq := true }).answer f 0 0 0))

/-- STREAM_CLASS (R309): from the context's next row boundary. -/
def execStreamClass (q : Nat) (s : State) : Host.Outcome State Fault Refusal :=
  .next (ctxCommand q 0x34 19 (fun f => if 4 ≤ f.fld 18 1 then 0x02 else if f.fld 18 1 = 3 then 0x22 else 0) s (fun f _ c s =>
    let x := s.ctx c
    let v := f.fld 18 1
    if x.state = .closed then s.answer f 0x23 0 0 else (s.setCtx c { x with nextClass := some v }).answer f 0 0 0))

/-- A packet goes into the jitter buffer, which makes room at once when it is full (R317); one whose sequence number has meanwhile been
declared lost is late. -/
def State.jitStore (s : State) (c n : Nat) (h : Parsed) (now : Nat) : State :=
  let s := s.makeRoom c h.payload.length now ((s.ctx c).packets.length + 1)
  let x := s.ctx c
  match x.jitPlace h.payload.length with
  | some o =>
    if n < x.nextSeq.getD n then s.setCtx c { x with dropped := cap16 (x.dropped + 1) }
    else
      let r := s.ctxStore (.vault 1) x.cfg.wheel c (x.cfg.jitAddr + o) h.payload
      if r.2 then r.1
      else r.1.setCtx c { r.1.ctx c with packets := insPacket { seq := n, ts := h.ts, ofs := o, len := h.payload.length } (r.1.ctx c).packets }
  | none => s.setCtx c { x with dropped := cap16 (x.dropped + 1) }

/-- A frame arrives at a stream port (R315-R317, R383). -/
def execFrameReceive (f : EthFrame) (s : State) : Host.Outcome State Fault Refusal :=
  if 4 ≤ f.port ∨ !s.dieReady 9 then .next s
  else
    let bad := !f.fecOk || !f.fcsOk
    let e := sget {} s.host.eth f.port
    let e := { e with corrected := satAdd (2 ^ 32 - 1) e.corrected f.corrected, dropped := if bad then satAdd (2 ^ 32 - 1) e.dropped 1 else e.dropped }
    let s := { s with host := { s.host with eth := sset {} s.host.eth f.port e } }
    let s := if f.fecOk then s else s.raise { source := 303 }
    if bad then .next s
    else
      let s := match s.neighbourReply f.port f.bytes with
        | some r => if e.link then { s with host := { s.host with ethOut := s.host.ethOut ++ [(f.port, r)] } } else s
        | none => s
      let h := parseFrame f.bytes
      match s.classify f.port h with
      | none => .next { s with wheels := { s.wheels with unmatched := satAdd (2 ^ 32 - 1) s.wheels.unmatched 1 } }
      | some c =>
        let x := s.ctx c
        let drop : State := s.setCtx c { x with dropped := cap16 (x.dropped + 1) }
        if frameBad x.cfg h then .next drop
        else
          let n := extSeq x.nextSeq h.seq
          let next := x.nextSeq.getD n
          if n < next ∨ x.packets.any (fun p => p.seq = n) then .next drop
          else .next ((s.setCtx c { x with nextSeq := some next }).jitStore c n h f.now)

/-- A gap is declared lost after JIT_US (R317). -/
def execJitterGapLost (c : Nat) (s : State) : Host.Outcome State Fault Refusal :=
  if (s.ctx c).state = .waitIrap ∨ (s.ctx c).state = .running then .next (s.loseGap c) else .next s

/-- The next packet in order is released; its NAL units go to the NAL ring (R317, R318). -/
def execNalRelease (c arrival : Nat) (s : State) : Host.Outcome State Fault Refusal :=
  let x := s.ctx c
  if (x.state = .waitIrap ∨ x.state = .running) ∧ s.dramOpen then .next (s.releaseHead c arrival) else .next s

/-- A row boundary of a wheel (R326). -/
def execWheelRowBoundary (w : Nat) (r : RowReads) (s : State) : Host.Outcome State Fault Refusal := .next (s.rowBoundary w r)

/-- A waiting context reads its fill tally again (R323). -/
def execBufferTallyPoll (c : Nat) (s : State) : Host.Outcome State Fault Refusal :=
  let x := s.ctx c
  if x.outWaiting ∧ s.tallySeen x.cfg.wheel ((x.cfg.bufs[x.bufIndex]?.getD (0, 0)).2) = 0 then .next (s.setCtx c { x with outWaiting := false })
  else .next s

/-- An encoded NAL unit goes to the bitstream ring with its descriptor, once both have room (R335); where either cannot be written the
error is set and the picture's units are dropped (R336). -/
def execEncodeNalPost (c : Nat) (s : State) : Host.Outcome State Fault Refusal :=
  let x := s.ctx c
  match x.encNals with
  | [] => .next s
  | n :: rest =>
    let used := (x.bsWr + 2 ^ 32 - x.bsRd) % 2 ^ 32
    let dused := (x.descWr + 2 ^ 32 - x.descRd) % 2 ^ 32
    if !s.dramOpen ∨ !x.nalDue ∨ 2 ^ x.cfg.bsLog2 < used + n.bytes.length ∨ 2 ^ x.cfg.descLog2 ≤ dused then .next s
    else
      let w := x.cfg.wheel
      let g : Agent := .vault (w / 2)
      let phase := if x.descWr / 2 ^ x.cfg.descLog2 % 2 = 0 then 1 else 0
      let d := toLE 4 x.bsWr ++ toLE 4 n.bytes.length ++ toLE 4 n.picNum ++
        toLE 1 (phase + 2 * b2n n.idr + 4 * b2n n.last + 8 * b2n n.param + 16 * b2n n.keyReq) ++ toLE 1 n.nalType ++ toLE 2 n.slice
      let r := s.putRing g w c x.cfg.bsAddr x.cfg.bsLog2 x.bsWr n.bytes
      let q := if r.2 then r else r.1.ctxStore g w c (x.cfg.descAddr + x.descWr % 2 ^ x.cfg.descLog2 * 16) d
      let s := q.1
      let y := s.ctx c
      if q.2 then .next ((s.setCtx c { y with encNals := rest.filter (fun m => m.picNum ≠ n.picNum) }).setCtxEvt c 8)
      else
        let s := s.setCtx c { y with encNals := rest, bsWr := (x.bsWr + n.bytes.length) % 2 ^ 32, descWr := (x.descWr + 1) % 2 ^ 32 }
        .next (if x.cfg.evt then s.setCtxEvt c 16 else s)

end Sys2Proof.Machine
end

