-- ==== Sys2Proof/Machine/Structure.lean ====
section
/-! DEFINITION.  The structure that a mould sets (R49-R63, R68, R70): images and their check in the order of R53, what an amendment
moves, and what bars it. -/
namespace Sys2Proof.Machine
open Sys2Proof

/-! ## Images (R50-R63) -/

/-- Body length of a record TYPE (R54). -/
def recordLen (ty : Nat) : Option Nat :=
  match ty with
  | 0x01 => some 8 | 0x02 => some 16 | 0x03 => some 16 | 0x04 => some 256 | 0x05 => some 8
  | 0x06 => some 96 | 0x07 => some 72 | 0x0F => some 136 | _ => none

/-- DRAM[0-7] of a PARTITION record. -/
def dramRanges (b : List Byte) : List URange :=
  (List.range 8).map (fun i => { first := lfld b (32 + 8 * i) 2, count := lfld b (34 + 8 * i) 2 })
/-- The PARTITION record of R60. -/
def partRecOf (b : List Byte) : PartRec :=
  let span (o : Nat) : URange := { first := lfld b o 2, count := lfld b (o + 2) 2 }
  { tiles := BitVec.ofNat 32 (lfld b 0 4), func := lfld b 4 1, confidential := bit (lfld b 5 1) 0, wheels := BitVec.ofNat 4 (lfld b 6 1),
    dram := (dramRanges b).take (lfld b 7 1), dramRest := (dramRanges b).drop (lfld b 7 1), dramOver := decide (8 < lfld b 7 1), sq := span 8, cq := span 12, req := span 16, tally := span 20, ctx := span 24, bwMin := lfld b 28 2 }
/-- The WINDOW record of R62. -/
def winRecOf (b : List Byte) : WinRec :=
  { bar4Log2 := lfld b 0 1, hosts := (List.range 4).map (fun i => { first := lfld b (8 + 16 * i) 8, count := lfld b (16 + 16 * i) 8 }) }

/-- A record body put into an image; none where a reserved byte or bit is set (R50). -/
def addRecord (ty inst : Nat) (b : List Byte) (x : Image) : Option Image :=
  let at_ (i : Nat) : Nat := lfld b i 1
  match ty with
  | 0x01 =>
    if lzero b 5 3 then some { x with device := some { envelope := at_ 0, cooling := at_ 1, clkOpt := at_ 2, ecc := at_ 3, debug := at_ 4 } } else none
  | 0x02 =>
    if lzero b 15 1 && (List.range 7).all (fun i => at_ (8 + i) < 16) then some { x with laneRoles := some ((List.range 15).map at_) } else none
  | 0x03 => some { x with guardModes := some ((List.range 64).map (fun g => bits (at_ (g / 4)) (2 * (g % 4)) 2)) }
  | 0x04 => some { x with reactions := some ((List.range 512).map (fun s => bits (at_ (s / 2)) (4 * (s % 2)) 4)) }
  | 0x05 =>
    if lzero b 6 2 then some { x with pins := some { fltNWidth := at_ 0, tachPpr := at_ 1, tachMin := lfld b 2 2, coolOkUse := at_ 4, brakeUse := at_ 5 } } else none
  | 0x06 =>
    if at_ 5 < 2 && at_ 6 < 16 && lzero b 30 2 && (List.range 8).all (fun i => lzero b (36 + 8 * i) 4)
    then some { x with parts := x.parts ++ [(inst, partRecOf b)] } else none
  | 0x07 => if lzero b 1 7 then some { x with wins := x.wins ++ [(inst, winRecOf b)] } else none
  | 0x0F => some { x with signer := some (lfld b 0 8) }
  | _ => none

/-- Records in ascending TYPE and INSTANCE order, `count` of them, filling the bytes exactly (R52, R54).  An INSTANCE outside its
column of R54 gets FORMAT, for which the spec gives no code (DESIGN CHOICE, log entry 46). -/
def addRecords (count : Nat) (b : List Byte) (last : Nat) (x : Image) : Option Image :=
  match count with
  | 0 => if b.isEmpty then some x else none
  | n + 1 =>
    let ty := lfld b 0 2
    let len := lfld b 2 2
    let inst := lfld b 4 1
    let key := 256 * ty + inst + 1
    if recordLen ty ≠ some len ∨ b.length < 8 + len ∨ !lzero b 5 3 ∨ key ≤ last ∨ 8 ≤ inst ∨ (inst ≠ 0 ∧ ty ≠ 6 ∧ ty ≠ 7) then none
    else match addRecord ty inst ((b.drop 8).take len) x with
    | some y => addRecords n (b.drop (8 + len)) key y
    | none => none

/-- A full mould holds its required records (R54). -/
def Image.whole (x : Image) : Bool :=
  x.device.isSome && x.laneRoles.isSome && x.guardModes.isSome && x.reactions.isSome && x.pins.isSome && x.signer.isSome && !x.parts.isEmpty
/-- Step 1 of R53: the form of an image; none fails with FORMAT. -/
def parseImage (b : List Byte) : Option Image :=
  let n := b.length
  let kind := lfld b 6 1
  let scope := lfld b 7 1
  let count := lfld b 20 2
  if n < 160 ∨ 65536 < n ∨ lfld b 0 4 ≠ 0x444C4F4D ∨ lfld b 4 2 ≠ 1 ∨ 2 ≤ kind ∨ 2 ≤ scope ∨ lfld b 16 4 ≠ n ∨ count = 0 ∨ 512 < count ∨
     2 ≤ lfld b 22 2 ∨ !lzero b 56 8 ∨ (kind = 0 ∧ lfld b 12 4 ≠ 0) ∨ (scope = 0 ∧ !lzero b 24 32) then none
  else
    let x : Image := { kind := kind, scope := scope, serial := lfld b 8 4, baseSerial := lfld b 12 4, rollbackOk := bit (lfld b 22 2) 0,
                       boundId := BitVec.ofNat 256 (lfld b 24 32), digest := BitVec.ofNat 256 (lfld b (n - 96) 32) }
    match addRecords count ((b.drop 64).take (n - 160)) 0 x with
    | some y => if kind = 0 ∧ !y.whole then none else some y
    | none => none

/-! ## Structures (R55-R62, R68, step 6 of R53) -/

def URange.meets (a b : URange) : Bool :=
  decide (0 < a.count) && decide (0 < b.count) && decide (a.first < b.first + b.count) && decide (b.first < a.first + a.count)
/-- Two partitions share a resource (R61). -/
def PartRec.clash (a b : PartRec) : Bool :=
  (a.tiles &&& b.tiles) != 0 || (a.wheels &&& b.wheels) != 0 || a.func == b.func || a.sq.meets b.sq || a.cq.meets b.cq || a.req.meets b.req ||
    a.tally.meets b.tally || a.ctx.meets b.ctx || a.dram.any (fun x => b.dram.any x.meets)
/-- Some pair of a list clashes. -/
def anyClash : List (Nat × PartRec) → Bool
  | [] => false
  | e :: r => r.any (fun f => e.2.clash f.2) || anyClash r
/-- A unit range leaves 0 to limit - 1. -/
def URange.bad (r : URange) (limit : Nat) : Bool := decide (limit ≤ r.first) || decide (limit < r.first + r.count)
/-- Codes of R60-R62 that a set of PARTITION and WINDOW records earns; a DRAM_COUNT above 8 is out of its range. -/
def setCodes (parts : List (Nat × PartRec)) (wins : List (Nat × WinRec)) (ecc : Bool) : List Nat :=
  let units := if ecc then 11904 else 12288
  let bad (r : PartRec) : Bool :=
    decide (8 < r.func) || r.sq.bad 1024 || r.cq.bad 1024 || r.req.bad 1024 || r.tally.bad 256 || r.ctx.bad 256 ||
      r.dram.any (fun d => decide (0 < d.count) && decide (units < d.first + d.count)) || r.dramOver ||
      (r.tiles == 0 && r.wheels == 0) || r.sq.count == 0 || r.cq.count == 0
  let badWin (e : Nat × WinRec) : Bool :=
    parts.all (fun q => q.1 != e.1) || decide (e.2.bar4Log2 < 20) || decide (40 < e.2.bar4Log2) ||
      e.2.hosts.any (fun h => h.first % 4096 != 0 || h.count % 4096 != 0)
  (if anyClash parts then [0x07] else []) ++
    (if parts.any (fun e => bad e.2) || wins.any badWin || decide (96 < (parts.map (fun e => e.2.bwMin)).sum) then [0x08] else [])
/-- Strength order of the reaction codes (R427): INT, PIN, NMI, BLK_RST, CHIP_RST. -/
def strength (c : Nat) : Nat :=
  match c with
  | 0 => 0 | 4 => 1 | 1 => 2 | 2 => 3 | 3 => 4 | _ => 0
/-- Codes of the records that only a full mould holds (R55-R59).  COOL_OK_USE = 0 with COOLING = 1 is refused, with RANGE, for which
the spec gives no code (DESIGN CHOICE, log entry 46). -/
def fixedCodes (x : Image) : List Nat :=
  let d := x.device.getD {}
  let p := x.pins.getD {}
  let range := decide (2 < d.envelope) || decide (1 < d.cooling) || decide (2 < d.clkOpt) || decide (1 < d.ecc) || decide (1 < d.debug) ||
    (x.guardModes.getD []).any (fun m => m == 0 || m == 3) || (x.reactions.getD []).any (fun r => decide (4 < r)) ||
    p.fltNWidth == 0 || decide (100 < p.fltNWidth) || p.tachPpr == 0 || decide (4 < p.tachPpr) || p.tachMin == 0 ||
    decide (1 < p.coolOkUse) || decide (1 < p.brakeUse) || (p.coolOkUse == 0 && d.cooling == 1)
  let role (e : Nat × Nat) : Bool :=
    let whole := if e.2 < 8 then 255 else 15
    e.1 == 0 || e.1 == whole
  let weak (e : Nat × Nat) : Bool := decide (e.1 ≤ 4) && decide (strength e.1 < strength (factoryReaction e.2))
  (if range then [0x08] else []) ++ (if (x.laneRoles.getD []).zipIdx.any role then [0x09] else []) ++
    (if d.envelope == 2 && d.cooling == 0 then [0x0A] else []) ++ (if (x.reactions.getD []).zipIdx.any weak then [0x0B] else [])
/-- The lowest code of a list, 0 for none. -/
def leastCode (l : List Nat) : Nat := (l.min?).getD 0

/-- Records of an amendment over those in force (R68). -/
def overlay {α : Type} (old new : List (Nat × α)) : List (Nat × α) := new.foldl (fun m e => sins m e.1 e.2) old
/-- Codes of an amendment over a structure (R68). -/
def amendCodes (x : Image) (parts : List (Nat × PartRec)) (wins : List (Nat × WinRec)) (ecc : Bool) (totalVfs : Nat) : List Nat :=
  let funcBad (e : Nat × PartRec) : Bool := match parts.find? (fun q => q.1 = e.1) with
    | some o => o.2.func != e.2.func
    | none => decide (totalVfs < e.2.func)
  let foreign := x.device.isSome || x.laneRoles.isSome || x.guardModes.isSome || x.reactions.isSome || x.pins.isSome
  setCodes (overlay parts x.parts) (overlay wins x.wins) ecc ++ (if x.parts.any funcBad then [0x08] else []) ++ (if foreign then [0x0C] else [])

/-! ## Identity and scope (R51, R486) -/

/-- The identity public key, 64 bytes, and BOUND_ID, its SM3 digest (R486). -/
def State.idKeyBytes (s : State) : List Byte := toLE 64 s.sec.idKey.toNat
def State.boundId (s : State) : BitVec 256 := sm3 s.idKeyBytes
/-- Step 4 of R53: an image of SCOPE 1 names this module. -/
def State.scopeOk (s : State) (x : Image) : Bool := x.scope != 1 || x.boundId == s.boundId

/-! ## The check of an image (R53) -/

/-- Steps 2 to 5 of R53 for an image offered; 0 where they pass. -/
def State.offerCode (s : State) (x : Image) (v : Verdict) (amend : Bool) : Nat :=
  if !v.digestOk then 0x02
  else if !v.sigOk then 0x03
  else if !s.scopeOk x then 0x04
  else if decide (x.serial ≤ s.ledger.highestSerial) && !x.rollbackOk then 0x05
  else if amend && x.baseSerial != s.mould.serial then 0x06 else 0
/-- Step 6 of R53: the lowest code that the resulting structure earns, 0 where it earns none. -/
def State.structureCode (s : State) (x : Image) (amend : Bool) : Nat :=
  if amend then leastCode (amendCodes x s.mould.parts s.mould.wins (s.mould.device.ecc == 1) s.mould.totalVfs)
  else leastCode (fixedCodes x ++ setCodes x.parts x.wins ((x.device.getD {}).ecc == 1))
/-- Steps 2 to 6 of R53. -/
def State.imageCode (s : State) (x : Image) (v : Verdict) (amend : Bool) : Nat :=
  if s.offerCode x v amend ≠ 0 then s.offerCode x v amend else s.structureCode x amend
/-- R53 on the bytes of an image that a command names; memory that meets poison gives no digest.  Of the operand only the signatures'
verdict is read: the digest follows from the bytes. -/
def State.checkImage (s : State) (b : List Byte) (poison : Bool) (v : Verdict) (amend : Bool) : Except Nat Image :=
  match parseImage b with
  | none => .error 0x01
  | some x =>
    if !amend && x.kind != 0 then .error 0x01
    else
      let d := s.imageCode x { v with digestOk := trailerHolds b && !poison } amend
      if d ≠ 0 then .error d else .ok x

/-! ## What an amendment moves (R70, R71) -/

def lostUnit (o n : URange) (k : Nat) : Bool := o.has k && !n.has k
def dramLost (o n : PartRec) (u : Nat) : Bool := o.dram.any (·.has u) && !n.dram.any (·.has u)
/-- Units of a record's DRAM, in record order. -/
def dramUnits (r : PartRec) : List Nat := r.dram.flatMap (fun d => (List.range d.count).map (d.first + ·))
/-- Runs of adjacent units. -/
def unitRuns : List Nat → List URange
  | [] => []
  | u :: r => match unitRuns r with
    | x :: xs => if x.first = u + 1 then { first := u, count := x.count + 1 } :: xs else { first := u, count := 1 } :: x :: xs
    | [] => [{ first := u, count := 1 }]
def URange.meet (a b : URange) : URange :=
  let lo := max a.first b.first
  let hi := min (a.first + a.count) (b.first + b.count)
  if lo < hi then { first := lo, count := hi - lo } else {}
/-- The record gives a resource up. -/
def PartRec.loses (o n : PartRec) : Bool :=
  let out (a b : URange) : Bool := decide (0 < a.count) && (a.meet b).count != a.count
  (o.tiles &&& ~~~ n.tiles) != 0 || (o.wheels &&& ~~~ n.wheels) != 0 || (dramUnits o).any (fun u => !n.dram.any (·.has u)) ||
    out o.sq n.sq || out o.cq n.cq || out o.req n.req || out o.tally n.tally || out o.ctx n.ctx
/-- A record once its released resources have left it (R71 step 3). -/
def PartRec.fenced (o n : PartRec) : PartRec :=
  if !o.loses n then o
  else
    { o with
      tiles := o.tiles &&& n.tiles, wheels := o.wheels &&& n.wheels, dram := unitRuns ((dramUnits o).filter (fun u => n.dram.any (·.has u)))
      sq := o.sq.meet n.sq, cq := o.cq.meet n.cq, req := o.req.meet n.req, tally := o.tally.meet n.tally, ctx := o.ctx.meet n.ctx }
/-- Host-window ranges of a record that another one covers. -/
def WinRec.covers (w : WinRec) (r : URange) : Bool := w.hosts.any (fun x => decide (x.first ≤ r.first) && decide (r.first + r.count ≤ x.first + x.count))
/-- A WINDOW record gives up part of a host-window range. -/
def WinRec.loses (o n : WinRec) : Bool := o.hosts.any (fun r => decide (0 < r.count) && !n.covers r)
/-- A WINDOW record once what it releases has left it (R44, R71 step 3). -/
def WinRec.fenced (o n : WinRec) : WinRec :=
  if !o.loses n then o
  else
    { o with hosts := (o.hosts.flatMap (fun r => n.hosts.map r.meet)).filter (fun r => decide (0 < r.count)) }
/-- PARTITION and WINDOW records once the amendment is granted (R68). -/
def State.amended (s : State) (x : Image) (p : Nat) : PartRec × WinRec :=
  (match x.parts.find? (fun q => q.1 = p) with | some e => e.2 | none => (s.part? p).getD {},
   match x.wins.find? (fun q => q.1 = p) with | some e => e.2 | none => s.win p)
/-- Partition p loses or gains a resource by an amendment (R71). -/
def State.losing (s : State) (x : Image) (p : Nat) : Bool :=
  match s.part? p with
  | some o => o.loses (s.amended x p).1 || (s.win p).loses (s.amended x p).2
  | none => false
def State.gaining (s : State) (x : Image) (p : Nat) : Bool :=
  match s.part? p with
  | some o => (s.amended x p).1.loses o || (s.amended x p).2.loses (s.win p)
  | none => x.parts.any (fun e => e.1 == p)
/-- Steps and chunks in flight in the partitions of a test: partition and tag. -/
def State.runsOf (s : State) (which : Nat → Bool) : List (Nat × Nat) :=
  s.teller.wares.flatMap (fun e => if which e.2.part then e.2.runs.map (fun r => (e.2.part, r.2.tag)) else [])
/-- Of a list of runs, those still in flight in partition p's wares. -/
def State.inFlight (s : State) (runs : List (Nat × Nat)) : List (Nat × Nat) :=
  let now := s.runsOf (fun _ => true)
  runs.filter now.contains
/-- Step 2 of R71 begins: each losing partition runs to the end of what it has in flight. -/
def State.beginDrain (s : State) (a : Amend) : State :=
  { s with mould := { s.mould with amend := some { a with step := .drain, waits := s.runsOf (s.losing a.image) } } }
/-- BAR4 offset of a unit, in units. -/
def bar4Unit (r : PartRec) (u : Nat) : Option Nat := (dramUnits r).idxOf? u
/-- A range of addresses meets a test on 64 MiB units. -/
def unitsMeet (f : Nat → Bool) (a n : Nat) : Bool :=
  decide (0 < n) && decide (a < 0xC000000000) && (List.range ((a + n - 1) / 0x4000000 - a / 0x4000000 + 1)).any (fun i => f (a / 0x4000000 + i))
/-- Memory that an open stream context uses. -/
def CtxRec.spans (x : CtxRec) : List (Nat × Nat) :=
  x.bufs.map (fun b => (b.1, x.bufBytes)) ++ [(x.dpbAddr, x.dpbBytes)] ++
    (if x.encode then [(x.bsAddr, 2 ^ x.bsLog2), (x.descAddr, 16 * 2 ^ x.descLog2)]
     else [(x.infoAddr, 64 * x.bufs.length), (x.nalAddr, 2 ^ x.nalLog2), (x.jitAddr, x.jitBytes)])

/-- Entries of a queue (R373). -/
def HostQueue.size (x : HostQueue) : Nat := 2 ^ x.log2
/-- A losing partition still uses what it would release (R70). -/
def State.inUse (s : State) (p : Nat) (o n : PartRec) (ow nw : WinRec) : Bool :=
  let wares := s.teller.wares.filter (fun e => e.2.part == p)
  let tile (t : Nat) : Bool := o.tiles.getLsbD t && !n.tiles.getLsbD t
  let store (a : Nat) : Bool := decide (0xD000000000 ≤ a) && tile ((a - 0xD000000000) / 0x1000000)
  let unit (u : Nat) : Bool := dramLost o n u
  let rings := s.teller.rings.filter (fun e => s.reqPart e.1 == p && e.2.set)
  let hostLost (a k : Nat) : Bool :=
    let has (w : WinRec) : Bool := w.hosts.any (fun r => decide (r.first ≤ a) && decide (a + k ≤ r.first + r.count))
    has ow && !has nw
  let queueUsed (cq : Bool) (l : Store HostQueue) : Bool := l.any (fun e =>
    let r := if cq then lostUnit o.cq n.cq e.1 else lostUnit o.sq n.sq e.1
    let mine := if cq then o.cq.has e.1 else o.sq.has e.1
    let ring := e.2.size * (if cq then 16 else 64)
    let on := e.2.en || e.2.shutting || e.2.latchedEn
    on && (r || (mine && if e.2.loc then unitsMeet unit e.2.base.toNat ring else hostLost e.2.base.toNat ring)))
  let tallyLost (k : Nat) : Bool := lostUnit o.tally n.tally (k / 64)
  let context (c : Nat) (x : CtxRec) : Bool :=
    lostUnit o.ctx n.ctx c || (o.wheels.getLsbD x.wheel && !n.wheels.getLsbD x.wheel) || x.spans.any (fun r => store r.1 || unitsMeet unit r.1 r.2) ||
      x.bufs.any (fun b => tallyLost b.2) || (x.encode && tallyLost x.doneTally)
  wares.any (fun e => e.2.tiles.any tile || e.2.image.any (fun r => store r.1 || unitsMeet unit r.1 r.2) ||
      (List.range e.2.plan.tallies.length).any (fun i => tallyLost (e.2.tallyBase + i))) ||
    (s.pool p).units.any (fun u => unit (u / 32)) ||
    rings.any (fun e => unitsMeet unit e.2.base (s.ringBytes p e.2.log2) ||
      (decide (hostWindow ≤ e.2.base) && hostLost (e.2.base - hostWindow) (s.ringBytes p e.2.log2))) ||
    s.wheels.ctxs.any (fun e => e.2.state != .closed && s.ctxPart e.1 == p && context e.1 e.2.cfg) ||
    s.teller.requests.any (fun e => lostUnit o.req n.req (e.1 / 64) && e.2.state != .free && e.2.state != .retired) ||
    (List.range 4).any (fun h => (s.hearth h).waiters.any (fun w => match w.2 with
      | some x => tallyLost x.tally
      | none => false)) ||
    queueUsed false s.host.sqs || queueUsed true s.host.cqs ||
    ((s.func o.func).mse && (dramUnits o).any (fun u => (bar4Unit n u).isSome && bar4Unit n u != bar4Unit o u))
/-- The rule of R70 over every record of an amendment. -/
def State.resInUse (s : State) (x : Image) : Bool :=
  let wins := overlay s.mould.wins x.wins
  s.mould.parts.any (fun e =>
    let n := ((x.parts.find? (fun q => q.1 = e.1)).map (·.2)).getD e.2
    s.inUse e.1 e.2 n (s.win e.1) (((wins.find? (fun q => q.1 = e.1)).map (·.2)).getD {}))
/-- A die in the reset sequence of R356. -/
def DieState.resetting : DieState → Bool
  | .inReset | .clockStarting | .selfTest | .training => true
  | _ => false
/-- Kiln k, or hearth k, holds what a record releases: tiles above or on it, and of a hearth its tallies. -/
def PartRec.releasesAt (o n : PartRec) (k : Nat) (hearth : Bool) : Bool :=
  (List.range 8).any (fun i => o.tiles.getLsbD (8 * k + i) && !n.tiles.getLsbD (8 * k + i)) ||
    (hearth && (List.range 64).any (fun i => lostUnit o.tally n.tally (64 * k + i)))
/-- An amendment releases something that kiln or hearth k holds. -/
def State.releasesAt (s : State) (x : Image) (k : Nat) (hearth : Bool) : Bool :=
  x.parts.any (fun e => (s.part? e.1).any (fun o => o.releasesAt e.2 k hearth))
/-- A kiln or hearth that holds released resources is resetting (R72). -/
def State.releaseResets (s : State) (x : Image) : Bool :=
  (List.range 4).any (fun k => ((s.die k).resetting && s.releasesAt x k false) || ((s.die (4 + k)).resetting && s.releasesAt x k true))

/-! ## Verify (R71 step 1, R72) -/

/-- A mould image or amendment is refused with a code of R75. -/
def State.mouldErr (s : State) (h code : Nat) : State :=
  ({ s with mould := { s.mould with lastErr := code } } : State).endHandle h .done 0x40 code
/-- What bars an amendment that R53 accepts, 0 for nothing: a resource in use, or a resetting die in the way (R70, R72, R75). -/
def State.amendBar (s : State) (x : Image) : Nat := if s.resInUse x then 0x0D else if s.releaseResets x then 0x0E else 0
/-- The amendment has not passed its commit point (R71). -/
def Amend.open_ (a : Amend) : Bool := a.step == .verify || a.step == .drain
/-- After a switch-over the island that took over restarts an amendment before its commit point at Verify (R72): the flash and its
signatures are what they were, and the rules are judged again. -/
def State.restartAmend (s : State) : State :=
  match s.mould.amend with
  | none => s
  | some a =>
    let code := if s.imageCode a.image {} true ≠ 0 then s.imageCode a.image {} true else s.amendBar a.image
    if !a.open_ then s
    else if code ≠ 0 then ({ s with mould := { s.mould with amend := none } } : State).mouldErr a.handle code
    else s.beginDrain a

end Sys2Proof.Machine
end

