-- ==== Sys2Proof/Machine/Events.lean ====
section
/-! DEFINITION.  The event collector (R413-R423): what is pending, vectors, messages and their coalescing; one meaning
per row of its registers and events. -/
namespace Sys2Proof.Machine
open Sys2Proof

/-! ## Functions -/

/-- A function that a partition belongs to, or the PF (R366). -/
def State.funcLive (s : State) (f : Nat) : Bool := f == 0 || (decide (f ≤ 8) && s.host.vfEnable && decide (s.funcPart f < 8))
/-- Entries of a function's MSI-X table (R367). -/
def tableSize (f : Nat) : Nat := if f = 0 then 256 else 224
/-- A register access of a master reaches the register path, a write interrupting a first dual write of that master in the block (R397);
otherwise how it is answered. -/
def State.gate (s : State) (m : Master) (addr : Nat) (write : Bool) (k : State → State) : State :=
  let go (s : State) : State := k (if write then s.failDual m (addrBlock addr) else s)
  match m with
  | .func f => if !s.barOpen f then s.reply .unsupported else if !s.funcLive f then s.refuse m addr write else go s
  | .peer n => if (s.mgmt n).opened then go s else s.reply .errorReply
  | _ => go s

/-! ## Sources (R413) -/

/-- Function that owns a source; 9 for none. -/
def State.srcFunc (s : State) (x : Nat) : Nat :=
  if x < 1024 then s.partFunc (s.cqPart x)
  else if x < 1056 then s.partFunc (s.tilePart (x - 1024))
  else if x < 1088 then s.partFunc (s.tilePart (x - 1056))
  else if x < 1096 then s.partFunc (x - 1088)
  else if x < 1104 then s.partFunc (x - 1096)
  else if x < 1112 then s.partFunc (x - 1104)
  else if x < 1120 then s.partFunc (x - 1112)
  else if x < 1128 then s.partFunc (x - 1120)
  else if x < 1130 then 0
  else if x < 1139 then x - 1130
  else if x < 1148 then x - 1139
  else 9

/-- Entries that a completion queue holds beyond its HEAD. -/
def HostQueue.held (q : HostQueue) : Nat := (q.tail + 2 ^ q.log2 - q.head) % 2 ^ q.log2
/-- A source is pending (R413). -/
def State.srcPending (s : State) (x : Nat) : Bool :=
  if x < 1024 then (s.cq x).held != 0 && s.dieReady 8
  else if x < 1056 then s.reg.latches.getLsbD (x - 1024)
  else if x < 1088 then (s.tile (x - 1056)).numLevel && s.dieReady ((x - 1056) / 8)
  else if x < 1096 then (List.range 4).any (fun h => s.dieReady (4 + h) && ((s.hearth h).ovf || (s.hearth h).broken) && (s.hearth h).contrib.getLsbD (x - 1088))
  else if x < 1104 then s.ringLevel (x - 1096)
  else if x < 1112 then s.pevt (x - 1104) != 0
  else if x < 1120 then s.dieReady 9 && s.wheelLevel (x - 1112)
  else if x < 1129 then !(s.faultQueue (x - 1120)).isEmpty
  else if x = 1129 then s.host.sbLong != 0 || s.host.sbChatter != 0
  else if x < 1139 then (s.inst (x - 1130)).logged
  else if x < 1148 then (s.inst (x - 1139)).mbxValid
  else false

/-! ## Vectors (R416-R419) -/

def vecKey (f e : Nat) : Nat := 256 * f + e
def State.vec (s : State) (k : Nat) : Vec := sget {} s.reg.vecs k
def State.setVec (s : State) (k : Nat) (v : Vec) : State := { s with reg := { s.reg with vecs := sset {} s.reg.vecs k v } }
def State.coal (s : State) (k : Nat) : Coal := sget {} s.reg.coal k
def State.route (s : State) (x : Nat) : Route := sget {} s.reg.routes x
def State.setRoute (s : State) (x : Nat) (v : Route) : State := { s with reg := { s.reg with routes := sset {} s.reg.routes x v } }
/-- The vector a source sends to (R416). -/
def State.srcVec (s : State) (x : Nat) : Option Nat :=
  let f := s.srcFunc x
  if 8 < f then none
  else if x < 1024 then (if (s.cq x).en then some (vecKey f (s.cq x).bind) else none)
  else if (s.route x).en then some (vecKey f (s.route x).vector) else none
/-- Some source of a vector is pending. -/
def State.vecPending (s : State) (k : Nat) : Bool := (List.range 1148).any (fun x => s.srcVec x == some k && s.srcPending x)
/-- The threshold is reached at a value of MNT_AO_COUNT: the count, or the timer in units of 64 F4 cycles (R417). -/
def Vec.reached (v : Vec) (c : Coal) (now : Nat) : Bool :=
  decide (max 1 c.count ≤ v.occurred) || (v.timing && decide (c.time * 64 ≤ now - v.since))

def PcieFunc.msixEntry (x : PcieFunc) (e : Nat) : MsixEntry := sget {} x.msix e
/-- Write a vector's MSI-X message, or hold it in the PBA (R419); the message is four bytes at the entry's host address. -/
def State.sendMessage (s : State) (k : Nat) : State :=
  let f := k / 256
  let e := k % 256
  let x := s.func f
  let t := x.msixEntry e
  if t.mask || x.funcMask || s.funcQuiet f then s.setFunc f { x with pba := if x.pba.contains e then x.pba else x.pba ++ [e] }
  else ((s.setFunc f { x with pba := x.pba.filter (· ≠ e) }).put (.vault 0) (hostWindow + t.addr.toNat % 2 ^ 47) (toLE 4 t.data.toNat)).setVec k
    { s.vec k with sent := true }
/-- Compare a vector with its threshold and apply R418. -/
def State.compare (s : State) (k : Nat) : State :=
  let v := s.vec k
  if !v.reached (s.coal k) s.links.aoCount.toNat || v.outstanding then s
  else
    let go := s.vecPending k
    let s := s.setVec k { outstanding := go }
    if go then s.sendMessage k else s
/-- Send what waits in function f's PBA and may now go (R419). -/
def State.flushPba (s : State) (f : Nat) : State := (s.func f).pba.foldl (fun s e => s.sendMessage (vecKey f e)) s

/-! ## Sleep (R420) -/

/-- Some function can receive messages. -/
def State.receivable (s : State) : Bool := (List.range 9).any (fun f => s.funcLive f && !s.funcQuiet f)
/-- Wake: every source that became pending during the sleep is one occurrence; timers have gone on by MNT_AO_COUNT, and a vector whose
timer ran out meets its threshold. -/
def State.wake (s : State) : State :=
  if s.reg.sleeping then
    let s := { s with reg := { s.reg with sleeping := false, occurrences := s.reg.occurrences.dedup } }
    s.reg.vecs.foldl (fun s e => s.compare e.1) s
  else s

/-- An occurrence that has been released is counted on its vector (R417); while the collector sleeps it waits. -/
def execEventOccurrence (s : State) : Host.Outcome State Fault Refusal :=
  if s.reg.sleeping then .next s
  else match s.reg.occurrences with
  | [] => .next s
  | x :: rest =>
    let s := { s with reg := { s.reg with occurrences := rest } }
    match s.srcVec x with
    | none => .next s
    | some k =>
      let v := s.vec k
      .next ((s.setVec k { v with occurred := min 255 (v.occurred + 1), timing := true,
                                  since := if v.timing then v.since else s.links.aoCount.toNat }).compare k)

/-- A vector's timer reaches TIME units of 64 F4 cycles (R417). -/
def execCoalesceTimer (f e : Nat) (s : State) : Host.Outcome State Fault Refusal :=
  let k := vecKey f e
  let v := s.vec k
  if !s.reg.sleeping ∧ v.timing ∧ (s.coal k).time * 64 ≤ s.links.aoCount.toNat - v.since
  then .next (s.compare k) else .next s

/-- The collector sleeps once no function can receive messages (R420). -/
def execCollectorSleep (s : State) : Host.Outcome State Fault Refusal :=
  if s.receivable ∨ s.reg.sleeping ∨ !s.reg.occurrences.isEmpty then .next s
  else .next { s with reg := { s.reg with sleeping := true } }

/-- A function becomes able to receive messages (R420). -/
def execCollectorWake (s : State) : Host.Outcome State Fault Refusal := if s.receivable then .next s.wake else .next s

/-! ## Registers (R415, R418, R422, R423) -/

/-- Device address of an event collector register. -/
def evcAddr (ofs : Nat) : Nat := dieWindow 10 + 0x300000 + ofs
/-- A write to a register of a function's own view. -/
def evcWrite (s : State) (m : Master) (ofs : Nat) (k : Nat → State → State) : State :=
  if s.isStandby m then s.reply .dropped
  else s.gate m (evcAddr ofs) true (fun s => match m with
    | .func f => k f s.wake
    | _ => s.refuse m (evcAddr ofs) true)

/-- Remove partition p from every hearth's contributor mask; a hearth whose mask is empty clears OVF and BROKEN (R414). -/
def State.serveTally (s : State) (p : Nat) : State :=
  (List.range 4).foldl (fun s h =>
    let x := s.hearth h
    let c := x.contrib &&& ~~~ (BitVec.ofNat 8 (2 ^ p))
    if s.dieReady (4 + h) then s.setHearth h { x with contrib := c, ovf := x.ovf && c != 0, broken := x.broken && c != 0 } else s) s
/-- Serve one source by writing 1 to its pending bit (R415). -/
def State.serve (s : State) (x : Nat) : State :=
  if 1024 ≤ x ∧ x < 1056 then { s with reg := { s.reg with latches := s.reg.latches &&& ~~~ (BitVec.ofNat 32 (2 ^ (x - 1024))) } }
  else if 1088 ≤ x ∧ x < 1096 then s.serveTally (x - 1088)
  else s

/-- EVC_PENDw (R415): in a function's view its own sources; in the active island's view every source. -/
def execEvcPend (m : Master) (w : Nat) (v : Word) (s : State) : Host.Outcome State Fault Refusal :=
  let go (s : State) (mine : Nat → Bool) : State :=
    ((List.range 32).foldl (fun s b => if v.getLsbD b && mine (32 * w + b) then s.serve (32 * w + b) else s) s.wake).reply .accepted
  if 64 ≤ w then .next (s.gate m (evcAddr (w * 8)) true (fun s => s.refuse m (evcAddr (w * 8)) true))
  else if s.isStandby m then .next (s.reply .dropped)
  else .next (s.gate m (evcAddr (w * 8)) true (fun s => match m with
    | .func f => go s (fun x => s.srcFunc x == f)
    | .island _ => go s (fun _ => true)
    | _ => s.refuse m (evcAddr (w * 8)) true))

/-- EVC_ACK (R418): ignored for a vector without an outstanding message that has left V0. -/
def execEvcAck (m : Master) (v : Word) (s : State) : Host.Outcome State Fault Refusal :=
  .next (evcWrite s m 0x200 (fun f s =>
    let k := vecKey f (v.toNat % 256)
    let x := s.vec k
    let s := s.reply .accepted
    if x.outstanding && x.sent then (s.setVec k { x with outstanding := false, sent := false }).compare k else s))

/-- EVC_ROUTEs (R416): VECTOR is taken only while EN is clear, and only within the table. -/
def execEvcRoute (m : Master) (src : Nat) (v : Word) (s : State) : Host.Outcome State Fault Refusal :=
  let ofs := 0x1000 + (src - 1024) * 8
  .next (evcWrite s m ofs (fun f s =>
    if src < 1024 ∨ 2048 ≤ src ∨ s.srcFunc src ≠ f then s.refuse m (evcAddr ofs) true
    else
      let r := s.route src
      let n := v.toNat % 256
      let r' := { r with en := v.getLsbD 8, cfgIgn := r.cfgIgn && !v.getLsbD 9 }
      let s := s.reply .accepted
      if n = r.vector then s.setRoute src r'
      else if r.en then s.setRoute src { r' with cfgIgn := true }
      else if tableSize f ≤ n then (s.setRoute src r').logAccess f (evcAddr ofs) causeRange true
      else s.setRoute src { r' with vector := n }))

/-- EVC_COALe (R419). -/
def execEvcCoal (m : Master) (e : Nat) (v : Word) (s : State) : Host.Outcome State Fault Refusal :=
  let ofs := 0x4000 + e * 8
  .next (evcWrite s m ofs (fun f s =>
    if tableSize f ≤ e then s.refuse m (evcAddr ofs) true
    else
      let k := vecKey f e
      let s := { s with reg := { s.reg with coal := sset {} s.reg.coal k { count := v.toNat % 256, time := bits v.toNat 8 16 } } }
      (s.reply .accepted).compare k))

/-- MSIX_UNMASK (R419): the entry's Mask bit clears and its pending message is sent. -/
def execMsixUnmask (f e : Nat) (s : State) : Host.Outcome State Fault Refusal :=
  if f ≤ 8 ∧ e < tableSize f then
    let x := s.func f
    let s := s.setFunc f { x with msix := sset {} x.msix e { x.msixEntry e with mask := false } }
    .next (if x.pba.contains e then s.sendMessage (vecKey f e) else s)
  else .next s

end Sys2Proof.Machine
end

