-- ==== Sys2Proof/Machine/WareForm.lean ====
section
/-! DEFINITION.  The layout of a ware (R496): its header, its records in their order, and what a parsed one holds. -/
namespace Sys2Proof.Machine
open Sys2Proof

/-- What the bytes of a ware say outside its ciphertexts. -/
structure WareForm where
  version : Nat := 0
  sealedWare : Bool := false
  confOnly : Bool := false
  /-- Key identifier of its SIGNER_CERT, as R63 lays one out. -/
  signer : Nat := 0
  /-- BOUND_IDs of its SET_MEMBER records. -/
  members : List (BitVec 256) := []
  tenants : List (BitVec 512) := []
  /-- Sections, and all of them ADAPTER records (R498). -/
  adapterImage : Bool := false
  /-- The trailer's digest. -/
  digest : BitVec 256 := 0
  deriving DecidableEq, Repr

/-- LENGTH that the body of a record TYPE has; a section holds at least its nonce, its INDEX and its tag. -/
def wareLength (ty len : Nat) : Bool :=
  match ty with
  | 0x01 => len == 136 | 0x02 => len == 144 | 0x03 => len == 32 | 0x04 => len == 64
  | 0x10 | 0x11 | 0x12 => decide (32 ≤ len)
  | _ => false
/-- TYPE and body of `count` records that fill the bytes, TYPEs not falling.  That order is the model's reading of R497's "record order"
(DEDUCED, log entry 98). -/
def wareRecords : Nat → Nat → List Byte → Option (List (Nat × List Byte))
  | 0, _, b => if b.isEmpty then some [] else none
  | n + 1, last, b =>
    let ty := lfld b 0 2
    let len := lfld b 8 8
    let size := 16 + roundUp len 64
    if !wareLength ty len || decide (b.length < size) || !lzero b 2 6 || decide (ty < last) then none
    else (wareRecords n ty (b.drop size)).map ((ty, (b.drop 16).take len) :: ·)
/-- Bodies of the records of one TYPE. -/
def bodiesOf (ty : Nat) (l : List (Nat × List Byte)) : List (List Byte) := (l.filter (fun e => e.1 == ty)).map (·.2)
/-- Check 0x01 of R497: the form of a ware; none fails with FORMAT. -/
def parseWare (b : List Byte) : Option WareForm :=
  let n := b.length
  let flags := lfld b 20 4
  if n < 160 ∨ lfld b 0 4 ≠ 0x45524157 ∨ lfld b 4 2 ≠ 1 ∨ lfld b 8 8 ≠ n ∨ 4 ≤ flags ∨ !lzero b 56 8 then none
  else match wareRecords (lfld b 6 2) 0 ((b.drop 64).take (n - 160)) with
  | none => none
  | some l =>
    let members := bodiesOf 0x02 l
    let tenants := bodiesOf 0x04 l
    let sections := l.filter (fun e => decide (0x10 ≤ e.1))
    if (bodiesOf 0x01 l).length ≠ 1 ∨ members.isEmpty ∨ 4096 < members.length ∨ (bodiesOf 0x03 l).length ≠ 1 ∨ 64 < tenants.length then none
    else some {
      version := lfld b 16 4, sealedWare := bit flags 0, confOnly := bit flags 1
      signer := lfld ((bodiesOf 0x01 l).flatten) 0 8
      members := members.map (fun m => BitVec.ofNat 256 (lfld m 0 32))
      tenants := tenants.map (fun m => BitVec.ofNat 512 (lfld m 0 64))
      adapterImage := !sections.isEmpty && sections.all (fun e => e.1 == 0x12)
      digest := BitVec.ofNat 256 (lfld b (n - 96) 32) }

end Sys2Proof.Machine
end

