-- ==== Sys2Proof/Machine/HostOps.lean ====
section
/-! DEFINITION.  The host link as shared operations (R366-R382, R421, R494, R497): queues and completions, held
records, long operations, function resets, BAR4, and the placing of wares. -/
namespace Sys2Proof.Machine
open Sys2Proof

/-! ## Queues and completions (R373-R376) -/

def State.queue (s : State) (cq : Bool) (q : Nat) : HostQueue := if cq then s.cq q else s.sq q
def State.setQueue (s : State) (cq : Bool) (q : Nat) (x : HostQueue) : State := if cq then s.setCq q x else s.setSq q x
/-- Device address of a queue's memory (R43, R373). -/
def HostQueue.addr (x : HostQueue) : Nat := if x.loc then x.base.toNat else hostWindow + x.base.toNat
def State.queuePart (s : State) (cq : Bool) (q : Nat) : Nat := if cq then s.cqPart q else s.sqPart q

/-- The check V0 makes when EN is set (R373, R390, R416, R494). -/
def State.queueOk (s : State) (cq : Bool) (q : Nat) (x : HostQueue) : Bool :=
  let p := s.queuePart cq q
  let n := x.size * (if cq then 16 else 64)
  decide (4 ≤ x.log2) && decide (x.log2 ≤ 12) && x.base.toNat % 4096 == 0 &&
    (if x.loc then s.inDram p x.base.toNat n && !s.confidential p
     else decide (x.base.toNat < hostWindow) && s.inHost p (hostWindow + x.base.toNat) n) &&
    (if cq then decide (x.bind < tableSize (s.partFunc p)) else s.cqPart x.bind == p)

/-- Long operations whose final completion goes to CQ c. -/
def State.openFinals (s : State) (c : Nat) : Nat :=
  (s.host.handles.filter (fun e => e.2.cq == c && (e.2.state == .running || e.2.state == .suspended) && !e.2.forgotten &&
    (match e.2.origin with | .host _ _ _ => true | .peer _ => false))).length
/-- Completions for CQ c that wait in staging. -/
def State.stagedFor (s : State) (p c : Nat) : Nat :=
  ((sget [] s.host.staging p).filter (fun x => match x with | .completion k => k.cq == c | .ringRecord _ _ _ => false)).length
/-- The CQ bound to a submission queue has a slot free for one more command (R376, log entry 18). -/
def State.cqRoom (s : State) (c : Nat) : Bool :=
  let inFlight := ((s.host.sqs.filter (fun e => e.2.bind == c)).map (fun e => e.2.inFlight)).sum
  let finals := (s.host.due.filter (fun k => k.final && k.cq == c)).length
  decide ((s.cq c).held + inFlight + s.openFinals c + finals + s.stagedFor (s.cqPart c) c < (s.cq c).size - 1)

/-- A completion queue can be written to now (R376, R382). -/
def State.cqWritable (s : State) (c : Nat) : Bool :=
  let x := s.cq c
  x.en && !x.halted && s.dieReady 8 && (x.loc || !s.funcQuiet (s.partFunc (s.cqPart c)))

/-- Bytes of a completion entry (R375). -/
def State.completionBytes (s : State) (k : Completion) : List Byte :=
  let x := s.cq k.cq
  toLE 2 k.cid ++ toLE 2 k.sq ++ toLE 2 (s.sq k.sq).head ++ toLE 1 k.status ++
    toLE 1 (b2n (x.lap % 2 == 0) + 2 * b2n k.final) ++ toLE 4 k.result0.toNat ++ toLE 4 k.result1.toNat

/-- Write a completion at its CQ's tail, checked against the partition's bounds (R41, R44); where it meets poison, or fails the
check, nothing is written and the CQ halts (R376, log entry 18). -/
def State.writeCompletion (s : State) (k : Completion) : State × Bool :=
  let x := s.cq k.cq
  let slot := x.tail % x.size
  let r := s.guardStore (.vault 0) (s.cqPart k.cq) (x.addr + slot * 16) (s.completionBytes k)
  if r.2 then (r.1.setCq k.cq { x with halt := true, halted := true }, false)
  else
    let wrap := decide (slot + 1 = x.size)
    let s := r.1.setCq k.cq { x with tail := if wrap then 0 else slot + 1, lap := if wrap then x.lap + 1 else x.lap }
    let s := if k.handle = 0 then s else match s.op? k.handle with
      | some o => s.setOp k.handle { o with finalPos := some (k.cq, slot) }
      | none => s
    (s.occurFrom (x.held != 0) k.cq, true)

/-- Write what a partition's staging holds and its queues and rings can now take, each queue's own in order (R376, R382). -/
def State.releaseStaged (s : State) (p : Nat) : State :=
  (sget [] s.host.staging p).foldl (fun s x =>
    let kept (s : State) : State := s.pushStaged p x
    match x with
    | .completion k =>
      if s.cqWritable k.cq && s.stagedFor p k.cq == 0 then
        let r := s.writeCompletion k
        if r.2 then r.1 else kept r.1
      else kept s
    | .ringRecord i bytes k => if s.stageRing i then kept s else s.ringWrite i bytes k)
    { s with host := { s.host with staging := sset [] s.host.staging p [] } }
def State.releaseAll (s : State) : State := (List.range 8).foldl State.releaseStaged s

/-- The queue becomes enabled, or BAD_CFG is set (R373, R376). -/
def State.startQueue (s : State) (cq : Bool) (q : Nat) (x : HostQueue) (rearm : Bool) : State :=
  let x := { x with shutting := false, latchedEn := false }
  if !s.queueOk cq q x then s.setQueue cq q { x with en := false, badCfg := true }
  else
    let skip := !cq && x.halted
    let s := s.setQueue cq q { x with en := true, halted := false, rearm := x.rearm || rearm,
                                      head := if skip then (x.head + 1) % x.size else x.head }
    if cq then s.releaseStaged (s.cqPart q) else s
/-- A shut-down has finished; a latched enable starts the queue again (R373). -/
def State.shutDone (s : State) (cq : Bool) (q : Nat) : State :=
  let x := s.queue cq q
  if x.latchedEn then s.startQueue cq q { x with shutting := false } true else s.setQueue cq q { x with shutting := false }

/-- A write of CFG (R373, R400, R401). -/
def State.cfgWrite (s : State) (cq : Bool) (q : Nat) (v : Nat) : State :=
  let x := s.queue cq q
  let en := bit v 0
  let y := { x with loc := bit v 1, log2 := bits v 2 4, bind := bits v 6 10 }
  if x.en || x.shutting then
    let x := if y = x then x else { x with cfgIgn := true }
    if x.en then
      (if en then s.setQueue cq q x
       else if x.inFlight = 0 then s.setQueue cq q { x with en := false } else s.setQueue cq q { x with en := false, shutting := true })
    else s.setQueue cq q { x with latchedEn := en }
  else if en then s.startQueue cq q y false else s.setQueue cq q y

/-- Positions of a queue at 0, on its first lap (R373). -/
def HostQueue.rewind (x : HostQueue) : HostQueue := { x with head := 0, tail := 0, lap := 0, halted := false }
/-- Final completions that lay in CQ c are gone. -/
def State.forgetFinals (s : State) (c : Nat) : State :=
  { s with host := { s.host with handles := s.host.handles.map (fun e =>
      match e.2.finalPos with
      | some (k, _) => if k = c then (e.1, { e.2 with finalPos := none }) else e
      | none => e) } }
/-- A write of BASE (R373). -/
def State.baseWrite (s : State) (cq : Bool) (q : Nat) (v : DWord) : State :=
  let x := s.queue cq q
  if x.en || x.shutting then s.setQueue cq q { x with cfgIgn := true }
  else
    let s := s.setQueue cq q { x.rewind with base := v }
    if cq then s.forgetFinals q else s

/-- Opcodes that some chapter defines. -/
def knownOpcode (op : Nat) : Bool :=
  decide ((1 ≤ op ∧ op ≤ 6) ∨ (8 ≤ op ∧ op ≤ 0xB) ∨ (0x20 ≤ op ∧ op ≤ 0x28) ∨ (0x30 ≤ op ∧ op ≤ 0x34) ∨ (0x50 ≤ op ∧ op ≤ 0x53))

/-! ## Long operations (R378, R379) -/

/-- A slot put into another state, which counts in GENERATION (R515). -/
def Slot.enter (x : Slot) (st : SlotState) : Slot :=
  if x.state = st then x else { x with state := st, generation := x.generation + 1 }
/-- A slot erased to EMPTY. -/
def Slot.erased (x : Slot) : Slot := { generation := (x.enter .empty).generation }
/-- Discard the apply and erase the other slot to EMPTY (R519). -/
def State.dropApply (s : State) : State :=
  let s := s.setSlot (!s.update.runningB) (s.slot (!s.update.runningB)).erased
  { s with update := { s.update with phase := .idle, staging := [], deltaLen := 0, forwarded := false, chain := [], applyHandle := 0, applyDelta := none } }

/-- Step 2 of a MOULD_INSTALL begins: the fired slot's mould area, amendment log and checkpoints are erased (R66). -/
def State.beginWrite (s : State) : State :=
  match s.mould.install with
  | none => s
  | some i =>
    if i.writing then s
    else
      let k := s.mould.firedSlotB
      let s := s.setSlot k { s.slot k with mould := none, amendLog := [], checkA := none, checkB := none }
      { s with mould := { s.mould with install := some { i with writing := true } } }
/-- Handle h stands suspended. -/
def State.opSuspended (s : State) (h : Nat) : Bool := ((s.op? h).map (·.state)) == some OpState.suspended
/-- Whether step 2 of a MOULD_INSTALL has begun is asked; no row tells, so a free value does (log entry 38).  A suspended one
has not. -/
def State.installMoved (s : State) : State :=
  match s.mould.install with
  | none => s
  | some i =>
    if i.writing || s.opSuspended i.handle then s
    else
      let r := s.takeFree
      if r.1.getLsbD 0 then r.2.beginWrite else r.2

/-- A publish is taken back: the version it superseded is the newest again (R300, R379). -/
def State.unpublish (s : State) (w a h : Nat) : State :=
  match s.ware? w with
  | none => s
  | some x =>
    let ad := sget {} x.adapters a
    match ad.publish with
    | some (k, old, v) =>
      let back := { ad with newest := old, versions := ad.versions.filter (fun e => e.1 ≠ v), publish := none, pinned := false }
      if k = h then s.setWare w { x with adapters := sset {} x.adapters a back } else s
    | none => s

/-- OP_CANCEL of a handle: its status, and the state (R379). -/
def State.cancelOp (s : State) (h : Nat) : Nat × State :=
  match s.op? h with
  | none => (0x04, s)
  | some o =>
    let gone (s : State) : Nat × State := (0, s.endHandle h .cancelled 0x06 0)
    if o.state = .done ∨ o.state = .cancelled then (0x05, s)
    else match o.kind with
    | .wareLoad => gone s
    | .amend => match s.mould.amend with
      | some a => if a.handle = h ∧ a.open_ then gone { s with mould := { s.mould with amend := none } } else (0x05, s)
      | none => (0x05, s)
    | .mouldInstall =>
      let s := s.installMoved
      match s.mould.install with
      | some i => if i.writing then (0x05, s) else gone { s with mould := { s.mould with install := none } }
      | none => (0x05, s)
    | .scrub => gone { s with mem := { s.mem with zeroJobs := s.mem.zeroJobs.filter (fun j => j.handle ≠ h) } }
    | .memTest => gone (s.freeBytes o.base (o.units * 0x4000000))
    | .poolShrink => gone (s.setPool o.part { s.pool o.part with shrinking := (s.pool o.part).shrinking.filter (fun r => r.2.2 ≠ h) })
    | .adapterPublish =>
      if ((s.ware? o.base).elim true (fun w => (sget {} w.adapters o.arg).pinned)) then (0x05, s) else gone (s.unpublish o.base o.arg h)
    | .fwApply => gone s.dropApply

/-- OP_SUSPEND and OP_RESUME of a handle (R379). -/
def State.pauseOp (s : State) (h : Nat) (on : Bool) : Nat × State :=
  match s.op? h with
  | none => (0x04, s)
  | some o =>
    if o.state = .done ∨ o.state = .cancelled then (0x05, s)
    else
      let s := if o.kind == .mouldInstall && on then s.installMoved else s
      if o.kind == .mouldInstall && on && (s.mould.install.map (·.writing)) == some true then (0x05, s)
      else
      let s := s.setOp h { o with state := if on then .suspended else .running }
      (0, match s.mould.amend with
        | some a =>
          if a.handle ≠ h ∨ a.suspended = on then s
          else
            let a := { a with suspended := on }
            if !on && a.open_ then s.beginDrain a else { s with mould := { s.mould with amend := some a } }
        | none => s)

def opCode : OpState → Nat
  | .running => 1 | .suspended => 2 | .done => 3 | .cancelled => 4
/-- Progress in units of 2^-16; free for an operation whose parts the model does not count (log entry 3). -/
def State.opProgress (s : State) (o : OpRec) : Nat × State :=
  if o.state = .done ∨ o.state = .cancelled ∨ o.kind = .scrub then (o.progress, s)
  else ((Config.freeWord s.free).toNat % 65536, { s with free := s.free + 1 })

/-- The handle is one of function f's own (R377). -/
def State.ownOp (s : State) (f h : Nat) : Bool :=
  match s.op? h with
  | some o => !o.forgotten && (match o.origin with | .host g _ _ => g == f | .peer _ => false)
  | none => false
/-- A command that names a handle. -/
def opCommand (q op : Nat) (s : State) (k : Nat → State → Nat × Nat × Nat × State) : State :=
  onForwarded q op s (fun f s =>
    let h := f.fld 16 4
    if bodyReserved f 20 then s.answer f 0x02 0 0
    else if !s.ownOp f.fn h then s.answer f 0x04 0 0
    else
      let r := k h s
      r.2.2.2.answer f r.1 r.2.1 r.2.2.1)

/-- Cancel what a reset cancels (R380, R429): no final completion, the handle forgotten; what cannot be cancelled runs on, and so does an
amendment through a PCIe reset (R389). -/
def State.cancelOps (s : State) (f : Nat) (amends : Bool) : State :=
  s.host.handles.foldl (fun s e =>
    let mine := match e.2.origin with | .host g _ _ => g == f | .peer _ => false
    if !mine then s
    else match s.op? e.1 with
    | none => s
    | some o =>
      if o.state = .done ∨ o.state = .cancelled then
        { s with host := { s.host with handles := s.host.handles.filter (fun x => x.1 ≠ e.1) } }
      else
        let s := s.setOp e.1 { o with forgotten := true }
        let r := if o.kind = .amend ∧ !amends then (0x05, s) else s.cancelOp e.1
        if r.1 = 0 then r.2 else (r.2.pauseOp e.1 false).2) s

/-! ## Ends of what a partition runs (R380, R429) -/

/-- CANCEL_NOW of the requests of p that a test names, with an END reason.  One under way is not begun again (R389): its command still
completes, and where the END record has not been written its reason is FAULT if that is asked for (R382, R429). -/
def State.killRequests (s : State) (p reason : Nat) (which : Nat → Bool) : State :=
  (s.requestsOf p).foldl (fun s e =>
    if e.2.state.active && which e.1 then
      (if e.2.cancelNow then
        let r := s.request e.1
        if reason = 0x09 ∧ !(s.ring e.1).ended then s.setRequest e.1 { r with endReason := 0x09 } else s
      else s.startCancelNow e.1 reason none)
    else s) s
/-- The commands whose completions wait for a request of p get none: their function is reset (R380). -/
def State.forgetCancels (s : State) (p : Nat) : State :=
  (s.requestsOf p).foldl (fun s e => s.setRequest e.1 { s.request e.1 with cancelSrc := none }) s
/-- Close the stream contexts of a test with MODE 1 (R312), with bits of WHL_CTXc_EVT. -/
def State.closeContexts (s : State) (which : Nat → Bool) (evt : BitVec 5) : State :=
  s.wheels.ctxs.foldl (fun s e =>
    if e.2.state != .closed && which e.1 then
      (s.setCtx e.1 { e.2 with state := .closing, closeMode := 1, packets := [], fu := none }).setCtxEvt e.1 evt
    else s) s
/-- A session closes (R499, R506): its requests end as under CANCEL_NOW, and its key goes once they have retired. -/
def State.closeSession (s : State) (p k : Nat) : State :=
  let x := s.session p k
  match x.use with
  | .free => s
  | .opening => s.setSession p k {}
  | .opened =>
    let s := s.setSession p k { x with closing := true }
    (s.killRequests p 0x05 (fun i => (s.request i).session == some k)).reapSession p k
def State.closeSessions (s : State) (p : Nat) : State := (List.range 16).foldl (fun s k => s.closeSession p k) s

/-! ## What a function shows of itself (R365, R366) -/

/-- Vendor, device and class of a function in its configuration space. -/
def vendorId : BitVec 16 := Config.vendorId
def deviceId (f : Nat) : BitVec 16 := if f = 0 then 0x0480 else 0x0481
def classCode : BitVec 24 := 0x120000
/-- No INTx: Interrupt Pin reads 0. -/
def interruptPin : BitVec 8 := 0
/-- Bytes of the largest payload and of the largest read request that V0 uses: the programmed ones, up to 512 B and 4 KiB. -/
def PcieFunc.maxPayload (x : PcieFunc) : Nat := 128 * 2 ^ min 2 x.mps
def PcieFunc.maxRead (x : PcieFunc) : Nat := 128 * 2 ^ min 5 x.mrrs
/-- Training ends at a rate and a width that the two ends and the lanes allow: free values (R365, log entry 19). -/
def State.trainPcie (s : State) : State :=
  let r := s.takeFree
  let n := r.1.toNat
  { r.2 with host := { r.2.host with linkRate := 1 + n % 5, linkWidth := if n / 8 % 4 = 0 then 1 else 2 ^ (1 + n / 8 % 4) } }

/-! ## Function resets (R380, R381, R421) -/

/-- The queues of a test: cleared and rewound; a PCIe reset puts the registers to reset as well. -/
def State.resetQueues (s : State) (p : Nat) (whole : Bool) : State :=
  let clear (x : HostQueue) : HostQueue :=
    if whole then {} else { x.rewind with en := false, shutting := false, latchedEn := false, inFlight := 0 }
  { s with host := { s.host with
      sqs := (s.host.sqs.map (fun e => if s.sqPart e.1 = p then (e.1, clear e.2) else e)).filter (fun e => e.2 ≠ {})
      cqs := (s.host.cqs.map (fun e => if s.cqPart e.1 = p then (e.1, clear e.2) else e)).filter (fun e => e.2 ≠ {}) } }

/-- What a reset of function f discards in its register views and its event state (R421). -/
def State.resetViews (s : State) (f : Nat) : State :=
  let x := s.inst f
  let mine (m : Master) : Bool := isFunc f m
  let s := s.setInst f { errAddr := x.errAddr, errCause := x.errCause, errWrite := x.errWrite, errCount := x.errCount, logged := x.logged }
  let owned_ (src : Nat) : Bool := s.srcFunc src == f
  let tiles := BitVec.ofNat 32 (((List.range 32).filter (fun t => owned_ (1024 + t))).map (fun t => 2 ^ t)).sum
  { s with reg := { s.reg with
      armed := s.reg.armed.filter (fun a => !mine a.master)
      dual := s.reg.dual.filter (fun a => !mine a.master)
      routes := s.reg.routes.filter (fun e => !owned_ e.1)
      coal := s.reg.coal.filter (fun e => e.1 / 256 ≠ f)
      vecs := s.reg.vecs.filter (fun e => e.1 / 256 ≠ f)
      latches := s.reg.latches &&& ~~~ tiles } }

/-- The reset of one function: queues, requests, streams, long operations, sessions, views, and its PCIe state (log entry 19). -/
def State.flrOne (s : State) (reason : Nat → Nat) (whole : Bool) (f : Nat) : State :=
  let p := s.funcPart f
  let s := s.resetViews f
  let s := s.setFunc f {}
  if 8 ≤ p then s
  else
    let s := s.resetQueues p whole
    let s := { s with host := { s.host with
        forwarded := s.host.forwarded.filter (fun k => k.fn ≠ f)
        due := s.host.due.filter (fun k => k.fn ≠ f)
        staging := sset [] s.host.staging p ((sget [] s.host.staging p).filter (fun x => match x with
          | .completion _ => false
          | .ringRecord _ _ _ => true)) } }
    let s := ((s.requestsOf p).foldl (fun s e => s.killRequests p (reason e.1) (· == e.1)) s).forgetCancels p
    let s := s.closeContexts (fun c => s.ctxPart c == p) 0
    let s := { s with wheels := { s.wheels with ctxs := s.wheels.ctxs.map (fun (e : Nat × Ctx) =>
      if s.ctxPart e.1 = p then (e.1, { e.2 with closeSrc := [] }) else e) } }
    let s := s.cancelOps f (!whole)
    if s.confidential p then s.closeSessions p else s

/-- Functions that an FLR of f reaches: a PF FLR clears VF Enable, an FLR on every VF. -/
def flrReach (f : Nat) : List Nat := if f = 0 then List.range 9 else [f]
/-- An FLR (R380). -/
def State.flr (s : State) (f : Nat) : State :=
  let s := (flrReach f).foldl (State.flrOne · (fun _ => 0x05) false) s
  if f = 0 then { s with host := { s.host with vfEnable := false, vfBarLog2 := 0, vfBarBase := 0 } } else s

/-- The ring of an entry lies in host memory. -/
def State.hostRing (s : State) (i : Nat) : Bool := (s.ring i).set && decide (hostWindow ≤ (s.ring i).base)
/-- Staged ring records of rings in host memory are discarded. -/
def State.dropHostRecords (s : State) : State :=
  { s with host := { s.host with staging := s.host.staging.filterMap (fun e =>
      let l := e.2.filter (fun x => match x with
        | .ringRecord i _ _ => !s.hostRing i
        | .completion _ => true)
      if l.isEmpty then none else some (e.1, l)) } }
/-- The link is down for good, or a PCIe reset came: requests whose rings lie in host memory end with FAULT (R382). -/
def State.endHostRings (s : State) : State :=
  let s := s.dropHostRecords
  (List.range 8).foldl (fun s p => s.killRequests p 0x09 s.hostRing) s
/-- A PCIe reset (R355, R381). -/
def State.pcieReset (s : State) : State :=
  let s := s.dropHostRecords
  let s := (List.range 9).foldl (State.flrOne · (fun i => if s.hostRing i then 0x09 else 0x05) true) s
  { s with host := { s.host with sqs := [], cqs := [], funcs := [], vfEnable := false, vfBarLog2 := 0, vfBarBase := 0, linkUp := false, linkTraining := false } }

/-- Function f can issue requests again: held completions, records and messages go (R382, R419). -/
def State.funcReturns (s : State) (f : Nat) : State :=
  let p := s.funcPart f
  let s := if p < 8 then s.releaseStaged p else s
  if s.funcQuiet f then s else s.flushPba f

/-! ## BAR4 (R371, R494, R498) -/

/-- BAR4 size offered by function f, as a log2. -/
def State.bar4Offer (s : State) (f : Nat) : Nat := if f = 0 then (s.win (s.funcPart 0)).bar4Log2 else s.mould.vfBar4Log2
/-- BAR4 size in use of function f, as a log2: the offered one, or the smaller one picked, which VFs share. -/
def State.bar4Size (s : State) (f : Nat) : Nat :=
  let chosen := if f = 0 then (s.func 0).bar4Log2 else s.host.vfBarLog2
  if chosen = 0 then s.bar4Offer f else chosen
/-- DRAM ranges of a partition in record order.  After the Fence of an amendment they stand as before it, so that what is behind a fenced
unit keeps its offset; the unit itself is out of bounds (R71, R389). -/
def State.bar4Ranges (s : State) (p : Nat) (r : PartRec) : List URange :=
  match s.mould.amend with
  | some a => match a.before.find? (fun e => e.1 = p) with
    | some e => e.2.dram
    | none => r.dram
  | none => r.dram
/-- Device address behind an offset into DRAM ranges in record order. -/
def dramAt : List URange → Nat → Option Nat
  | [], _ => none
  | r :: rs, o => if o < r.count * 0x4000000 then some (r.first * 0x4000000 + o) else dramAt rs (o - r.count * 0x4000000)
/-- What an access of n bytes at a BAR4 offset meets. -/
inductive Bar4
  | outside | absent | sealed_ (a : Nat) | refused (a : Nat) | mapped (l : List Nat)
  deriving DecidableEq, Repr
/-- DRAM of a loaded ware's image holds an address. -/
def State.inImage (s : State) (a : Nat) : Bool :=
  s.teller.wares.any (fun e => e.2.image.any (fun r => decide (r.1 ≤ a) && decide (a < r.1 + r.2)))
def State.bar4Map (s : State) (f ofs n : Nat) : Bar4 :=
  if 2 ^ s.bar4Size f < ofs + n ∨ n = 0 then .outside
  else match s.part? (s.funcPart f) with
  | none => .absent
  | some r =>
    let p := s.funcPart f
    let at_ (o : Nat) : Option Nat := if o < 2 ^ (s.win p).bar4Log2 then dramAt (s.bar4Ranges p r) o else none
    let l := (List.range n).map (fun i => at_ (ofs + i))
    let first := ((l.head?).bind id).getD 0
    if s.confidential p then .sealed_ first
    else if l.all (fun a => match a with | some a => s.inDram p a 1 && !s.inImage a | none => false)
    then .mapped (l.filterMap id) else .refused first

/-! ## Wares (R48, R138, R139, R496-R498) -/

/-- The place firmware found is one that R48 and R139 allow. -/
def State.placeOk (s : State) (p : Nat) (pl : Plan) (image : Bool) (x : List (List Nat) × Nat × List (Nat × Nat)) : Bool :=
  let tiles := x.1.flatten
  let ranges := x.2.2.all (fun r => decide (0 < r.2) && (s.bound p r.1 r.2 == .ok) && decide (r.1 < hostWindow) && !s.meetsPool p r.1 r.2)
  ranges && (image || (
    x.1.map List.length == pl.groups.map (·.1) &&
    (x.1.zip pl.groups).all (fun e => groupOk e.2.2 e.1) &&
    tiles.all (fun t => s.tileKept p t) && decide tiles.Nodup &&
    (List.range pl.tallies.length).all (fun i => s.tallyPart (x.2.1 + i) == p)))

/-- The dies that a placement needs run: those of its tiles, its tallies and its image (R506). -/
def State.placeUp (s : State) (pl : Plan) (x : List (List Nat) × Nat × List (Nat × Nat)) : Bool :=
  x.1.flatten.all (fun t => s.tileUp t) && (List.range pl.tallies.length).all (fun i => s.dieReady (4 + tallyHome (x.2.1 + i))) &&
    x.2.2.all (fun r => !s.meetsLost 10 r.1 r.2)
/-- The ware of partition p that an adapter image names, of the same signer and set (R498). -/
def State.joinedWare (s : State) (p : Nat) (f : WareForm) (w : WareReads) : Bool :=
  match s.ware? w.joins with
  | some x => x.part == p && !x.isImage && x.signer == f.signer && f.members.all x.members.contains && x.members.all f.members.contains
  | none => false
/-- Codes 0x02 to 0x0A of R497 for a ware of partition p, 0 for none.  A module without an identity unwraps nothing, so IDENTITY comes
before UNWRAP (R486; DEDUCED, log entry 98). -/
def State.wareCode (s : State) (p : Nat) (digestOk : Bool) (f : WareForm) (w : WareReads) : Nat :=
  let mine := s.teller.wares.filter (fun e => e.2.part == p)
  let mix := mine.any (fun e => (e.2.sealedWare || f.sealedWare) && e.2.signer != f.signer)
  if !digestOk then 0x02
  else if !w.sigOk || (f.adapterImage && !s.joinedWare p f w) then 0x03
  else if !f.members.contains s.boundId then 0x04
  else if !s.sec.identityOk then 0x0A
  else if !w.unwrapOk then 0x05
  else if !w.tagsOk then 0x06
  else if f.confOnly && !s.confidential p then 0x07
  else if mix then 0x08
  else if !f.adapterImage && decide (64 ≤ (mine.filter (fun e => !e.2.isImage)).length) then 0x09
  else 0
/-- R497 on the bytes of a ware; memory that meets poison gives no digest. -/
def State.checkWare (s : State) (p : Nat) (b : List Byte) (poison : Bool) (w : WareReads) : Except Nat WareForm :=
  match parseWare b with
  | none => .error 0x01
  | some f => let c := s.wareCode p (trailerHolds b && !poison) f w
    if c ≠ 0 then .error c else .ok f

/-- Firmware lays plans: tiles whose fences were removed are back, with the programs of the wares that use them (R139, R451). -/
def State.plansLaid (s : State) : State :=
  let s := s.teller.wares.foldl (fun s e =>
    if e.2.isImage then s else (e.2.tiles.filter (fun t => s.faults.fenceBack.getLsbD t)).foldl (fun s t => s.loadPrograms e.2.plan t) s) s
  { s with faults := { s.faults with fenceBack := 0 } }
/-- Place a verified ware: its tallies, programs, streams and image ranges. -/
def State.placeWare (s : State) (p : Nat) (f : WareForm) (w : WareReads) (x : List (List Nat) × Nat × List (Nat × Nat)) : Nat × State :=
  let h := s.teller.nextWare
  let tiles := sortBy (fun a b => decide (a < b)) x.1.flatten
  let rec' : Ware := {
    part := p, version := f.version, digest := f.digest, signer := f.signer, members := f.members, sealedWare := f.sealedWare,
    confOnly := f.confOnly, tenants := f.tenants, isImage := f.adapterImage, plan := w.plan,
    streams := if f.adapterImage then [] else bindStreams w.plan x, tiles := tiles, tallyBase := x.2.1, image := x.2.2, joins := w.joins }
  let s := x.2.2.foldl (fun s r => s.freeBytes r.1 r.2) s
  let s := if f.adapterImage then s else
    tiles.foldl (fun s t => s.loadPrograms w.plan t) (s.plansLaid.initTallies w.plan x.2.1)
  (h, { s with teller := { s.teller with wares := s.teller.wares ++ [(h, rec')], nextWare := h % 65534 + 1 } })

/-- A ware is unloaded: streams of it that serve no request are abandoned by their tags, and its image ranges are zeroed and return to
the partition (R499). -/
def State.dropWare (s : State) (h : Nat) : State :=
  match s.ware? h with
  | none => s
  | some w =>
    let s := w.runs.foldl (fun s e => e.2.waiting.foldl (fun s t => sendAbandon s t e.2.tag) s) s
    let s := w.image.foldl (fun s r => s.zeroRange r.1 r.2) s
    { s with teller := { s.teller with wares := s.teller.wares.filter (fun e => e.1 ≠ h) } }
/-- A request names the ware, or a published version its image. -/
def State.wareNamed (s : State) (h : Nat) : Bool :=
  s.teller.requests.any (fun e => e.2.state.active && (e.2.ware == h || e.2.draft == h)) ||
  s.teller.wares.any (fun e => e.1 != h && e.2.adapters.any (fun a => a.2.versions.any (fun v => v.2.1 == h)))

end Sys2Proof.Machine
end

