-- ==== Sys2Proof/Machine/Host.lean ====
section
/-! DEFINITION.  The commands and events of the host link and ports (chapter 12): one meaning per row. -/
namespace Sys2Proof.Machine
open Sys2Proof

/-! ## Queue registers (R373, R376, R390) -/

/-- Offset in BAR2 of a register of a queue's page (R372). -/
def queueOfs (cq : Bool) (q r : Nat) : Nat := (if cq then 0x400000 else 0) + q * 0x1000 + r
/-- A write by function f to a register of a queue's page. -/
def queueAccess (s : State) (f : Nat) (cq : Bool) (q r : Nat) (k : Nat → State → State) : Host.Outcome State Fault Refusal :=
  let p := s.funcPart f
  if !s.barOpen f then .next (s.reply .unsupported)
  else if q < 1024 ∧ p < 8 ∧ s.queuePart cq q = p ∧ s.dieReady 8 then .next (k p (s.reply .accepted))
  else .next (s.refuse (.func f) (bar2Addr (queueOfs cq q r)) true)

/-- VLT_SQq_TAIL (R376). -/
def execSqTailDoorbell (f q : Nat) (v : Word) (s : State) : Host.Outcome State Fault Refusal :=
  queueAccess s f false q 0x10 (fun p s =>
    let x := s.sq q
    let i := v.toNat % 4096
    let added := (i + x.size - x.tail) % x.size
    let free := x.size - 1 - (x.tail + x.size - x.head) % x.size
    if x.size ≤ i ∨ free < added then (s.setSq q { x with dbErr := true }).badDoorbell f p (queueOfs false q 0x10)
    else s.setSq q { x with tail := i })

/-- VLT_CQq_HEAD (R376, R378): handles whose final completion HEAD passes are forgotten. -/
def execCqHeadDoorbell (f q : Nat) (v : Word) (s : State) : Host.Outcome State Fault Refusal :=
  queueAccess s f true q 0x10 (fun p s =>
    let x := s.cq q
    let i := v.toNat % 4096
    let n := (i + x.size - x.head) % x.size
    if x.size ≤ i ∨ x.held < n then (s.setCq q { x with dbErr := true }).badDoorbell f p (queueOfs true q 0x10)
    else
      let passed (o : OpRec) : Bool := match o.finalPos with
        | some (c, slot) => c == q && decide ((slot + x.size - x.head) % x.size < n)
        | none => false
      let s := s.setCq q { x with head := i }
      { s with host := { s.host with handles := s.host.handles.filter (fun e => !passed e.2) } }.releaseStaged p)

/-- VLT_SQq_CFG, VLT_CQq_CFG (R373). -/
def execQueueCfgWrite (f : Nat) (cq : Bool) (q : Nat) (v : Word) (s : State) : Host.Outcome State Fault Refusal :=
  queueAccess s f cq q 0x08 (fun _ s => s.cfgWrite cq q v.toNat)
/-- VLT_SQq_BASE, VLT_CQq_BASE (R373). -/
def execQueueBaseWrite (f : Nat) (cq : Bool) (q : Nat) (v : DWord) (s : State) : Host.Outcome State Fault Refusal :=
  queueAccess s f cq q 0x00 (fun _ s => s.baseWrite cq q v)

/-- V0 fetches the entry at the head of submission queue q (R374, R376, R377); a fetch outside the partition's bounds fails, with the
bounds fault of R41. -/
def execSqFetch (q : Nat) (r : FetchReply) (s : State) : Host.Outcome State Fault Refusal :=
  let x := s.sq q
  let p := s.sqPart q
  let fn := s.partFunc p
  if !x.en ∨ x.halted ∨ x.head = x.tail ∨ 8 ≤ p ∨ s.funcQuiet fn ∨ !s.dieReady 8 ∨ (x.loc && !s.dramOpen) ∨ !s.cqRoom x.bind then .next s
  else
    let a := x.addr + x.head % x.size * 64
    let out := s.bound p a 64 ≠ .ok
    let s := if out then s.boundsFault p a else s.fetch (.vault 0) a 64
    if r ≠ .data ∨ out ∨ s.meetsPoison (.vault 0) a 64 then
      .next ((s.setSq q { x with halt := true, halted := true, inFlight := x.inFlight + 1 }).due
        { fn := fn, cid := 0xFFFF, sq := q, cq := x.bind, status := 0x08 })
    else
      let e := s.readBytes a 64
      let s := s.setSq q { x with head := (x.head + 1) % x.size, inFlight := x.inFlight + 1 }
      let f : Forwarded := { fn := fn, sq := q, cid := lfld e 2 2, opcode := lfld e 0 1, body := e.drop 16 }
      if !knownOpcode f.opcode then .next (s.answer f 0x01 0 0)
      else if !lzero e 1 1 ∨ !lzero e 4 12 then .next (s.answer f 0x02 0 0)
      else .next { s with host := { s.host with forwarded := s.host.forwarded ++ [f] } }

/-- The oldest completion that has fallen due, an action of the active island (R446), is written to its CQ, or held in staging (R376,
R382); while the partition's share of staging is full it waits. -/
def execCompletionPost (s : State) : Host.Outcome State Fault Refusal :=
  match s.host.due with
  | [] => .next s
  | k :: rest =>
    let p := s.cqPart k.cq
    if (s.cq k.cq).loc ∧ !s.dramOpen then .next s
    else if p < 8 ∧ s.stagingFull p ∧ !(s.cqWritable k.cq && s.stagedFor p k.cq == 0) then .next s else
    let s := ({ s with host := { s.host with due := rest } } : State).logAct (.completion k.fn k.cid) true
    let x := s.sq k.sq
    let write (s : State) : State :=
      if 8 ≤ p then s
      else if s.cqWritable k.cq && s.stagedFor p k.cq == 0 then
        let r := s.writeCompletion k
        if r.2 then r.1 else r.1.pushStaged p (.completion k)
      else s.pushStaged p (.completion k)
    let s := write (if k.final then s else s.setSq k.sq { x with inFlight := x.inFlight - 1 })
    .next (if !k.final && x.shutting && decide (x.inFlight ≤ 1) then s.shutDone false k.sq else s)

/-! ## Wares and DRAM (R377, R531) -/

/-- A SRC range of R531, and whether it lies outside the partition's bounds. -/
def State.srcOk (s : State) (p a n limit : Nat) : Bool := decide (0 < n) && decide (n ≤ limit) && (s.inDram p a n || s.inHost p a n)
def State.srcOutside (s : State) (p a n : Nat) : Bool := decide (0 < n) && !(s.inDram p a n || s.inHost p a n)
/-- Refuse a long operation's command; a range outside bounds is a bounds fault too (R531). -/
def State.refuseRange (s : State) (f : Forwarded) (code p a : Nat) (outside : Bool) : State :=
  (if code = 0x0A ∧ outside then s.boundsFault p a else s).answer f code 0 0

/-- WARE_LOAD (R377, R494, R497): the range is checked, and the handle returned. -/
def execWareLoad (q : Nat) (s : State) : Host.Outcome State Fault Refusal :=
  .next (onForwarded q 0x01 s (fun f s =>
    let p := s.funcPart f.fn
    let a := f.fld 16 6
    let n := f.fld 22 4
    let o : Origin := .host f.fn f.sq f.cid
    let code := lowest [(bodyReserved f 26, 0x02), (16 ≤ s.openHandles o, 0x09), (!s.srcOk p a n (2 ^ 32), 0x0A),
      (s.confidential p && s.inDram p a n, 0x22)]
    if code ≠ 0 then s.refuseRange f code p a (s.srcOutside p a n)
    else
      let h := s.newHandle { origin := o, kind := .wareLoad, part := p, cq := (s.sq f.sq).bind, base := a, units := n }
      h.2.answer f 0 h.1 0))

/-- A ware load has verified, decrypted and placed its ware, or refuses it; it waits for a die that its placement needs (R48, R139, R497,
R506). -/
def execWareLoadDone (handle : Nat) (w : WareReads) (s : State) : Host.Outcome State Fault Refusal :=
  match s.op? handle with
  | none => .next s
  | some o =>
    if o.kind ≠ .wareLoad ∨ o.state ≠ .running ∨ s.islands.noneActive then .next s
    else
      let p := o.part
      match s.checkWare p (s.readBytes o.base o.units) (s.meetsPoison .mint o.base o.units) w with
      | .error code =>
        let s := s.ohmErr 0 code p
        let s := if code ≤ 6 ∨ code = 0x0A then s.raise { source := 397 + p, owner := p } else s
        .next (s.endHandle handle .done 0x41 code)
      | .ok f =>
        if f.confOnly ∧ s.faults.testMode then .next ((s.ohmErr 3 0x53 p).endHandle handle .done 0x53 0)
        else match w.placed with
        | none => .next (s.endHandle handle .done 0x42 0)
        | some x =>
          if !s.placeOk p w.plan f.adapterImage x then .next (s.endHandle handle .done 0x42 0)
          else if !s.placeUp w.plan x then .next s
          else
            let r := s.placeWare p f w x
            .next (r.2.endHandle handle .done 0 r.1)

/-- WARE_UNLOAD (R377, R499). -/
def execWareUnload (q : Nat) (s : State) : Host.Outcome State Fault Refusal :=
  .next (onForwarded q 0x02 s (fun f s =>
    let h := f.fld 16 2
    let mine := match s.ware? h with | some w => w.part == s.funcPart f.fn | none => false
    let code := lowest [(bodyReserved f 18, 0x02), (mine && s.wareNamed h, 0x23), (!mine, 0x24)]
    if code ≠ 0 then s.answer f code 0 0 else (s.dropWare h).answer f 0 0 0))

/-- The check that SCRUB and MEM_TEST share, then the operation (R377, R531). -/
def unitCommand (q op : Nat) (kind : OpKind) (s : State) (k : Nat → Nat → Nat → Nat → State → State) : State :=
  onForwarded q op s (fun f s =>
    let p := s.funcPart f.fn
    let a := f.fld 16 6
    let n := f.fld 22 4
    let o : Origin := .host f.fn f.sq f.cid
    let inD := decide (0 < n) && s.inDram p a (n * 0x4000000)
    let code := lowest [(bodyReserved f 26, 0x02), (16 ≤ s.openHandles o, 0x09), (!inD || a % 0x4000000 != 0, 0x0A)]
    if code ≠ 0 then s.refuseRange f code p a (decide (0 < n) && !inD)
    else
      let h := s.newHandle { origin := o, kind := kind, part := p, cq := (s.sq f.sq).bind, base := a, units := n }
      (k h.1 p a n h.2).answer f 0 h.1 0)

/-- SCRUB (R377): a zero-writer job for each 64 MiB unit. -/
def execScrub (q : Nat) (s : State) : Host.Outcome State Fault Refusal :=
  .next (unitCommand q 0x04 .scrub s (fun h p a n s =>
    let jobs : List ZeroJob := (List.range n).map (fun i => { base := a + i * 0x4000000, bytes := 0x4000000, purpose := 1, part := p, handle := h })
    { s with mem := { s.mem with zeroJobs := s.mem.zeroJobs ++ jobs } }))

/-- MEM_TEST (R377): from now on the range's contents are undefined. -/
def execMemTest (q : Nat) (s : State) : Host.Outcome State Fault Refusal :=
  .next (unitCommand q 0x05 .memTest s (fun _ _ a n s => s.freeBytes a (n * 0x4000000)))

/-- A SCRUB whose units are all zero, or a MEM_TEST with its failing lines, ends (R378). -/
def execLongOperationDone (handle : Nat) (failing : List Nat) (s : State) : Host.Outcome State Fault Refusal :=
  match s.op? handle with
  | none => .next s
  | some o =>
    if o.state ≠ .running ∨ s.islands.noneActive then .next s
    else if o.kind = .scrub then (if o.units ≤ o.doneUnits then .next (s.endHandle handle .done 0 0) else .next s)
    else if o.kind = .memTest then
      let n := o.units * 0x4000000
      let lines := failing.dedup.filter (fun l => decide (o.base ≤ l * 64) && decide (l * 64 < o.base + n))
      let s := (s.zero o.base n).freeBytes o.base n
      let s := if s.mem.ecc then lines.foldl (fun s l => s.poisonLine l 5) s else s
      .next (s.endHandle handle .done (if lines.isEmpty then 0 else 0x07) lines.length)
    else .next s

/-- OP_QUERY (R378). -/
def execOpQuery (q : Nat) (s : State) : Host.Outcome State Fault Refusal :=
  .next (opCommand q 0x08 s (fun h s => match s.op? h with
    | some o => let r := s.opProgress o; (0, opCode o.state, r.1, r.2)
    | none => (0x04, 0, 0, s)))
/-- OP_SUSPEND (R379). -/
def execOpSuspend (q : Nat) (s : State) : Host.Outcome State Fault Refusal :=
  .next (opCommand q 0x09 s (fun h s => let r := s.pauseOp h true; (r.1, 0, 0, r.2)))
/-- OP_RESUME (R379). -/
def execOpResume (q : Nat) (s : State) : Host.Outcome State Fault Refusal :=
  .next (opCommand q 0x0A s (fun h s => let r := s.pauseOp h false; (r.1, 0, 0, r.2)))
/-- OP_CANCEL (R379). -/
def execOpCancel (q : Nat) (s : State) : Host.Outcome State Fault Refusal :=
  .next (opCommand q 0x0B s (fun h s => let r := s.cancelOp h; (r.1, 0, 0, r.2)))

/-! ## Resets and the link (R368, R380-R382) -/

/-- FLR of function f (R380). -/
def execFlr (f : Nat) (s : State) : Host.Outcome State Fault Refusal :=
  if s.funcLive f ∧ s.host.linkUp then .next (s.flr f) else .next s

/-- A filtered level of MNT_SB_LEVEL (R391); an input that has become inactive is held no longer (R386). -/
def State.setLevel (s : State) (n : Nat) (on : Bool) : State :=
  let m := BitVec.ofNat 7 (2 ^ n)
  let held : BitVec 4 := if !on && n == 5 then 8 else if !on && decide (n < 3) then BitVec.ofNat 4 (2 ^ n) else 0
  { s with host := { s.host with sbActive := if on then s.host.sbActive ||| m else s.host.sbActive &&& ~~~ m
                                 sbHeld := s.host.sbHeld &&& ~~~ held } }

/-- PERST_N (R368, R381): assertion is a PCIe reset; at deassertion REFCLK is sampled and training starts.  A chattering
input stays asserted (R387). -/
def execPerstN (asserted refclk : Bool) (s : State) : Host.Outcome State Fault Refusal :=
  if !asserted ∧ s.host.sbChattering.getLsbD 0 then .next s else
  let s := s.setLevel 0 asserted
  if asserted then
    let s := if s.host.perstAsserted then s else s.pcieReset
    .next { s with host := { s.host with perstAsserted := true, linkTraining := false } }
  else .next { s with host := { s.host with perstAsserted := false, refclkPresent := refclk, refclkUsed := refclk, linkTraining := s.dieReady 8 } }

/-- A hot reset (R381); the link trains again. -/
def execHotReset (s : State) : Host.Outcome State Fault Refusal :=
  if !s.host.linkUp then .next s
  else
    let s := s.pcieReset
    .next { s with host := { s.host with linkTraining := true } }

/-- The link goes down, or a function enters D3hot or clears Bus Master Enable (R382). -/
def execLinkDown (d : LinkDown) (s : State) : Host.Outcome State Fault Refusal :=
  match d with
  | .link =>
    if s.host.linkUp then
      .next ({ s with host := { s.host with linkUp := false, linkTraining := !s.host.perstAsserted } }.raise { source := 301 })
    else .next s
  | .d3hot f => if s.funcLive f then .next (s.setFunc f { s.func f with d3hot := true }) else .next s
  | .busMasterClear f => if s.funcLive f then .next (s.setFunc f { s.func f with bme := false }) else .next s

/-- The link has been down for more than 1 s (R382). -/
def execLinkDownTimeout (s : State) : Host.Outcome State Fault Refusal :=
  if s.host.linkUp then .next s else .next s.endHostRings

/-- REFCLK is lost while the link uses it (R368): the link is down, and a training that uses it ends, until V0 retries (R368). -/
def execRefclkLost (s : State) : Host.Outcome State Fault Refusal :=
  let s' := { s with host := { s.host with refclkPresent := false } }
  if !s.host.refclkUsed then .next s'
  else
    let t := { s' with host := { s'.host with linkUp := false, linkTraining := false } }
    .next (if s.host.linkUp then t.raise { source := 301 } else t)

/-- V0 retries training with the reference then present (R368). -/
def execLinkRetry (refclk : Bool) (s : State) : Host.Outcome State Fault Refusal :=
  if s.host.linkUp ∨ s.host.perstAsserted ∨ !s.dieReady 8 then .next s
  else .next { s with host := { s.host with linkTraining := true, refclkPresent := refclk, refclkUsed := refclk } }

/-- Training completes (R382). -/
def execPcieLinkUp (s : State) : Host.Outcome State Fault Refusal :=
  if s.host.linkTraining ∧ !s.host.perstAsserted ∧ s.dieReady 8 then
    let s := { s with host := { s.host with linkUp := true, linkTraining := false } }.trainPcie
    .next ((List.range 9).foldl State.funcReturns s)
  else .next s

/-- A BAR4 size or address written while Memory Space Enable is set is ignored and logged; the access has no device
address, so the one logged is free (R371, log entry 20). -/
def State.logMse (s : State) (f : Nat) : State :=
  let r := s.takeFree
  r.2.logAccess f (r.1.toNat % 2 ^ 48) causeMse true

/-- Memory Space Enable stands for the BAR4 of function f, which a VF shares with the others (R371). -/
def State.barFixed (s : State) (f : Nat) : Bool :=
  if f = 0 then (s.func 0).mse else (List.range 8).any (fun i => (s.func (i + 1)).mse)

/-- A configuration-space write of function f (R365, R366, R371, R380, R382, R419). -/
def execConfigSpaceWrite (f : Nat) (w : ConfigWrite) (s : State) : Host.Outcome State Fault Refusal :=
  if 8 < f ∨ !s.host.linkUp ∨ (f ≠ 0 ∧ (!s.host.vfEnable ∨ s.mould.totalVfs < f)) then .next s
  else
    let x := s.func f
    match w with
    | .memorySpace on => .next (s.setFunc f { x with mse := on })
    | .busMaster on => .next ((s.setFunc f { x with bme := on }).funcReturns f)
    | .powerState d => .next ((s.setFunc f { x with d3hot := d }).funcReturns f)
    | .vfEnable on =>
      if f ≠ 0 then .next s
      else if on then .next { s with host := { s.host with vfEnable := true } }
      else
        let s := if s.host.vfEnable then ((List.range 8).map (· + 1)).foldl (State.flrOne · (fun _ => 0x05) false) s else s
        .next { s with host := { s.host with vfEnable := false } }
    | .functionMask on => .next ((s.setFunc f { x with funcMask := on }).funcReturns f)
    | .bar4Size n =>
      if s.barFixed f then .next (s.logMse f)
      else if n < 20 ∨ s.bar4Offer f < n then .next s
      else if f = 0 then .next (s.setFunc f { x with bar4Log2 := n })
      else .next { s with host := { s.host with vfBarLog2 := n } }
    | .bar4Base v =>
      if s.barFixed f then .next (s.logMse f)
      else if f = 0 then .next (s.setFunc f { x with bar4Base := v })
      else .next { s with host := { s.host with vfBarBase := v } }
    | .payload a b => .next (s.setFunc f { x with mps := a % 8, mrrs := b % 8 })
    | .ecrc a b => .next (s.setFunc f { x with ecrcGen := a, ecrcCheck := b })
    | .msixEntry e a d m =>
      if tableSize f ≤ e then .next s
      else
        let s := s.setFunc f { x with msix := sset {} x.msix e { addr := a, data := d, mask := m } }
        .next (if !m && x.pba.contains e then s.sendMessage (vecKey f e) else s)

/-! ## Ethernet ports (R383, R384) -/

/-- A stream port's link comes up or goes down (R383). -/
def execStreamPortLink (port : Nat) (up : Bool) (s : State) : Host.Outcome State Fault Refusal :=
  if 4 ≤ port ∨ !s.dieReady 9 then .next s
  else
    let e := sget {} s.host.eth port
    let s' := { s with host := { s.host with eth := sset {} s.host.eth port { e with link := up, anDone := up, fecLock := up } } }
    .next (if e.link && !up then s'.raise { source := 303 } else s')

/-- A management port's link comes up or goes down (R384). -/
def execMgmtPortLink (port : Nat) (up : Bool) (s : State) : Host.Outcome State Fault Refusal :=
  if 2 ≤ port ∨ !s.links.rootLock then .next s
  else
    let m := BitVec.ofNat 2 (2 ^ port)
    let was := s.host.mgmtLinkUp.getLsbD port
    let s' := { s with host := { s.host with mgmtLinkUp := if up then s.host.mgmtLinkUp ||| m else s.host.mgmtLinkUp &&& ~~~ m } }
    .next (if was && !up then s'.raise { source := 304 } else s')

/-- A frame for another address, and a broadcast, leaves by the other port unchanged (R384). -/
def execMgmtFrameForward (port : Nat) (forUs broadcast : Bool) (frame : List Byte) (s : State) : Host.Outcome State Fault Refusal :=
  if port < 2 ∧ s.links.rootLock ∧ s.host.mgmtLinkUp.getLsbD port ∧ s.host.mgmtLinkUp.getLsbD (1 - port) ∧ frame.length ≤ 1522 ∧
      (broadcast ∨ !forUs)
  then .next { s with host := { s.host with mgmtOut := s.host.mgmtOut ++ [(1 - port, frame)] } }
  else .next s

/-! ## BAR4 (R371) -/

/-- A BAR4 access that reaches no memory: reply, log and fault (R19, R41, R369). -/
def State.bar4Refused (s : State) (f : Nat) (b : Bar4) (write : Bool) : State :=
  let r : AccessReply := if write then .dropped else .completerAbort
  match b with
  | .outside => s.reply .unsupported
  | .absent => if write then (s.logAccess f 0 causeUnimpl true).reply r else s.reply r
  | .sealed_ a => (s.logAccess f a causeUnimpl write).reply r
  | .refused a => ((if write then s.logAccess f a causeUnimpl true else s).boundsFault (s.funcPart f) a).reply r
  | .mapped _ => s

/-- An inbound BAR4 write (R41, R183, R193, R371); one to a channel that has to wait waits (R428, log entry 86). -/
def execBar4Write (f ofs : Nat) (data : List Byte) (ep : Bool) (s : State) : Host.Outcome State Fault Refusal :=
  if !s.barOpen f ∨ !s.dieReady 8 then .next (s.reply .unsupported)
  else match s.bar4Map f ofs data.length with
  | .mapped l =>
    if l.any s.chanPaused then .next s else
    let s := s.reply .accepted
    if ep && s.mem.ecc then
      .next ((l.map (· / 64)).dedup.foldl (fun s ln =>
        ((homeSide s ln true).poisonLine ln 4).raise { source := 181 + s.channelOf (ln * 64), owner := s.addrPart (ln * 64), addr := ln * 64 }) s)
    else
      let s := if ep then s.logAccess f (l.head?.getD 0) causePoison true else s
      .next (match l with
        | [] => s
        | a :: _ => if l = (List.range l.length).map (a + ·) then s.put (.vault 0) a data
                    else (l.zip data).foldl (fun s e => s.put (.vault 0) e.1 [e.2]) s)
  | b => .next (s.bar4Refused f b true)

/-- An inbound BAR4 read (R41, R183, R210, R371): poison, also that of a home which does not answer, comes back as a poisoned
completion, its bytes free (log entry 3); one from a channel that has to wait waits (R428, log entry 86). -/
def execBar4Read (f ofs len : Nat) (s : State) : Host.Outcome State Fault Refusal :=
  if !s.barOpen f ∨ !s.dieReady 8 then .next (s.reply .unsupported)
  else match s.bar4Map f ofs len with
  | .mapped l =>
    if l.any s.chanPaused then .next s else
    let s := ((l.map (· / 64)).dedup).foldl (fun s ln => homeSide s ln false) s
    if ((l.map (· / 64)).dedup).any (fun ln => s.meetsPoison (.vault 0) (ln * 64) 64) then
      .next ({ s with free := s.free + 1 }.reply (.data ((List.range len).map (Config.freeByte s.free)) true))
    else .next (s.reply (.data (l.map s.readByte) false))
  | b => .next (s.bar4Refused f b false)

end Sys2Proof.Machine
end

