-- ==== Sys2Proof/Machine/Ledger.lean ====
section
/-! DEFINITION.  The Ledger (R439-R443): records entering the tail, the one-second windows of fault records, the tail's
way to flash, and reads. -/
namespace Sys2Proof.Machine
open Sys2Proof

/-- The next SEQ, which is never used again (R440). -/
def State.nextSeq (s : State) : Nat × State :=
  (s.ledger.nextSeq, { s with ledger := { s.ledger with nextSeq := (s.ledger.nextSeq + 1) % 2 ^ 32 } })
def State.pushTail (s : State) (r : LedgerRec) : State := { s with ledger := { s.ledger with tail := s.ledger.tail ++ [r] } }

/-- A record other than FAULT enters the tail (R441), its DETAIL given as bytes. -/
def State.note (s : State) (typ : Nat) (detail : List Byte) : State :=
  let n := s.nextSeq
  n.2.pushTail { seq := n.1, firing := s.ledger.firingCount, stamp := s.links.aoCount.toNat, typ := typ,
                 detail := BitVec.ofNat 64 (leNat (detail.take 8)) }

/-- The stronger of two reaction codes. -/
def stronger (a b : Nat) : Nat := if strength a < strength b then b else a

/-- The next occurrence of a source makes a record of its own: its window has none yet, or no further one (R442). -/
def State.makesRecord (s : State) (n : Nat) : Bool := match sget none s.ledger.windows n with
  | some w => w.further.isNone
  | none => true
/-- One occurrence of a source enters the Ledger by its window (R442); the SEQ of the FAULT record that reports it. -/
def State.noteFault (s : State) (r : LedgerRec) : Nat × State :=
  match sget none s.ledger.windows r.source with
  | none =>
    let n := s.nextSeq
    let r := { r with seq := n.1, count := 1 }
    let s := n.2.pushTail r
    (n.1, { s with ledger := { s.ledger with windows := sset none s.ledger.windows r.source (some { first := r }) } })
  | some w =>
    match w.further with
    | none =>
      let n := s.nextSeq
      let w' : WindowRec := { w with further := some { r with seq := n.1, count := 1 } }
      (n.1, { n.2 with ledger := { n.2.ledger with windows := sset none n.2.ledger.windows r.source (some w') } })
    | some g =>
      let g' := { g with count := min 65535 (g.count + 1), cls := max g.cls r.cls, reaction := stronger g.reaction r.reaction,
                         escalated := g.escalated || r.escalated, injected := g.injected || r.injected }
      (g.seq, { s with ledger := { s.ledger with windows := sset none s.ledger.windows r.source (some { w with further := some g' }) } })

/-- Records that the ring of both flash devices holds: 63 sectors, the oldest erased when it is full (R439). -/
def ledgerKeep (l : List LedgerRec) : List LedgerRec := if 63 * 8192 < l.length then l.drop 8192 else l
/-- The tail is written to both flash copies (R439). -/
def State.writeTail (s : State) : State :=
  { s with ledger := { s.ledger with ring := ledgerKeep (s.ledger.ring ++ s.ledger.tail), ringB := ledgerKeep (s.ledger.ringB ++ s.ledger.tail),
                                     tail := [] } }
/-- The highest SEQ of a copy of the ring. -/
def newestSeq (l : List LedgerRec) : Nat := ((l.map (·.seq)).max?).getD 0
/-- The two copies are read, each without the newest records that it lacks: the one with the higher SEQ governs, and the other is
rewritten from it (R439).  The summaries change together, and are held once. -/
def State.readLedger (s : State) (lostA lostB : Nat) : State :=
  let a := s.ledger.ring.take (s.ledger.ring.length - lostA)
  let b := s.ledger.ringB.take (s.ledger.ringB.length - lostB)
  let l := if newestSeq a < newestSeq b then b else a
  { s with ledger := { s.ledger with ring := l, ringB := l } }

/-- Ohmis writes the tail (R442). -/
def execLedgerTailWrite (s : State) : Host.Outcome State Fault Refusal := .next s.writeTail

/-- A one-second window ends: each source's further record enters the tail (R442). -/
def execLedgerWindowEnd (s : State) : Host.Outcome State Fault Refusal :=
  let further := s.ledger.windows.filterMap (fun e => e.2.bind (·.further))
  .next { s with ledger := { s.ledger with windows := [], tail := s.ledger.tail ++ further } }

/-- Oldest SEQ held in flash, and the newest (R443). -/
def State.ledgerOldest (s : State) : Nat := ((s.ledger.ring.map (·.seq)).min?).getD 0
def State.ledgerNewest (s : State) : Nat := newestSeq s.ledger.ring

/-- The Ledger read that FLT_LDG_SEL began ends (R398, R443). -/
def execLedgerReadDone (s : State) : Host.Outcome State Fault Refusal :=
  match s.reg.posted.find? (fun p => p.block = faultBlock) with
  | none => .next s
  | some p =>
    let r := s.ledger.ring.find? (fun r => r.seq = p.value.toNat % 2 ^ 32)
    .next { s with
      reg := { s.reg with posted := s.reg.posted.filter (fun p => p.block ≠ faultBlock) }
      ledger := { s.ledger with sel := p.value.toNat % 2 ^ 32, busy := false, notHeld := r.isNone, shown := r } }

/-- The 32 bytes of a record (R440). -/
def LedgerRec.bytes (r : LedgerRec) : List Byte :=
  toLE 4 r.seq ++ toLE 4 r.firing ++ toLE 8 r.stamp ++ toLE 1 r.typ ++
    toLE 1 (r.cls + 4 * b2n r.escalated + 8 * b2n r.injected) ++ toLE 2 r.source ++ toLE 1 r.reaction ++ toLE 1 r.owner ++
    toLE 2 r.count ++ toLE 8 r.detail.toNat
/-- Word n of a record, or zero where none is shown. -/
def recWord (r : Option LedgerRec) (n : Nat) : Nat := match r with | some r => lfld r.bytes (8 * n) 8 | none => 0

end Sys2Proof.Machine
end

