-- ==== Sys2Proof/Machine/Resets.lean ====
section
/-! DEFINITION.  What is lost and what goes on when a partition, a tile, a kiln, a hearth or a vault is reset or fenced
(R137, R209, R211, R301, R355, R356, R429, R451-R453), as shared operations. -/
namespace Sys2Proof.Machine
open Sys2Proof

/-! ## Partition reset (R429) -/

/-- The runs of partition p's wares are over: what the flushed queues held gives no END record. -/
def State.dropRuns (s : State) (p : Nat) : State :=
  { s with teller := { s.teller with wares := s.teller.wares.map (fun e =>
      if e.2.part = p then (e.1, { e.2 with step := none, chunk := none, vision := none, house := none, rerun := false }) else e) } }

/-- A partition reset: requests end with FAULT, streams close with MODE 1, every queue of its tiles is flushed, with what was on its way
there, long operations are cancelled as an FLR cancels them, sessions of a CONFIDENTIAL partition close (R429, R499). -/
def State.partitionReset (s : State) (p : Nat) : State :=
  match s.part? p with
  | none => s
  | some r =>
    let s := s.killRequests p 0x09 (fun _ => true)
    let s := s.closeContexts (fun c => s.ctxPart c == p) 0
    let s := (List.range 32).foldl (fun s t =>
      if r.tiles.getLsbD t then (List.range 4).foldl (fun s q => flushQueue s t q) (s.dropTails t) else s) s
    let s := (s.dropRuns p).cancelOps r.func true
    if r.confidential then s.closeSessions p else s

/-! ## Tiles (R137, R301) -/

/-- The contents of a tile are lost; its transfers run on where its hearth does. -/
def State.loseTile (s : State) (t : Nat) (engines : Bool) : State :=
  let x := s.tile t
  let s := (s.dropWaiter t).dropContribution t
  let s := s.setTile t (if engines then {} else { engine0 := x.engine0, engine1 := x.engine1 })
  let s := s.dropTails t
  { s with teller := { s.teller with abandons := s.teller.abandons.filter (fun e => e.1 ≠ t) } }

/-- A run that a lost tile took part in is broken off: the tiles left abandon it by its tags, and it is rerun (R301). -/
def State.breakRun (s : State) (h : Nat) (lost : Nat → Bool) : State :=
  let cut (x : StepRun) : StepRun := { x with abandoned := true, waiting := x.waiting.filter (fun t => !lost t) }
  match s.ware? h with
  | none => s
  | some w =>
    let runs := w.runs.map (·.2)
    let w' := { w with step := w.step.map cut, chunk := w.chunk.map cut, vision := w.vision.map cut, house := w.house.map cut, rerun := true }
    if runs.isEmpty then s
    else runs.foldl (fun s x => (cut x).waiting.foldl (fun s t =>
      (x.tag :: x.rows.map (fun r => reqTag r.req)).foldl (fun s g => sendAbandon s t g) s) s) (s.setWare h w')
/-- Break off the runs of every ware with a tile among the lost ones; an ACTIVATE hold of it is released (R526). -/
def State.breakRuns (s : State) (lost : Nat → Bool) : State :=
  s.teller.wares.foldl (fun s e =>
    if e.2.tiles.any lost then
      let s := s.breakRun e.1 lost
      match s.ware? e.1 with
      | some w => s.setWare e.1 { w with held := false }
      | none => s
    else s) s

/-- Requests of the wares that a test names end with FAULT (R301, R453). -/
def State.failWares (s : State) (which : Ware → Bool) : State :=
  s.teller.wares.foldl (fun s e =>
    if !which e.2 then s
    else (s.requestsOf e.2.part).foldl (fun s r =>
      if r.2.state.live && (r.2.ware == e.1 || r.2.draft == e.1) then s.drain r.1 0x09 else s) s) s

/-! ## Fences (R451) -/

/-- A FENCE record (R441). -/
def State.noteFence (s : State) (kind i : Nat) (on : Bool) : State := s.note 0x05 (toLE 1 kind ++ toLE 1 i ++ toLE 1 (b2n on))

/-- A channel is fenced from the next firing on. -/
def State.fenceChan (s : State) (c : Nat) : State :=
  ({ s with ledger := { s.ledger with fenceChans := s.ledger.fenceChans ||| BitVec.ofNat 48 (2 ^ c) } } : State).noteFence 1 c true
/-- A wheel stops: its contexts close with ERROR (R428, R451). -/
def State.stopWheel (s : State) (w : Nat) : State :=
  let s := s.setWheel w { s.wheel w with active := false }
  s.closeContexts (fun c => (s.ctx c).cfg.wheel == w) 8
/-- A wheel's reset (R428): its open contexts close with ERROR, and the unit is as after reset (R17). -/
def State.resetWheel (s : State) (w : Nat) : State := (s.stopWheel w).setWheel w {}
def State.fenceWheel (s : State) (w : Nat) : State :=
  let m := BitVec.ofNat 4 (2 ^ w)
  (({ s with
    faults := { s.faults with fenceWheels := s.faults.fenceWheels ||| m }
    ledger := { s.ledger with fenceWheels := s.ledger.fenceWheels ||| m } } : State).noteFence 2 w true).stopWheel w

/-! ## Ports of a die (R32, R346, R361) -/

/-- A port goes down and trains again: the reset end from reset, the far end with its lane map and its width from before (R346).  A
lane marked failed stays failed at either end (R343). -/
def State.downEnd (s : State) (e : Nat) (fresh : Bool) : State :=
  let x := s.portEnd e
  if x.fenced then s
  else s.setPortEnd e (if fresh then { en := true, training := true, fromReset := true, trainedOnce := x.trainedOnce, retrains := x.retrains,
                                       laneFail := x.laneFail, spareFail := x.spareFail }
    else { x with up := false, width := 0, training := true, repairing := false, narrowTo := 0, fromReset := false, bulk := 0, groups := [],
                  prior := if x.up then x.width else x.prior })

/-- The ports of die d when it resets: its own ends are as after reset, and the ports train again.  A port that is fenced for another
reason than its own end's EN stays fenced, its end's registers reset (R17, R345, R362). -/
def State.downPorts (s : State) (d : Nat) : State :=
  (dieEnds d).foldl (fun s e =>
    let x := s.portEnd e.1
    let y := s.portEnd e.2
    if !x.fenced then (s.downEnd e.1 true).downEnd e.2 false
    else if x.en || !y.en then
      s.setPortEnd e.1 { en := true, fenced := true, trainedOnce := x.trainedOnce, retrains := x.retrains, laneFail := x.laneFail, spareFail := x.spareFail }
    else ((s.setPortEnd e.1 { x with fenced := false }).setPortEnd e.2 { y with fenced := false, shutting := false } |> fun s =>
      (s.downEnd e.1 true).downEnd e.2 false)) s

/-! ## Dies (R209, R211, R355, R356, R453) -/

/-- Lines homed at a die leave every other hearth, dirty ones discarded, and their directory states are lost. -/
def State.dropHomed (s : State) (d : Nat) : State :=
  let homed (l : Nat) : Bool := match s.home (l * 64) with | some h => h.die == d | none => false
  let s := (List.range 4).foldl (fun s h =>
    s.setHearth h { s.hearth h with rc := (s.hearth h).rc.filter (fun e => !homed e.1) }) s
  { s with mem := { s.mem with dir := s.mem.dir.filter (fun e => !homed e.1) } }

/-- The dirty copies of hearth h are lost (R209): in directory mode the home finds that out at the next request for the line
(`State.ownerGone`); in broadcast mode DRAM keeps what it held, and every partition with tiles there is told. -/
def State.loseCopies (s : State) (h : Nat) : State :=
  let dirty := (s.hearth h).rc.filterMap (fun e => match e.2, s.home (e.1 * 64) with
    | some c, some hm => if c.dirty && !s.directory hm then some (e.1, c) else none
    | _, _ => none)
  let s := dirty.foldl (fun s e => { s with mem := s.mem.writeBytes (e.1 * 64) e.2.stale }) s
  if dirty.isEmpty then s
  else s.mould.parts.foldl (fun s e =>
    if (List.range 8).any (fun i => e.2.tiles.getLsbD (8 * h + i)) then s.raise { source := 80 + h, owner := e.1 } else s) s

/-- Posted writes of a block are lost at its die's reset (R421). -/
def State.losePosted (s : State) (block : Nat) : State :=
  let gone := s.reg.posted.filter (fun p => p.block = block)
  gone.foldl (fun s p => s.logAccess (instOf p.master) p.addr causeDie true)
    { s with reg := { s.reg with posted := s.reg.posted.filter (fun p => p.block ≠ block) } }

/-- An amendment that has not passed its commit point is refused with BUSY when a die of its released tiles resets (R72). -/
def State.amendDie (s : State) (k : Nat) (hearth : Bool) : State :=
  match s.mould.amend with
  | none => s
  | some a =>
    if a.open_ && s.releasesAt a.image k hearth then ({ s with mould := { s.mould with amend := none } } : State).mouldErr a.handle 0x0E else s

/-- Kiln k is lost (R137, R211). -/
def State.loseKiln (s : State) (k : Nat) (hearth : Bool) : State :=
  let s := s.amendDie k hearth
  let s := (List.range 8).foldl (fun s i => s.loseTile (8 * k + i) hearth) s
  s.breakRuns (fun t => t / 8 == k)

/-- Hearth h is lost with its kiln: its cache, tallies, waits, engines and stores; waits registered there from other tiles
end with HW_FAULT.  Requests whose wares keep stores or tallies there end with FAULT (R301, R453); those that only staged records
there are restarted with the kiln's (R137, R272; DEDUCED, log entry 87). -/
def State.loseHearth (s : State) (h : Nat) : State :=
  let far := (List.range 32).filter (fun t => t / 8 != h && ((s.hearth h).waiter t).isSome)
  let s := far.foldl (fun s t => match (s.tile t).running with
    | some c => if c.wait = .tallyHeld then endRunning (s.dropWaiter t) t c stHw 0 0 0 else s.dropWaiter t
    | none => s.dropWaiter t) s
  let s := s.loseCopies h
  let s := s.loseKiln h true
  let s := s.dropHomed (4 + h)
  let s := s.losePosted (hearthBlock h)
  let s := s.setHearth h { ways := (s.hearth h).ways }
  let s := { s with mem := { s.mem with
    tallies := s.mem.tallies.filter (fun e => tallyHome e.1 ≠ h)
    talliesBroken := s.mem.talliesBroken.filter (fun e => tallyHome e.1 ≠ h)
    exports := s.mem.exports.filter (fun e => !(decide (0xD000000 + 0x8000 * h ≤ e.1) && decide (e.1 < 0xD000000 + 0x8000 * (h + 1)))) } }
  let s := s.zero (storeBase (8 * h)) (8 * 0x1000000)
  s.failWares (fun w => w.image.any (fun r => decide (storeBase (8 * h) ≤ r.1) && decide (r.1 < storeBase (8 * h + 8))) ||
    (List.range w.plan.tallies.length).any (fun i => tallyHome (w.tallyBase + i) == h))

/-- The stream contexts' registers and state go with V1: the commands that wait for a close complete (R17, R338, R453). -/
def State.loseContexts (s : State) : State :=
  let s := s.wheels.ctxs.foldl (fun s e => e.2.closeSrc.foldl (fun s c => s.answer { fn := c.1, sq := c.2.1, cid := c.2.2, opcode := 0, body := [] } 0 0 0) s) s
  { s with wheels := { s.wheels with ctxs := [], unmatched := 0 } }

/-- Vault v is lost: every partition with DRAM takes a partition reset, its wares are unloaded and its DRAM is undefined;
V0 takes the PCIe link and its host interface with it, V1 the stream ports and contexts (R453). -/
def State.loseVault (s : State) (v : Nat) : State :=
  let parts := s.mould.parts.filter (fun e => !e.2.dram.isEmpty)
  let s := parts.foldl (fun s e => s.partitionReset e.1) s
  let s := s.dropHomed (8 + v)
  let s := { s with teller := { s.teller with wares := s.teller.wares.filter (fun w => !parts.any (fun e => e.1 == w.2.part)) } }
  let s := parts.foldl (fun s e => e.2.dram.foldl (fun s r =>
    let n := min (s.dramTop - r.first * 0x4000000) (r.count * 0x4000000)
    (s.zero (r.first * 0x4000000) n).freeBytes (r.first * 0x4000000) n) s) s
  let s := s.setVault v {}
  let s := [2 * v, 2 * v + 1].foldl (fun s w => s.setWheel w {}) s
  if v = 0 then
    let s := s.closeContexts (fun c => (s.ctx c).cfg.wheel < 2) 0
    let s := if s.host.linkUp then s.raise { source := 301 } else s
    { s with host := { s.host with sqs := [], cqs := [], funcs := [], forwarded := [], due := [], staging := [], vfEnable := false,
                                   vfBarLog2 := 0, vfBarBase := 0, linkUp := false, linkTraining := false } }
  else
    let s := s.loseContexts
    { s with host := { s.host with eth := [] } }

/-- Die d's contents are lost. -/
def State.loseDie (s : State) (d : Nat) : State :=
  if d < 4 then s.loseKiln d false
  else if d < 8 then s.loseHearth (d - 4)
  else if d < 10 then s.loseVault (d - 8) else s

/-- A die reset is asked for; while the die is resetting, or held in reset without its clock, it is latched (R354, R357). -/
def State.requestReset (s : State) (d : Nat) : State :=
  if (s.die d).resetting ∨ s.die d = .noClock then { s with links := { s.links with rearm := s.links.rearm ||| BitVec.ofNat 10 (2 ^ d) } }
  else if s.die d = .fenced ∨ s.links.resetDue.contains d then s
  else { s with links := { s.links with resetDue := s.links.resetDue ++ [d] } }

/-- F4 cycles in 24 hours and in one hour. -/
def cycles24h : Nat := 24 * 3600 * 68750000
def cycles1h : Nat := 3600 * 68750000
/-- Count an event of a key against a span; the stamps that lie within it, the new one among them. -/
def State.countWithin (s : State) (key span : Nat) : Nat × State :=
  let now := s.links.aoCount.toNat
  let l := (sget [] s.faults.history key).filter (fun t => decide (now - t ≤ span)) ++ [now]
  (l.length, { s with faults := { s.faults with history := sset [] s.faults.history key l } })

/-- A die that does not come back, or that the mint has no route to, is fenced until the next firing (R453).  The requests of a fenced
kiln's wares restart on the tiles that remain, or end when the plan fits them no longer (R301). -/
def State.fenceDie (s : State) (d : Nat) : State :=
  if s.die d = .fenced then s
  else
    let s := if (s.die d) = .ready then s.loseDie d else s
    let s := s.setDie d .fenced
    if d < 4 then s
    else if d < 8 then s.setDie (d - 4) .fenced
    else { s with ledger := { s.ledger with fenceChans := s.ledger.fenceChans ||| BitVec.ofNat 48 ((2 ^ 24 - 1) * 2 ^ (24 * (d - 8))) } }

/-- A tile is fenced: its queues and frames are lost, and requests under way on it end with FAULT. -/
def State.fenceTile (s : State) (t : Nat) : State :=
  let m := BitVec.ofNat 32 (2 ^ t)
  let s := { s with
    faults := { s.faults with fenceTiles := s.faults.fenceTiles ||| m }
    ledger := { s.ledger with fenceTiles := s.ledger.fenceTiles ||| m } }
  let s := (s.noteFence 0 t true).loseTile t false
  let s := (s.breakRuns (· == t)).failWares (fun w => w.tiles.contains t)
  -- a kiln whose tiles are all fenced is fenced as a whole
  if (List.range 8).all (fun i => s.faults.fenceTiles.getLsbD (t / 8 * 8 + i)) then s.fenceDie (t / 8) else s

/-- Ready dies that the mint has no route to are lost and fenced; a pair of dies left without a path is reported by source 118 + j of
the port that went (R36, R453; DEDUCED, log entry 81). -/
def State.checkRoutes (s : State) (j : Nat) : State :=
  let dies := ([4, 5, 6, 7, 8, 9] : List Nat).filter (fun d => s.die d == .ready)
  let gone := dies.filter (fun d => !s.reach 10 d)
  let split := dies.any (fun a => dies.any (fun b => !s.reach a b))
  let s := if split || !gone.isEmpty then s.raise { source := 118 + j } else s
  gone.foldl (fun s d => s.fenceDie d) s

/-- The reset sequence of die d counts its times from now (R356). -/
def State.stampReset (s : State) (d : Nat) : State :=
  { s with links := { s.links with resetAt := sset 0 s.links.resetAt d s.links.aoCount.toNat } }
/-- The stage of R356 that a resetting die has reached: reset until 50 µs, clocks starting until 0.15 ms, self-test until 10 ms for a
kiln and 15.2 ms for another die, then training (R364). -/
def State.shownDie (s : State) (d : Nat) : DieState :=
  let n := s.links.aoCount.toNat - sget 0 s.links.resetAt d
  if !(s.die d).resetting then s.die d
  else if !s.links.fwdOk.getLsbD d ∨ n < 3438 then .inReset
  else if n < 10313 then .clockStarting
  else if n < (if d < 4 then 687500 else 1045000) then .selfTest
  else .training

/-- The reset of die d begins (R211, R356): what it holds is lost, its ports train again, and routes change (R36); a hearth takes its kiln
along. -/
def State.startReset (s : State) (d : Nat) (st : DieState) : State :=
  let s := if (s.die d).resetting then s else s.loseDie d
  let s := (s.setDie d st).stampReset d
  let s := if 4 ≤ d ∧ d < 8 ∧ s.die (d - 4) ≠ .fenced then (s.setDie (d - 4) .inReset).stampReset (d - 4) else s
  let s := s.downPorts d
  let n := min (2 ^ 24 - 1) (s.links.dieResets + 1)
  let s := { s with links := { s.links with dieResets := n } }
  if d < 4 then
    let c : Nat × State := s.countWithin (1000 + d) cycles24h
    if 3 ≤ c.1 then c.2.fenceDie d else c.2
  else s.checkRoutes (((dieEnds d).head?.map (·.1)).getD 0 / 2)

/-- Every die but the mint's always-on domain is in reset or off: nothing they held is left, no tile, engine, wheel or link goes on, and no
operation or record of theirs is under way (R354, R473, R474). -/
def State.stopDies (s : State) : State :=
  { s with
    tiles := []
    wheels := {}
    links := { s.links with dies := [], resetDue := [], resetAt := [], ends := [] }
    mem := { s.mem with tallies := [], talliesBroken := [], signals := [], reductions := [], hearths := [], vaults := [], dir := [], exports := [], zeroJobs := [] }
    mould := { s.mould with fired := false }
    teller := { s.teller with held := true }
    host := { s.host with linkUp := false, linkTraining := false, eth := [] }
    faults := { s.faults with hbeatStopped := true, mcPaused := 0 } }

end Sys2Proof.Machine
end

