-- ==== Sys2Proof/Machine/Links.lean ====
section
/-! DEFINITION.  Efrok ports, clocks, die resets and test access (chapter 11): shared operations, then one meaning per row. -/
namespace Sys2Proof.Machine
open Sys2Proof

/-! ## Widths, roles and lanes (R339, R343-R347) -/

/-- Lanes of a width code of EFK_PORTj_STATUS. -/
def widthLanes (w : Nat) : Nat := match w with | 1 => 16 | 2 => 32 | 3 => 64 | _ => 0
/-- Number of bits set in the low n bits. -/
def countBits (n v : Nat) : Nat := ((List.range n).filter (fun i => bit v i)).length
/-- Failed data lanes and usable spares of an end. -/
def PortEnd.failed (x : PortEnd) (lanes : Nat) : Nat := countBits lanes x.laneFail.toNat
def PortEnd.spares (x : PortEnd) : Nat := 4 - countBits 4 x.spareFail.toNat
/-- Working lanes: data lanes not failed, and the spares that can stand in for failed ones. -/
def PortEnd.working (x : PortEnd) (lanes : Nat) : Nat := lanes - x.failed lanes + min x.spares (x.failed lanes)
/-- The width an end proposes (R343 step 4); 0 below 16 lanes. -/
def propose (lanes n : Nat) : Nat := if 64 ≤ n ∧ lanes = 64 then 3 else if 32 ≤ n then 2 else if 16 ≤ n then 1 else 0
/-- Bulk groups at a width (R347): the role byte at full width. -/
def bulkMask (lanes width role : Nat) : BitVec 8 :=
  let n := lanes / 8
  let k := widthLanes width / 8
  if k = 0 then 0
  else if k = n then BitVec.ofNat 8 role
  else
    let fine := max 1 (min (k - 1) ((n - countBits n role) * k / n))
    BitVec.ofNat 8 (2 ^ (k - fine) - 1)
def State.roleByte (s : State) (j : Nat) : Nat := (s.mould.laneRoles[j]?).getD 0
/-- Spares steered in at a width: as many lanes as failed ones leave short. -/
def PortEnd.used (x : PortEnd) (lanes : Nat) : Nat := min x.spares (widthLanes x.width - (lanes - x.failed lanes))

def State.bothEnds (s : State) (j : Nat) (f : PortEnd → PortEnd) : State :=
  (s.setPortEnd (2 * j) (f (s.portEnd (2 * j)))).setPortEnd (2 * j + 1) (f (s.portEnd (2 * j + 1)))
/-- Both ends of a port once it is fenced. -/
def State.closePort (s : State) (j : Nat) (shut : Bool) : State :=
  let was := (s.portEnd (2 * j)).up
  s.bothEnds j (fun x => { x with fenced := true, up := false, training := false, repairing := false, width := 0, bulk := 0,
                                  narrowTo := 0, prior := 0, groups := [], shutting := shut && was })
/-- A port is fenced at both ends, its in-flight flits replayed first (R36, R345): routes change, and a die that the mint no longer
reaches, or that is resetting and needs this mint port to become ready, is lost (R356, R453). -/
def State.fencePort (s : State) (j : Nat) (shut : Bool) : State :=
  let s := s.closePort j shut
  let d := (portDies j).2
  let s := if 8 ≤ j ∧ j < 14 ∧ (s.die d).resetting then s.fenceDie d else s
  s.checkRoutes j
/-- Both ends of a port once its training from reset begins (R343). -/
def State.restartPort (s : State) (j : Nat) : State :=
  s.bothEnds j (fun x => { x with up := false, width := 0, training := true, repairing := false, narrowTo := 0, prior := 0, fromReset := true,
                                  bulk := 0, groups := [], disagree := false, fenced := false })
/-- A port goes down and both ends train from reset (R343); meanwhile it counts as fenced (R348). -/
def State.retrainPort (s : State) (j : Nat) : State := (s.restartPort j).checkRoutes j
/-- A write of RETRAIN: ignored while the port trains or repairs (R357). -/
def State.writeRetrain (s : State) (e : Nat) : State :=
  let x := s.portEnd e
  if x.training || x.repairing || !x.en || x.fenced then s else s.retrainPort (e / 2)
/-- A write of EN (R357, R362): 0 fences the port, 1 allows training, latched while the shut-down runs. -/
def State.writeEn (s : State) (e : Nat) (on : Bool) : State :=
  let x := s.portEnd e
  let j := e / 2
  if !on then (s.setPortEnd e { x with en := false, rearm := false }).fencePort j true
  else if x.shutting then s.setPortEnd e { x with en := true, rearm := true }
  else if x.fenced && !x.en then
    let s := s.setPortEnd e { x with en := true }
    if (s.portEnd (2 * j)).en && (s.portEnd (2 * j + 1)).en then s.retrainPort j else s
  else s.setPortEnd e { x with en := true }
/-- The shut-downs begun by clearing EN end; a latched enable trains the port (R357). -/
def State.endShutdowns (s : State) : State :=
  (List.range 15).foldl (fun s j =>
    let a := s.portEnd (2 * j)
    let b := s.portEnd (2 * j + 1)
    if a.shutting || b.shutting then
      let s := s.bothEnds j (fun x => { x with shutting := false })
      if a.en && b.en && (a.rearm || b.rearm) then s.retrainPort j else s
    else s) s

/-! ## Lane groups (R339) -/

/-- The end at the other side of a port. -/
def farEnd (e : Nat) : Nat := if e % 2 = 0 then e + 1 else e - 1

/-- Working lanes of an end in ascending order, spares included. -/
def PortEnd.lanes (x : PortEnd) (lanes : Nat) : List Nat :=
  (List.range (lanes + 4)).filter (fun l => if l < lanes then !x.laneFail.getLsbD l else !x.spareFail.getLsbD (l - lanes))
/-- The lanes of group g: the g-th eight of the working lanes. -/
def PortEnd.groupLanes (x : PortEnd) (lanes g : Nat) : List Nat := ((x.lanes lanes).drop (8 * g)).take 8
/-- The group that a lane is steered into at the end's width. -/
def PortEnd.groupOf (x : PortEnd) (lanes l : Nat) : Option Nat :=
  (List.range (widthLanes x.width / 8)).find? (fun g => (x.groupLanes lanes g).contains l)

/-! ## Lane failure (R344, R345) -/

/-- An end with one more lane marked failed; the spares are numbered behind the data lanes. -/
def PortEnd.mark (x : PortEnd) (lanes lane : Nat) : PortEnd :=
  if lane < lanes then { x with laneFail := x.laneFail ||| BitVec.ofNat 64 (2 ^ lane) }
  else { x with spareFail := x.spareFail ||| BitVec.ofNat 4 (2 ^ (lane - lanes)) }
/-- A lane has failed at an end: it stays marked there; a spare takes its place, or the port narrows, or is fenced.  Meanwhile the
lane's group stops at both ends. -/
def State.failLane (s : State) (e lane : Nat) : State :=
  let j := e / 2
  let lanes := portLanes j
  let x := s.portEnd e
  let y := x.mark lanes lane
  let s := s.setPortEnd e y
  if !x.up then s
  else
    let w := propose lanes (y.working lanes)
    if w = 0 then (s.fencePort j false).raise { source := 118 + j }
    else match x.groupOf lanes lane with
    | none => s
    | some g => s.bothEnds j (fun z => { z.setGroup g { z.group g with stopped := true } with
        repairing := true, narrowTo := if w < z.width then w else if z.narrowTo ≠ 0 then min z.narrowTo w else 0 })

/-! ## Flits (R340-R342) -/

/-- Order of precedence of the classes in a fine group: TAL, COH, EVT, DBG, then MEM. -/
def flitRank (cls : Nat) : Nat := match cls with | 3 => 0 | 1 => 1 | 2 => 2 | 4 => 3 | _ => 4
/-- Partitions of the first reservation class at an end of a vault port: those with a share of which less has been served in the current
window (R187). -/
def State.firstClass (s : State) (e : Nat) (f : Flit) : BitVec 8 :=
  if 4 ≤ e / 2 ∧ e / 2 < 8 then
    BitVec.ofNat 8 (((List.range 8).map (fun p => if f.under.getLsbD p && (s.part? p).any (fun r => decide (0 < r.bwMin)) then 2 ^ p else 0)).sum)
  else 0
/-- A flit of this class and partition is the next of those that wait, which stand oldest first: in precedence, and round robin within
a class (R340); in a bulk group the oldest flit of a partition of `first` goes before all others (R187). -/
def LaneGroup.turn (y : LaneGroup) (bulk : Bool) (first : BitVec 8) (waiting : List (Nat × Nat)) (cls part : Nat) : Bool :=
  let far (c p : Nat) : Nat := (p + 16 - sget 0 y.served c) % 16
  let l := waiting.filter (fun w => if bulk then w.1 == 0 else decide (w.1 < 5))
  match l.find? (fun w => bulk && first.getLsbD w.2) with
  | some w => cls == 0 && part == w.2
  | none => (if bulk then cls == 0 else true) &&
      l.all (fun w => decide (flitRank cls < flitRank w.1) || (w.1 == cls && decide (far cls part ≤ far cls w.2)))
/-- What group g of an end can send now, with the partitions of the first reservation class: in a replay the next flit of it; with a
full buffer, or nothing waiting, IDLE; else the flit whose turn it is. -/
def PortEnd.maySend (x : PortEnd) (first : BitVec 8) (g : Nat) (f : Flit) : Bool :=
  let y := x.group g
  match y.again with
  | some i => y.sent[i]? == some ⟨f.cls, f.part, f.payload⟩
  | none =>
    let bulk := x.bulk.getLsbD g
    let any := f.waiting.any (fun w => if bulk then w.1 == 0 else decide (w.1 < 5))
    if f.cls = 5 then decide (256 ≤ y.sent.length) || !any
    else decide (f.cls < 5) && decide (f.part < 16) && decide (f.payload.length = 64) && decide (y.sent.length < 256) &&
      y.turn bulk first f.waiting f.cls f.part
/-- SEQ of the flit that group g sends next. -/
def LaneGroup.sendSeq (y : LaneGroup) : Nat := (y.acked + y.again.getD y.sent.length) % 4096
/-- Group g of an end has sent a flit: a new one joins the replay buffer; what NAK it owed is sent with it. -/
def PortEnd.afterSend (x : PortEnd) (g : Nat) (f : Flit) : PortEnd :=
  let y := { x.group g with nakOwed := false }
  x.setGroup g (match y.again with
    | some i => { y with again := if i + 1 < y.sent.length then some (i + 1) else none }
    | none =>
      if f.cls < 5 then { y with sent := y.sent ++ [⟨f.cls, f.part, f.payload⟩], served := sset 0 y.served f.cls ((f.part + 1) % 16) }
      else y)

/-- Header bits [31:0] of R341. -/
def flitHead (cls part seq ack : Nat) (nak : Bool) : Nat := cls + 8 * part + 128 * b2n nak + 256 * seq + 2 ^ 20 * ack
/-- Lane parities of a flit's bytes other than LPAR and CRC; byte b is on lane b mod 8 (DESIGN CHOICE, log entry 80). -/
def flitParity (l : List Byte) : BitVec 8 :=
  BitVec.ofNat 8 (((List.range 8).map (fun i =>
    let x := ((l.zipIdx.filter (fun e => e.2 % 8 = i)).map (·.1)).foldl (fun a b => a ^^^ b) (0 : Byte)
    (((List.range 8).filter (fun k => x.getLsbD k)).length % 2) * 2 ^ i)).sum)
/-- The 72 bytes of a flit: payload, header with LPAR, and CRC-24 over header bits [39:0] and payload. -/
def flitBytes (cls part seq ack : Nat) (nak : Bool) (payload : List Byte) : List Byte :=
  let p := payload.take 64 ++ List.replicate (64 - payload.length) 0
  let h := flitHead cls part seq ack nak
  let lpar := flitParity (p ++ toLE 4 h)
  p ++ toLE 4 h ++ [lpar] ++ toLE 3 (Config.crc24 (h + 2 ^ 32 * lpar.toNat) p).toNat

/-- A flit as its receiver sees it. -/
structure FlitSeen where
  crcOk : Bool := true
  cls : Nat
  seq : Nat
  ack : Nat
  nak : Bool
  /-- Lanes whose parity does not match. -/
  mism : BitVec 8 := 0
  deriving DecidableEq, Repr
/-- The 72 bytes that arrive, checked against their CRC and LPAR. -/
def readFlit (l : List Byte) : FlitSeen :=
  let h := lfld l 64 4
  { crcOk := (Config.crc24 (lfld l 64 5) (l.take 64)).toNat == lfld l 69 3
    cls := h % 8, seq := bits h 8 12, ack := bits h 20 12, nak := bit h 7
    mism := flitParity (l.take 68) ^^^ BitVec.ofNat 8 (lfld l 68 1) }

/-- Flits before `seq` are acknowledged and leave the replay buffer; a replay ends where nothing of it is left. -/
def LaneGroup.ackTo (y : LaneGroup) (seq : Nat) : LaneGroup :=
  let n := (seq + 4096 - y.acked) % 4096
  if n ≤ y.sent.length then { y with acked := seq, sent := y.sent.drop n,
                                             again := if n < y.sent.length then y.again.map (· - n) else none } else y
/-- A NAK for `seq` reaches the sender: all before it is acknowledged and the rest is sent again; the eighth in a row for one SEQ
stops the group. -/
def nakAt (x : PortEnd) (g seq : Nat) : PortEnd :=
  let y := (x.group g).ackTo seq
  let run := if y.nakSeq = seq ∧ 0 < y.nakRun then y.nakRun + 1 else 1
  let y := { y with nakSeq := seq, nakRun := run, stopped := y.stopped || decide (8 ≤ run), again := if y.sent.isEmpty then none else some 0 }
  let x := x.setGroup g y
  if 8 ≤ run then x else { x with replays := satAdd (2 ^ 24 - 1) x.replays 1 }
/-- A NAK's SEQ lies in the sender's replay buffer, or just behind it. -/
def PortEnd.nakFits (x : PortEnd) (g seq : Nat) : Bool := decide ((seq + 4096 - (x.group g).acked) % 4096 ≤ (x.group g).sent.length)
/-- A group that its eighth NAK has stopped is handed to repair: the one lane that the receiver's LPAR syndromes name, or none, and
then the whole port retrains (R344). -/
def State.handToRepair (s : State) (e g : Nat) : State :=
  if !((s.portEnd e).group g).stopped || (s.portEnd e).repairing then s
  else
    let o := farEnd e
    let r := s.portEnd o
    let named := (List.range 8).filter (fun i => (r.group g).bad.any (fun b => b.2.getLsbD i))
    match named with
    | [i] => s.failLane o ((r.groupLanes (portLanes (e / 2)) g)[i]?.getD 0)
    | _ => s.retrainPort (e / 2)

/-- A flit at a receiver.  A flit whose CRC fails, or that is not the one expected, is discarded and a NAK is owed (R342); IDLE flits
carry no sequence of their own (DEDUCED, log entry 21). -/
def flitAt (x : PortEnd) (g : Nat) (f : FlitSeen) : PortEnd :=
  let y := x.group g
  let y := { y with flits := y.flits + 1, bad := (if f.mism = 0 then y.bad else y.bad ++ [(y.flits, f.mism)]).filter (fun b => decide (y.flits < b.1 + 1024)) }
  let numbered := decide (f.cls < 5)
  if !f.crcOk || (numbered && f.seq != y.expectSeq) then
    { x.setGroup g { y with nakOwed := true } with flitErr := satAdd (2 ^ 32 - 1) x.flitErr 1 }
  else
    let y := { y with expectSeq := if numbered then (y.expectSeq + 1) % 4096 else y.expectSeq, nakOwed := y.nakOwed && !numbered }
    if f.nak then (if (x.setGroup g y).nakFits g f.ack then nakAt (x.setGroup g y) g f.ack else x.setGroup g y)
    else
      let z := y.ackTo f.ack
      x.setGroup g { z with nakRun := if f.ack = z.nakSeq then z.nakRun else 0 }

/-- Group g of an end is in use: the port is up at a width that has it, and it is not stopped. -/
def PortEnd.groupUp (x : PortEnd) (g : Nat) : Bool := x.up && decide (g < widthLanes x.width / 8) && !(x.group g).stopped

/-- The far end of a port sends a flit on group g, and end e receives it (R340-R342); a lane whose LPAR has mismatched in 16 of the
last 1,024 flits has failed (R344). -/
def execFlitReceive (e g : Nat) (f : Flit) (s : State) : Host.Outcome State Fault Refusal :=
  let o := farEnd e
  let x := s.portEnd o
  if 30 ≤ e ∨ !x.groupUp g ∨ !(s.portEnd e).groupUp g ∨ !x.maySend (s.firstClass o f) g f then .next s
  else
    let y := x.group g
    let seen : FlitSeen := match f.got with
      | none => { cls := f.cls, seq := y.sendSeq, ack := y.expectSeq, nak := y.nakOwed }
      | some l => readFlit (l.take 72 ++ List.replicate (72 - l.length) 0)
    let s := (s.setPortEnd o (x.afterSend g f)).setPortEnd e (flitAt (s.portEnd e) g seen)
    let r := (s.portEnd e).group g
    let lost := (List.range 8).filter (fun i => decide (16 ≤ (r.bad.filter (fun b => b.2.getLsbD i)).length))
    let lanes := lost.filterMap (fun i => ((s.portEnd e).groupLanes (portLanes (e / 2)) g)[i]?)
    .next (lanes.foldl (fun s l => s.failLane e l) (s.handToRepair e g))
/-- A NAK reaches its sender (R342). -/
def execNakReplay (e g seq : Nat) (s : State) : Host.Outcome State Fault Refusal :=
  let x := s.portEnd e
  if 30 ≤ e ∨ !x.groupUp g ∨ !x.nakFits g (seq % 4096) then .next s
  else .next ((s.setPortEnd e (nakAt x g (seq % 4096))).handToRepair e g)

/-! ## Repair, narrowing, training (R343-R346, R357) -/

/-- A lane is found failed: it has lost bit lock, or the far end reports it (R344). -/
def execLaneFail (e lane : Nat) (s : State) : Host.Outcome State Fault Refusal :=
  if 30 ≤ e ∨ portLanes (e / 2) + 4 ≤ lane then .next s else .next (s.failLane e lane)

/-- A group starts again at the last acknowledged SEQ, its lanes new (R344). -/
def LaneGroup.resume (y : LaneGroup) : LaneGroup :=
  { y with stopped := false, nakRun := 0, bad := [], again := if y.sent.isEmpty then none else some 0 }
/-- Replay resumes on every group of an end (R344, R345). -/
def PortEnd.resume (x : PortEnd) : PortEnd := { x with groups := (x.groups.map (fun g => (g.1, g.2.resume))).filter (fun g => g.2 ≠ {}) }
/-- The flits in flight of the groups that a narrower end no longer has join the replay of a group of their kind that stays: those its
far end has taken are not sent again (R342, R345). -/
def PortEnd.narrow (x far : PortEnd) (width : Nat) (bulk : BitVec 8) : PortEnd :=
  let k := widthLanes width / 8
  let left (g : Nat) : List FlitBody :=
    let y := x.group g
    y.sent.drop (((far.group g).expectSeq + 4096 - y.acked) % 4096)
  let y := { x with width := width, bulk := bulk, groups := x.groups.filter (fun e => decide (e.1 < k)) }
  ((List.range 8).filter (fun g => k ≤ g)).foldl (fun y g =>
    let heir := ((List.range k).find? (fun h => bulk.getLsbD h == x.bulk.getLsbD g)).getD 0
    let z := y.group heir
    if (left g).isEmpty then y else y.setGroup heir { z with sent := z.sent ++ left g, again := z.again.getD 0 |> some }) y

/-- A spare has been steered in and replay resumes (R344). -/
def execRepairDone (e : Nat) (s : State) : Host.Outcome State Fault Refusal :=
  let j := e / 2
  let x := s.portEnd e
  if 30 ≤ e ∨ !x.up ∨ !x.repairing ∨ x.narrowTo ≠ 0 then .next s
  else
    let s := s.bothEnds j (fun z => { z.resume with repairing := false })
    let used := max ((s.portEnd (2 * j)).used (portLanes j)) ((s.portEnd (2 * j + 1)).used (portLanes j))
    .next ((s.bothEnds j (fun z => { z with sparesUsed := used })).raise { source := 88 + j })

/-- The port runs at its narrower width (R345, R347). -/
def execNarrowingDone (e : Nat) (s : State) : Host.Outcome State Fault Refusal :=
  let j := e / 2
  let x := s.portEnd e
  if 30 ≤ e ∨ !x.up ∨ !x.repairing ∨ x.narrowTo = 0 then .next s
  else
    let bulk := bulkMask (portLanes j) x.narrowTo (s.roleByte j)
    let a := s.portEnd (2 * j)
    let b := s.portEnd (2 * j + 1)
    let go (z far : PortEnd) : PortEnd :=
      let y := { (z.resume.narrow far x.narrowTo bulk) with repairing := false, narrowTo := 0 }
      { y with sparesUsed := y.used (portLanes j) }
    let s := (s.setPortEnd (2 * j) (go a b)).setPortEnd (2 * j + 1) (go b a)
    .next (s.raise { source := 103 + j })

/-- A lane test's result joins an end's map of failed lanes. -/
def PortEnd.tested (x : PortEnd) (r : LaneTest) : PortEnd := { x with laneFail := x.laneFail ||| r.lanes, spareFail := x.spareFail ||| r.spares }

/-- One more training since firing, the first excluded (R362). -/
def PortEnd.counted (x : PortEnd) : PortEnd :=
  { x with trainedOnce := true, retrains := if x.trainedOnce then min 255 (x.retrains + 1) else x.retrains }
/-- A port's training ends (R343, R346): UP at the agreed width, again at the lower width after a disagreement, or fenced. -/
def State.endTraining (s : State) (j : Nat) (a b : LaneTest) : State :=
  let lanes := portLanes j
  let s := s.setPortEnd (2 * j) ((s.portEnd (2 * j)).tested a).counted
  let s := s.setPortEnd (2 * j + 1) ((s.portEnd (2 * j + 1)).tested b).counted
  let x := s.portEnd (2 * j)
  let y := s.portEnd (2 * j + 1)
  let again := x.disagree && x.narrowTo != 0
  let lim (n : Nat) : Nat := if again then min x.narrowTo n else n
  let want (z : PortEnd) : Nat :=
    let p := propose lanes (z.working lanes)
    if z.fromReset || z.prior = 0 then p else min p z.prior
  let pa := lim (want x)
  let pb := lim (want y)
  if pa = 0 ∨ pb = 0 ∨ (again ∧ pa ≠ pb) then (s.fencePort j false).raise { source := 118 + j }
  else if pa ≠ pb ∧ !(x.fromReset && y.fromReset) ∧ !again then
    ((s.bothEnds j (fun z => { z with disagree := true, narrowTo := min pa pb })).raise { source := 103 + j }).raise { source := 103 + j }
  else
    let w := min pa pb
    s.bothEnds j (fun z =>
      let u := { z with up := true, training := false, width := w, narrowTo := 0, prior := 0, fromReset := false, groups := [], rearm := false,
                        shutting := false, disagree := again, bulk := bulkMask lanes w (s.roleByte j) }
      { u with sparesUsed := u.used lanes })

/-- PORT_TRAINED (R343). -/
def execPortTrained (port : Nat) (a b : LaneTest) (s : State) : Host.Outcome State Fault Refusal :=
  let x := s.portEnd (2 * port)
  let y := s.portEnd (2 * port + 1)
  if 15 ≤ port ∨ !x.en ∨ !y.en ∨ !s.links.rootLock then .next s
  else if x.training ∨ y.training then .next (s.endTraining port a b)
  else .next s

/-! ## Clocks (R354, R357) -/

/-- The root clock is lost (R354): FLT_N asserts, HBEAT stops, and every domain but the always-on one is held in reset, the dies, the
link layers and the Assay islands among them. -/
def execRootClockLost (crystal : Bool) (s : State) : Host.Outcome State Fault Refusal :=
  if !s.links.rootLock then .next s
  else
    let s := s.stopDies
    .next { s with
      links := { s.links with rootLost := true, rootLock := false, xtalOk := !crystal, fwdOk := 0 }
      islands := {}
      host := { s.host with mgmtLinkUp := 0 } }

/-- The crystal is back and the PLL has held lock: MNT_AO_COUNT starts from the lock, and the module will fire (R354, R364). -/
def execRootClockReturn (s : State) : Host.Outcome State Fault Refusal :=
  if !s.links.rootLost then .next s
  else .next { s with links := { s.links with rootLost := false, rootLock := true, xtalOk := true, aoCount := 0, firingDue := some .rootReturn } }

/-- The clocks of die d: a kiln has its clock from its hearth (R350). -/
def clockBits (d : Nat) : BitVec 10 := BitVec.ofNat 10 (2 ^ d + if 4 ≤ d ∧ d < 8 then 2 ^ (d - 4) else 0)
/-- Die d has no forwarded clock: it holds itself in reset and reports itself, a hearth with its kiln; during its reset it stays in
reset until the clock returns (R354, R357). -/
def execForwardedClockLoss (d : Nat) (s : State) : Host.Outcome State Fault Refusal :=
  if 10 ≤ d ∨ !s.links.rootLock ∨ s.die d = .fenced then .next s
  else
    let s := if (s.die d).resetting then
        (s.setDie d .noClock).downPorts d
      else if s.die d = .noClock then s
      else s.startReset d .noClock
    let s := if 4 ≤ d ∧ d < 8 ∧ s.die (d - 4) ≠ .fenced then s.setDie (d - 4) .noClock else s
    .next ({ s with links := { s.links with fwdOk := s.links.fwdOk &&& ~~~ clockBits d } }.raise { source := 309 + d })

/-- The clock is back: the sequence of R356 goes on from reset release, 50 µs after reset assertion. -/
def execForwardedClockReturn (d : Nat) (s : State) : Host.Outcome State Fault Refusal :=
  if 10 ≤ d ∨ !s.links.rootLock then .next s
  else
    let s := { s with links := { s.links with fwdOk := s.links.fwdOk ||| clockBits d } }
    let back (s : State) (k : Nat) : State :=
      if s.die k = .noClock then
        let s := s.setDie k .clockStarting
        { s with links := { s.links with resetAt := sset 0 s.links.resetAt k (s.links.aoCount.toNat - 3438) } }
      else s
    .next (if 4 ≤ d ∧ d < 8 then back (back s d) (d - 4) else back s d)

/-! ## Die resets (R356) -/

/-- MNT_DIE_RESET: each die named is reset; a hearth bit includes its kiln (R364). -/
def State.resetDies (s : State) (v : Nat) : State :=
  (List.range 10).foldl (fun s d => if bit v d then s.requestReset d else s) s

/-- The oldest die reset asked for begins; of a die without its clock, which is in reset, it is latched (R357). -/
def execDieReset (s : State) : Host.Outcome State Fault Refusal :=
  match s.links.resetDue with
  | [] => .next s
  | d :: rest =>
    let s := { s with links := { s.links with resetDue := rest } }
    .next (if s.die d = .noClock then s.requestReset d else s.startReset d .inReset)

/-- Firmware lays plans onto the returning tiles of kiln k again: vector programs are loaded (R139, R356). -/
def State.layPlans (s : State) (k : Nat) : State :=
  s.teller.wares.foldl (fun s e =>
    if e.2.isImage then s else (e.2.tiles.filter (fun t => t / 8 == k)).foldl (fun s t => s.loadPrograms e.2.plan t) s) s.plansLaid
/-- What of the plans lies in hearth h is laid again: images in its stores, whose bytes are not the spec's to say, and the plan tallies
there at their initial values. -/
def State.layStores (s : State) (h : Nat) : State :=
  s.teller.wares.foldl (fun s w =>
    let s := w.2.image.foldl (fun s r =>
      if storeBase (8 * h) ≤ r.1 ∧ r.1 < storeBase (8 * h + 8) then s.freeBytes r.1 r.2 else s) s
    if w.2.isImage then s
    else w.2.plan.tallies.zipIdx.foldl (fun s e =>
      if tallyHome (w.2.tallyBase + e.2) = h then (resetTally s 10 (w.2.tallyBase + e.2) (BitVec.ofNat 32 e.1)).1 else s) s) s

/-- Tiles of kiln k restart at D = 8 (R470, R479). -/
def State.coldTiles (s : State) (k : Nat) : State :=
  (List.range 8).foldl (fun s i => s.setTilePower (8 * k + i) { s.tilePower (8 * k + i) with thermD := 8 }) s

/-- A resetting die can become ready: it has its forwarded clock (R354, R357), it is not held by a shutdown, and its mint port is up; a kiln has its clock from
its hearth, which must have been released from reset (R350, R356). -/
def State.canBeReady (s : State) (d : Nat) : Bool :=
  (s.die d).resetting && s.links.fwdOk.getLsbD d && !s.links.resetDue.contains d && s.links.rootLock && !(s.cyc d).shutdown &&
    (if d < 4 then !(s.cyc (d + 4)).shutdown && ((s.die (d + 4)).resetting || s.die (d + 4) == .ready)
     else (s.portEnd (2 * mintPort d)).up)

/-- Die d has become ready (R356): tiles that failed self-test are fenced (R451), a hearth's stores are zeroed, plans are laid again, a
latched reset request follows (R357).  A kiln's tiles run once the hearth is ready too (`State.tileUp`). -/
def execDieReady (d : Nat) (tilesFailed : BitVec 32) (s : State) : Host.Outcome State Fault Refusal :=
  if 10 ≤ d ∨ !s.canBeReady d then .next s
  else
    let s := s.setDie d .ready
    let s := if d < 4 then
        ((s.layPlans d).coldTiles d |> fun s =>
          (List.range 8).foldl (fun s i => if tilesFailed.getLsbD (8 * d + i) then s.fenceTile (8 * d + i) else s) s)
      else if d < 8 then (s.zero (storeBase (8 * (d - 4))) (8 * 0x1000000)).layStores (d - 4)
      else if d = 8 then { s with host := { s.host with linkTraining := !s.host.perstAsserted } } else s
    let bit := BitVec.ofNat 10 (2 ^ d)
    .next (if s.links.rearm.getLsbD d then
        { s with links := { s.links with rearm := s.links.rearm &&& ~~~ bit, resetDue := s.links.resetDue ++ [d] } }
      else s)

/-! ## JTAG (R358-R360) -/

/-- The dies in the order of the JTAG chain: M, V0, H0, K0, H1, K1, V1, H2, K2, H3, K3 (R358). -/
def tapDie (n : Nat) : Nat := ([10, 8, 4, 0, 5, 1, 9, 6, 2, 7, 3][n]?).getD 0
/-- IDCODE of die d, numbered as in R42 (R359). -/
def idcode (d : Nat) : Word := BitVec.ofNat 32 (2 ^ 28 + (0xC4D0 + d) * 2 ^ 12 + 0x4D7 * 2 + 1)
/-- What the connector pins of M's boundary register do: their function, the levels of the register, or nothing (R359, IEEE 1149.1). -/
inductive PinDrive
  | functional | boundary (v : BitVec 12) | floating
  deriving DecidableEq, Repr
def State.pinDrive (s : State) : PinDrive :=
  match sget 1 s.links.tapIr 0 with
  | 0x03 | 0x04 => .boundary (sget 0 s.links.boundary 0)
  | 0x05 => .floating
  | _ => .functional
/-- The data register between TDI and TDO of TAP n: IDCODE, the boundary register, or the bypass bit, with its length in bits (R359). -/
def State.tapData (s : State) (n : Nat) : Nat × Nat :=
  match sget 1 s.links.tapIr n with
  | 0x01 => (32, (idcode (tapDie n)).toNat)
  | 0x02 | 0x03 => if n = 0 then (12, (sget 0 s.links.boundary 0).toNat) else (1, (sget 0 s.links.boundary n).toNat % 2)
  | _ => (1, 0)
/-- TEST_EN is asserted (R391). -/
def State.testEn (s : State) : Bool := s.host.sbActive.getLsbD 5
/-- TAP n, in chain order, takes an instruction where its condition holds, and BYPASS with a class C fault where not. -/
def State.tapIr (s : State) (n code : Nat) (ok : Bool) : State :=
  if 11 ≤ n then s
  else
    let set (c : Nat) : State := { s with links := { s.links with tapIr := sset 1 s.links.tapIr n c } }
    if ok then set code else (set 0xFF).raise { source := 305 }

def execIdcode (tap : Nat) (s : State) : Host.Outcome State Fault Refusal := .next (s.tapIr tap 0x01 true)
/-- SAMPLE/PRELOAD: the boundary register then holds what the tester has shifted in, which no operand gives: a free value (log entry 22). -/
def execSamplePreload (tap : Nat) (s : State) : Host.Outcome State Fault Refusal :=
  if 11 ≤ tap then .next s
  else
    let r := (s.tapIr tap 0x02 true).takeFree
    .next { r.2 with links := { r.2.links with boundary := sset 0 r.2.links.boundary tap (if tap = 0 then r.1.truncate 12 else (r.1.truncate 12) &&& 1) } }
def execExtest (tap : Nat) (s : State) : Host.Outcome State Fault Refusal := .next (s.tapIr tap 0x03 s.testEn)
def execClamp (tap : Nat) (s : State) : Host.Outcome State Fault Refusal := .next (s.tapIr tap 0x04 s.testEn)
def execHighz (tap : Nat) (s : State) : Host.Outcome State Fault Refusal := .next (s.tapIr tap 0x05 s.testEn)
/-- IJTAG needs DEBUG = 1 (R55). -/
def execIjtag (tap : Nat) (s : State) : Host.Outcome State Fault Refusal := .next (s.tapIr tap 0x10 (s.mould.device.debug == 1))
/-- BYPASS, and every code that is no instruction. -/
def execBypass (tap code : Nat) (s : State) : Host.Outcome State Fault Refusal := .next (s.tapIr tap 0xFF (code == 0xFF))
/-- TAP reset: IDCODE is selected in every TAP (PRESUMED of IEEE 1149.1, log entry 22). -/
def execTapReset (s : State) : Host.Outcome State Fault Refusal := .next { s with links := { s.links with tapIr := [] } }
/-- What the IEEE 1687 instruments let a reader see (R360). -/
inductive Monitor
  | rootLock
  | forwardedClock (d : Nat)
  | eyeMargin (e lane : Nat)
  | tileSensor (t : Nat) (b : Bool)
  | storeSensor (t : Nat)
  | junction (i : Nat)
  | rail (d : Nat)
  deriving DecidableEq, Repr
/-- A TAP has the IEEE 1687 network open. -/
def State.ijtagOpen (s : State) : Bool := s.links.tapIr.any (fun e => e.2 = 0x10)
/-- A monitor read through IJTAG (R360): none while no TAP opens the network.  An eye margin is free (log entry 22). -/
def State.monitor (s : State) (x : Monitor) : Option Nat :=
  if !s.ijtagOpen then none
  else some (match x with
  | .rootLock => b2n s.links.rootLock
  | .forwardedClock d => b2n (s.links.fwdOk.getLsbD d)
  | .eyeMargin e lane => (Config.freeWord (s.free + 128 * e + lane)).toNat % 65536
  | .tileSensor t b => (if b then (s.tileTherm t).b else (s.tileTherm t).a).toNat
  | .storeSensor t => (s.tileTherm t).store.toNat
  | .junction i => (sget 0 s.therm.junctions i).toNat
  | .rail d => (sget {} s.power.rails d).mv)
/-- An instrument write takes effect only in factory test mode, through a TAP that IJTAG has opened (R360). -/
def execInstrumentWrite (inst : Nat) (v : DWord) (s : State) : Host.Outcome State Fault Refusal :=
  if s.faults.testMode ∧ s.ijtagOpen
  then .next { s with links := { s.links with instruments := sset 0 s.links.instruments inst v } } else .next s

end Sys2Proof.Machine
end

