-- ==== Sys2Proof/Machine/Clock.lean ====
section
/-! DEFINITION.  What time alone does when no command waits. -/
namespace Sys2Proof.Machine
open Sys2Proof

/-- 4 µs pass: MNT_AO_COUNT counts 275 F4 cycles of 68.75 MHz once the root PLL has locked (R354), TLR_USEC counts
4 µs from firing on (R294, R304), and the shut-down of a port that EN was cleared of has ended (R357).
DESIGN CHOICE (log entry 5): the table has no row for a tick. -/
def idle (s : State) : State :=
  let s := s.endShutdowns
  { s with
    links := { s.links with aoCount := if s.links.rootLock then s.links.aoCount + 275 else s.links.aoCount }
    teller := { s.teller with usec := if s.mould.fired then s.teller.usec + 4 else s.teller.usec } }

end Sys2Proof.Machine
end

