-- ==== Sys2Proof/Machine/Faults.lean ====
section
/-! DEFINITION.  The fault collector (R424-R438, R451-R456): sources, records, reactions, FLT_N and HBEAT, fences and
injection; one meaning per row. -/
namespace Sys2Proof.Machine
open Sys2Proof

/-! ## Sources (R424-R426, R478, R505) -/

def within (s lo hi : Nat) : Bool := decide (lo ≤ s) && decide (s ≤ hi)
/-- No reserved source is ever raised (R425). -/
def srcReserved (s : Nat) : Bool := within s 376 383 || within s 410 415 || decide (427 ≤ s)
/-- Safety sources (R424). -/
def srcSafety (s : Nat) : Bool :=
  within s 64 67 || within s 84 87 || within s 277 278 || within s 344 354 || s == 357 || s == 425 || s == 426
/-- Class of a source: 0 C, 1 U, 2 F. -/
def srcClass (s : Nat) : Nat :=
  if srcSafety s || s == 386 || s == 388 then 2
  else if within s 0 31 || within s 72 83 || within s 103 132 || within s 181 228 || within s 279 298 || within s 300 302 ||
    s == 308 || within s 309 318 || within s 324 331 || s == 356 || s == 358 || within s 360 371 || within s 374 375 ||
    s == 384 || s == 387 || within s 389 404 || within s 407 409 || within s 416 423 then 1
  else 0
/-- Owner of a record (R425, R426): the partition the source belongs to or the raising rule names; 8 where the running
structure does not have it. -/
def State.srcOwner (s : State) (f : FaultReq) : Nat :=
  let n := f.source
  let p := if n < 32 then s.tilePart n
    else if within n 72 83 || within n 181 228 then f.owner
    else if within n 283 290 then n - 283
    else if within n 291 298 then n - 291
    else if within n 389 396 then n - 389
    else if within n 397 404 then n - 397
    else 8
  if (s.part? p).isSome then p else 8

/-! ## FLT_N (R435, R448) -/

/-- Some condition asserts FLT_N. -/
def State.fltNCause (s : State) : Bool :=
  decide (0 < s.faults.pulse) || s.faults.hold || s.faults.mouldsFailed || s.update.recovery || s.links.rootLost ||
    s.islands.noneActive || s.power.coolShutdown || s.power.holdup
/-- The FLT_N level: held through a switch-over gap, though not through the hold-up sequence (R448, R454). -/
def State.fltN (s : State) : Bool := if s.islands.gap.isSome && !s.power.holdup then s.faults.fltNHeld else s.fltNCause
/-- A pulse starts, or restarts its width; in a gap it is emitted in full afterwards. -/
def State.pulse (s : State) : State :=
  if s.islands.gap.isSome then { s with faults := { s.faults with gapPulse := true } }
  else { s with faults := { s.faults with pulse := s.mould.pins.fltNWidth } }
/-- A safety-class record is present (R436). -/
def State.safetyFault (s : State) : Bool := (List.range 512).any (fun n => s.faults.srcStat.getLsbD n && srcSafety n)

/-! ## Caps as they take effect (R465, R479) -/

/-- The cap is met by DVFS alone. -/
def PowerState.capMet (p : PowerState) : Bool := p.capClamp == 16 && decide (p.avg100us ≤ p.capW * 10)
def PowerState.endPending (p : PowerState) : PowerState := if p.capPending && p.capMet then { p with capPending := false } else p
/-- Kiln-rail power in 0.1 W. -/
def PowerState.kilnDw (p : PowerState) : Nat := ((List.range 4).map (fun k => (sget {} p.rails k).dw)).sum
/-- A cap takes effect; `view` is where a cap below 150 W is logged.  With no kiln power the clamp's quotient has no value:
it is free (log entry 3). -/
def State.applyCap (s : State) (w view : Nat) : State :=
  let s := if w ≠ 0 ∧ w < 150 then s.logAccess view (dieWindow 10 + 0x320008) causeRange true else s
  let w := if w = 0 then 0 else max 150 w
  let p := { s.power with capW := w }
  if w = 0 ∨ p.avg100us ≤ w * 10 then { s with power := { p with capPending := false, capClamp := 16 } }
  else
    let r := s.takeFree
    let free := 4 + r.1.toNat % 13
    let pk := p.kilnDw
    let k : Int := if pk = 0 then (free : Int) else (16 * ((w : Int) * 10 - (p.nowDw - pk))) / (pk : Int)
    let clamp := (max 4 (min 16 k)).toNat
    { (if pk = 0 then r.2 else s) with power := { p with capPending := true, capClamp := clamp } }
/-- A pause ends: a cap that came in it applies. -/
def State.endPause (s : State) : State :=
  match s.power.capLater with
  | some c => ({ s with power := { s.power with capLater := none } } : State).applyCap c.1 c.2
  | none => s

/-! ## Islands lost (R447, R449, R450) -/

def IslandState.st (x : IslandState) (b : Bool) : IslState := if b then x.stB else x.stA
def IslandState.setSt (x : IslandState) (b : Bool) (v : IslState) : IslandState := if b then { x with stB := v } else { x with stA := v }
/-- No island is active: source 425 is raised, HBEAT stops, dispatch stays held (R450). -/
def State.loseIslands (s : State) : State :=
  { s with islands := { s.islands with noneActive := true, gap := none }
           faults := { s.faults with hbeatStopped := true }
           teller := { s.teller with held := true } }.raise { source := 425 }
/-- A switch-over of cause `src` begins if the standby island is synchronised; otherwise no island is active (R447, R450).
In the gap of a planned return, the return is abandoned: B stays active and A is reset again (R454). -/
def State.leaveActive (s : State) (src : Nat) (st : IslState) : State :=
  let b := s.islands.activeB
  if s.islands.noneActive then s
  else if s.islands.gap.isSome then s
  else if s.islands.st (!b) = .sync then
    let now := s.links.aoCount.toNat
    let away := if b then s.islands.away else (s.islands.away.filter (fun t => decide (now - t ≤ cycles1h))) ++ [now]
    { s with
      faults := { s.faults with fltNHeld := s.fltNCause }
      islands := { (s.islands.setSt b st) with gap := some src, planned := false, swap := false, copySent := false, away := away,
                                               pinned := s.islands.pinned || decide (3 ≤ away.length) }
      teller := { s.teller with held := true } }
  else ({ s with islands := s.islands.setSt b st } : State).loseIslands
/-- A hand-back that island A's fault meets (R454). -/
def State.abandonReturn (s : State) : State :=
  let now := s.links.aoCount.toNat
  let away := (s.islands.away.filter (fun t => decide (now - t ≤ cycles1h))) ++ [now]
  { s with
    faults := { s.faults with pulse := if s.faults.gapPulse then s.mould.pins.fltNWidth else s.faults.pulse, gapPulse := false }
    islands := { s.islands with gap := none, planned := false, stA := .failed, selfCycles := 0, fullCopyLeft := 0, away := away,
                                pinned := s.islands.pinned || decide (3 ≤ away.length) }
    teller := { s.teller with held := s.update.holding } }.endPause
/-- An island reset (R449): of the active island, after a switch-over away from it; of the other, at once. -/
def State.islandReset (s : State) (b : Bool) (src : Nat) : State :=
  if s.isActive b then s.leaveActive src .reset
  else if s.islands.gap.isSome ∧ !b ∧ s.islands.planned then s.abandonReturn
  else { s with islands := { (s.islands.setSt b .reset) with selfCycles := 0, fullCopyLeft := 0, copySent := false } }

/-! ## Reactions (R427-R429) -/

/-- The module fires again once the Ledger tail is written; for sources 354 and 357 it waits for cooling to return (R427, R473), which
an injected one of them has not lost (R438). -/
def State.chipReset (s : State) (src : Nat) (injected : Bool) : State :=
  let s := s.writeTail
  let lost := s.power.coolClamp || s.power.coolShutdown
  if (src = 354 ∨ src = 357) ∧ (lost ∨ !injected) then s else { s with links := { s.links with firingDue := some .chipRst } }
/-- A die reset as a reaction; a die in thermal shutdown has it already under way. -/
def State.reactDie (s : State) (d : Nat) : State := if (s.cyc d).shutdown then s else s.requestReset d
/-- BLK_RST of a system source (R428). -/
def State.blockReset (s : State) (n : Nat) : State :=
  if n < 64 then s.reactDie (n % 32 / 8)
  else if within n 64 67 then s.reactDie (n - 64)
  else if within n 68 87 then s.reactDie (4 + (n - 68) % 4)
  else if within n 88 132 then s.writeRetrain (2 * ((n - 88) % 15))
  else if within n 133 276 then { s with faults := { s.faults with mcPaused := s.faults.mcPaused ||| BitVec.ofNat 6 (2 ^ ((n - 133) % 48 / 8)) } }
  else if within n 277 278 then s.reactDie (8 + (n - 277))
  else if within n 279 282 then s.resetWheel (n - 279)
  else if within n 301 302 then s.pcieReset
  else if within n 320 327 || within n 332 339 || within n 344 347 then s.reactDie (n % 4)
  else if within n 328 331 || within n 340 343 || within n 348 351 then s.reactDie (4 + n % 4)
  else if within n 352 353 then s.reactDie (8 + (n - 352))
  else if within n 416 423 then s.islandReset (n % 2 == 1) n
  else s
/-- A reaction of code c takes effect, every weaker one with it (R427). -/
def State.react (s : State) (c n owner : Nat) (injected : Bool) : State :=
  let s := if 1 ≤ strength c then s.pulse else s
  let s := if 2 ≤ strength c then { s with faults := { s.faults with nmi := s.faults.nmi ++ [n] } } else s
  if strength c < 3 then s
  else if owner < 8 then s.partitionReset owner
  else if c = 2 then s.blockReset n
  else s.chipReset n injected

/-! ## Records (R427, R430-R433, R442) -/

/-- Fences that occurrences of a source, or its records for a channel, lead to (R451). -/
def State.fenceByHistory (s : State) (n : Nat) (record : Bool) : State :=
  if n < 32 then
    let c : Nat × State := s.countWithin n cycles24h
    if 3 ≤ c.1 ∧ !s.faults.fenceTiles.getLsbD n then c.2.fenceTile n else c.2
  else if within n 181 228 then
    if !record then s else
    let c : Nat × State := s.countWithin n cycles1h
    if 1000 < c.1 ∧ !s.ledger.fenceChans.getLsbD (n - 181) then c.2.fenceChan (n - 181) else c.2
  else if within n 279 282 then
    let c : Nat × State := s.countWithin n cycles24h
    if 3 ≤ c.1 ∧ !s.faults.fenceWheels.getLsbD (n - 279) then c.2.fenceWheel (n - 279) else c.2
  else s

def State.setFaultQueue (s : State) (o : Nat) (l : List LedgerRec) : State :=
  ({ s with faults := { s.faults with queues := sset [] s.faults.queues o l } } : State).occurIf
    (!(s.faultQueue o).isEmpty) (!l.isEmpty) (1120 + o)
/-- Class, escalation and reaction of a new record against the owner's unacknowledged ones (R432). -/
def escalate (queue : List LedgerRec) (owner c0 react : Nat) : Nat × Bool × Nat :=
  let esc := decide (c0 < 2) && queue.any (fun r => r.cls == c0)
  let c := if esc then c0 + 1 else c0
  let r := stronger react (if c = 2 then 1 else 0)
  let again := c == 2 && queue.any (fun r => r.cls == 2)
  (c, esc, if again then stronger r (if owner < 8 then 2 else 3) else r)
/-- A fault makes its record, or counts in the queued one (R427, R430-R432). -/
def State.record (s : State) (f : FaultReq) : State :=
  let n := f.source
  if srcReserved n then s
  else
    let o := s.srcOwner f
    let s := { s with faults := { s.faults with srcStat := s.faults.srcStat ||| BitVec.ofNat 512 (2 ^ n)
                                                hbeatStopped := s.faults.hbeatStopped || srcSafety n } }
    let q := s.faultQueue o
    let detail : BitVec 64 := BitVec.ofNat 64 (f.addr % 2 ^ 48 + f.code * 2 ^ 48)
    let s := match q.find? (fun r => r.source = n) with
      | some r =>
        let s := s.setFaultQueue o (q.map (fun (x : LedgerRec) => if x.source = n then { x with count := min 65535 (x.count + 1) } else x))
        let w := s.noteFault { r with stamp := s.links.aoCount.toNat, injected := f.injected, detail := detail }
        (w.2.fenceByHistory n (s.makesRecord n)).react r.reaction n o f.injected
      | none =>
        let e := escalate q o (f.cls.getD (srcClass n)) (stronger ((s.mould.reactions[n]?).getD 0) (factoryReaction n))
        let r : LedgerRec := {
          firing := s.ledger.firingCount, stamp := s.links.aoCount.toNat, typ := 1, cls := e.1, escalated := e.2.1,
          injected := f.injected, source := n, reaction := e.2.2, owner := o, count := 1, detail := detail }
        let w := s.noteFault r
        let s := w.2.fenceByHistory n (s.makesRecord n)
        let s := if q.length < 64 then s.setFaultQueue o (q ++ [{ r with seq := w.1 }])
          else { s with faults := { s.faults with dropped := sset 0 s.faults.dropped o (min 65535 (sget 0 s.faults.dropped o + 1)) } }
        s.react e.2.2 n o f.injected
    s

/-- What a source that hardware detects does before its record: a tile's uncorrectable error ends its command (R114), and a failed
TRNG health test or engine self-test shows in OHM_STATUS (R505, R508). -/
def State.detect (s : State) (f : FaultReq) : State :=
  if f.source < 32 then
    match (s.tile f.source).running with
    | some c => endRunning s f.source c stHw 0 0 0
    | none => s
  else if f.source = 387 then { s with sec := { s.sec with trngOk := false } }
  else if f.source = 388 then { s with sec := { s.sec with enginesOk := false } }
  else s

/-- FAULT_RECORD: the fault given, which hardware detects, or the oldest one that another row has raised (R427, R433). -/
def execFaultRecord (detected : Option FaultReq) (s : State) : Host.Outcome State Fault Refusal :=
  if !s.links.rootLock then .next s
  else match detected with
  | some f => if srcReserved f.source then .next s else .next ((s.detect f).record { f with injected := false, cls := none })
  | none => match s.faults.raised with
    | [] => .next s
    | f :: rest => .next ({ s with faults := { s.faults with raised := rest } }.record f)

/-! ## Acknowledgement (R430, R455) -/

def fltAddr (ofs : Nat) : Nat := dieWindow 10 + 0x310000 + ofs
/-- Drop the head of an owner's queue where it bears a SEQ. -/
def State.ackHead (s : State) (o seq : Nat) : State :=
  match s.faultQueue o with
  | r :: rest => if r.seq = seq then s.setFaultQueue o rest else s
  | [] => s
/-- FLT_ACK: from a function its partition's head, from the PF either head, from an ADMIN peer the system's head; from the
active island a system record of class C wherever it stands as well. -/
def State.ackFault (s : State) (m : Master) (seq : Nat) : State :=
  match m with
  | .func f =>
    let p := s.funcPart f
    if p < 8 ∧ (s.faultQueue p).head?.map (·.seq) = some seq then s.ackHead p seq
    else if f = 0 then s.ackHead 8 seq else s
  | .peer n => if s.adminPeer n then s.ackHead 8 seq else s
  | .island b =>
    if s.isActive b then
      (s.ackHead 8 seq).setFaultQueue 8 (((s.ackHead 8 seq).faultQueue 8).filter (fun r => !(r.seq == seq && r.cls == 0)))
    else s
  | _ => s
/-- FLT_ACK (R430). -/
def execFltAck (m : Master) (v : Word) (s : State) : Host.Outcome State Fault Refusal :=
  if s.isStandby m then .next (s.reply .dropped)
  else .next (s.gate m (fltAddr 0x18) true (fun s => (s.reply .accepted).ackFault m v.toNat))

/-- The active island acknowledges a class C system record that has entered the Ledger tail (R430). -/
def execClassCAutoAck (seq : Nat) (s : State) : Host.Outcome State Fault Refusal :=
  if s.islands.noneActive ∨ s.islands.gap.isSome then .next s
  else if (s.ledger.tail ++ s.ledger.ring).any (fun r => r.seq == seq) then
    .next (s.setFaultQueue 8 ((s.faultQueue 8).filter (fun r => !(r.seq == seq && r.cls == 0))))
  else .next s

/-! ## Clearing status (R434) -/

/-- The cause of a source persists. -/
def State.persists (s : State) (n : Nat) : Bool :=
  let down (d : Nat) : Bool := s.die d != .ready
  let tiles (k : Nat) (f : TileTherm → Bool) : Bool := (List.range 8).any (fun i => f (s.tileTherm (8 * k + i)))
  let ends (j : Nat) (f : PortEnd → Bool) : Bool := f (s.portEnd (2 * j)) || f (s.portEnd (2 * j + 1))
  let island (b : Bool) : Bool := s.islands.st b == .reset || s.islands.st b == .failed
  if n < 64 then s.faults.fenceTiles.getLsbD (n % 32)
  else if n < 68 then down (n - 64)
  else if n < 88 then down (4 + (n - 68) % 4)
  else if n < 103 then ends (n - 88) (fun x => x.laneFail != 0 || x.spareFail != 0)
  else if n < 118 then ends (n - 103) (fun x => x.up && decide (widthLanes x.width < portLanes (n - 103)))
  else if n < 133 then ends (n - 118) (·.fenced)
  else if n < 277 then s.faults.fenceChans.getLsbD ((n - 133) % 48)
  else if n < 279 then down (8 + (n - 277))
  else if n < 283 then s.faults.fenceWheels.getLsbD (n - 279)
  else if n = 301 then s.host.refclkUsed && !s.host.refclkPresent
  else if n = 306 then s.host.sbActive.getLsbD 6
  else if n = 307 then s.host.sbChattering != 0 || s.host.sbHeld != 0
  else if n = 308 then s.mould.fallback
  else if within n 309 318 then s.die (n - 309) == .noClock
  else if within n 320 323 then tiles (n - 320) (·.disagree)
  else if within n 324 327 then tiles (n - 324) (·.failed)
  else if within n 328 331 then tiles (n - 328) (·.storeFailed)
  else if within n 332 335 then tiles (n - 332) (·.warn)
  else if within n 336 339 then tiles (n - 336) (·.kilnHot)
  else if within n 340 343 then tiles (n - 340) (·.storeHot)
  else if within n 344 353 then down (n - 344)
  else if n = 354 ∨ n = 356 ∨ n = 357 then
    (n == 356 && s.power.flowLost) || (n == 357 && s.host.sbActive.getLsbD 3) || (s.power.coolShutdown && n == 354)
  else if n = 358 then s.power.inputBad
  else if within n 360 370 then (sget {} s.power.rails (n - 360)).oor
  else if within n 374 375 then (sget {} s.power.rails (n - 363)).oor
  else if n = 371 then s.therm.inletFail
  else if n = 372 then s.therm.boardFail
  else if within n 416 423 then island (n % 2 == 1)
  else if n = 425 then s.islands.noneActive
  else if n = 426 then s.links.rootLost
  else false
/-- Writing 1 to a set bit of FLT_SRC_STAT clears it, unless the cause persists. -/
def State.clearStat (s : State) (w v : Nat) : State :=
  (List.range 32).foldl (fun s b =>
    let n := 32 * w + b
    if !bit v b || !s.faults.srcStat.getLsbD n then s
    else if s.persists n then { s with faults := { s.faults with clrRefused := true, lastRefused := n } }
    else { s with faults := { s.faults with srcStat := s.faults.srcStat &&& ~~~ (BitVec.ofNat 512 (2 ^ n)) } }) s
/-- The masters that reach the fault collector's module-wide registers (R455): the PF, the mint and management. -/
def pfSide (m : Master) : Bool := match m with | .func f => f == 0 | _ => true
/-- A write that only the PF, the mint and management may make; of the peers those of the ADMIN role where `admin` says so. -/
def pfWrite (s : State) (m : Master) (addr : Nat) (k : State → State) : State :=
  if s.isStandby m then s.reply .dropped
  else s.gate m addr true (fun s => if pfSide m then k (s.reply .accepted) else s.refuse m addr true)
/-- FLT_SRC_STATw (R434). -/
def execFltSrcStatClear (m : Master) (w : Nat) (v : Word) (s : State) : Host.Outcome State Fault Refusal :=
  .next (pfWrite s m (fltAddr (0x100 + 8 * w)) (fun s => if w < 16 then s.clearStat w v.toNat else s.refuse m (fltAddr (0x100 + 8 * w)) true))

/-! ## FLT_N and HBEAT (R435, R436) -/

/-- The pulse's width has elapsed. -/
def execFltNPulseEnd (s : State) : Host.Outcome State Fault Refusal := .next { s with faults := { s.faults with pulse := 0 } }

/-- Every 500 µs: HBEAT toggles, or stays at its last level. -/
def execHbeatToggle (s : State) : Host.Outcome State Fault Refusal :=
  if !s.links.rootLock ∨ s.power.holdup then .next s
  else if s.faults.strobed ∧ !s.safetyFault ∧ !s.islands.noneActive ∧ !s.power.coolShutdown then
    .next { s with faults := { s.faults with hbeat := !s.faults.hbeat, hbeatStopped := false } }
  else .next { s with faults := { s.faults with hbeatStopped := true } }

/-- The active island's strobe. -/
def execHealthStrobe (s : State) : Host.Outcome State Fault Refusal :=
  if s.islands.noneActive ∨ s.islands.gap.isSome ∨ !s.mould.fired then .next s
  else .next { s with faults := { s.faults with strobed := true } }

/-- No strobe for 1 ms. -/
def execStrobeTimeout (s : State) : Host.Outcome State Fault Refusal :=
  .next { s with faults := { s.faults with strobed := false, hbeatStopped := true } }

/-- A memory-controller group's retraining ends and its accesses resume (R428): those that have waited come again. -/
def execMcGroupResumed (g : Nat) (s : State) : Host.Outcome State Fault Refusal :=
  .next { s with faults := { s.faults with mcPaused := s.faults.mcPaused &&& ~~~ (BitVec.ofNat 6 (2 ^ g)) } }

/-! ## Fences and injection by command (R438, R451, R456) -/

/-- Remove a fence; a tile gets work when plans are next laid, a channel returns at the next firing. -/
def State.unfence (s : State) (kind i : Nat) : State :=
  let s := s.noteFence kind i false
  match kind with
  | 0 =>
    let m := ~~~ (BitVec.ofNat 32 (2 ^ i))
    { s with faults := { s.faults with fenceTiles := s.faults.fenceTiles &&& m
                                       fenceBack := s.faults.fenceBack ||| (s.faults.fenceTiles &&& BitVec.ofNat 32 (2 ^ i)) }
             ledger := { s.ledger with fenceTiles := s.ledger.fenceTiles &&& m } }
  | 1 => { s with ledger := { s.ledger with fenceChans := s.ledger.fenceChans &&& ~~~ (BitVec.ofNat 48 (2 ^ i)) } }
  | _ =>
    let m := ~~~ (BitVec.ofNat 4 (2 ^ i))
    { s with faults := { s.faults with fenceWheels := s.faults.fenceWheels &&& m }, ledger := { s.ledger with fenceWheels := s.ledger.fenceWheels &&& m } }
/-- A write of FLT_FENCE_CMD (R456). -/
def State.fenceCmd (s : State) (m : Master) (v : Nat) : State :=
  let kind := bits v 0 2
  let i := bits v 3 6
  let go := bit v 9
  let limit := match kind with | 0 => 32 | 1 => 48 | _ => 4
  if kind = 3 ∨ (go ∧ limit ≤ i) then s.logAccess (instOf m) (fltAddr 0x200) causeRange true
  else
    let s := { s with faults := { s.faults with fenceKind := kind, fenceUnf := bit v 2, fenceIndex := i } }
    if !go then s
    else if bit v 2 then s.unfence kind i
    else match kind with
    | 0 => s.fenceTile i
    | 1 => s.fenceChan i
    | _ => s.fenceWheel i
/-- A write of FLT_INJECT (R438); a GO write that is ignored leaves no trace in it. -/
def State.injectCmd (s : State) (m : Master) (v : Nat) : State :=
  let n := bits v 0 9
  let c := bits v 9 2
  let t := { s with faults := { s.faults with injSource := n, injClass := c } }
  if !bit v 11 then t
  else if !s.faults.testMode then s.raise { source := 319 }
  else if srcReserved n then (s.logAccess (instOf m) (fltAddr 0x240) causeRange true).raise { source := 319 }
  else t.raise { source := n, cls := if c = 0 then none else some (c - 1), injected := true }

end Sys2Proof.Machine
end

