-- ==== Sys2Proof/Machine/Power.lean ====
section
/-! DEFINITION.  The power controller (R458-R465, R473, R480): the limit, caps, the brake and its ramp, DVFS, rails; one
meaning per row of the power chapter and its pins. -/
namespace Sys2Proof.Machine
open Sys2Proof

/-! ## The limit and the tiles (R458-R461) -/

/-- Watts of an ENVELOPE code (R55). -/
def envelopeW (c : Nat) : Nat := match c with | 0 => 250 | 1 => 400 | _ => 600
/-- ENVELOPE code that the mould and the cooling step leave (R471, R472, R480). -/
def State.limitEnv (s : State) : Nat :=
  let e := s.mould.device.envelope
  if s.power.flowLost ∨ 2 ≤ s.power.step then 0 else if s.power.step = 1 then e - 1 else e
/-- The effective limit L in watts (R458). -/
def State.limit (s : State) : Nat :=
  let l := envelopeW s.limitEnv
  if s.power.capW = 0 then l else min l s.power.capW
/-- The lowest divider that CLK_OPT allows (R349, R459). -/
def State.lowestD (s : State) : Nat := 4 + s.mould.device.clkOpt

/-- The controller's throttle commands hold: a switch-over gap, an ACTIVATE pause, or no island active (R448, R450, R479). -/
def State.throttleHeld (s : State) : Bool := s.islands.gap.isSome || s.islands.noneActive || s.update.holding
/-- A released brake clamp rises from 4/16 by steps (R464). -/
def State.startRamp (s : State) : State := { s with power := { s.power with brakeDuty := 4 } }

/-! ## Caps (R465, R479) -/

/-- A cap is written: ignored in hold-up and in a cooling shutdown, kept for its end in a pause (R479). -/
def State.setCap (s : State) (w view : Nat) : State :=
  if s.power.holdup ∨ s.power.coolShutdown then s
  else if s.throttleHeld then { s with power := { s.power with capLater := some (w, view) } }
  else s.applyCap w view
/-- CAP_TIMEOUT: the cap is not met within 5 ms (R465). -/
def execCapTimeout (s : State) : Host.Outcome State Fault Refusal :=
  .next (if s.power.capPending then s.raise { source := 359 } else s)

/-! ## Sampling (R458, R463) -/

/-- A rail's set voltage in mV, moved by DVFS. -/
def RailState.setMv (x : RailState) (d : Nat) : Int := (Config.railMv d).toNat + 10 * x.moved
/-- A reading is outside ±5 % of the set voltage. -/
def RailState.out (x : RailState) (d mv : Nat) : Bool := decide (x.setMv d < 20 * ((mv : Int) - x.setMv d).natAbs)
/-- Rail readings, in rail order. -/
def railSamples (rails : Store RailState) (l : List (Nat × Nat)) : Store RailState :=
  (l.take 13).zipIdx.foldl (fun m (e : (Nat × Nat) × Nat) =>
    let x := sget {} m e.2
    sset {} m e.2 { x with mv := e.1.1, dw := e.1.2, oor := x.out e.2 e.1.1 }) rails

/-- Every die but the mint's always-on, Ohmis and management domains is off; nothing they held is left (R473, R474). -/
def State.allOff (s : State) : State := s.stopDies
/-- The hold-up sequence runs to its end (R474). -/
def State.holdUp (s : State) : State :=
  if s.power.holdup then s
  else
    let s := { s with power := { s.power with holdup := true } }
    let s := (s.note 0x09 [1]).writeTail.allOff
    { s with links := { s.links with rootLock := false, fwdOk := 0 } }
/-- The 1 s average that functions other than the PF see is refreshed once in a second (R484). -/
def PowerState.refresh (p : PowerState) (count : Nat) : PowerState :=
  let k := count / 68750000
  if k = p.vfSecond then p else { p with vfAvg := p.avg1s, vfSecond := k }

/-- POWER_SAMPLE: 20 µs above 1.25 L clamp every tile until the 100 µs average is below L; 100 µs of input outside
39-61 V raise source 358, and two samples outside 38-62 V, 10 µs apart, start the hold-up sequence. -/
def execPowerSample (r : PowerReads) (s : State) : Host.Outcome State Fault Refusal :=
  if s.power.holdup then .next s
  else
    let l := s.limit * 10
    let p := s.power
    let beyond := if l * 5 < r.nowDw * 4 then p.overRun + 1 else 0
    let bad := decide (r.inMv < 39000) || decide (61000 < r.inMv)
    let run := if bad then min 10 (p.inRun + 1) else 0
    let deep := if decide (r.inMv < 38000) || decide (62000 < r.inMv) then min 2 (p.deepRun + 1) else 0
    let inputBad := bad && (p.inputBad || decide (10 ≤ run))
    let p' := { p with
      inMv := r.inMv, inCa := r.inCa, nowDw := r.nowDw, avg1s := r.avg1s, avg100us := r.avg100us, joules := p.joules + r.joules,
      rails := railSamples p.rails r.rails, overRun := min 2 beyond,
      overClamp := if 2 ≤ beyond then true else if r.avg100us < l then false else p.overClamp,
      inRun := run, inputBad := inputBad, deepRun := deep }
    let s := { s with power := p'.endPending.refresh s.links.aoCount.toNat }
    let s := if inputBad && !p.inputBad then s.raise { source := 358 } else s
    .next (if 2 ≤ deep then s.holdUp else s)

/-- RAIL_OUT_OF_RANGE: 50 µs outside the band (R463, R478). -/
def execRailOutOfRange (d : Nat) (above : Bool) (s : State) : Host.Outcome State Fault Refusal :=
  if 13 ≤ d ∨ s.power.holdup then .next s
  else
    let x := sget {} s.power.rails d
    let s := { s with power := { s.power with rails := sset {} s.power.rails d { x with oor := true } } }
    .next (s.raise { source := if d ≤ 10 then 360 + d else 363 + d, code := if above then 2 else 1 })

/-! ## DVFS (R459, R465) -/

/-- The lowest divider in use on kiln k (R459). -/
def State.kilnD (s : State) (k : Nat) : Nat := (((List.range 8).map (fun i => s.tileD (8 * k + i))).min?).getD 8
/-- Steps of 10 mV that bring kiln k's rail to the voltage of divider d, or just above it (R459). -/
def railSteps (k d : Nat) : Int := (((Config.railFor k d).toNat : Int) - (Config.railMv k).toNat + 9) / 10
/-- Partition p draws more than its share: the array power above the module's other draw, in proportion to its tiles (R462). -/
def State.beyondShare (s : State) (draws : List Nat) (p : Nat) : Bool :=
  let total := ((List.range 8).map (fun q => sget 0 s.power.shares q)).sum
  let array := s.limit * 10 - (s.power.nowDw - s.power.kilnDw)
  decide (array * sget 0 s.power.shares p < (draws[p]?).getD 0 * total)
/-- Tile t may be lowered: its partition draws beyond its share, or no tile of such a partition can be lowered any more (R462). -/
def State.mayLower (s : State) (t : Nat) (draws : List Nat) : Bool :=
  let beyond (u : Nat) : Bool := s.beyondShare draws (s.tilePart u)
  beyond t || (List.range 32).all (fun u => !beyond u || decide (8 ≤ (s.tilePower u).powerD))

/-- DVFS_STEP: one divider step of a tile, tiles of partitions beyond their share first (R462) and no faster than the kiln's rail supplies
(R459); one 10 mV step of a kiln rail towards the voltage of the lowest divider in use there; or one step of a cap clamp's relaxation while
the 100 µs average is at least 5 % below the cap. -/
def execDvfsStep (d : DvfsMove) (s : State) : Host.Outcome State Fault Refusal :=
  if s.throttleHeld ∨ s.power.holdup ∨ s.power.coolShutdown then .next s
  else
    let tileTo (t d : Nat) : State := if t < 32 then s.setTilePower t { s.tilePower t with powerD := d } else s
    let rail (k : Nat) (by_ : Int) : State :=
      let x := sget {} s.power.rails k
      if k < 4 then { s with power := { s.power with rails := sset {} s.power.rails k { x with moved := x.moved + by_ } } } else s
    match d with
    | .slower t draws => if s.mayLower t draws then .next (tileTo t (min 8 (max s.lowestD ((s.tilePower t).powerD + 1)))) else .next s
    | .faster t =>
      let d := max s.lowestD ((s.tilePower t).powerD - 1)
      if railSteps (t / 8) (min d (s.kilnD (t / 8))) ≤ (sget {} s.power.rails (t / 8)).moved then .next (tileTo t d) else .next s
    | .railUp k => if (sget {} s.power.rails k).moved < railSteps k (s.kilnD k) then .next (rail k 1) else .next s
    | .railDown k => if railSteps k (s.kilnD k) < (sget {} s.power.rails k).moved then .next (rail k (-1)) else .next s
    | .relax =>
      let p := s.power
      if p.capClamp < 16 ∧ p.avg100us * 100 ≤ p.capW * 10 * 95 then
        .next { s with power := ({ p with capClamp := p.capClamp + 1 } : PowerState).endPending }
      else .next s

/-! ## The brake (R464) -/

/-- PWR_BRAKE_N: honoured with BRAKE_USE = 1; the release ramps the duty up.  A chattering input stays in its acting state (R387). -/
def execPwrBrakeN (asserted : Bool) (s : State) : Host.Outcome State Fault Refusal :=
  if !asserted ∧ s.host.sbChattering.getLsbD 2 then .next s else
  let s := s.setLevel 2 asserted
  if s.mould.pins.brakeUse ≠ 1 then .next s
  else .next { s with power := { s.power with brake := asserted, brakeDuty := if asserted || s.power.brake then 4 else s.power.brakeDuty } }

/-- BRAKE_RAMP_STEP. -/
def execBrakeRampStep (s : State) : Host.Outcome State Fault Refusal :=
  .next (if s.power.brake then s else { s with power := { s.power with brakeDuty := min 16 (s.power.brakeDuty + 1) } })

/-! ## Cooling shutdown and input loss (R472-R474) -/

/-- The cooling shutdown (R473): dispatch held, requests ended as at a partition reset, the Ledger tail written, dies off. -/
def State.coolDown (s : State) (cause : Nat) : State :=
  if s.power.coolShutdown ∨ s.power.holdup then s
  else
    let s := { s with teller := { s.teller with held := true } }
    let s := (List.range 8).foldl (fun s p => s.killRequests p 0x09 (fun _ => true)) s
    let s := s.writeTail.allOff
    { s with power := { s.power with coolShutdown := true, coolCause := cause, coolWait := false } }
/-- The condition that a cooling shutdown of a cause waits for has cleared: the module fires again (R473). -/
def State.coolReturn (s : State) (cause : Nat) : State :=
  if s.power.coolShutdown ∧ s.power.coolCause = cause then { s with links := { s.links with firingDue := some .chipRst } } else s

/-- COOL_OK deasserts (R473). -/
def execCoolOk (s : State) : Host.Outcome State Fault Refusal :=
  let s := s.setLevel 3 true
  if s.mould.pins.coolOkUse ≠ 1 ∨ s.power.holdup ∨ s.power.coolClamp then .next s
  else .next ({ s with power := { s.power with coolClamp := true, coolWait := !s.power.coolShutdown } }.raise { source := 357 })

/-- COOL_OK is not back within 1 s. -/
def execCoolOkTimeout (s : State) : Host.Outcome State Fault Refusal := .next (if s.power.coolWait then s.coolDown 1 else s)

/-- COOL_OK is back: within 1 s and for 100 ms the clamp is released; after the shutdown, for 10 s, firing follows. -/
def execCoolOkReturn (s : State) : Host.Outcome State Fault Refusal :=
  if s.host.sbChattering.getLsbD 3 then .next s else
  let s := s.setLevel 3 false
  if !s.power.coolClamp then .next s
  else
    let s := { s with power := { s.power with coolClamp := false, coolWait := false } }.startRamp
    .next (s.coolReturn 1)

/-- PWR_FAIL_N (R474). -/
def execPwrFailN (s : State) : Host.Outcome State Fault Refusal := .next (s.setLevel 1 true).holdUp

end Sys2Proof.Machine
end

