-- ==== Sys2Proof/Machine/Islands.lean ====
section
/-! DEFINITION.  The Assay islands (R444-R450, R454, R457): control cycles and state copies, switch-over and its end, island
resets, the hand-back to A; one meaning per row. -/
namespace Sys2Proof.Machine
open Sys2Proof

/-- The standby island: true for B. -/
def IslandState.standby (x : IslandState) : Bool := !x.activeB

/-- CONTROL_CYCLE_END: the active island strobes, sends its changes, and drops what the log need no longer hold (R445, R446). -/
def execControlCycleEnd (s : State) : Host.Outcome State Fault Refusal :=
  let x := s.islands
  if x.noneActive ∨ x.gap.isSome ∨ !s.mould.fired then .next s
  else
    let st := x.st x.standby
    .next { s with
      faults := { s.faults with strobed := true }
      islands := { x with
        cycle := (x.cycle + 1) % 2 ^ 64
        copySent := st == .sync || st == .unsync || st == .selfTest
        acts := x.acts.filter (fun a => !a.applied || decide (x.cycle ≤ a.cycle)) } }

/-- What a copy that an island has applied and acknowledged leads to: a full copy or a self-test goes on, or ends. -/
def IslandState.copied (x : IslandState) (b : Bool) : IslandState :=
  match x.st b with
  | .unsync =>
    if 1 < x.fullCopyLeft then { x with fullCopyLeft := x.fullCopyLeft - 1 }
    else ({ x with fullCopyLeft := 0 } : IslandState).setSt b (if x.selfCycles < 64 then .selfTest else .sync)
  | .selfTest =>
    if x.selfCycles + 1 < 64 then { x with selfCycles := x.selfCycles + 1 } else ({ x with selfCycles := 64 } : IslandState).setSt b .sync
  | _ => x
/-- With no island active, one that has synchronised and passed its self-test takes control (R450). -/
def State.takeControl (s : State) (b : Bool) : State :=
  { s with
    islands := { (s.islands.setSt b .active) with activeB := b, noneActive := false, copySent := false }
    teller := { s.teller with held := s.update.holding } }.endPause.restartAmend

/-- STATE_COPY: a copy with a good CRC is applied and acknowledged (R445, R449). -/
def execStateCopy (crcOk : Bool) (s : State) : Host.Outcome State Fault Refusal :=
  let x := s.islands
  if x.noneActive then
    let b := !(x.stA == .selfTest || x.stA == .unsync)
    if !crcOk ∨ !(x.st b == .selfTest || x.st b == .unsync) then .next s
    else
      let s := { s with islands := x.copied b }
      .next (if s.islands.st b = .sync then s.takeControl b else s)
  else if !x.copySent ∨ !crcOk then .next s
  else .next { s with islands := { (x.copied x.standby) with copySent := false } }

/-- COPY_ACK_MISSED: source 424, and a full copy over the next 20 cycles (R445). -/
def execCopyAckMissed (s : State) : Host.Outcome State Fault Refusal :=
  let x := s.islands
  if !x.copySent then .next s
  else
    let b := x.standby
    let cycles := if x.st b = .sync then x.selfCycles else 0
    .next ({ s with islands := { (x.setSt b .unsync) with copySent := false, fullCopyLeft := 20, selfCycles := cycles,
                                                          copyFails := min 65535 (x.copyFails + 1) } }.raise { source := 424 })

/-- SWITCH_OVER: by a fault 416-423 of the active island, by SWAP where one is requested, or by a missed strobe (R447); in a
gap, a fault of an island that takes part (R454). -/
def execSwitchOver (src : Nat) (s : State) : Host.Outcome State Fault Refusal :=
  let x := s.islands
  let fault := within src 416 423
  let b := src % 2 == 1
  if x.noneActive ∨ !s.mould.fired then .next s
  else if x.gap.isSome then
    if !fault then .next s
    else if b = x.activeB then .next { s with islands := x.setSt b .failed }
    else if x.planned then .next s.abandonReturn
    else .next ({ s with islands := x.setSt b .failed }.loseIslands)
  else if fault then (if b = x.activeB then .next (s.leaveActive src .failed) else .next { s with islands := { (x.setSt b .failed) with copySent := false } })
  else if x.swapReq then
    if x.st x.standby = .sync then
      let t := s.leaveActive 0xFFFF .reset
      .next { t with islands := { t.islands with swap := true, swapReq := false } }
    else .next { s with islands := { x with swapReq := false } }
  else .next (s.leaveActive 0xFFFF .failed)

/-- The actions of the log that their targets have not applied are issued, in order (R447). -/
def State.replayLog (s : State) : State :=
  (s.islands.acts.filter (fun a => !a.applied)).foldl (fun s a => match a.kind with
    | .tail t q v => if s.dieReady (t / 8) then tailWrite s t q (BitVec.ofNat 32 v) else s
    | _ => s) s

/-- A SWITCH record (R441). -/
def State.noteSwitch (s : State) (from_ to_ : Bool) (src : Nat) (planned : Bool) : State :=
  s.note 0x04 (toLE 1 (b2n from_) ++ toLE 1 (b2n to_) ++ toLE 2 src ++ toLE 1 (b2n planned))

/-- SWITCH_OVER_DONE: the log is replayed, the island becomes active, dispatch resumes, and what the gap held goes on (R447, R448); an
amendment before its commit point starts again at Verify (R72). -/
def execSwitchOverDone (s : State) : Host.Outcome State Fault Refusal :=
  let x := s.islands
  match x.gap with
  | none => .next s
  | some src =>
    let b := !x.activeB
    let s := s.replayLog
    let y := s.islands.setSt b .active
    let y := if x.planned && y.st x.activeB == .active then y.setSt x.activeB .sync else y
    let unplanned := !x.planned && !x.swap
    let y := { y with
      activeB := b, gap := none, planned := false, swap := false, swapReq := false
      returns := if x.planned then min 65535 (y.returns + 1) else y.returns
      switchovers := if unplanned then min 65535 (y.switchovers + 1) else y.switchovers }
    let s := { s with
      islands := y
      faults := { s.faults with pulse := if s.faults.gapPulse then s.mould.pins.fltNWidth else s.faults.pulse, gapPulse := false }
      teller := { s.teller with held := s.update.holding } }
    .next ((s.noteSwitch x.activeB b src x.planned).endPause.restartAmend)

/-- ISLAND_RESET: an inactive island is reset, receives its image and state, and its self-test begins (R449). -/
def execIslandReset (b : Bool) (s : State) : Host.Outcome State Fault Refusal :=
  let x := s.islands
  if x.gap.isSome ∨ !s.mould.fired ∨ (!x.noneActive ∧ b = x.activeB) then .next s
  else .next { s with islands := { (x.setSt b .selfTest) with selfCycles := 0, fullCopyLeft := 0, copySent := false } }

/-- HAND_BACK: the gap of A's planned return opens; SWITCH_OVER_DONE ends it (R449). -/
def execHandBack (s : State) : Host.Outcome State Fault Refusal :=
  let x := s.islands
  if x.noneActive ∨ !x.activeB ∨ x.gap.isSome ∨ x.pinned ∨ x.stA ≠ .sync ∨ x.selfCycles < 64 ∨ s.update.holding then .next s
  else .next { s with
    faults := { s.faults with fltNHeld := s.fltNCause }
    islands := { x with gap := some 0xFFFF, planned := true, copySent := false }
    teller := { s.teller with held := true } }

/-- NO_ISLAND_TIMEOUT: after 100 ms without an active island the module fires (R450). -/
def execNoIslandTimeout (s : State) : Host.Outcome State Fault Refusal :=
  .next (if s.islands.noneActive then { s with links := { s.links with firingDue := some .noIsland } } else s)

/-- A write of MNT_ASY_CTRL (R457). -/
def State.asyCtrl (s : State) (v : Nat) : State :=
  let s := if bit v 0 && s.islands.gap.isNone && !s.islands.noneActive then s.islandReset s.islands.standby 0xFFFF else s
  let s := if bit v 1 then { s with islands := { s.islands with pinned := false } } else s
  if bit v 2 && s.islands.gap.isNone && s.islands.st s.islands.standby == .sync then { s with islands := { s.islands with swapReq := true } } else s
/-- Switch-overs away from A in the last hour (R457). -/
def State.awayHour (s : State) : Nat := min 3 (s.islands.away.filter (fun t => decide (s.links.aoCount.toNat - t ≤ cycles1h))).length

end Sys2Proof.Machine
end

