-- ==== Sys2Proof/Machine/Thermal.lean ====
section
/-! DEFINITION.  Temperatures, stacked throttling, shutdowns, cooling steps and thermal cycles (R466-R477); one meaning per row. -/
namespace Sys2Proof.Machine
open Sys2Proof

/-! ## Readings (R466, R467) -/

/-- 1/8 °C in a temperature field. -/
def deg (n : Int) : Int := 8 * n
def temp12 (i : Int) : BitVec 12 := BitVec.ofInt 12 i
/-- A tile's sensors are read: its kiln is ready. -/
def State.tileRead (s : State) (t : Nat) : Bool := s.dieReady (t / 8)
def State.storeRead (s : State) (t : Nat) : Bool := s.dieReady (4 + t / 8)
/-- The position beside t on its die. -/
def beside (t : Nat) : Nat := if t % 2 = 0 then t + 1 else t - 1
def maxInt? (l : List Int) : Option Int := l.foldl (fun m x => match m with | some y => some (max x y) | none => some x) none

/-- A tile's own reading: the higher of a valid pair; one declared failed in this sample still counts in it (R479). -/
def State.pairTemp (s : State) (t : Nat) : Option Int :=
  let x := s.tileTherm t
  if s.tileRead t && (!x.failed || x.failedNow) then some (max x.a.toInt x.b.toInt) else none
/-- The store sensor beneath tile t, where it is valid. -/
def State.storeOwn (s : State) (t : Nat) : Option Int :=
  let x := s.tileTherm t
  if s.storeRead t && (!x.storeFailed || x.storeFailedNow) then some x.store.toInt else none
/-- A failed store sensor is replaced by the one beside it, plus 10 K. -/
def State.storeTemp (s : State) (t : Nat) : Option Int :=
  match s.storeOwn t with
  | some v => some v
  | none => if s.storeRead t then (s.storeOwn (beside t)).map (· + deg 10) else none
/-- A tile's temperature (R467): its own, or the first valid substitute plus 10 K. -/
def State.tileTemp (s : State) (t : Nat) : Option Int :=
  match s.pairTemp t with
  | some v => some v
  | none =>
    if !s.tileRead t then none
    else
      let best := maxInt? ((List.range 8).filterMap (fun i => s.pairTemp (t / 8 * 8 + i)))
      (match s.pairTemp (beside t) with
       | some v => some v
       | none => match s.storeOwn t with
         | some v => some v
         | none => best).map (· + deg 10)

/-- Take a sample of tile t's pair; its disagreement and failure faults. -/
def State.samplePair (s : State) (t : Nat) (a b : Int) : State :=
  let x := s.tileTherm t
  let gap : Nat := (a - b).natAbs
  let dis := decide (40 < gap)
  let fail := x.failed || decide (120 < gap)
  let s := s.setTileTherm t { x with a := temp12 a, b := temp12 b, disagree := dis, failed := fail, failedNow := fail && !x.failed }
  let s := if dis && !x.disagree then s.raise { source := 320 + t / 8 } else s
  if fail && !x.failed then s.raise { source := 324 + t / 8 } else s
/-- Take a sample of the store sensor beneath tile t; outside -40 °C to 150 °C, or none, it has failed, and its last valid reading stands in
this sample (R479). -/
def State.sampleStore (s : State) (t : Nat) (v : Option Int) : State :=
  let x := s.tileTherm t
  let bad := match v with | some v => decide (v < deg (-40)) || decide (deg 150 < v) | none => true
  let y := match v with
    | some v => if bad then x.store else temp12 v
    | none => x.store
  let s := s.setTileTherm t { x with store := y, storeFailed := x.storeFailed || bad, storeFailedNow := bad && !x.storeFailed }
  if bad && !x.storeFailed then s.raise { source := 328 + t / 8 } else s

/-! ## Throttles and shutdowns (R468-R470) -/

/-- Judge tile t's throttle thresholds, with the fault of a threshold newly met. -/
def State.judgeTile (s : State) (t : Nat) : State :=
  let x := s.tileTherm t
  let tt := s.tileTemp t
  let st := s.storeTemp t
  let at_ (o : Option Int) (n : Int) : Bool := match o with | some v => decide (n ≤ v) | none => false
  let beyond (o : Option Int) (n : Int) : Bool := match o with | some v => decide (n < v) | none => false
  let kilnHot := at_ tt (deg 110)
  let storeHot := at_ st (deg 95)
  let y := { x with warn := at_ tt (deg 105), kilnHot := kilnHot, storeHot := storeHot,
                    near := beyond tt (deg 107) || beyond st (deg 92), blind := s.tileRead t && (tt.isNone || (s.storeRead t && st.isNone)) }
  let s := s.setTileTherm t y
  let s := if y.warn && !x.warn then s.raise { source := 332 + t / 8 } else s
  let s := if kilnHot && !x.kilnHot then s.raise { source := 336 + t / 8 } else s
  if storeHot && !x.storeHot then s.raise { source := 340 + t / 8 } else s

/-- A die is shut down (R470): clocks gated and rail off, then a die in reset; a hearth takes its kiln along. -/
def State.shutDie (s : State) (d : Nat) : State :=
  if (s.cyc d).shutdown ∨ s.die d ≠ .ready then s
  else
    let mark (s : State) (d : Nat) : State := s.setCyc d { s.cyc d with shutdown := true }
    let s := (mark s d).startReset d .inReset
    let s := if 4 ≤ d ∧ d < 8 then mark s (d - 4) else s
    s.raise { source := 344 + d }
/-- Some reading of a die is at its shutdown threshold. -/
def State.overShutdown (s : State) (d : Nat) : Bool :=
  let at_ (o : Option Int) (n : Int) : Bool := match o with | some v => decide (n ≤ v) | none => false
  if d < 4 then (List.range 8).any (fun i => at_ (s.tileTemp (8 * d + i)) (deg 118))
  else if d < 8 then (List.range 8).any (fun i => at_ (s.storeTemp (8 * (d - 4) + i)) (deg 105))
  else if s.dieReady d || d == 10 then decide (deg 115 ≤ (sget 0 s.therm.junctions (d - 8)).toInt) else false

/-! ## Cooling (R471, R472) -/

/-- The step that the flow ratio and the inlet temperature call for, each clear of its boundary by a margin: 0 for a worse
step, 0.1 in r and 2 K for a better one; 3 is Lost. -/
def State.coolingStep (s : State) (margin : Bool) : Nat :=
  let m := s.mould.pins.tachMin
  let hz := s.host.tachHz
  let ext := if margin then 1 else 0
  let r := if m * (20 + ext) ≤ hz * 10 then 0 else if m * (15 + ext) ≤ hz * 10 then 1 else if m * (10 + ext) ≤ hz * 10 then 2 else 3
  let top : Int := if s.mould.device.cooling = 1 then deg 45 else deg 35
  let t := s.therm.inlet.toInt + (if margin then deg 2 else 0)
  let i := if s.therm.inletFail then 1 else if t ≤ top then 0 else if t ≤ top + deg 10 then 1 else if t ≤ top + deg 20 then 2 else 3
  max r i
/-- Flow or the inlet band is lost, or has come back (R472). -/
def State.judgeFlow (s : State) : State :=
  let lost := s.coolingStep false == 3 || s.host.sbChattering.getLsbD 4
  if lost && !s.power.flowLost then { s with power := { s.power with flowLost := true } }.raise { source := 356 }
  else if !lost && s.power.flowLost then ({ s with power := { s.power with flowLost := false } }.startRamp).coolReturn 2
  else s

/-- TACH_WINDOW: a 250 ms window ends; below TACH_MIN flow counts as lost (R386, R391, R471). -/
def execTachWindow (hz : Nat) (s : State) : Host.Outcome State Fault Refusal :=
  let s := { s with host := { s.host with tachHz := min (2 ^ 17 - 1) hz } }
  .next ((s.setLevel 4 (decide (hz < s.mould.pins.tachMin) || s.host.sbChattering.getLsbD 4)).judgeFlow)

/-- COOLING_STEP_CHANGE: a worse step that holds, or a better one that holds clear of its boundary, takes effect. -/
def execCoolingStepChange (step : Nat) (s : State) : Host.Outcome State Fault Refusal :=
  let now := s.power.step
  if (now < step ∧ step = s.coolingStep false) ∨ (step < now ∧ s.coolingStep true ≤ step) then
    .next ({ s with power := { s.power with step := step } }.raise { source := 355 })
  else .next s

/-- FLOW_LOST_TIMEOUT: 10 s without recovery begin the cooling shutdown (R472). -/
def execFlowLostTimeout (s : State) : Host.Outcome State Fault Refusal := .next (if s.power.flowLost then s.coolDown 2 else s)

/-! ## TEMPERATURE_SAMPLE (R466-R471) -/

/-- The inlet and board sensors; one that does not answer has failed, and a step that this changes raises source 355 (R471). -/
def State.sampleBoard (s : State) (r : TempReads) : State :=
  let s := match r.inlet with
    | some v => { s with therm := { s.therm with inlet := temp12 v } }
    | none => if s.therm.inletFail then s else
      let t := { s with therm := { s.therm with inletFail := true }, power := { s.power with step := max 1 s.power.step } }.raise { source := 371 }
      if s.power.step = 0 then t.raise { source := 355 } else t
  match r.board with
  | some v => { s with therm := { s.therm with board := temp12 v } }
  | none => if s.therm.boardFail then s else { s with therm := { s.therm with boardFail := true } }.raise { source := 372 }

/-- Every sensor of a running die is read, and every threshold judged; those of a die in shutdown are read for its restart alone (R470, R479,
log entry 53). -/
def execTemperatureSample (r : TempReads) (s : State) : Host.Outcome State Fault Refusal :=
  if s.power.holdup then .next s
  else
    let s := s.sampleBoard r
    let s := (List.range 32).foldl (fun s t =>
      let a := (r.tileA[t]?).getD 0
      let b := (r.tileB[t]?).getD 0
      if s.tileRead t then s.samplePair t a b
      else if (s.cyc (t / 8)).shutdown then s.setTileTherm t { s.tileTherm t with a := temp12 a, b := temp12 b } else s) s
    let s := (List.range 32).foldl (fun s t =>
      let v := (r.stores[t]?).getD none
      if s.storeRead t then s.sampleStore t v
      else match v with
      | some v => if (s.cyc (4 + t / 8)).shutdown then s.setTileTherm t { s.tileTherm t with store := temp12 v } else s
      | none => s) s
    let s := { s with therm := { s.therm with junctions := (r.junctions.take 3).zipIdx.foldl (fun m (e : Int × Nat) => sset 0 m e.2 (temp12 e.1)) s.therm.junctions } }
    let s := (List.range 32).foldl State.judgeTile s
    let hot := (List.range 10).filter s.overShutdown
    let mint := s.overShutdown 10
    let s := hot.foldl State.shutDie s
    let s := s.judgeFlow
    .next (if mint ∧ !s.power.coolShutdown then (s.raise { source := 354 }).coolDown 3 else s)

/-- THROTTLE_STEP: the tile's divider or clamp moves one step as R469 says. -/
def execThrottleStep (t : Nat) (s : State) : Host.Outcome State Fault Refusal :=
  if 32 ≤ t then .next s
  else
    let x := s.tileTherm t
    let p := s.tilePower t
    if x.kilnHot || x.storeHot then
      .next (s.setTilePower t (if p.thermD < 8 then { p with thermD := min 8 (s.askedD t + 1) } else { p with thermDuty := max 4 (p.thermDuty - 1) }))
    else if x.near then .next s
    else .next (s.setTilePower t (if p.thermDuty < 16 then { p with thermDuty := p.thermDuty + 1 } else { p with thermD := max s.lowestD (p.thermD - 1) }))

/-- Every valid sensor of die d, and of a hearth's kiln, reads at least 10 K below the throttle threshold of its die, of a vault and the
mint at most 100 °C (R470). -/
def State.cooled (s : State) (d : Nat) : Bool :=
  let kiln (k : Nat) : Bool := (List.range 8).all (fun i => let x := s.tileTherm (8 * k + i); x.failed || decide (max x.a.toInt x.b.toInt ≤ deg 100))
  if d < 4 then kiln d
  else if d < 8 then kiln (d - 4) && (List.range 8).all (fun i =>
    let x := s.tileTherm (8 * (d - 4) + i); x.storeFailed || decide (x.store.toInt ≤ deg 85))
  else decide ((sget 0 s.therm.junctions (d - 8)).toInt ≤ deg 100)
/-- SHUTDOWN_RECOVERY: 10 s after it has cooled, the die restarts under R356; of the mint, the module fires again (R470, R473). -/
def execShutdownRecovery (d : Nat) (s : State) : Host.Outcome State Fault Refusal :=
  if 11 ≤ d ∨ !s.cooled d then .next s
  else if d = 10 then .next (s.coolReturn 3)
  else if !(s.cyc d).shutdown then .next s
  else
    let up (s : State) (d : Nat) : State := s.setCyc d { s.cyc d with shutdown := false }
    let s := up s d
    let s := if 4 ≤ d ∧ d < 8 then (up s (d - 4)).coldTiles (d - 4) else if d < 4 then s.coldTiles d else s
    .next s

/-! ## Thermal cycles and life (R475-R477) -/

/-- The temperature a die takes for its cycles. -/
def State.cycleTemp (s : State) (d : Nat) : Option Int :=
  if !s.dieReady d ∨ (s.cyc d).shutdown then none
  else if d < 4 then maxInt? ((List.range 8).filterMap (fun i => s.pairTemp (8 * d + i)))
  else if d < 8 then maxInt? ((List.range 8).filterMap (fun i => s.storeOwn (8 * (d - 4) + i)))
  else some (sget 0 s.therm.junctions (d - 8)).toInt
/-- Bin of a swing in 1/8 K, none below 10 K. -/
def swingBin (n : Nat) : Option Nat := if n < 80 then none else if n < 160 then some 0 else if n < 320 then some 1 else if n < 480 then some 2 else some 3
/-- One sample of a die: the new turning point and extreme, and the bin a half-cycle is counted into (R475). -/
def CycleState.sample (x : CycleState) (t : Int) : CycleState × Option Nat :=
  let x := { x with
    temp := temp12 t
    hiHour := some (match x.hiHour with | some v => max v t | none => t)
    loHour := some (match x.loHour with | some v => min v t | none => t) }
  match x.turning with
  | none => ({ x with turning := some t, extreme := t }, none)
  | some p =>
    let e := x.extreme
    if (p ≤ e ∧ t ≤ e - 80) ∨ (e ≤ p ∧ e + 80 ≤ t) then
      match swingBin (e - p).natAbs with
      | some b => ({ x with turning := some e, extreme := t, hour := x.hour.set b ((x.hour[b]?).getD 0 + 1) }, some b)
      | none => ({ x with turning := some e, extreme := t }, none)
    else ({ x with extreme := if (e - p).natAbs < (t - p).natAbs then t else e }, none)

/-- Life fraction of die d as a numerator over 264,000,000 (R477). -/
def State.lifeNum (s : State) (d : Nat) : Nat :=
  let n (b : Nat) : Nat := sget 0 s.ledger.bins (4 * d + b)
  n 0 * 33 + n 1 * 150 + n 2 * 1000 + n 3 * 6000
/-- The worst die, the lowest of equal ones. -/
def State.worst (s : State) : Nat := (List.range 11).foldl (fun w d => if s.lifeNum w < s.lifeNum d then d else w) 0
/-- THM_LIFE, and source 373 at each further 0.1 of life. -/
def State.judgeLife (s : State) : State :=
  let w := s.worst
  let n := s.lifeNum w
  let k := n * 10 / 264000000
  let s' := { s with therm := { s.therm with consumed := min (2 ^ 24 - 1) (n * 65536 / 264000000), worstDie := w, lifeStep := max k s.therm.lifeStep } }
  if s.therm.lifeStep < k then s'.raise { source := 373 } else s'

/-- CYCLE_SAMPLE. -/
def execCycleSample (s : State) : Host.Outcome State Fault Refusal :=
  let s := (List.range 11).foldl (fun s d => match s.cycleTemp d with
    | none => s
    | some t =>
      let r := (s.cyc d).sample t
      let s := s.setCyc d r.1
      match r.2 with
      | some b =>
        let k := 4 * d + b
        { s with ledger := { s.ledger with bins := sset 0 s.ledger.bins k (min (2 ^ 32 - 1) (sget 0 s.ledger.bins k + 1)) } }
      | none => s) s
  .next s.judgeLife

/-- THERMAL_CYCLE: one record for each die with half-cycles in the hour (R476). -/
def execThermalCycle (s : State) : Host.Outcome State Fault Refusal :=
  let cel (o : Option Int) : Nat := match o with | some v => unsigned 8 (v / 8) | none => 0
  .next ((List.range 11).foldl (fun s d =>
    let x := s.cyc d
    let s := if x.hour.any (· != 0) then
        s.note 0x06 (toLE 1 d ++ (x.hour.map (fun n => BitVec.ofNat 8 (min 255 n))) ++ toLE 1 (cel x.hiHour) ++ toLE 1 (cel x.loHour))
      else s
    s.setCyc d { x with hour := [0, 0, 0, 0], hiHour := none, loHour := none }) s)

end Sys2Proof.Machine
end

