-- ==== Sys2Proof/Machine/Sideband.lean ====
section
/-! DEFINITION.  Sideband inputs, test mode and the inventory EEPROM (R385-R391, R437); one meaning per row. -/
namespace Sys2Proof.Machine
open Sys2Proof

/-- MNT_SB_EVT is not zero (R413). -/
def State.sbPending (s : State) : Bool := s.host.sbLong != 0 || s.host.sbChatter != 0
/-- A SIDEBAND record, and source 307 (R387, R425, R441). -/
def State.noteSideband (s : State) (n : Nat) (long : Bool) : State := (s.note 0x07 (toLE 1 n ++ toLE 1 (b2n long))).raise { source := 307 }
/-- The MNT_SB_LEVEL input of a LONG bit. -/
def longInput (k : Nat) : Nat := if k = 3 then 5 else k

/-- Factory test mode begins or ends, with its Ledger record; at its start every session closes (R437, R506). -/
def State.enterTest (s : State) : State :=
  if s.faults.testMode then s
  else
    let s := ({ s with faults := { s.faults with testMode := true } } : State).note 0x08 [1]
    (List.range 8).foldl (fun s p => s.closeSessions p) s
def State.leaveTest (s : State) : State :=
  if s.faults.testMode then ({ s with faults := { s.faults with testMode := false } } : State).note 0x08 [0] else s

/-- TEST_EN; a chattering input stays asserted (R387). -/
def execTestEn (asserted : Bool) (s : State) : Host.Outcome State Fault Refusal :=
  if !asserted ∧ s.host.sbChattering.getLsbD 5 then .next s else
  let s := s.setLevel 5 asserted
  .next (if asserted then s else s.leaveTest)

/-- SIDEBAND_LONG_HOLD of LONG bit n: PERST_N, PWR_FAIL_N, PWR_BRAKE_N, TEST_EN (R386); TEST_EN's is written to the Ledger. -/
def execSidebandLongHold (n : Nat) (s : State) : Host.Outcome State Fault Refusal :=
  if 4 ≤ n ∨ !s.host.sbActive.getLsbD (longInput n) then .next s
  else
    let was := s.sbPending
    let m := BitVec.ofNat 4 (2 ^ n)
    let s := { s with host := { s.host with sbLong := s.host.sbLong ||| m, sbHeld := s.host.sbHeld ||| m } }
    let s := if n = 3 then s.noteSideband 5 true else s.raise { source := 307 }
    .next (s.occurIf was true 1129)

/-- What an input's acting state does (R387): as its pin's own row says. -/
def State.act (s : State) (n : Nat) : State :=
  let run (o : Host.Outcome State Fault Refusal) : State := match o with
    | .next t => t
    | _ => s
  match n with
  | 0 => if s.host.perstAsserted then s else run (execPerstN true s.host.refclkPresent s)
  | 1 => run (execPwrFailN s)
  | 2 => run (execPwrBrakeN true s)
  | 3 => run (execCoolOk s)
  | 4 => s.judgeFlow
  | _ => s

/-- CHATTER of input n: from the 8th edge it is in its acting state; one Ledger record per episode (R387). -/
def execChatter (n : Nat) (s : State) : Host.Outcome State Fault Refusal :=
  if 6 ≤ n ∨ s.host.sbChattering.getLsbD n then .next s
  else
    let was := s.sbPending
    let m := BitVec.ofNat 6 (2 ^ n)
    let s := { s with host := { s.host with sbChattering := s.host.sbChattering ||| m, sbChatter := s.host.sbChatter ||| m } }
    .next ((((s.noteSideband n false).setLevel n true).act n).occurIf was true 1129)

/-- CHATTER_END: the input has held its inactive level long enough. -/
def execChatterEnd (n : Nat) (s : State) : Host.Outcome State Fault Refusal :=
  if 6 ≤ n ∨ !s.host.sbChattering.getLsbD n then .next s
  else
    let s := { s with host := { s.host with sbChattering := s.host.sbChattering &&& ~~~ (BitVec.ofNat 6 (2 ^ n)) } }
    match n with
    | 0 => execPerstN false s.host.refclkPresent (s.setLevel 0 false)
    | 2 => execPwrBrakeN false (s.setLevel 2 false)
    | 3 => execCoolOkReturn s
    | 4 => .next ((s.setLevel 4 (decide (s.host.tachHz < s.mould.pins.tachMin))).judgeFlow)
    | 5 => execTestEn false s
    | _ => .next (s.setLevel n false)

/-- A write of MNT_SB_EVT: a LONG bit sets again while its input stays held (R391). -/
def State.clearSbEvt (s : State) (v : Nat) : State :=
  let long := s.host.sbLong &&& ~~~ (BitVec.ofNat 4 v) ||| s.host.sbHeld
  { s with host := { s.host with sbLong := long, sbChatter := s.host.sbChatter &&& ~~~ (BitVec.ofNat 6 (v / 16)) } }

/-- SMBUS_CLOCK_LOW_TIMEOUT: the transfer aborts; after three failed attempts the inventory is absent (R388). -/
def execSmbusClockLowTimeout (s : State) : Host.Outcome State Fault Refusal :=
  if !s.host.smbusBusy then .next s
  else
    let n := s.host.smbusAborts + 1
    let s := { s with host := { s.host with smbusAborts := n, smbusBusy := decide (n < 3) } }
    .next (if 3 ≤ n then (s.setLevel 6 true).raise { source := 306 } else s)

end Sys2Proof.Machine
end

