-- ==== Sys2Proof/Machine/Mould.lean ====
section
/-! DEFINITION.  Amendments from Drain to Grant, and the installation of a full mould (R65-R72); one meaning per row that a function or
the module itself begins. -/
namespace Sys2Proof.Machine
open Sys2Proof

/-! ## AMEND (R69-R72) -/

/-- An activation is under way (R522-R524). -/
def State.activating (s : State) : Bool := s.update.phase == .preparing || s.update.phase == .holding
/-- A die resets, or a port trains. -/
def State.unsettled (s : State) : Bool :=
  (List.range 10).any (fun d => (s.die d).resetting || s.die d == .noClock) || !s.links.resetDue.isEmpty || s.links.ends.any (fun e => e.2.training)
/-- Something bars an amendment (R66, R69, R357, R526). -/
def State.amendBusy (s : State) : Bool :=
  s.unsettled || s.mould.amend.isSome || s.mould.install.isSome || s.mould.installed || s.activating || s.update.phase == .applying
/-- An amendment is submitted under a handle: verified, and draining (R71 steps 1 and 2). -/
def State.startAmend (s : State) (h : Nat) (b : List Byte) (poison : Bool) (v : Verdict) : State :=
  if s.amendBusy then s.mouldErr h 0x0E
  else match s.checkImage b poison v true with
  | .error c => s.mouldErr h c
  | .ok x =>
    if s.amendBar x ≠ 0 then s.mouldErr h (s.amendBar x) else s.beginDrain { handle := h, image := x }
/-- The check that AMEND and MOULD_INSTALL share (R377, R531), then the operation on the bytes. -/
def imageCommand (q op : Nat) (kind : OpKind) (s : State) (k : Nat → List Byte → Bool → State → State) : State :=
  onForwarded q op s (fun f s =>
    let p := s.funcPart f.fn
    let a := f.fld 16 6
    let n := f.fld 22 4
    let o : Origin := .host f.fn f.sq f.cid
    let code := lowest [(bodyReserved f 26, 0x02), (f.fn ≠ 0, 0x03), (16 ≤ s.openHandles o, 0x09), (!s.srcOk p a n 65536, 0x0A)]
    if code ≠ 0 then s.refuseRange f code p a (s.srcOutside p a n)
    else
      let h := s.newHandle { origin := o, kind := kind, part := p, cq := (s.sq f.sq).bind, base := a, units := n }
      k h.1 (h.2.readBytes a n) (h.2.meetsPoison .mint a n) (h.2.answer f 0 h.1 0))
/-- AMEND (R69). -/
def execAmend (q : Nat) (v : Verdict) (s : State) : Host.Outcome State Fault Refusal :=
  .next (imageCommand q 0x03 .amend s (fun h b poison s => s.startAmend h b poison v))

/-- Ways of every hearth by the tiles of a set of records; lines in a way that changes hands are written back and leave (R191). -/
def State.assignWays (s : State) (parts : List (Nat × PartRec)) : State :=
  (List.range 4).foldl (fun s h =>
    let x := s.hearth h
    let ways : Store Nat := parts.foldl (fun m e => sset 0 m e.1 ((List.range 8).filter (fun i => e.2.tiles.getLsbD (8 * h + i))).length) []
    let y := { x with ways := ways }
    let owner (z : Hearth) (w : Nat) : Option Nat := (List.range 8).find? (fun p => decide ((z.wayRange p).1 ≤ w) && decide (w < (z.wayRange p).1 + (z.wayRange p).2))
    let moved := x.rc.filterMap (fun e => match e.2 with
      | some c => if owner x c.way ≠ owner y c.way then some e.1 else none
      | none => none)
    let s := moved.foldl (fun s l => s.dropCopy h l) s
    s.setHearth h { s.hearth h with ways := ways }) s
/-- Power shares by tiles owned (R462). -/
def State.assignShares (s : State) : State :=
  { s with power := { s.power with shares := s.mould.parts.foldl (fun (m : Store Nat) (e : Nat × PartRec) =>
      sset 0 m e.1 ((List.range 32).filter (fun t => e.2.tiles.getLsbD t)).length) [] } }

/-- AMEND_FENCE: once the steps that the losing partitions had in flight at Drain have ended, the released resources leave their
bounds (R71 step 3).  One that has come into use since Verify, such as the wheel of a context opened during Drain, refuses the amendment
with RES_IN_USE (R70, R312, R336). -/
def execAmendFence (s : State) : Host.Outcome State Fault Refusal :=
  match s.mould.amend with
  | none => .next s
  | some a =>
    if a.step ≠ .drain ∨ a.suspended ∨ s.teller.held ∨ !(s.inFlight a.waits).isEmpty then .next s
    else if s.resInUse a.image then .next (({ s with mould := { s.mould with amend := none } } : State).mouldErr a.handle 0x0D)
    else
      let s' := { s with mould := { s.mould with
        parts := s.mould.parts.map (fun (e : Nat × PartRec) => (e.1, e.2.fenced (s.amended a.image e.1).1))
        wins := s.mould.wins.map (fun (e : Nat × WinRec) => (e.1, e.2.fenced (s.amended a.image e.1).2))
        amend := some { a with step := .scrub, before := s.mould.parts, beforeWins := s.mould.wins, waits := [] } } }
      .next (s'.assignWays (overlay s.mould.parts a.image.parts))

/-- What one partition released is cleared (R71 step 4, R206). -/
def State.clearReleased (s : State) (o n : PartRec) : State :=
  let s := (List.range 32).foldl (fun s t =>
    if o.tiles.getLsbD t && !n.tiles.getLsbD t && s.dieReady (4 + t / 8) then
      ((s.dropWaiter t).setTile t {}).zeroRange (storeBase t) 0x1000000 else s) s
  let s := ((dramUnits o).filter (fun u => !n.dram.any (·.has u))).foldl (fun s u => s.zeroRange (u * 0x4000000) 0x4000000) s
  { s with
    mem := { s.mem with
      tallies := s.mem.tallies.filter (fun e => !lostUnit o.tally n.tally (e.1 / 64))
      talliesBroken := s.mem.talliesBroken.filter (fun e => !lostUnit o.tally n.tally (e.1 / 64)) }
    teller := { s.teller with
      requests := s.teller.requests.filter (fun e => !lostUnit o.req n.req (e.1 / 64))
      rings := s.teller.rings.filter (fun e => !lostUnit o.req n.req (e.1 / 64)) }
    host := { s.host with
      sqs := s.host.sqs.filter (fun e => !lostUnit o.sq n.sq e.1)
      cqs := s.host.cqs.filter (fun e => !lostUnit o.cq n.cq e.1) }
    wheels := { s.wheels with ctxs := s.wheels.ctxs.filter (fun e => !lostUnit o.ctx n.ctx e.1) } }
/-- AMEND_SCRUB_DONE: released resources are clean; while a die that holds some resets, the scrub waits for it (R72). -/
def execAmendScrubDone (s : State) : Host.Outcome State Fault Refusal :=
  match s.mould.amend with
  | none => .next s
  | some a =>
    let now (e : Nat × PartRec) : PartRec := (s.part? e.1).getD e.2
    let waits := a.before.any (fun e => (List.range 4).any (fun k =>
      ((s.die k).resetting && e.2.releasesAt (now e) k false) || ((s.die (4 + k)).resetting && e.2.releasesAt (now e) k true)))
    if a.step ≠ .scrub ∨ a.suspended ∨ s.islands.noneActive ∨ waits then .next s
    else
      let s' := a.before.foldl (fun s e => s.clearReleased e.2 (now e)) s
      .next { s' with mould := { s'.mould with amend := some { a with step := .grant, waits := s.runsOf (s.gaining a.image) } } }

/-- An amendment joins the fired slot's log; a full log is first folded into a checkpoint, in the copy that does not hold the newest
valid one (R67).  It is folded also while the module holds no identity key, where the spec does not say how the copy would be signed:
whether a firing takes it is that firing's finding (DESIGN CHOICE, log entry 93). -/
def Slot.append (x : Slot) (a : Image) (serial : Nat) (parts : List (Nat × PartRec)) (wins : List (Nat × WinRec)) : Slot :=
  if x.amendLog.length < 256 then { x with amendLog := x.amendLog ++ [a] }
  else
    let count (c : Option Checkpoint) : Nat := match c with | some k => k.count | none => 0
    let c : Checkpoint := { serial := serial, count := max (count x.checkA) (count x.checkB) + 1, mouldDigest := (x.mould.map (·.digest)).getD 0, parts := parts, wins := wins }
    let b := match x.newestB with
      | some b => !b
      | none => !(decide (count x.checkA < count x.checkB) || x.checkA.isNone)
    if b then { x with checkB := some c, newestB := some true, amendLog := [a] } else { x with checkA := some c, newestB := some false, amendLog := [a] }
/-- A MOULD record (R441). -/
def State.noteMould (s : State) (serial kind : Nat) : State := s.note 0x03 (toLE 4 serial ++ toLE 1 kind)

/-- Partition p receives its resources (R71 step 5, R462). -/
def State.grantTo (s : State) (x : Image) (p : Nat) : State :=
  let t := s.amended x p
  let wins := if x.wins.any (fun e => e.1 == p) then sins s.mould.wins p t.2 else s.mould.wins
  ({ s with mould := { s.mould with parts := sins s.mould.parts p t.1, wins := wins } } : State).assignShares
/-- Every partition has what the amendment gives it: it is logged, MLD_SERIAL takes the new serial, and the handle completes. -/
def State.endAmend (s : State) (a : Amend) : State :=
  let x := a.image
  let b := s.mould.firedSlotB
  let s := s.setSlot b ((s.slot b).append x s.mould.serial a.before a.beforeWins)
  let s := { s with
    mould := { s.mould with parts := overlay a.before x.parts, wins := overlay a.beforeWins x.wins, serial := x.serial, amend := none,
                            amendCount := min 65535 (s.mould.amendCount + 1) }
    ledger := { s.ledger with highestSerial := max s.ledger.highestSerial x.serial } }
  (s.assignShares.noteMould x.serial 1).endHandle a.handle .done 0 0
/-- AMEND_GRANT: each gaining partition that has reached its own step boundary since the scrub receives its resources; once all have,
the amendment is logged and its handle completes (R71 step 5). -/
def execAmendGrant (s : State) : Host.Outcome State Fault Refusal :=
  match s.mould.amend with
  | none => .next s
  | some a =>
    if a.step ≠ .grant ∨ a.suspended ∨ s.teller.held then .next s
    else
      let flying := s.inFlight a.waits
      let gainers := (List.range 8).filter (fun p => !a.granted.contains p && s.gaining a.image p)
      let ready := gainers.filter (fun p => flying.all (fun r => r.1 ≠ p))
      let s' := ready.foldl (fun s p => s.grantTo a.image p) s
      if ready.length < gainers.length then
        .next { s' with mould := { s'.mould with amend := some { a with waits := flying, granted := a.granted ++ ready } } }
      else .next (s'.endAmend a)

/-! ## MOULD_INSTALL (R65, R66) -/

/-- Something bars an installation (R66). -/
def State.installBusy (s : State) : Bool :=
  s.mould.amend.isSome || s.mould.install.isSome || s.mould.installed || s.activating || s.update.phase == .receiving ||
    s.update.phase == .applying || s.update.slotA.state == .trial || s.update.slotB.state == .trial
/-- Step 1 of R66: a full mould is checked. -/
def State.startInstall (s : State) (h : Nat) (b : List Byte) (poison : Bool) (v : Verdict) : State :=
  if s.installBusy then s.mouldErr h 0x0E
  else match s.checkImage b poison v false with
  | .error c => s.mouldErr h c
  | .ok x => { s with mould := { s.mould with install := some { handle := h, image := x } } }
/-- MOULD_INSTALL (R66). -/
def execMouldInstall (q : Nat) (v : Verdict) (s : State) : Host.Outcome State Fault Refusal :=
  .next (imageCommand q 0x06 .mouldInstall s (fun h b poison s => s.startInstall h b poison v))

/-- MOULD_INSTALL_WRITE_DONE: step 2 of R66 is over: the fired slot's areas are erased, and the image is in flash and read back; a
failed write raises source 408 and ends FAILED.  A suspended operation that had not begun step 2 has not written. -/
def execMouldInstallWriteDone (readBackOk : Bool) (s : State) : Host.Outcome State Fault Refusal :=
  match s.mould.install with
  | none => .next s
  | some i =>
    if (!i.writing && s.opSuspended i.handle) ∨ s.islands.noneActive then .next s
    else
    let s := s.beginWrite
    let s := { s with mould := { s.mould with install := none } }
    if !readBackOk then .next ((s.raise { source := 408 }).endHandle i.handle .done 0x07 1)
    else
      let k := s.mould.firedSlotB
      let s := s.setSlot k { s.slot k with mould := some i.image }
      let s := { s with
        mould := { s.mould with installed := true }
        ledger := { s.ledger with highestSerial := max s.ledger.highestSerial i.image.serial } }
      .next ((s.noteMould i.image.serial 0).endHandle i.handle .done 0 0)

end Sys2Proof.Machine
end

