-- ==== Sys2Proof/Machine/Security.lean ====
section
/-! DEFINITION.  The Hallmark and the sessions (R486-R490, R499, R506, R508): reports, key exchanges and closings; one
meaning per row of a submission command, and the shared operations of OHM_CTRL. -/
namespace Sys2Proof.Machine
open Sys2Proof

/-! ## The Hallmark (R486-R488) -/

/-- A record with its header (R52). -/
def recordBytes (ty inst : Nat) (body : List Byte) : List Byte := toLE 2 ty ++ toLE 2 body.length ++ toLE 1 inst ++ [0, 0, 0] ++ body
/-- The body of a PARTITION record (R60). -/
def partBytes (r : PartRec) : List Byte :=
  let span (x : URange) : List Byte := toLE 2 x.first ++ toLE 2 x.count
  let units := r.dram.take 8
  let all := (r.dram ++ r.dramRest).take 8
  toLE 4 r.tiles.toNat ++ toLE 1 r.func ++ toLE 1 (b2n r.confidential) ++ toLE 1 r.wheels.toNat ++ toLE 1 units.length ++
    span r.sq ++ span r.cq ++ span r.req ++ span r.tally ++ span r.ctx ++ toLE 2 r.bwMin ++ [0, 0] ++
    all.flatMap (fun x => span x ++ [0, 0, 0, 0]) ++ List.replicate (8 * (8 - all.length)) 0
/-- The body of a WINDOW record (R62). -/
def winBytes (w : WinRec) : List Byte :=
  let hosts := w.hosts.take 4
  toLE 1 w.bar4Log2 ++ List.replicate 7 0 ++ hosts.flatMap (fun x => toLE 8 x.first ++ toLE 8 x.count) ++ List.replicate (16 * (4 - hosts.length)) 0
/-- Measurement 0x07: every PARTITION and WINDOW record in force (R488). -/
def State.structureDigest (s : State) : BitVec 256 :=
  sm3 (s.mould.parts.flatMap (fun e => recordBytes 0x06 e.1 (partBytes e.2)) ++ s.mould.wins.flatMap (fun e => recordBytes 0x07 e.1 (winBytes e.2)))

/-- Digests of the newest published versions of a ware's adapters, in adapter number order (R488). -/
def State.adapterDigests (s : State) (w : Ware) : List (BitVec 256) :=
  w.adapters.filterMap (fun e => e.2.newest.bind (fun v =>
    (e.2.versions.find? (fun x => x.1 = v)).bind (fun x => (s.ware? x.2.1).map (·.digest))))
/-- Bytes of a digest. -/
def digestBytes (d : BitVec 256) : List Byte := toLE 32 d.toNat
/-- One entry of a report. -/
def hallEntry (kind index version : Nat) (d : BitVec 256) : List Byte :=
  toLE 2 kind ++ toLE 2 index ++ toLE 4 version ++ List.replicate 8 0 ++ digestBytes d
/-- Wares in a scope, in handle order; scope 8 is the module. -/
def State.scopeWares (s : State) (scope : Nat) : List (Nat × Ware) :=
  sortBy (fun (a b : Nat × Ware) => decide (a.1 < b.1)) (s.teller.wares.filter (fun e => !e.2.isImage && (scope == 8 || e.2.part == scope)))
/-- The entries of a report.  VERSION is stated for wares alone; elsewhere it is free (log entry 3). -/
def State.hallEntries (s : State) (scope : Nat) : List (List Byte) :=
  let v (kind : Nat) : Nat := (Config.freeWord (s.free + kind)).toNat % 2 ^ 32
  let boot := (List.range 5).map (fun i => hallEntry (i + 1) 0 (v (i + 1)) ((s.sec.measured[i]?).getD 0))
  let wares := s.scopeWares scope
  let tables := (wares.filter (fun e => !(s.adapterDigests e.2).isEmpty)).map (fun e =>
    hallEntry 0x09 e.1 (v 9) (sm3 ((s.adapterDigests e.2).flatMap digestBytes)))
  boot ++ [hallEntry 0x06 0 (v 6) s.mould.mouldDigest, hallEntry 0x07 0 (v 7) s.structureDigest] ++
    wares.map (fun e => hallEntry 0x08 e.1 e.2.version e.2.digest) ++ tables
/-- A random number from 1 to n - 1 of the TRNG: free values (log entry 3). -/
def State.draw (s : State) (k : Nat) : Nat :=
  ((List.range 4).map (fun i => (Config.freeWord (s.free + k + i)).toNat * 2 ^ (64 * i))).sum % (sm2N - 1) + 1
/-- The signed report (R488): SM2 by the identity key, with ID = BOUND_ID, over the SM3 digest of what stands before the signature. -/
def State.hallmark (s : State) (nonce : List Byte) (scope : Nat) : List Byte :=
  let es := s.hallEntries scope
  let flags := b2n (s.mould.device.debug == 1) + 2 * b2n s.faults.testMode + 4 * b2n s.mould.fallback + 8 * b2n (s.confidential scope)
  let head := toLE 4 0x4B4D4C48 ++ toLE 2 1 ++ toLE 2 es.length ++ (nonce ++ List.replicate 32 0).take 32 ++ toLE 4 s.ledger.firingCount ++
    toLE 4 s.mould.serial ++ toLE 1 scope ++ toLE 1 flags ++ List.replicate 14 0 ++ s.idKeyBytes
  let body := head ++ es.flatten
  body ++ sm2Sign s.sec.idSecret (s.draw 10) (digestBytes s.boundId) (sm3Bytes body)
/-- A report has taken its free values. -/
def State.hallTaken (s : State) : State := { s with free := s.free + 14 }
/-- Between Fence and Grant a report waits for Grant (R506). -/
def State.hallWaits (s : State) : Bool := match s.mould.amend with
  | some a => !a.open_
  | none => false

/-- HALLMARK (R489). -/
def execHallmark (q : Nat) (s : State) : Host.Outcome State Fault Refusal :=
  if s.hallWaits then .next s
  else .next (onForwarded q 0x53 s (fun f s =>
    let p := s.funcPart f.fn
    let a := f.fld 16 6
    let n := f.fld 22 2
    let scope := if f.fld 56 1 = 1 then 8 else p
    let report := s.hallmark ((f.body.drop 8).take 32) scope
    let size := report.length
    let small := decide (n < size)
    let code := lowest [(bodyReserved f 57, 0x02), (f.fld 56 1 = 1 && f.fn != 0, 0x03),
      (small || a % 64 != 0 || decide (1 < f.fld 56 1) || !(s.inDram p a size || s.inHost p a size), 0x22), (!s.sec.identityOk, 0x55)]
    if code ≠ 0 then
      let s := if code = 0x55 then s.ohmErr 3 code p else s
      s.answer f code 0 (if code = 0x22 ∧ small then size else 0)
    else ((s.hallTaken.put .mint a report).answer f 0 0 size)))

/-! ## Sessions (R490, R495) -/

/-- A key exchange that failed: KEX, and source 405. -/
def State.kexFailed (s : State) (f : Forwarded) (p : Nat) : State := ((s.ohmErr 3 0x54 p).raise { source := 405 }).answer f 0x54 0 0

/-- The module's side of a key exchange for a peer's static key and R_A, with an ephemeral number of the TRNG. -/
def State.kex (s : State) (static ra : List Byte) (q : Nat × Nat) : Kex :=
  sm2Kex s.sec.idSecret (s.draw 0) (digestBytes s.boundId) static ra (some q)
/-- SESSION_OPEN: the module's reply is written behind the tenant's message, and the slot is OPENING; an invalid point fails the exchange.
What the points are follows from the message, and the row's operand is not read.  While the TRNG's health test fails the exchange is
refused with KEX (R505; the code is the model's reading). -/
def execSessionOpen (q : Nat) (_pointOk : Bool) (s : State) : Host.Outcome State Fault Refusal :=
  .next (onForwarded q 0x50 s (fun f s =>
    let p := s.funcPart f.fn
    let a := f.fld 16 6
    let k := f.fld 22 1
    let range := !s.confidential p || decide (15 < k) || a % 64 != 0 || !s.inHost p a 224
    let code := lowest [(bodyReserved f 23, 0x02), (range, 0x22), (!range && (s.session p k).use != .free, 0x23), (s.faults.testMode, 0x53),
      (!s.sec.trngOk, 0x54), (!s.sec.identityOk, 0x55)]
    if code ≠ 0 then (if 0x50 ≤ code then s.ohmErr 3 code p else s).answer f code 0 0
    else
      let msg := s.readBytes a 128
      match kexPoint (msg.take 64) (msg.drop 64) with
      | none => s.kexFailed f p
      | some pt =>
        let e := s.kex (msg.take 64) (msg.drop 64) pt
        let x : Session := { use := .opening, tenantKey := BitVec.ofNat 512 (lfld msg 0 64), kSess := e.key, confirm := e.confirm }
        let s := { s with free := s.free + 4 }
        ((s.setSession p k x).put .mint (a + 128) e.reply).answer f 0 0 0))

/-- A command that names a slot of the function's partition: reserved bytes, CONFIDENTIAL, a free slot (R490). -/
def slotCommand (q op b : Nat) (s : State) (k : Forwarded → Nat → Nat → State → State) : State :=
  onForwarded q op s (fun f s =>
    let p := s.funcPart f.fn
    let slot := f.fld 16 1
    let range := !s.confidential p || decide (15 < slot)
    let code := lowest [(bodyReserved f b, 0x02), (range, 0x22), (!range && (s.session p slot).use == .free, 0x23)]
    if code ≠ 0 then s.answer f code 0 0 else k f p slot s)

/-- SESSION_CONFIRM: a correct S_A opens the slot, an incorrect one frees it; the row's operand is not read. -/
def execSessionConfirm (q : Nat) (_confirmOk : Bool) (s : State) : Host.Outcome State Fault Refusal :=
  .next (slotCommand q 0x51 49 s (fun f p k s =>
    let x := s.session p k
    if x.use ≠ .opening then s.answer f 0x23 0 0
    else if f.fld 17 32 = x.confirm.toNat then (s.setSession p k { x with use := .opened }).answer f 0 0 0
    else (s.setSession p k {}).kexFailed f p))

/-- SESSION_CLOSE (R490, R499, R506). -/
def execSessionClose (q : Nat) (s : State) : Host.Outcome State Fault Refusal :=
  .next (slotCommand q 0x52 17 s (fun f p k s => (s.closeSession p k).answer f 0 0 0))

/-- OPENING_TIMEOUT: a slot left OPENING for 10 s is freed (R490). -/
def execOpeningTimeout (p slot : Nat) (s : State) : Host.Outcome State Fault Refusal :=
  if p < 8 ∧ slot < 16 ∧ (s.session p slot).use = .opening then .next (s.setSession p slot {}) else .next s

/-! ## OHM_CTRL and the slots shown (R507-R509) -/

/-- Every management session closes. -/
def State.closeMgmt (s : State) : State := { s with sec := { s.sec with mgmt := [], hallmarks := [] } }
/-- A write of OHM_CTRL. -/
def State.ohmCtrl (s : State) (v : Nat) : State :=
  let s := (List.range 8).foldl (fun s p => if bit v p then s.closeSessions p else s) s
  if bit v 8 then s.closeMgmt else s
/-- OHM_PSESSp. -/
def State.pSess (s : State) (p : Nat) : Nat :=
  ((List.range 16).map (fun k => match (s.session p k).use with
    | .opened => 2 ^ k
    | .opening => 2 ^ (16 + k)
    | .free => 0)).sum
/-- Word of a session slot in mailbox selector 0x0101. -/
def Session.word (x : Session) : DWord :=
  BitVec.ofNat 64 ((match x.use with | .free => 0 | .opening => 1 | .opened => 2) + (if x.anyJob then x.highestJob % 2 ^ 56 * 256 else 0))

end Sys2Proof.Machine
end

