-- ==== Sys2Proof/Machine/RegMap.lean ====
section
/-! DEFINITION.  The register map (R42, R369-R372 and the register tables of every chapter): which register an address
reaches, who may reach it (R393), its guard group (R57), and what a read of it returns (R103, R485). -/
namespace Sys2Proof.Machine
open Sys2Proof

/-! ## The registers -/

/-- Every register of the spec's tables.  A last argument `k` counts the registers of a small table in offset order. -/
inductive Reg
  | mld (k : Nat) | mldPart (p : Nat)
  | num (t k : Nat) | tq (t k : Nat) | vecr (t k : Nat)
  /-- Word `w` of descriptor slot `k` of queue `q` of tile `t` (R106); its words are taken as registers of 64 bits (log entry 50). -/
  | slot (t q k w : Nat)
  | hrt (h k : Nat) | tallyVal (n : Nat) | exp (h k : Nat) | expMac (h u : Nat)
  | vmem (v k : Nat) | bwBytes (v p : Nat) | bwShort (v p : Nat)
  | tlr (k : Nat) | tlrPart (p k : Nat) | tlrReq (i w : Nat) | tlrRing (i w : Nat)
  | whl (n k : Nat) | ingDrop (v : Nat) | ctx (c k : Nat)
  /-- The registers of a port end. -/
  | efk (e k : Nat)
  | clk (k : Nat) | sb (k : Nat)
  | queue (cq : Bool) (q k : Nat) | ringRd (i : Nat) | eth (p k : Nat)
  /-- MSI-X table words and the PBA of the function itself (R372). -/
  | msix (e k : Nat) | pba (w : Nat)
  | acc (k : Nat) | mbxData (i : Nat)
  | pend (w : Nat) | evcAck | route (src : Nat) | coal (e : Nat) | vstate (e : Nat)
  | flt (k : Nat) | fltRec (n : Nat) | srcStat (w : Nat) | fence (k : Nat) | inject | ldg (k : Nat) | ldgData (n : Nat)
  | asy (k : Nat)
  | pwr (k : Nat) | rail (d : Nat) | pwrTile (t : Nat)
  | thm (k : Nat) | thmTile (t : Nat) | thmStore (t : Nat) | thmDie (d : Nat) | thmCyc (d : Nat) (hi : Bool)
  | ohm (k : Nat) | psess (p : Nat) | fw (k : Nat)
  deriving DecidableEq, Repr

/-- The registers of 64 bits; the others have 32 (R17). -/
def Reg.wide : Reg → Bool
  | .num _ k => k == 2
  | .tq _ k => k == 12
  | .vecr _ _ | .slot _ _ _ _ | .expMac _ _ | .bwBytes _ _ | .tlrReq _ _ | .tlrRing _ _ | .ingDrop _ | .mbxData _ | .fltRec _ | .ldgData _ | .thmCyc _ _
  | .msix _ _ | .pba _ => true
  | .hrt _ k => k == 1
  | .vmem _ k => k == 1 || k == 2
  | .tlr k => k == 0
  | .tlrPart _ k => k != 3
  | .whl _ k => k == 1
  | .ctx _ k => k != 3
  | .efk _ k => k == 2 || k == 3
  | .clk k => k == 1 || k == 3
  | .queue _ _ k => k == 0
  | .eth _ k => k != 0
  | .acc k => k == 5
  | .flt k => k == 2
  | .fence k => k == 2
  | .ldg k => k == 2
  | .asy k => k == 2 || k == 3
  | .pwr k => k == 2
  | .ohm k => k == 2
  | .fw k => k == 1
  | _ => false

/-- Guard group of an RWG register (R73, R214, R361, R363, R455, R457, R480, R507). -/
def Reg.group : Reg → Option Nat
  | .mld k => if k = 3 then some 1 else none
  | .vmem _ k => if k = 3 then some 2 else none
  | .efk _ k => if k = 0 then some 3 else none
  | .flt k => if k = 1 then some 4 else none
  | .clk k => if k = 2 then some 5 else none
  | .fence k => if k = 0 then some 6 else none
  | .inject => some 7
  | .asy k => if k = 0 then some 8 else none
  | .pwr k => if k = 1 then some 9 else none
  | .ohm k => if k = 1 then some 10 else none
  | _ => none

/-! ## Addresses -/

/-- Port end of die d's port j (R361). -/
def dieEnd (d j : Nat) : Option Nat :=
  if 4 ≤ d ∧ d < 8 then
    let h := d - 4
    match j with
    | 0 => some (2 * h)
    | 1 => some (2 * ((h + 3) % 4) + 1)
    | 2 => some (2 * (4 + h))
    | 3 => some (2 * (8 + h) + 1)
    | _ => none
  else if d = 8 ∨ d = 9 then
    let v := d - 8
    match j with
    | 0 => some (2 * (4 + 2 * v) + 1)
    | 1 => some (2 * (5 + 2 * v) + 1)
    | 2 => some (28 + v)
    | 3 => some (2 * (12 + v) + 1)
    | _ => none
  else if d = 10 ∧ j < 6 then some (2 * (8 + j)) else none

/-- Offset `o` in the block of `n` bytes at `base`. -/
def inBlock (ofs base n : Nat) : Option Nat := if base ≤ ofs ∧ ofs < base + n then some (ofs - base) else none
/-- The register number of an offset in a table of `n` registers from offset 0. -/
def regNo (o n : Nat) (f : Nat → Reg) : Option Reg := if o % 8 = 0 ∧ o / 8 < n then some (f (o / 8)) else none
/-- Register `k` of one of `n` sets of `stride` bytes with `m` registers each. -/
def regSet (o n stride m : Nat) (f : Nat → Nat → Reg) : Option Reg :=
  if o / stride < n then regNo (o % stride) m (f (o / stride)) else none
/-- The Efrok block of a die. -/
def efkAt (d ofs : Nat) : Option Reg :=
  (inBlock ofs 0x2000000 0x8000).bind (fun o => (dieEnd d (o / 0x100)).bind (fun e => regNo (o % 0x100) 4 (.efk e)))

/-- Registers of a kiln's window. -/
def kilnReg (k ofs : Nat) : Option Reg :=
  match inBlock ofs 0x100000 0x8000 with
  | some o => regSet o 8 0x1000 3 (fun i => .num (8 * k + i))
  | none => match inBlock ofs 0x200000 0x8000 with
  | some o => regSet o 8 0x1000 13 (fun i => .tq (8 * k + i))
  | none => match inBlock ofs 0x300000 0x8000 with
  | some o => regSet o 8 0x1000 2 (fun i => .vecr (8 * k + i))
  | none => match inBlock ofs 0x1000000 0x20000 with
  | some o => if o % 8 = 0 then some (.slot (8 * k + o / 0x4000) (o % 0x4000 / 0x1000) (o % 0x1000 / 0x40) (o % 0x40 / 8)) else none
  | none => none
/-- Registers of a hearth's window. -/
def hearthReg (h ofs : Nat) : Option Reg :=
  match inBlock ofs 0x400000 0x20000 with
  | some o => if 0x10000 ≤ o then regNo (o - 0x10000) 4096 (fun i => .tallyVal (4096 * h + i)) else regNo o 6 (.hrt h)
  | none => match inBlock ofs 0x500000 0x10000 with
  | some o => if 0x100 ≤ o then regNo (o - 0x100) 8 (.expMac h) else regNo o 2 (.exp h)
  | none => efkAt (4 + h) ofs
/-- Registers of a vault's window. -/
def vaultReg (v ofs : Nat) : Option Reg :=
  match inBlock ofs 0x400000 0x10000 with
  | some o =>
    if 0x180 ≤ o then regNo (o - 0x180) 8 (.bwShort v) else if 0x100 ≤ o then regNo (o - 0x100) 8 (.bwBytes v) else regNo o 5 (.vmem v)
  | none => match inBlock ofs 0x600000 0x10000 with
  | some o => if o = 0x100 then (if v = 1 then some (.ingDrop v) else none) else regSet o 2 0x40 3 (fun w => .whl (2 * v + w))
  | none =>
    if v = 1 then
      match inBlock ofs 0x700000 0x10000 with
      | some o => regSet o 256 0x20 4 .ctx
      | none => match inBlock ofs 0x800000 0x10000 with
      | some o => regSet o 4 0x20 3 .eth
      | none => efkAt 9 ofs
    else match inBlock ofs 0x1000000 0x400000 with
    | some o => regSet o 1024 0x1000 4 (.queue false)
    | none => match inBlock ofs 0x1400000 0x400000 with
    | some o => regSet o 1024 0x1000 4 (.queue true)
    | none => match inBlock ofs 0x1800000 0x400000 with
    | some o => if o % 0x40 = 0 then some (.ringRd (o / 0x40)) else none
    | none => match inBlock ofs 0x1C00000 0x2000 with
    | some o => if o < 0x1000 then regSet o 256 16 2 .msix else regNo (o - 0x1000) 4 .pba
    | none => efkAt 8 ofs

/-- Registers of the fault collector's block, the islands' among them. -/
def faultReg (o : Nat) : Option Reg :=
  if 0x8000 ≤ o then regNo (o - 0x8000) 4 .asy
  else if 0x320 ≤ o then regNo (o - 0x320) 4 .ldgData
  else if 0x300 ≤ o then regNo (o - 0x300) 3 .ldg
  else if o = 0x240 then some .inject
  else if 0x200 ≤ o then regNo (o - 0x200) 4 .fence
  else if 0x100 ≤ o then regNo (o - 0x100) 16 .srcStat
  else if 0x20 ≤ o then regNo (o - 0x20) 4 .fltRec
  else regNo o 4 .flt
/-- Registers of the power and thermal blocks. -/
def powerReg (o : Nat) : Option Reg :=
  if 0x8000 ≤ o then
    let o := o - 0x8000
    if 0x400 ≤ o then regSet (o - 0x400) 11 0x10 2 (fun d k => .thmCyc d (k == 1))
    else if 0x300 ≤ o then regNo (o - 0x300) 11 .thmDie
    else if 0x200 ≤ o then regNo (o - 0x200) 32 .thmStore
    else if 0x100 ≤ o then regNo (o - 0x100) 32 .thmTile
    else regNo o 2 .thm
  else if 0x200 ≤ o then regNo (o - 0x200) 32 .pwrTile
  else if 0x100 ≤ o then regNo (o - 0x100) 13 .rail
  else regNo o 4 .pwr
/-- Registers of the event collector's block. -/
def evcReg (o : Nat) : Option Reg :=
  if 0x5000 ≤ o then regNo (o - 0x5000) 256 .vstate
  else if 0x4000 ≤ o then regNo (o - 0x4000) 256 .coal
  else if 0x1000 ≤ o then regNo (o - 0x1000) 1024 (fun i => .route (1024 + i))
  else if o = 0x200 then some .evcAck
  else regNo o 64 .pend
/-- Registers of the mint's window. -/
def mintReg (ofs : Nat) : Option Reg :=
  match inBlock ofs 0x300000 0x10000 with
  | some o => evcReg o
  | none => match inBlock ofs 0x310000 0x10000 with
  | some o => faultReg o
  | none => match inBlock ofs 0x320000 0x10000 with
  | some o => powerReg o
  | none => match inBlock ofs 0x330000 0x10000 with
  | some o => if 0x8000 ≤ o then regNo (o - 0x8000) 4 .fw else if 0x100 ≤ o then regNo (o - 0x100) 8 .psess else regNo o 4 .ohm
  | none => match inBlock ofs 0x400000 0x10000 with
  | some o => if 0x100 ≤ o then regNo (o - 0x100) 8 .mldPart else regNo o 4 .mld
  | none => match inBlock ofs 0x800000 0x10000 with
  | some o => if 0x100 ≤ o then regSet (o - 0x100) 8 0x20 4 .tlrPart else regNo o 2 .tlr
  | none => match inBlock ofs 0xC00000 0x400000 with
  | some o => regSet o 65536 0x40 8 .tlrReq
  | none => match inBlock ofs 0x1000000 0x100000 with
  | some o => regSet o 65536 0x10 2 .tlrRing
  | none => match inBlock ofs 0x2100000 0x10000 with
  | some o => if 0x8100 ≤ o then regNo (o - 0x8100) 64 .mbxData else if 0x8000 ≤ o then regNo (o - 0x8000) 7 .acc else regNo o 5 .clk
  | none => match inBlock ofs 0x2200000 0x8000 with
  | some o => regNo o 3 .sb
  | none => efkAt 10 ofs
/-- The register that starts at a device address. -/
def regAt (a : Nat) : Option Reg :=
  if a < dieWindow 0 ∨ a % 8 ≠ 0 then none
  else
    let d := (a - dieWindow 0) / 0x10000000
    let ofs := (a - dieWindow 0) % 0x10000000
    if d < 4 then kilnReg d ofs else if d < 8 then hearthReg (d - 4) ofs else if d < 10 then vaultReg (d - 8) ofs
    else if d = 10 then mintReg ofs else none

/-- Device address behind a BAR0 offset (R370). -/
def bar0Addr (o : Nat) : Option Nat :=
  let m (base lo : Nat) : Option Nat := some (dieWindow 10 + base + (o - lo))
  if o < 0x10000 then m 0x800000 0
  else if o < 0x20000 then m 0x400000 0x10000
  else if o < 0x30000 then m 0x2100000 0x20000
  else if o < 0x40000 then m 0x300000 0x30000
  else if o < 0x50000 then m 0x310000 0x40000
  else if o < 0x60000 then m 0x320000 0x50000
  else if o < 0x70000 then m 0x330000 0x60000
  else if o < 0x78000 then m 0x2200000 0x70000
  else if o < 0x80000 then m 0x2000000 0x78000
  else if o < 0x100000 then
    let r := o % 0x20000
    let w := dieWindow ((o - 0x80000) / 0x20000)
    some (w + (if r < 0x8000 then 0x100000 + r else if r < 0x10000 then 0x200000 + (r - 0x8000) else 0x300000 + (r - 0x10000)))
  else if o < 0x200000 then
    let r := o % 0x40000
    let w := dieWindow (4 + (o - 0x100000) / 0x40000)
    some (w + (if r < 0x20000 then 0x400000 + r else if r < 0x30000 then 0x500000 + (r - 0x20000) else 0x2000000 + (r - 0x30000)))
  else if o < 0x300000 then
    let r := o % 0x80000
    let w := dieWindow (8 + (o - 0x200000) / 0x80000)
    if r < 0x10000 then some (w + 0x400000 + r)
    else if r < 0x20000 then some (w + 0x600000 + (r - 0x10000))
    else if r < 0x30000 then some (w + 0x700000 + (r - 0x20000))
    else if r < 0x40000 then some (w + 0x2000000 + (r - 0x30000))
    else if r < 0x50000 then some (w + 0x800000 + (r - 0x40000))
    else none
  else if 0x400000 ≤ o ∧ o < 0x800000 then m 0xC00000 0x400000
  else if 0x800000 ≤ o ∧ o < 0x900000 then m 0x1000000 0x800000
  else none
/-- Device address of a location. -/
def locAddr : RegLoc → Option Nat
  | .bar0 o => bar0Addr o
  | .bar2 o => if o < 0x1000000 then some (bar2Addr o) else none
  | .window a => if dieWindow 0 ≤ a ∧ a < dieWindow 11 then some a else none
/-- A master can issue an access to a location: functions use their BARs, the others device addresses (R392). -/
def locFits (l : RegLoc) (m : Master) : Bool :=
  match l, m with
  | .window _, .func _ => false
  | .window _, _ => true
  | _, .func _ => true
  | _, _ => false
/-- Die whose window holds a device address. -/
def addrDie (a : Nat) : Nat := (a - dieWindow 0) / 0x10000000

/-! ## Who may reach a register (R393) -/

/-- The mint's own masters, for reading: the standby island reads too (R392). -/
def mintSide (m : Master) : Bool := match m with | .mint | .island _ | .ohmis => true | _ => false
/-- The mint as R106 names it: the Teller and the Assay islands (R141). -/
def tellerSide (m : Master) : Bool := match m with | .mint | .island _ => true | _ => false
/-- The function that owns partition p. -/
def State.owns (s : State) (m : Master) (p : Nat) : Bool := match m with | .func f => decide (p < 8) && s.funcPart f == p | _ => false
/-- The function whose view a master has of the event collector: its own, the PF's for a peer, none for the system view. -/
def evcView (m : Master) : Option Nat := match m with | .func f => some f | .peer _ => some 0 | _ => none
/-- A read of the register is admitted. -/
def State.canRead (s : State) (m : Master) (r : Reg) : Bool :=
  let mint := mintSide m
  let pf := isFunc 0 m
  let side := mint || pf || isPeer m
  match r with
  | .num t _ | .vecr t _ => mint || pf || s.owns m (s.tilePart t)
  | .slot _ _ _ _ => tellerSide m
  | .tq t k => tellerSide m || (k == 12 && (mint || pf || s.owns m (s.tilePart t)))
  | .hrt _ k => if k = 3 then mint else side
  | .tallyVal n => side || s.owns m (s.tallyPart n)
  | .exp _ _ => side
  | .expMac h u => side || s.owns m (s.tilePart (8 * h + u))
  | .bwBytes _ p | .bwShort _ p => side || s.owns m p
  | .tlr k => mint || (k == 0 && (match m with | .func _ => true | _ => false))
  | .tlrPart p _ => mint || s.owns m p
  | .tlrReq i _ | .tlrRing i _ => mint || s.owns m (s.reqPart i)
  | .whl _ _ | .ingDrop _ | .sb _ => mint || pf
  | .ctx c _ => s.owns m (s.ctxPart c)
  | .queue cq q _ => s.owns m (s.queuePart cq q)
  | .ringRd i => s.owns m (s.reqPart i)
  | .msix e _ => match m with | .func f => decide (e < tableSize f) | _ => false
  | .pba _ => match m with | .func _ => true | _ => false
  | .acc _ | .mbxData _ | .pend _ => true
  | .evcAck => (evcView m).isSome
  | .route src => match evcView m with | some f => decide (1024 ≤ src) && s.srcFunc src == f | none => false
  | .coal e | .vstate e => match evcView m with | some f => decide (e < tableSize f) | none => false
  | .flt k => side || decide (2 ≤ k)
  | .fltRec _ => true
  | .ldg _ | .ldgData _ => mint || pf || (match m with | .peer n => s.adminPeer n | _ => false)
  | .pwr k => side || k == 2
  | .psess p => side || s.owns m p
  | _ => side
/-- A write of the register is admitted; of a read-only register, that it is dropped rather than refused. -/
def State.canWrite (s : State) (m : Master) (r : Reg) : Bool :=
  match r with
  | .tallyVal _ => mintSide m
  | .hrt _ k => if k = 3 ∨ k = 5 then mintSide m else s.canRead m r
  | .pend _ | .evcAck | .route _ | .coal _ | .vstate _ => !isPeer m && s.canRead m r
  | _ => s.canRead m r

/-! ## What a read returns -/

/-- STATE and RESUME_TO codes (R282). -/
def reqCode : ReqState → Nat
  | .free => 0 | .admitted => 1 | .prefill => 2 | .decode => 3 | .stalled => 4 | .suspended => 5 | .draining => 6 | .retired => 7
/-- The 64 bytes of a request table entry (R281). -/
def reqBytes (r : Request) : List Byte :=
  toLE 1 (reqCode r.state + 16 * reqCode r.resumeTo) ++
    toLE 1 (r.cls % 4 + 4 * b2n r.noWait + 8 * b2n r.hardAbort + 16 * b2n r.lateStop + 32 * b2n r.late + 64 * b2n r.cancelNow + 128 * b2n r.restart) ++
    toLE 1 r.specK ++ toLE 1 r.stallCause ++ toLE 2 r.ware ++ toLE 2 r.draft ++ toLE 2 r.adapter ++ toLE 2 r.adapterVer ++
    toLE 3 r.seqLen ++ toLE 1 r.endReason ++ toLE 3 r.promptLen ++ toLE 3 r.prefilled ++ toLE 2 r.generated ++ toLE 2 r.maxNew ++
    toLE 2 r.stepSeq ++ toLE 4 r.budget ++ toLE 8 r.admitStamp ++ toLE 8 r.seed.toNat ++ toLE 4 r.stopToken.toNat ++
    toLE 2 r.temp.toNat ++ toLE 2 r.topP.toNat ++ toLE 2 r.topK ++ toLE 6 r.listBase
/-- Word w of an entry; of a CONFIDENTIAL partition the sampling fields read zero (R494). -/
def State.reqWord (s : State) (i w : Nat) : Nat :=
  let b := reqBytes (s.request i)
  let b := if s.confidential (s.reqPart i) then b.take 40 ++ List.replicate 18 0 ++ b.drop 58 else b
  lfld b (8 * w) 8
/-- A free entry that no request has used reads zero. -/
def State.reqRead (s : State) (i w : Nat) : Nat := if (s.request i).state = .free then 0 else s.reqWord i w
/-- Bits of a test as a number. -/
def maskOf (n : Nat) (f : Nat → Bool) : Nat := ((List.range n).map (fun i => if f i then 2 ^ i else 0)).sum
/-- Pending bits of word w in a view (R415, R422). -/
def State.pendWord (s : State) (view : Option Nat) (w : Nat) : Nat :=
  maskOf 32 (fun b => s.srcPending (32 * w + b) && (match view with | some f => s.srcFunc (32 * w + b) == f | none => true))
/-- KLN_TQ_STATUS (R143). -/
def Tile.status (x : Tile) : Nat :=
  let runQ := match x.running with | some c => c.queue | none => 0
  let fq (f : Option Frame) : Nat := match f with | some f => f.cmd.queue | none => 0
  runQ + 4 * b2n x.running.isSome + 8 * maskOf 4 (fun q => (x.q q).halted) + 128 * maskOf 4 (fun q => (x.q q).ceding) +
    2 ^ 11 * b2n x.frame0.isSome + 2 ^ 12 * b2n x.frame1.isSome + 2 ^ 13 * fq x.frame0 + 2 ^ 15 * b2n x.spilling.isSome +
    2 ^ 16 * b2n x.restoring.isSome + 2 ^ 17 * b2n (!x.abandonList.isEmpty) + 2 ^ 18 * b2n x.abandonFull + 2 ^ 19 * fq x.frame1 +
    2 ^ 24 * x.lastErr
/-- STATE_d codes (R364). -/
def dieCode : DieState → Nat
  | .ready => 0 | .inReset => 1 | .clockStarting => 2 | .selfTest => 3 | .training => 4 | .fenced => 5 | .noClock => 6
/-- A_STATE codes (R457). -/
def islCode : IslState → Nat
  | .active => 0 | .sync => 1 | .unsync => 2 | .selfTest => 3 | .reset => 4 | .failed => 5
/-- Records of a view of the fault collector: the partition's queue, or the system's (R455). -/
def State.faultView (s : State) (m : Master) : Nat := match m with | .func f => s.funcPart f | _ => 8
def State.viewQueue (s : State) (m : Master) : List LedgerRec :=
  match m with
  | .func f => if s.funcPart f < 8 then s.faultQueue (s.funcPart f) else []
  | _ => s.faultQueue 8
/-- The head record shown: in the PF's view the one of the two heads that arrived first. -/
def State.shownRec (s : State) (m : Master) : Option LedgerRec :=
  let own := (s.viewQueue m).head?
  if isFunc 0 m then
    match own, (s.faultQueue 8).head? with
    | some a, some b => if b.stamp < a.stamp ∨ (b.stamp = a.stamp ∧ b.seq < a.seq) then some b else some a
    | some a, none => some a
    | none, x => x
  else own
def State.droppedOf (s : State) (o : Nat) : Nat := sget 0 s.faults.dropped o
/-- PHASE codes (R529). -/
def phaseCode : FwPhase → Nat
  | .idle => 0 | .receiving => 1 | .applying => 2 | .staged => 3 | .preparing => 4 | .holding => 5 | .trial => 6
/-- AMEND_STATE (R74). -/
def State.amendCode (s : State) : Nat :=
  match s.mould.amend with
  | none => 0
  | some a => if a.suspended then 5 else match a.step with | .verify => 1 | .drain => 2 | .scrub => 3 | .grant => 4
/-- A temperature field; 0x800 where the die is not read (R481). -/
def tempField (read : Bool) (v : BitVec 12) : Nat := if read then v.toNat else 0x800
/-- Requests of p in a state. -/
def State.countReq (s : State) (p : Nat) (f : ReqState → Bool) : Nat := ((s.requestsOf p).filter (fun e => f e.2.state)).length

/-- Hand-overs of a tile that wait for an engine, the spilled ones too (R213). -/
def Tile.handovers (x : Tile) : Nat :=
  ([x.running, x.frame0.map (·.cmd), x.frame1.map (·.cmd)].filter (fun c => c.any (fun c => c.wait == .engine))).length
/-- The tile's expand-on-read unit is expanding: for its running command or a gather that an engine holds (R275). -/
def Tile.expanding (x : Tile) : Bool :=
  let gathers (d : BitVec 512) : Bool := dOp d == 0x07 && (gatherFields d).expand
  let runs (c : RunCmd) : Bool := c.wait == .none && (gathers c.desc || (dOp c.desc == 0x04 && !(attFields c.desc).absorbed))
  x.running.any runs || [x.engine0, x.engine1].any (fun e => e.any (fun e => gathers e.desc))

/-- Tile, hearth and vault registers.  HRT_MEM_STATUS.SWEEP reads 0: the sweep of the lines homed at a lost die is done within the row
that loses it (DESIGN CHOICE, log entry 82). -/
def State.unitValue (s : State) (c : Nat → Nat) (r : Reg) : Nat :=
  match r with
  | .num t k =>
    let x := s.tile t
    if k = 0 then x.numSticky.toNat else if k = 1 then x.numEvmask.toNat else c x.slabActive.toNat
  | .tq t k =>
    let x := s.tile t
    if k = 0 then maskOf 4 (fun q => (x.q q).en)
    else if k = 1 then x.status
    else if k < 6 then (x.q (k - 2)).tail
    else if k < 10 then (x.q (k - 6)).head
    else if k = 10 then x.waitLimit.toNat
    else if k = 11 then x.lastAbandon.toNat
    else c x.takeCount.toNat
  | .slot t q k w => (sget 0 ((s.tile t).q q).slots k).toNat / 2 ^ (64 * w) % 2 ^ 64
  | .vecr t k =>
    let x := s.tile t
    if k = 0 then x.vecFaultCause + 2 ^ 8 * x.vecFaultPc + 2 ^ 32 * x.vecFaultSweep else c x.vecIssue.toNat
  | .hrt h k =>
    let x := s.hearth h
    if k = 0 then maskOf 6 (fun i => !s.dieReady (4 + i) || !s.reach (4 + h) (4 + i)) + 128 * b2n (!s.mem.ecc) + 256 * b2n x.flushBusy
    else if k = 1 then x.ceCount + 2 ^ 32 * x.ueCount
    else if k = 2 then ((List.range 8).map (fun p => sget 0 x.ways p * 2 ^ (4 * p))).sum
    else if k = 3 then x.flushPart + 8 * b2n x.flushInval
    else if k = 4 then
      maskOf 16 (fun e => if e % 2 = 0 then (s.tile (8 * h + e / 2)).engine0.isSome else (s.tile (8 * h + e / 2)).engine1.isSome) +
        2 ^ 16 * ((List.range 8).map (fun i => (s.tile (8 * h + i)).handovers)).sum
    else b2n x.ovf + 2 * b2n x.broken + 4 * x.lastOvf + 2 ^ 14 * x.lastBroken
  | .tallyVal n => (s.tally n).toNat
  | .exp h k => if k = 0 then maskOf 8 (fun u => (s.tile (8 * h + u)).expanding) else (s.hearth h).expNan.toNat
  | .expMac h u => c (sget 0 (s.hearth h).expMac u).toNat
  | .vmem v k =>
    let x := s.vault v
    if k = 0 then b2n s.mem.ecc + 2 * b2n (!s.mem.ecc)
    else if k = 1 then x.ceCount + 2 ^ 32 * x.ueCount
    else if k = 2 then x.lastAddr + 2 ^ 48 * x.lastChan + 2 ^ 54 * x.lastCause
    else if k = 3 then x.patrolPeriod + 256 * b2n x.patrolOff
    else x.patrolLine * 65536 / max 1 (s.vaultLines v) % 65536 + 65536 * (x.passes % 65536)
  | .bwBytes v p => c (sget 0 (s.vault v).bwBytes p).toNat
  | .bwShort v p => c (sget 0 (s.vault v).bwShort p)
  | .whl n k =>
    let x := s.wheel n
    if k = 0 then x.ctx + 256 * b2n x.active + 512 * b2n x.encode
    else if k = 1 then x.samples.toNat
    else b2n x.errPoison + 2 * b2n x.errAddress + 4 * b2n x.errTargetLost + 256 * x.lastCtx
  | .ingDrop _ => s.wheels.unmatched
  | .ctx n k =>
    let x := s.ctx n
    let code := match x.state with
      | .closed => 0 | .waitIrap => 1 | .running => if s.ctxReady n || ((s.wheel x.cfg.wheel).active && (s.wheel x.cfg.wheel).ctx == n) then 2 else 3
      | .closing => 4
    if k = 0 then code + 8 * x.cls + 32 * x.cfg.wheel + 128 * b2n x.cfg.encode + 2 ^ 32 * c (x.pictures % 2 ^ 32)
    else if k = 1 then c x.syntaxErrs + 2 ^ 16 * c x.concealed + 2 ^ 32 * c x.lost + 2 ^ 48 * c x.dropped
    else if k = 2 then (if x.cfg.encode then x.bsWr + 2 ^ 32 * x.descWr else x.rd)
    else x.evtBits.toNat
  | .efk e k =>
    let x := s.portEnd e
    if k = 0 then b2n x.en
    else if k = 1 then
      x.width + 4 * b2n x.up + 8 * b2n x.training + 16 * b2n x.repairing + 32 * b2n x.rearm + 64 * b2n x.disagree + 2 ^ 8 * x.sparesUsed +
        2 ^ 12 * (e / 2) + 2 ^ 16 * x.bulk.toNat + 2 ^ 24 * x.spareFail.toNat
    else if k = 2 then x.laneFail.toNat
    else x.flitErr + 2 ^ 32 * x.replays + 2 ^ 56 * x.retrains
  | .eth p k =>
    let x := sget {} s.host.eth p
    if k = 0 then b2n x.link + 2 * b2n x.anDone + 4 * b2n x.fecLock
    else if k = 1 then x.corrected + 2 ^ 32 * x.dropped
    else (Config.ethMac p).toNat
  | _ => 0

/-- Registers of the mint's fault, power, thermal and security blocks. -/
def State.mintValue (s : State) (m : Master) (r : Reg) : Nat :=
  let vf := match m with | .func f => f != 0 | _ => false
  match r with
  | .mld k =>
    if k = 0 then s.mould.serial
    else if k = 1 then b2n s.mould.firedSlotB + 2 * b2n s.mould.fallback + 4 * b2n s.mould.installed + 16 * s.amendCode + 2 ^ 8 * s.mould.lastErr +
      2 ^ 16 * s.mould.amendCount
    else if k = 2 then (match s.mould.amend with | some a => a.handle | none => 0)
    else s.mould.scrubRate
  | .mldPart p => match s.part? p with | some x => x.tiles.toNat | none => 0
  | .clk k =>
    if k = 0 then b2n s.links.xtalOk + 2 * b2n s.links.rootLock + 4 * s.mould.device.clkOpt + 16 * s.links.fwdOk.toNat
    else if k = 1 then s.links.aoCount.toNat
    else if k = 2 then 0
    else if k = 3 then (if s.links.rootLock then ((List.range 10).map (fun d => dieCode (s.shownDie d) * 2 ^ (4 * d))).sum else 0) + 2 ^ 40 * s.links.rearm.toNat
    else s.links.resetCause.toNat + 2 ^ 8 * s.links.dieResets
  | .sb k =>
    if k = 0 then s.host.sbActive.toNat else if k = 1 then s.host.sbLong.toNat + 16 * s.host.sbChatter.toNat else s.host.tachHz
  | .flt k =>
    if k = 0 then b2n s.faults.clrRefused + 2 * b2n s.faults.testMode + 4 * b2n s.faults.hbeatStopped + 8 * b2n s.fltN + 256 * s.faults.lastRefused
    else if k = 1 then b2n s.faults.hold
    else if k = 2 then
      (s.viewQueue m).length + 2 ^ 8 * (match m with | .func f => if s.funcPart f < 8 then s.droppedOf (s.funcPart f) else 0 | _ => s.droppedOf 8) +
        (if isFunc 0 m then 2 ^ 32 * (s.faultQueue 8).length + 2 ^ 40 * s.droppedOf 8 else 0)
    else 0
  | .fltRec n => recWord (s.shownRec m) n
  | .srcStat w => s.faults.srcStat.toNat / 2 ^ (32 * w) % 2 ^ 32
  | .fence k =>
    if k = 0 then s.faults.fenceKind + 4 * b2n s.faults.fenceUnf + 8 * s.faults.fenceIndex
    else if k = 1 then s.faults.fenceTiles.toNat
    else if k = 2 then s.faults.fenceChans.toNat
    else s.faults.fenceWheels.toNat
  | .inject => s.faults.injSource + 2 ^ 9 * s.faults.injClass
  | .ldg k =>
    if k = 0 then s.ledger.sel else if k = 1 then b2n s.ledger.busy + 2 * b2n s.ledger.notHeld else s.ledgerOldest + 2 ^ 32 * s.ledgerNewest
  | .ldgData n => recWord s.ledger.shown n
  | .asy k =>
    let x := s.islands
    if k = 0 then 0
    else if k = 1 then b2n x.activeB + 2 * islCode x.stA + 16 * islCode x.stB + 128 * b2n x.pinned + 256 * b2n x.noneActive + 512 * s.awayHour
    else if k = 2 then x.switchovers + 2 ^ 16 * x.returns + 2 ^ 32 * x.copyFails
    else x.cycle
  | .pwr k =>
    let x := s.power
    if k = 0 then s.limitEnv + 4 * (if x.flowLost then 3 else x.step) + 16 * b2n x.brake + 32 * b2n x.capPending + 64 * b2n x.holdup + 128 * b2n x.coolShutdown
    else if k = 1 then x.capW
    else if k = 2 then (if vf then x.vfAvg / 50 * 50 else x.avg1s % 2 ^ 16 + 2 ^ 16 * (x.avg100us % 2 ^ 16) + 2 ^ 32 * (x.joules / 1000 % 2 ^ 32))
    else x.inMv + 2 ^ 16 * x.inCa
  | .rail d => let x := sget {} s.power.rails d; x.mv + 2 ^ 12 * x.dw + 2 ^ 28 * b2n x.oor
  | .pwrTile t =>
    let x := s.tilePower t
    let p := s.power
    s.tileD t + 16 * s.tileDuty t + 2 ^ 9 * b2n (decide (s.lowestD < x.thermD) || (decide (0 < x.thermDuty) && decide (x.thermDuty < 16))) +
      2 ^ 10 * b2n (decide (s.lowestD < x.powerD) || decide (p.capClamp < 16) || p.overClamp)
  | .thm k =>
    let x := s.therm
    if k = 0 then x.inlet.toNat + 2 ^ 12 * x.board.toNat + 2 ^ 24 * b2n x.inletFail + 2 ^ 25 * b2n x.boardFail else x.consumed + 2 ^ 24 * x.worstDie
  | .thmTile t =>
    let x := s.tileTherm t
    tempField (s.tileRead t) x.a + 2 ^ 12 * tempField (s.tileRead t) x.b + 2 ^ 24 * b2n x.disagree + 2 ^ 25 * b2n x.failed + 2 ^ 26 * b2n x.warn
  | .thmStore t => let x := s.tileTherm t; tempField (s.storeRead t) x.store + 2 ^ 12 * b2n x.storeFailed
  | .thmDie d => let x := s.cyc d; tempField (s.dieReady d) x.temp + 2 ^ 12 * b2n x.shutdown
  | .thmCyc d hi =>
    let b (i : Nat) : Nat := sget 0 s.ledger.bins (4 * d + i)
    if hi then b 2 + 2 ^ 32 * b 3 else b 0 + 2 ^ 32 * b 1
  | .ohm k =>
    let x := s.sec
    if k = 0 then b2n x.identityOk + 2 * b2n x.trngOk + 4 * b2n x.enginesOk + 2 ^ 8 * ((s.teller.wares.filter (fun e => !e.2.isImage)).length % 1024) +
      2 ^ 18 * (x.mgmt.filter (fun e => e.2.opened)).length
    else if k = 1 then 0
    else if k = 2 then Config.mgmtMac.toNat
    else b2n x.errWare + 2 * b2n x.errSeal + 4 * b2n x.errMgmt + 2 ^ 8 * x.lastCode + 2 ^ 16 * x.lastPart
  | .psess p => s.pSess p
  | .fw k =>
    let x := s.update
    let run := s.slot x.runningB
    let other := s.slot (!x.runningB)
    if k = 0 then b2n x.runningB + 2 * b2n (run.state == .trial) + 4 * phaseCode x.phase + 2 ^ 8 * x.lastErr + 2 ^ 16 * x.attempts
    else if k = 1 then run.version + 2 ^ 32 * (if other.state = .empty then 0 else other.version)
    else if k = 2 then x.applyHandle
    else x.highestConfirmed
  | _ => 0

/-- Registers of the Teller, the host link, the register-access block and the event collector. -/
def State.hostValue (s : State) (m : Master) (c : Nat → Nat) (r : Reg) : Nat :=
  match r with
  | .tlr k => if k = 0 then s.teller.usec.toNat else b2n s.teller.held
  | .tlrPart p k =>
    if k = 0 then s.countReq p ReqState.active + 2 ^ 24 * s.countReq p (· == .stalled) + 2 ^ 40 * s.countReq p (· == .suspended)
    else if k = 1 then (s.pool p).freeBytes
    else if k = 2 then (s.pool p).totalBytes
    else (s.pevt p).toNat
  | .tlrReq i w => s.reqRead i w
  | .tlrRing i w =>
    let g := s.ring i
    if w = 0 then (if g.set then g.base + 2 ^ 48 * (g.log2 - 4) + 2 ^ 52 * b2n g.evt + 2 ^ 53 else 0) else g.wr + 2 ^ 32 * g.rd
  | .queue cq q k =>
    let x := s.queue cq q
    if k = 0 then x.base.toNat
    else if k = 1 then b2n x.en + 2 * b2n x.loc + 4 * x.log2 + 64 * x.bind
    else if k = 2 then 0
    else (if cq then x.tail else x.head) + 2 ^ 12 * b2n x.badCfg + 2 ^ 13 * b2n x.dbErr + 2 ^ 14 * b2n x.halt + 2 ^ 15 * b2n x.cfgIgn + 2 ^ 16 * b2n x.rearm
  | .msix e k => match m with
    | .func f => let x := (s.func f).msixEntry e; if k = 0 then x.addr.toNat else x.data.toNat + 2 ^ 32 * b2n x.mask
    | _ => 0
  | .pba w => match m with | .func f => maskOf 64 (fun b => (s.func f).pba.contains (64 * w + b)) | _ => 0
  | .acc k =>
    let x := s.inst (instOf m)
    if k = 0 then x.offset + 2 ^ 24 * b2n x.inc
    else if k = 3 then b2n x.mbxValid + 2 * x.mbxErr + 16 * b2n x.mbxOverrun + 2 ^ 8 * x.mbxData.length
    else if k = 5 then x.errAddr + 2 ^ 48 * x.errCause + 2 ^ 52 * b2n x.errWrite + 2 ^ 53 * x.errCount
    else if k = 6 then b2n x.logged
    else 0
  | .mbxData i => (((s.inst (instOf m)).mbxData[i]?).getD 0).toNat
  | .pend w => s.pendWord (evcView m) w
  | .route src => let x := s.route src; x.vector + 256 * b2n x.en + 512 * b2n x.cfgIgn
  | .coal e => match evcView m with | some f => let x := s.coal (vecKey f e); x.count + 256 * x.time | none => 0
  | .vstate e => match evcView m with
    | some f => let x := s.vec (vecKey f e); b2n x.outstanding + 2 * b2n x.timing + 4 * c (min 255 x.occurred)
    | none => 0
  | _ => 0

/-- The value of a register as a master reads it, before guard mode PRIV. -/
def State.regValue (s : State) (m : Master) (r : Reg) : Nat :=
  let vf := match m with | .func f => f != 0 | _ => false
  let c (n : Nat) : Nat := if vf then coarsen n else n
  match r with
  | .num _ _ | .tq _ _ | .slot _ _ _ _ | .vecr _ _ | .hrt _ _ | .tallyVal _ | .exp _ _ | .expMac _ _ | .vmem _ _ | .bwBytes _ _ | .bwShort _ _
  | .whl _ _ | .ingDrop _ | .ctx _ _ | .efk _ _ | .eth _ _ => s.unitValue c r
  | .tlr _ | .tlrPart _ _ | .tlrReq _ _ | .tlrRing _ _ | .queue _ _ _ | .ringRd _ | .msix _ _ | .pba _ | .acc _ | .mbxData _
  | .pend _ | .evcAck | .route _ | .coal _ | .vstate _ => s.hostValue m c r
  | _ => s.mintValue m r

/-- Mode of a guard group in the running mould: true for PAIR (R57); before firing PRIV. -/
def State.pairMode (s : State) (g : Nat) : Bool := (s.mould.guardModes[g]?).getD 1 == 2
/-- What a master reads: under PRIV an unprivileged one reads RWG fields, which are all that an RWG register has, as zero (R394). -/
def State.regRead (s : State) (m : Master) (r : Reg) : Nat :=
  match r.group with
  | some g => if s.pairMode g || s.privileged m then s.regValue m r else 0
  | none => s.regValue m r

end Sys2Proof.Machine
end

