-- ==== Sys2Proof/Machine/Registers.lean ====
section
/-! DEFINITION.  Register accesses (R392-R411, R530): widths, guard modes, posted and dual writes, indirect access, the
mailbox and voting, and what a write does to each register; one meaning per row. -/
namespace Sys2Proof.Machine
open Sys2Proof

/-- The state a meaning goes on with. -/
def after (s : State) (o : Host.Outcome State Fault Refusal) : State := match o with | .next t => t | _ => s

/-! ## What a write of a value does -/

/-- Clear bits of a number where a write has 1s. -/
def w1c (old v : Nat) : Nat := old &&& (2 ^ 64 - 1 - v % 2 ^ 64)
/-- A write of PEVT: ALL_STALLED sets again while its condition holds (R304). -/
def State.clearPevt (s : State) (p v : Nat) : State :=
  ({ s with teller := { s.teller with pevt := sset 0 s.teller.pevt p (BitVec.ofNat 3 (w1c (s.pevt p).toNat v)) } } : State).noteStalled p
/-- W1C bits of a queue's STATUS (R390). -/
def HostQueue.clear (x : HostQueue) (v : Nat) : HostQueue :=
  { x with badCfg := x.badCfg && !bit v 12, dbErr := x.dbErr && !bit v 13, halt := x.halt && !bit v 14, cfgIgn := x.cfgIgn && !bit v 15,
           rearm := x.rearm && !bit v 16 }
/-- A write of an MSI-X table word (R372, R419). -/
def State.msixWrite (s : State) (f e k v : Nat) : State :=
  let x := s.func f
  let t := x.msixEntry e
  let t' := if k = 0 then { t with addr := BitVec.ofNat 64 v } else { t with data := BitVec.ofNat 32 v, mask := bit v 32 }
  let s := s.setFunc f { x with msix := sset {} x.msix e t' }
  if !t'.mask && x.pba.contains e then s.sendMessage (vecKey f e) else s

/-- MNT_IDX: a held half is discarded with cause SPLIT (R406, R411). -/
def State.dropHeld (s : State) (i : Nat) : State :=
  let x := s.inst i
  match x.heldLo with
  | some h => (s.setInst i { x with heldLo := none }).logAccess i (((bar0Addr h.1).getD 0)) causeSplit true
  | none => s
def State.writeIdx (s : State) (i v : Nat) : State :=
  let s := s.dropHeld i
  s.setInst i { s.inst i with offset := v % 2 ^ 24 / 4 * 4, inc := bit v 24, latchedHi := none }
/-- Selectors that some table defines (R409, R509). -/
def knownSel (v : Nat) : Bool := within v 1 4 || within v 0x100 0x102
/-- MNT_MBX_REQ: a selector of no table gives UNKNOWN_SEL (R408, R409). -/
def State.writeReq (s : State) (i v : Nat) : State :=
  let x := s.inst i
  if x.mbxOpen then s.setInst i { x with mbxOverrun := true }
  else
    let sel := v % 65536
    s.setInst i { x with mbxOpen := true, mbxSel := sel, mbxIndex := v / 65536 % 65536,
                         mbxSampled := if knownSel sel then none else some (1, []) }
/-- MNT_MBX_DONE ends the request (R408). -/
def State.writeDone (s : State) (i v : Nat) : State :=
  if !bit v 0 then s
  else
    let x := s.inst i
    s.setInst i { x with mbxOpen := false, mbxSel := 0, mbxIndex := 0, mbxSampled := none, mbxValid := false, mbxErr := 0,
                         mbxOverrun := false, mbxData := [] }
/-- The pending word of tile t's bits in EVC; the register-log event's LOGGED clears with COUNT (R411). -/
def State.clearLogged (s : State) (i v : Nat) : State :=
  if bit v 0 then s.setInst i { s.inst i with logged := false, errCount := 0 } else s

/-- A value written to a register takes effect (R20).  Fields that take no write are ignored. -/
def State.regEffect (s : State) (m : Master) (r : Reg) (v : Nat) : State :=
  let i := instOf m
  let w : Word := BitVec.ofNat 32 v
  match r with
  | .mld k => if k = 3 then { s with mould := { s.mould with scrubRate := v % 256 } } else s
  | .num t k =>
    let x := s.tile t
    if k = 0 then s.setNumeric t (BitVec.ofNat 32 (w1c x.numSticky.toNat v)) x.numEvmask
    else if k = 1 then s.setNumeric t x.numSticky (BitVec.ofNat 32 (v % 128)) else s
  | .tq t k =>
    if k = 0 then ctrlWrite s t w
    else if 2 ≤ k ∧ k < 6 then tailWrite s t (k - 2) w
    else if k = 10 then s.setTile t { s.tile t with waitLimit := w }
    else if k = 11 then abandonWrite s t w else s
  | .slot t q k n =>
    let x := s.tile t
    let d := sget 0 (x.q q).slots k
    s.setTile t (x.setQ q { x.q q with slots := sset 0 (x.q q).slots k (dset d (8 * n) 8 v) })
  | .hrt h k => if k = 5 then s.tallyStatClear h w else s
  | .tallyVal n => (resetTally s 10 n w).1
  | .exp h k => if k = 1 then s.setHearth h { s.hearth h with expNan := BitVec.ofNat 8 (w1c (s.hearth h).expNan.toNat v) } else s
  | .vmem n k => if k = 3 then s.setVault n { s.vault n with patrolPeriod := v % 256, patrolOff := bit v 8 } else s
  | .tlrPart p k => if k = 3 then s.clearPevt p v else s
  | .whl n k =>
    let x := s.wheel n
    if k = 2 then s.setWheel n { x with errPoison := x.errPoison && !bit v 0, errAddress := x.errAddress && !bit v 1, errTargetLost := x.errTargetLost && !bit v 2 } else s
  | .ctx c k => if k = 3 then s.setCtx c { s.ctx c with evtBits := BitVec.ofNat 5 (w1c (s.ctx c).evtBits.toNat v) } else s
  | .efk e k => if k = 0 then (let s := s.writeEn e (bit v 0); if bit v 1 then s.writeRetrain e else s) else s
  | .clk k =>
    if k = 2 then s.resetDies v
    else if k = 4 then { s with links := { s.links with resetCause := BitVec.ofNat 5 (w1c s.links.resetCause.toNat v) } } else s
  | .sb k => if k = 1 then s.clearSbEvt v else s
  | .queue cq q k =>
    let f := match m with | .func f => f | _ => 0
    if k = 0 then s.baseWrite cq q (BitVec.ofNat 64 v)
    else if k = 1 then s.cfgWrite cq q (v % 2 ^ 32)
    else if k = 2 then after s (if cq then execCqHeadDoorbell f q w s else execSqTailDoorbell f q w s)
    else s.setQueue cq q ((s.queue cq q).clear v)
  | .ringRd n => match m with | .func f => after s (execRingReadIndex f n w s) | _ => s
  | .msix e k => match m with | .func f => s.msixWrite f e k v | _ => s
  | .acc k => if k = 0 then s.writeIdx i v else if k = 2 then s.writeReq i v else if k = 4 then s.writeDone i v else if k = 6 then s.clearLogged i v else s
  | .pend n => after s (execEvcPend m n w s)
  | .evcAck => after s (execEvcAck m w s)
  | .route src => after s (execEvcRoute m src w s)
  | .coal e => after s (execEvcCoal m e w s)
  | .flt k =>
    if k = 0 then { s with faults := { s.faults with clrRefused := s.faults.clrRefused && !bit v 0 } }
    else if k = 1 then { s with faults := { s.faults with hold := bit v 0 } }
    else if k = 3 then s.ackFault m w.toNat else s
  | .srcStat n => s.clearStat n (v % 2 ^ 32)
  | .fence k => if k = 0 then s.fenceCmd m v else s
  | .inject => s.injectCmd m v
  | .asy k => if k = 0 then s.asyCtrl v else s
  | .pwr k => if k = 1 then s.setCap (v % 4096) i else s
  | .ohm k =>
    let x := s.sec
    if k = 1 then s.ohmCtrl v
    else if k = 3 then { s with sec := { x with errWare := x.errWare && !bit v 0, errSeal := x.errSeal && !bit v 1, errMgmt := x.errMgmt && !bit v 2 } } else s
  | _ => s

/-! ## Widths (R530) -/

/-- The register an access reaches, and whether it is its high half. -/
def locate (a : Nat) (wide : Bool) : Option (Reg × Bool) :=
  if a % 4 ≠ 0 then none
  else match regAt (a - a % 8) with
  | none => none
  | some r => if a % 8 = 0 then some (r, false) else if wide || !r.wide then none else some (r, true)
/-- The bits of a register that a read at a width returns. -/
def readHalf (r : Reg) (hi wide : Bool) (v : Nat) : Nat :=
  if hi then v / 2 ^ 32 % 2 ^ 32 else if r.wide && wide then v % 2 ^ 64 else v % 2 ^ 32
/-- The value that a write at a width gives the whole register; a write of one half leaves the other as it is.  A W1C or WO
register of 64 bits does not exist. -/
def writeHalf (r : Reg) (hi wide : Bool) (old v : Nat) : Nat :=
  if !r.wide then v % 2 ^ 32
  else if hi then old % 2 ^ 32 + v % 2 ^ 32 * 2 ^ 32
  else if wide then v % 2 ^ 64
  else old / 2 ^ 32 * 2 ^ 32 + v % 2 ^ 32

/-! ## Guard logic (R394-R397) -/

/-- The register armed for a master in a block. -/
def State.armedIn (s : State) (m : Master) (block : Nat) : Option Armed := s.reg.armed.find? (fun a => a.master == m && a.block == block)
def State.disarm (s : State) (m : Master) (block : Nat) : State :=
  { s with reg := { s.reg with armed := s.reg.armed.filter (fun a => !(a.master == m && a.block == block)) } }
/-- An armed pair of the master in the block fails. -/
def State.failPair (s : State) (m : Master) (block : Nat) : State :=
  match s.armedIn m block with
  | some a => (s.disarm m block).guardFail m a.addr causePair
  | none => s
/-- A value of an access, at its width. -/
def accVal (x : RegAccess) : DWord := if x.wide then x.value else BitVec.ofNat 64 (x.value.toNat % 2 ^ 32)
/-- The complement of a value, at a width. -/
def complement (v : DWord) (wide : Bool) : DWord := if wide then ~~~ v else BitVec.ofNat 64 ((2 ^ 32 - 1) - v.toNat % 2 ^ 32)

/-- A write that the guard lets through: posted, or at once (R398). -/
def State.applyWrite (s : State) (m : Master) (a : Nat) (r : Reg) (v : Nat) : State :=
  match r with
  | .hrt h k =>
    if k = 3 then s.post m (hearthBlock h) a (BitVec.ofNat 64 v) (fun s => s.setHearth h { s.hearth h with flushBusy := true })
    else (s.reply .accepted).regEffect m r v
  | .ldg k =>
    if k = 0 then s.post m faultBlock a (BitVec.ofNat 64 v) (fun s => { s with ledger := { s.ledger with busy := true } })
    else s.reply .accepted
  | _ => (s.reply .accepted).regEffect m r v

/-- More than 64 F3 cycles, 16 of F4, have passed since a first write (R395, R397). -/
def State.late (s : State) (p : Armed) : Bool := decide (16 < s.links.aoCount.toNat - p.since)
/-- A second write of an armed pair, at A + 0x8: it completes the pair or fails it (R395, R396). -/
def State.pairSecond (s : State) (x : RegAccess) (p : Armed) : State :=
  let s := s.disarm x.master p.block
  if !s.late p ∧ x.wide = p.wide ∧ accVal x = complement p.value p.wide then
    match locate p.addr p.wide with
    | some (r, _) => s.applyWrite x.master p.addr r p.value.toNat
    | none => s
  else (s.guardFail x.master p.addr causePair).reply .dropped

/-- A write of an RWG register under its group's mode (R394, R395). -/
def State.guarded (s : State) (x : RegAccess) (a g : Nat) (r : Reg) : State :=
  let s := s.failPair x.master (addrBlock a)
  if s.pairMode g then
    let p : Armed := {
      master := x.master, block := addrBlock a, addr := a, value := accVal x, wide := x.wide, since := s.links.aoCount.toNat }
    { s with reg := { s.reg with armed := s.reg.armed ++ [p] } }.reply .accepted
  else if s.privileged x.master then s.applyWrite x.master a r (accVal x).toNat
  else (s.guardFail x.master a causePriv).reply .dropped

/-! ## The write path -/

/-- The device address an access bears in a log; of a BAR offset in no slot it is free (log entry 3). -/
def State.logAddr (s : State) (l : RegLoc) : Nat × State :=
  match locAddr l, l with
  | some a, _ => (a, s)
  | none, .window a => (a % 2 ^ 48, s)
  | none, _ => let r := s.takeFree; (r.1.toNat % 2 ^ 48, r.2)
/-- A register's die answers a master: it is ready, and there is a route to it from V0 for a function, from the mint for another
(R210, R370). -/
def State.regUp (s : State) (m : Master) (a : Nat) : Bool :=
  s.dieReady (addrDie a) && (match m with | .func _ => addrDie a == 8 || s.reach 8 (addrDie a) | _ => addrDie a == 10 || s.reach 10 (addrDie a))

/-- A write that completes no pair. -/
def State.plainWrite (s : State) (x : RegAccess) (a : Nat) : State :=
  let m := x.master
  match if (locAddr x.loc).isSome && s.regUp m a then locate a x.wide else none with
  | none => s.refuse m a true
  | some (r, hi) =>
    if !s.canWrite m r then s.refuse m a true
    else match r.group with
    | some g => s.guarded x a g r
    | none => s.applyWrite m a r (writeHalf r hi x.wide (s.regValue m r) (accVal x).toNat)
/-- A host's write whose data is poisoned (R371). -/
def spoiled (x : RegAccess) : Bool := x.poisoned && (match x.master with | .func _ => true | _ => false)
/-- The path every register write takes. -/
def State.writeReg (s : State) (x : RegAccess) : State :=
  let m := x.master
  if !locFits x.loc m then s
  else
    let l := s.logAddr x.loc
    let a := l.1
    if s.isStandby m then s.reply .dropped
    else l.2.gate m a true (fun s =>
      if spoiled x then (s.logAccess (instOf m) a causePoison true).reply .dropped
      else match (s.armedIn m (addrBlock a)) with
      | some p => if p.addr + 8 = a ∧ (locAddr x.loc).isSome then s.pairSecond x p else s.plainWrite x a
      | none => s.plainWrite x a)

/-- What a master reads of a register at an address: a voted field shows what its copies have agreed on (R403, R404). -/
def State.regShown (s : State) (m : Master) (a : Nat) (r : Reg) : Nat :=
  match sget none s.reg.voted (a / 8 * 8) with
  | some v => v.toNat
  | none => s.regRead m r
/-- The path every register read takes but that of MNT_DAT: the reply holds the value. -/
def State.readReg (s : State) (m : Master) (loc : RegLoc) (wide : Bool) : State :=
  if !locFits loc m then s
  else
    let l := s.logAddr loc
    let a := l.1
    l.2.gate m a false (fun s =>
      match if (locAddr loc).isSome && s.regUp m a then locate a wide else none with
      | none => s.refuse m a false
      | some (r, hi) =>
        if !s.canRead m r then s.refuse m a false
        else
          let s := match r with | .pend _ | .evcAck | .route _ | .coal _ | .vstate _ => s.wake | _ => s
          s.reply (.value (BitVec.ofNat 64 (readHalf r hi wide (s.regShown m a r)))))

/-- An access that no register answers, or that its block refuses (R393, R402). -/
def State.unimplemented (s : State) (m : Master) (loc : RegLoc) (wide write : Bool) : Bool :=
  match locAddr loc with
  | none => true
  | some a => !s.regUp m a || (match locate a wide with
    | none => true
    | some (r, _) => if write then !s.canWrite m r else !s.canRead m r)

/-- The register that an access reaches. -/
def accReg? (x : RegAccess) : Option Reg := (locAddr x.loc).bind (fun a => (locate a x.wide).map (·.1))
/-- A row of one register: an access that reaches another is not it (log entry 1). -/
def onReg (x : RegAccess) (f : Reg → Bool) (s : State) : Host.Outcome State Fault Refusal :=
  if (accReg? x).any f then .next (s.writeReg x) else .next s

/-- UNIMPLEMENTED_ACCESS (R402). -/
def execUnimplementedAccess (x : RegAccess) (write : Bool) (s : State) : Host.Outcome State Fault Refusal :=
  if s.unimplemented x.master x.loc x.wide write then .next (if write then s.writeReg x else s.readReg x.master x.loc x.wide) else .next s
/-- RETRAIN (R362). -/
def execRetrain (x : RegAccess) (s : State) : Host.Outcome State Fault Refusal :=
  onReg x (fun r => match r with | .efk _ k => k == 0 | _ => false) s
/-- PORT_EN (R362). -/
def execPortEn (x : RegAccess) (s : State) : Host.Outcome State Fault Refusal :=
  onReg x (fun r => match r with | .efk _ k => k == 0 | _ => false) s
/-- MNT_DIE_RESET (R364). -/
def execMntDieReset (x : RegAccess) (s : State) : Host.Outcome State Fault Refusal := onReg x (· == .clk 2) s
/-- FENCE (R451). -/
def execFence (x : RegAccess) (s : State) : Host.Outcome State Fault Refusal := onReg x (· == .fence 0) s
/-- UNFENCE (R451). -/
def execUnfence (x : RegAccess) (s : State) : Host.Outcome State Fault Refusal := onReg x (· == .fence 0) s
/-- FLT_INJECT (R438). -/
def execFltInject (x : RegAccess) (s : State) : Host.Outcome State Fault Refusal := onReg x (· == .inject) s
/-- STANDBY_RESET (R457). -/
def execStandbyReset (x : RegAccess) (s : State) : Host.Outcome State Fault Refusal := onReg x (· == .asy 0) s
/-- RETURN_NOW (R457). -/
def execReturnNow (x : RegAccess) (s : State) : Host.Outcome State Fault Refusal := onReg x (· == .asy 0) s
/-- SWAP (R457). -/
def execSwap (x : RegAccess) (s : State) : Host.Outcome State Fault Refusal := onReg x (· == .asy 0) s
/-- PWR_CAP (R465). -/
def execPwrCap (x : RegAccess) (s : State) : Host.Outcome State Fault Refusal := onReg x (· == .pwr 1) s
/-- CLOSE_SESS (R508). -/
def execCloseSess (x : RegAccess) (s : State) : Host.Outcome State Fault Refusal := onReg x (· == .ohm 1) s
/-- CLOSE_MGMT (R508). -/
def execCloseMgmt (x : RegAccess) (s : State) : Host.Outcome State Fault Refusal := onReg x (· == .ohm 1) s

/-- The register of a guarded group in PAIR mode. -/
def State.pairReg (s : State) (r : Reg) : Bool := match r.group with | some g => s.pairMode g | none => false
/-- PAIR_ARM (R395): a first write to an RWG register whose group is in PAIR. -/
def execPairArm (x : RegAccess) (s : State) : Host.Outcome State Fault Refusal := onReg x s.pairReg s
/-- PAIR_COMPLETE (R395, R396): a write at A + 0x8 of the register armed for the master. -/
def execPairComplete (x : RegAccess) (s : State) : Host.Outcome State Fault Refusal :=
  match locAddr x.loc with
  | some a => match s.armedIn x.master (addrBlock a) with
    | some p => if p.addr + 8 = a then .next (s.writeReg x) else .next s
    | none => .next s
  | none => .next s
/-- PAIR_TIMEOUT (R395): 64 F3 cycles have passed. -/
def execPairTimeout (m : Master) (block : Nat) (s : State) : Host.Outcome State Fault Refusal := .next (s.failPair m block)

/-- The guard mode PRIV lets a write through (R394): guard checks come first (R397). -/
def State.guardPasses (s : State) (x : RegAccess) : Bool :=
  match accReg? x with
  | some r => match r.group with
    | some g => s.pairMode g || s.privileged x.master
    | none => true
  | none => true
/-- DUAL_WRITE (R397): the second of two equal writes within 64 F3 cycles takes effect; a late or differing one discards the first with
cause DUAL and is a first write itself.  No table has an RWD register: the row takes the address it is given as one, and its write has the
effect of a plain write there (DEDUCED, log entry 50). -/
def execDualWrite (x : RegAccess) (s : State) : Host.Outcome State Fault Refusal :=
  match locAddr x.loc with
  | none => .next (s.writeReg x)
  | some a =>
    let b := addrBlock a
    let first : Armed := { master := x.master, block := b, addr := a, value := accVal x, wide := x.wide, since := s.links.aoCount.toNat }
    let same (p : Armed) : Bool := { p with since := first.since } == first && !s.late p
    if s.isStandby x.master then .next (s.reply .dropped)
    else if s.unimplemented x.master x.loc x.wide true ∨ !locFits x.loc x.master ∨ !s.guardPasses x ∨ spoiled x then .next (s.writeReg x)
    else if s.reg.dual.any same then
      .next ({ s with reg := { s.reg with dual := s.reg.dual.filter (fun p => !same p) } }.writeReg x)
    else .next (s.gate x.master a true (fun s => { s with reg := { s.reg with dual := s.reg.dual ++ [first] } }.reply .accepted))

/-- POSTED_WRITE_APPLIED (R398): the write reaches its domain, and BUSY clears; a Ledger read ends by LEDGER_READ_DONE. -/
def execPostedWriteApplied (block : Nat) (s : State) : Host.Outcome State Fault Refusal :=
  match s.reg.posted.find? (fun p => p.block = block) with
  | none => .next s
  | some p =>
    if within block 40 43 ∧ s.dieReady (4 + (block - 40)) then
      let s := { s with reg := { s.reg with posted := s.reg.posted.filter (fun p => p.block ≠ block) } }
      .next (applyFlush s (block - 40) p.value)
    else .next s
/-- FLT_LDG_SEL (R443). -/
def execFltLdgSel (m : Master) (v : Word) (s : State) : Host.Outcome State Fault Refusal :=
  let a := fltAddr 0x300
  if s.isStandby m then .next (s.reply .dropped)
  else .next (s.gate m a true (fun s => if s.canWrite m (.ldg 0) then s.applyWrite m a (.ldg 0) v.toNat else s.refuse m a true))

/-! ## Indirect access (R405-R407) -/

def accAddr (ofs : Nat) : Nat := dieWindow 10 + 0x2108000 + ofs
/-- A write by a master to its own copy of the register-access block. -/
def accWrite (s : State) (m : Master) (ofs : Nat) (k : Nat → State → State) : Host.Outcome State Fault Refusal :=
  if s.isStandby m then .next (s.reply .dropped) else .next (s.gate m (accAddr ofs) true (fun s => k (instOf m) (s.reply .accepted)))
/-- MNT_IDX (R411). -/
def execMntIdx (m : Master) (v : Word) (s : State) : Host.Outcome State Fault Refusal := accWrite s m 0 (fun i s => s.writeIdx i v.toNat)

/-- OFFSET after a DAT access (R407). -/
def nextOffset (o : Nat) (low : Bool) : Nat := (if low then o + 4 else (o / 8 + 1) * 8) % 2 ^ 24
/-- The location of a DAT access: a function's BAR0 offset, or the same register by its device address. -/
def datLoc (m : Master) (o : Nat) : RegLoc :=
  match m with
  | .func _ => .bar0 o
  | _ => .window ((bar0Addr o).getD 0)
/-- A DAT read at OFFSET o: halves of a 64-bit register as one snapshot (R406). -/
def State.datRead (s : State) (m : Master) (o : Nat) : State :=
  let i := instOf m
  let s := s.dropHeld i
  let x := s.inst i
  let own := (bar0Addr o).any (fun a => addrBlock a == addrBlock (accAddr 0))
  match (bar0Addr o).bind (fun a => locate a false) with
  | some (r, hi) =>
    if own || s.unimplemented m (datLoc m o) false false then (s.refuse m ((bar0Addr o).getD 0) false).setInst i { (s.refuse m ((bar0Addr o).getD 0) false).inst i with latchedHi := none }
    else if hi then
      match x.latchedHi with
      | some h => if h.1 = o then (s.setInst i { x with latchedHi := none }).reply (.value (h.2.zeroExtend 64)) else s.readReg m (datLoc m o) false
      | none => s.readReg m (datLoc m o) false
    else
      let v := s.regShown m ((bar0Addr o).getD 0) r
      let s := s.setInst i { x with latchedHi := if r.wide then some (o + 4, BitVec.ofNat 32 (v / 2 ^ 32)) else none }
      s.readReg m (datLoc m o) false
  | none =>
    let r := s.logAddr (datLoc m o)
    r.2.refuse m r.1 false
/-- A DAT write at OFFSET o: a low half is held for its high half (R406); a write that an armed pair awaits goes to it whole (R396). -/
def State.datWrite (s : State) (m : Master) (o : Nat) (v : Word) : State :=
  let i := instOf m
  let held := (s.inst i).heldLo
  let s := match held with
    | some h => if h.1 + 4 = o then s else s.dropHeld i
    | none => s
  let s := s.setInst i { s.inst i with latchedHi := none, heldLo := none }
  let own := (bar0Addr o).any (fun a => addrBlock a == addrBlock (accAddr 0))
  let one (s : State) : State := s.writeReg { master := m, loc := datLoc m o, value := v.zeroExtend 64 }
  let second := (bar0Addr o).any (fun a => (s.armedIn m (addrBlock a)).any (fun p => p.addr + 8 == a))
  match (bar0Addr o).bind (fun a => locate a false) with
  | some (r, hi) =>
    if own then s.refuse m ((bar0Addr o).getD 0) true
    else if second || !r.wide || s.unimplemented m (datLoc m o) false true then one s
    else if !hi then (s.setInst i { s.inst i with heldLo := some (o, v) }).reply .accepted
    else match held with
      | some h =>
        if h.1 + 4 = o then
          s.writeReg
            { master := m, loc := datLoc m (o - 4), wide := true, value := BitVec.ofNat 64 (h.2.toNat + v.toNat * 2 ^ 32) }
        else one s
      | none => one s
  | none => one s
/-- A DAT access at OFFSET o goes to the low half of a 64-bit register, and is not refused (R405, R407). -/
def State.datLow (s : State) (m : Master) (o : Nat) (write : Bool) : Bool :=
  (bar0Addr o).any (fun a => addrBlock a != addrBlock (accAddr 0) && !s.unimplemented m (datLoc m o) false write &&
    (match locate a false with | some (r, hi) => r.wide && !hi | none => false))
/-- An access of MNT_DAT (R405): the access at OFFSET, then the advance of OFFSET with INC. -/
def State.datAccess (s : State) (m : Master) (write : Bool) (v : Word) : State :=
  let i := instOf m
  let o := (s.inst i).offset
  let low := s.datLow m o write
  let s := if write then s.datWrite m o v else s.datRead m o
  let x := s.inst i
  if x.inc then s.setInst i { x with offset := nextOffset o low } else s
/-- MNT_DAT (R405). -/
def execMntDat (m : Master) (write : Bool) (v : Word) (s : State) : Host.Outcome State Fault Refusal :=
  if write && s.isStandby m then .next (s.reply .dropped)
  else .next (s.gate m (accAddr 8) write (fun s => s.datAccess m write v))

/-- An access reaches MNT_DAT and is admitted. -/
def State.reachesDat (s : State) (x : RegAccess) (write : Bool) : Bool :=
  accReg? x == some (.acc 1) && locFits x.loc x.master && !s.unimplemented x.master x.loc x.wide write && !s.isStandby x.master && !spoiled x
/-- The path of a register write, which at MNT_DAT performs the access (R405). -/
def State.busWrite (s : State) (x : RegAccess) : State :=
  if s.reachesDat x true then s.gate x.master (accAddr 8) true (fun s => s.datAccess x.master true (x.value.truncate 32)) else s.writeReg x
/-- The path of a register read, which at MNT_DAT performs the access (R405). -/
def State.busRead (s : State) (m : Master) (loc : RegLoc) (wide : Bool) : State :=
  if s.reachesDat { master := m, loc := loc, wide := wide, value := 0 } false then s.gate m (accAddr 8) false (fun s => s.datAccess m false 0)
  else s.readReg m loc wide
/-- REGISTER_WRITE (R20, R405). -/
def execRegisterWrite (x : RegAccess) (s : State) : Host.Outcome State Fault Refusal := .next (s.busWrite x)

/-! ## The mailbox (R408, R409, R509) -/

/-- MNT_MBX_REQ. -/
def execMntMbxReq (m : Master) (v : Word) (s : State) : Host.Outcome State Fault Refusal := accWrite s m 0x10 (fun i s => s.writeReq i v.toNat)
/-- MNT_MBX_DONE. -/
def execMntMbxDone (m : Master) (v : Word) (s : State) : Host.Outcome State Fault Refusal := accWrite s m 0x20 (fun i s => s.writeDone i v.toNat)
/-- Sample an open request of one selector: ERR and the words. -/
def sampleSel (s : State) (m : Master) (sel : Nat) (f : Nat → Nat × List Nat) : Host.Outcome State Fault Refusal :=
  let i := instOf m
  let x := s.inst i
  if !x.mbxOpen ∨ x.mbxValid ∨ x.mbxSampled.isSome ∨ x.mbxSel ≠ sel then .next s
  else
    let r := f x.mbxIndex
    .next (s.setInst i { x with mbxSampled := some (r.1, if r.1 = 0 then r.2.map (BitVec.ofNat 64) else []) })
/-- A function reads another's object through the PF, the mint's firmware and management as the PF does. -/
def pfLike (m : Master) : Bool := match m with | .func f => f == 0 | _ => true
/-- Counters through a VF (R485). -/
def mbxC (m : Master) (n : Nat) : Nat := if pfLike m then n else coarsen n
def errIndex : Nat × List Nat := (2, [])
def errUnavail : Nat × List Nat := (3, [])
/-- TILE_COUNTERS_SEL. -/
def execTileCountersSel (m : Master) (s : State) : Host.Outcome State Fault Refusal :=
  sampleSel s m 0x0001 (fun t =>
    let x := s.tile t
    if 32 ≤ t ∨ !(pfLike m || s.owns m (s.tilePart t)) then errIndex
    else if !s.dieReady (t / 8) then errUnavail
    else (0, [mbxC m x.slabActive.toNat, mbxC m x.vecIssue.toNat, mbxC m x.takeCount.toNat]))
/-- VAULT_BW_SEL. -/
def execVaultBwSel (m : Master) (s : State) : Host.Outcome State Fault Refusal :=
  sampleSel s m 0x0002 (fun v =>
    if 2 ≤ v then errIndex
    else if !s.dieReady (8 + v) then errUnavail
    else (0, (List.range 8).map (fun p => if pfLike m || s.owns m p then mbxC m (sget 0 (s.vault v).bwBytes p).toNat else 0)))
/-- PENDING_SEL: two pending words of the view to a word. -/
def execPendingSel (m : Master) (s : State) : Host.Outcome State Fault Refusal :=
  sampleSel s m 0x0003 (fun n =>
    if n ≠ 0 then errIndex
    else (0, (List.range 32).map (fun w => s.pendWord (evcView m) (2 * w) + 2 ^ 32 * s.pendWord (evcView m) (2 * w + 1))))
/-- EXPAND_MAC_SEL. -/
def execExpandMacSel (m : Master) (s : State) : Host.Outcome State Fault Refusal :=
  sampleSel s m 0x0004 (fun h =>
    let mine (u : Nat) : Bool := pfLike m || s.owns m (s.tilePart (8 * h + u))
    if 4 ≤ h ∨ !(List.range 8).any mine then errIndex
    else if !s.dieReady (4 + h) then errUnavail
    else (0, (List.range 8).map (fun u => if mine u then mbxC m (sget 0 (s.hearth h).expMac u).toNat else 0)))
/-- IDENTITY_SEL. -/
def execIdentitySel (m : Master) (s : State) : Host.Outcome State Fault Refusal :=
  sampleSel s m 0x0100 (fun n =>
    if n ≠ 0 then errIndex else (0, (List.range 12).map (fun i => lfld (s.idKeyBytes ++ digestBytes s.boundId) (8 * i) 8)))
/-- SESSION_SLOTS_SEL: the slots of the reading function's partition. -/
def execSessionSlotsSel (m : Master) (s : State) : Host.Outcome State Fault Refusal :=
  sampleSel s m 0x0101 (fun n =>
    match m with
    | .func f => if n ≠ 0 ∨ 8 ≤ s.funcPart f then errIndex else (0, (List.range 16).map (fun k => (s.session (s.funcPart f) k).word.toNat))
    | _ => errIndex)
/-- MGMT_SESSIONS_SEL. -/
def execMgmtSessionsSel (m : Master) (s : State) : Host.Outcome State Fault Refusal :=
  sampleSel s m 0x0102 (fun n =>
    if n ≠ 0 ∨ !isFunc 0 m then errIndex
    else (0, (List.range 4).map (fun k =>
      let x := s.mgmt k
      if x.opened then x.session + 2 ^ 32 * (if x.admin then 2 else 1) else 0)))
/-- A source die of the request is in reset by the time VALID would set. -/
def State.mbxLost (s : State) (x : RegInst) : Bool :=
  match x.mbxSel with
  | 1 => decide (x.mbxIndex < 32) && !s.dieReady (x.mbxIndex / 8)
  | 2 => decide (x.mbxIndex < 2) && !s.dieReady (8 + x.mbxIndex)
  | 4 => decide (x.mbxIndex < 4) && !s.dieReady (4 + x.mbxIndex)
  | _ => false
/-- MAILBOX_VALID: the sampled words are filled and VALID sets (R408, R413). -/
def execMailboxValid (m : Master) (s : State) : Host.Outcome State Fault Refusal :=
  let i := instOf m
  let x := s.inst i
  match x.mbxSampled with
  | none => .next s
  | some r =>
    let r := if r.1 = 0 && s.mbxLost x then (3, []) else r
    let s := s.setInst i { x with mbxSampled := none, mbxValid := true, mbxErr := r.1, mbxData := r.2 }
    .next (if i ≤ 8 then s.occurIf x.mbxValid true (1139 + i) else s)

/-! ## Voting (R403, R404) -/

/-- How a field held in three copies is restored when all differ. -/
inductive Restore
  | reset | reload
  deriving DecidableEq, Repr
/-- The fields held in three copies: RWG fields, fields whose reset is "mould" or "ledger", EN and VECTOR of a route. -/
def Reg.voted (r : Reg) : Option Restore :=
  match r with
  | .mld k => if k = 0 then some .reload else if k = 3 then some .reset else none
  | .mldPart _ | .thmCyc _ _ => some .reload
  | .hrt _ k => if k = 2 then some .reload else none
  | .vmem _ k => if k = 0 then some .reload else if k = 3 then some .reset else none
  | .route _ => some .reset
  | _ => if r.group.isSome then some .reset else none
/-- Give a voted field a value in all its copies, without a write's side effects. -/
def State.setVoted (s : State) (r : Reg) (v : Nat) : State :=
  match r with
  | .mld _ => { s with mould := { s.mould with scrubRate := v % 256 } }
  | .vmem n _ => s.setVault n { s.vault n with patrolPeriod := v % 256, patrolOff := bit v 8 }
  | .efk e _ => s.setPortEnd e { s.portEnd e with en := bit v 0 }
  | .flt _ => { s with faults := { s.faults with hold := bit v 0 } }
  | .fence _ => { s with faults := { s.faults with fenceKind := bits v 0 2, fenceUnf := bit v 2, fenceIndex := bits v 3 6 } }
  | .inject => { s with faults := { s.faults with injSource := bits v 0 9, injClass := bits v 9 2 } }
  | .pwr _ => { s with power := { s.power with capW := v % 4096 } }
  | .route src => s.setRoute src { s.route src with vector := v % 256, en := bit v 8 }
  | _ => s
/-- The value that all copies of a "mould" or "ledger" field hold: what the mould or the Ledger gives, or another one shown in its place. -/
def State.setShown (s : State) (a : Nat) (r : Reg) (v : Nat) : State :=
  { s with reg := { s.reg with voted := sset none s.reg.voted a (if v = s.regValue .mint r then none else some (BitVec.ofNat 64 v)) } }
/-- The reset value of a voted field. -/
def Reg.resetValue (r : Reg) : Nat :=
  match r with
  | .mld _ => 0x40 | .vmem _ _ => 0x18 | .efk _ _ => 1 | _ => 0
/-- The bits of a register that are voted. -/
def Reg.votedBits (r : Reg) (v : Nat) : Nat := match r with | .route _ => v % 512 | _ => v
/-- VOTE_COMPARE: the three copies a field holds once a millisecond.  One that differs is rewritten (source 299); when all
differ, source 300 is raised and the field is restored (R404): a "mould" or "ledger" field is reloaded. -/
def execVoteCompare (field : VotedField) (a b c : DWord) (s : State) : Host.Outcome State Fault Refusal :=
  match regAt field.addr with
  | none => .next s
  | some r => match r.voted with
    | none => .next s
    | some how =>
      if !s.dieReady (addrDie field.addr) then .next s
      else if a = b ∧ b = c then .next s
      else if a = b ∨ b = c ∨ a = c then
        let v := r.votedBits (if a = b ∨ a = c then a else b).toNat
        .next ((if how = .reset then s.setVoted r v else s.setShown field.addr r v).raise { source := 299, addr := field.addr })
      else
        let s := s.raise { source := 300, addr := field.addr }
        if how = .reset then .next (s.setVoted r r.resetValue)
        else .next { s with reg := { s.reg with reloads := s.reg.reloads ++ [field], voted := sset none s.reg.voted field.addr none } }
/-- VOTE_RELOAD: a field under reload takes the value of the running mould or of the Ledger summary (R404), which is what its
reads have returned meanwhile. -/
def execVoteReload (field : VotedField) (s : State) : Host.Outcome State Fault Refusal :=
  .next { s with reg := { s.reg with reloads := s.reg.reloads.erase field } }

end Sys2Proof.Machine
end

