-- ==== Sys2Proof/Machine/Management.lean ====
section
/-! DEFINITION.  Management messages (R500-R504): how a message is admitted, the replies, and one meaning per message that
chapter 16 defines.  A message body is given as the peer's plaintext (log entry 4). -/
namespace Sys2Proof.Machine
open Sys2Proof

/-! ## Replies (R501, R504) -/

/-- The slot of an open session. -/
def State.peerOf (s : State) (session : Nat) : Option Nat := (List.range 4).find? (fun n => (s.mgmt n).opened && (s.mgmt n).session == session)
/-- The header of a reply. -/
def MgmtReply.header (r : MgmtReply) : List Byte :=
  [1, BitVec.ofNat 8 r.typ] ++ toLE 2 r.body.length ++ toLE 4 r.session ++ toLE 8 r.seq ++ List.replicate 16 0
/-- The UDP payload of a reply to a message TYPE: in a session the body goes out as SM4-GCM ciphertext with its tag, the header as
additional data and the nonce of the module's direction; DISCOVER, IDENTITY_GET and the key exchange are outside a session (R501, R503). -/
def State.datagram (s : State) (typ : Nat) (r : MgmtReply) : List Byte :=
  match if typ < 0x10 then none else s.peerOf r.session with
  | none => r.header ++ r.body
  | some n =>
    let key := Config.mgmtKey (s.mgmt n).km
    let nonce := toLE 8 r.seq ++ toLE 4 1
    let c := gcmData key nonce r.body
    r.header ++ c ++ gcmTag key nonce r.header c
/-- A reply to a message TYPE goes out. -/
def State.sendReply (s : State) (typ : Nat) (r : MgmtReply) : State :=
  { s with sec := { s.sec with replies := s.sec.replies ++ [r], wire := s.sec.wire ++ [s.datagram typ r] } }
/-- TYPE | 0x80, with SEQ echoed. -/
def State.send (s : State) (h : MsgHdr) (typ : Nat) (body : List Byte) : State :=
  s.sendReply typ { typ := typ + 0x80, session := h.session, seq := h.seq, body := body }
/-- The error reply of a message TYPE; LAST_CODE takes its code (R508). -/
def State.sendErr (s : State) (h : MsgHdr) (typ code : Nat) (own : List Byte) : State :=
  (s.ohmErr 3 code 8).sendReply typ { typ := 0xFF, session := h.session, seq := h.seq, body := [BitVec.ofNat 8 code, BitVec.ofNat 8 typ] ++ own }
/-- REFUSED, with the operation's own code. -/
def State.sendRefused (s : State) (h : MsgHdr) (typ code : Nat) : State := s.sendErr h typ 0x07 [BitVec.ofNat 8 code]
/-- A management authentication failed: MGMT of OHM_ERR, and source 405 (R505, R508). -/
def State.authFailed (s : State) : State := { s with sec := { s.sec with errMgmt := true } }.raise { source := 405 }
/-- A replay, or a message beyond a rate limit (R505). -/
def State.replayed (s : State) : State := s.raise { source := 406 }

/-! ## Admission (R501, R502) -/

/-- The management firmware answers: the module has fired, or stopped for want of a mould (R64). -/
def State.mgmtLive (s : State) : Bool := (s.mould.fired || s.faults.mouldsFailed) && s.links.rootLock
/-- It takes commands: no ACTIVATE pause holds them back (R526). -/
def State.mgmtUp (s : State) : Bool := s.mgmtLive && !s.update.holding
/-- A session ends, with the report kept for it. -/
def State.closePeer (s : State) (n : Nat) : State :=
  let s := s.setMgmt n {}
  { s with sec := { s.sec with hallmarks := sset none s.sec.hallmarks n none } }

/-- A message of no session: beyond the rate limit it is dropped; a bad length or field gets FORMAT. -/
def openMsg (typ : Nat) (h : MsgHdr) (fmt : Bool) (s : State) (k : State → State) : State :=
  if h.excess then s.replayed else if !fmt then s.sendErr h typ 0x04 [] else k s
/-- A message in a session: SESSION, the tag, SEQ, the role, the form, in this order; `k` has the session's slot. -/
def sessionMsg (typ : Nat) (admin : Bool) (h : MsgHdr) (fmt : Bool) (s : State) (k : Nat → State → State) : State :=
  match s.peerOf h.session with
  | none => s.sendErr h typ 0x03 []
  | some n =>
    let x := s.mgmt n
    if !h.tagOk then s.authFailed
    else if h.seq < x.seqIn then s.replayed
    else
      let s := s.setMgmt n { x with seqIn := h.seq + 1 }
      if admin && !x.admin then s.sendErr h typ 0x02 [] else if !fmt then s.sendErr h typ 0x04 [] else k n s
/-- A row of a message that the firmware takes. -/
def msgRow (s : State) (k : State → State) : Host.Outcome State Fault Refusal := if s.mgmtUp then .next (k s) else .next s

/-! ## Messages without a session -/

/-- DISCOVER: MAC, BOUND_ID, FIRING; in recovery the ROM answers it (R503, R512). -/
def execDiscover (h : MsgHdr) (body : List Byte) (s : State) : Host.Outcome State Fault Refusal :=
  if s.mgmtUp || s.update.recovery then
    .next (openMsg 0x01 h body.isEmpty s (fun s =>
      s.send h 0x01 (toLE 6 Config.mgmtMac.toNat ++ digestBytes s.boundId ++ toLE 4 s.ledger.firingCount)))
  else .next s

/-- IDENTITY_GET: a piece of the identity certificate (R487, R503). -/
def execIdentityGet (h : MsgHdr) (body : List Byte) (s : State) : Host.Outcome State Fault Refusal :=
  msgRow s (fun s => openMsg 0x02 h (body.length == 2) s (fun s =>
    s.send h 0x02 ((identityCert.drop (1024 * lfld body 0 2)).take 1024)))

/-- Byte 136 on of KEX_INIT is the credential (R502). -/
def credentialId (body : List Byte) : Nat := lfld body 136 8
/-- KEX_INIT: signer certificate, credential, R_A.  `certOk`: both signatures verify; whether the credential's key and R_A are points of
the curve follows from them (R490, R502). -/
def execKexInit (h : MsgHdr) (body : List Byte) (certOk : Bool) (s : State) : Host.Outcome State Fault Refusal :=
  msgRow s (fun s =>
    let role := lfld body 208 1
    let fmt := body.length == 344 && (role == 1 || role == 2) && lzero body 209 7
    openMsg 0x03 h fmt s (fun s =>
      match (List.range 4).find? (fun n => !(s.mgmt n).opened && !(s.mgmt n).opening) with
      | none => s.sendErr h 0x03 0x05 []
      | some n =>
        let id := credentialId body
        if !s.sec.trngOk then s.sendRefused h 0x03 0x54
        else if !s.sec.identityOk then s.sendRefused h 0x03 0x55
        else if !certOk || (s.slot s.update.runningB).revoked.contains id then s.authFailed.sendRefused h 0x03 0x54
        else match kexPoint ((body.drop 144).take 64) (body.drop 280) with
        | none => s.authFailed.sendRefused h 0x03 0x54
        | some pt =>
          let e := s.kex ((body.drop 144).take 64) (body.drop 280) pt
          let x : MgmtSession := { opening := true, session := s.sec.nextMgmt, admin := role == 2, credential := id, km := e.key, confirm := e.confirm }
          let s := { s with free := s.free + 4, sec := { s.sec with nextMgmt := s.sec.nextMgmt + 1 } }
          (s.setMgmt n x).send h 0x03 (toLE 4 x.session ++ e.reply)))
/-- KEX_CONFIRM: a correct S_A opens the session that the header names, an incorrect one frees its slot; the row's operand is not
read. -/
def execKexConfirm (h : MsgHdr) (body : List Byte) (_confirmOk : Bool) (s : State) : Host.Outcome State Fault Refusal :=
  msgRow s (fun s => openMsg 0x04 h (body.length == 32) s (fun s =>
    match (List.range 4).find? (fun n => (s.mgmt n).opening && (s.mgmt n).session == h.session) with
    | none => s.sendErr h 0x04 0x03 []
    | some n =>
      if lfld body 0 32 = (s.mgmt n).confirm.toNat then (s.setMgmt n { s.mgmt n with opened := true, opening := false }).send h 0x04 []
      else (s.closePeer n).authFailed.sendRefused h 0x04 0x54))

/-! ## Register accesses (R503) -/

/-- Form of the address and width that REG_READ and REG_WRITE share. -/
def regForm (body : List Byte) : Bool := lfld body 8 1 == 32 || lfld body 8 1 == 64
/-- REG_READ: one access by the peer as a master. -/
def execRegRead (h : MsgHdr) (body : List Byte) (s : State) : Host.Outcome State Fault Refusal :=
  msgRow s (fun s => sessionMsg 0x10 false h (body.length == 9 && regForm body) s (fun n s =>
    let wide := lfld body 8 1 == 64
    let s := s.busRead (.peer n) (.window (lfld body 0 8)) wide
    match s.reg.reply with
    | .value v => s.send h 0x10 (toLE (if wide then 8 else 4) v.toNat)
    | _ => s.sendErr h 0x10 0x01 []))
/-- REG_WRITE: one write, the two of a pair, or the two of a dual write; UNIMPL where one is refused under R402. -/
def execRegWrite (h : MsgHdr) (body : List Byte) (s : State) : Host.Outcome State Fault Refusal :=
  let opts := lfld body 24 1
  msgRow s (fun s => sessionMsg 0x11 true h (body.length == 25 && regForm body && decide (opts < 3)) s (fun n s =>
    let wide := lfld body 8 1 == 64
    let a := lfld body 0 8
    let v : DWord := BitVec.ofNat 64 (lfld body 16 8)
    let write (s : State) (a : Nat) (v : DWord) : State := s.busWrite { master := .peer n, loc := .window a, wide := wide, value := v }
    let bad (s : State) : Bool := s.reg.reply == .errorReply
    let s1 := write s a v
    let s2 := if opts = 1 then write s1 (a + 8) (complement v wide) else if opts = 2 then write s1 a v else s1
    if bad s1 || bad s2 then s2.sendErr h 0x11 0x01 [] else s2.send h 0x11 []))

/-! ## Hallmark, cap, test token, staging -/

/-- The report kept for a management session with this NONCE and SCOPE. -/
def State.keptReport (s : State) (n : Nat) (nonce : BitVec 256) (scope : Nat) : Option (List Byte) :=
  match sget none s.sec.hallmarks n with
  | some r => if r.1 = nonce ∧ r.2.1 = scope then some r.2.2 else none
  | none => none
/-- HALLMARK_GET: a new NONCE or SCOPE makes a report, which waits from Fence to Grant; a piece of it is the reply (R503, R506). -/
def execHallmarkGet (h : MsgHdr) (body : List Byte) (s : State) : Host.Outcome State Fault Refusal :=
  let nonce : BitVec 256 := BitVec.ofNat 256 (lfld body 0 32)
  let scope := lfld body 32 1
  let piece (l : List Byte) : List Byte := (l.drop (1024 * lfld body 33 2)).take 1024
  let asks := match s.peerOf h.session with
    | some n => h.tagOk && decide ((s.mgmt n).seqIn ≤ h.seq) && body.length == 35 && decide (scope ≤ 8) && (s.keptReport n nonce scope).isNone
    | none => false
  if s.hallWaits && asks then .next s
  else msgRow s (fun s => sessionMsg 0x12 false h (body.length == 35 && decide (scope ≤ 8)) s (fun n s =>
    let fresh (s : State) : State :=
      if !s.sec.identityOk then s.sendRefused h 0x12 0x55
      else
        let r := s.hallmark (body.take 32) scope
        let s := s.hallTaken
        ({ s with sec := { s.sec with hallmarks := sset none s.sec.hallmarks n (some (nonce, scope, r)) } } : State).send h 0x12 (piece r)
    match s.keptReport n nonce scope with
    | some r => s.send h 0x12 (piece r)
    | none => fresh s))

/-- POWER_CAP: a cap of up to 4,095 W as PWR_CAP holds; it is taken in a pause too, and applies when that ends (R465, R479). -/
def execPowerCap (h : MsgHdr) (body : List Byte) (s : State) : Host.Outcome State Fault Refusal :=
  if !s.mgmtLive then .next s
  else .next (sessionMsg 0x13 true h (body.length == 2 && decide (lfld body 0 2 < 4096)) s (fun _ s =>
    (s.setCap (lfld body 0 2) 10).send h 0x13 []))

/-- TEST_TOKEN: BOUND_ID, the firing count, zero bytes and the signature, with TEST_EN asserted (R437); a refusal's own code
is free (log entry 3). -/
def execTestToken (h : MsgHdr) (body : List Byte) (sigOk : Bool) (s : State) : Host.Outcome State Fault Refusal :=
  msgRow s (fun s => sessionMsg 0x14 true h (body.length == 128) s (fun _ s =>
    let good := lfld body 0 32 == s.boundId.toNat && lfld body 32 4 == s.ledger.firingCount && lzero body 36 28 && sigOk && s.testEn
    if good then s.enterTest.send h 0x14 []
    else
      let r := s.takeFree
      (r.2.raise { source := 407 }).sendRefused h 0x14 (r.1.toNat % 256)))

/-- Bytes put into a staging area. -/
def stageBytes (m : Store Byte) (a : Nat) : List Byte → Store Byte
  | [] => m
  | b :: r => stageBytes (sset 0 m a b) (a + 1) r
/-- BLOCK_PUT: up to 1,024 bytes at a multiple of 1,024 of the 64 KiB staging area. -/
def execBlockPut (h : MsgHdr) (body : List Byte) (s : State) : Host.Outcome State Fault Refusal :=
  let o := lfld body 0 2
  msgRow s (fun s => sessionMsg 0x15 true h (decide (2 ≤ body.length) && decide (body.length ≤ 1026) && decide (o < 64)) s (fun _ s =>
    ({ s with sec := { s.sec with blockStage := stageBytes s.sec.blockStage (1024 * o) (body.drop 2) } } : State).send h 0x15 []))

/-! ## Long operations (R66, R69, R378, R503) -/

/-- The peer of a session: its credential (R378). -/
def State.peerOrigin (s : State) (n : Nat) : Origin := .peer (s.mgmt n).credential
/-- The first bytes of the staging area. -/
def State.staged (s : State) (n : Nat) : List Byte := (List.range n).map (fun i => sget 0 s.sec.blockStage i)
/-- AMEND and MOULD_INSTALL on the staged image: HANDLES_FULL, BUSY while one runs, the operation's refusal, or its handle. -/
def stagedImage (typ : Nat) (kind : OpKind) (h : MsgHdr) (body : List Byte) (s : State) (running : State → Bool)
    (start : Nat → List Byte → State → State) : Host.Outcome State Fault Refusal :=
  msgRow s (fun s => sessionMsg typ true h (body.length == 4 && decide (lfld body 0 4 ≤ 65536)) s (fun n s =>
    let o := s.peerOrigin n
    if 4 ≤ s.openHandles o then s.sendErr h typ 0x06 []
    else if running s then s.sendErr h typ 0x05 []
    else
      let r := s.newHandle { origin := o, kind := kind, part := 8 }
      let s := start r.1 (s.staged (lfld body 0 4)) r.2
      if ((s.op? r.1).map (·.state)) = some .done then
        ({ s with host := { s.host with handles := s.host.handles.filter (fun e => e.1 ≠ r.1) } } : State).sendRefused h typ s.mould.lastErr
      else s.send h typ (toLE 4 r.1)))
/-- AMEND. -/
def execAmendMsg (h : MsgHdr) (body : List Byte) (v : Verdict) (s : State) : Host.Outcome State Fault Refusal :=
  stagedImage 0x16 .amend h body s (fun s => s.mould.amend.isSome) (fun k b s => s.startAmend k b false v)
/-- MOULD_INSTALL. -/
def execMouldInstallMsg (h : MsgHdr) (body : List Byte) (v : Verdict) (s : State) : Host.Outcome State Fault Refusal :=
  stagedImage 0x1B .mouldInstall h body s (fun s => s.mould.install.isSome) (fun k b s => s.startInstall k b false v)

/-- A handle that a peer may operate on: its own, or that of a forwarded apply for any ADMIN (R503, R519). -/
def State.peerOwns (s : State) (n h : Nat) : Bool :=
  (match s.op? h with | some o => decide (o.origin = s.peerOrigin n) | none => false) ||
    ((s.mgmt n).admin && s.update.forwarded && h == s.update.applyHandle && (s.op? h).isSome)
/-- OP: state and progress, or suspend, resume, cancel; the codes are those of a host command (R379). -/
def execOp (h : MsgHdr) (body : List Byte) (s : State) : Host.Outcome State Fault Refusal :=
  let k := lfld body 0 4
  let what := lfld body 4 1
  msgRow s (fun s => sessionMsg 0x17 false h (body.length == 5 && decide (what < 4)) s (fun n s =>
    if !s.peerOwns n k then s.sendRefused h 0x17 0x04
    else if what = 0 then
      match s.op? k with
      | some o => let p := s.opProgress o; p.2.send h 0x17 (toLE 4 (opCode o.state) ++ toLE 4 p.1)
      | none => s
    else
      let r := if what = 1 then s.pauseOp k true else if what = 2 then s.pauseOp k false else s.cancelOp k
      if r.1 = 0 then r.2.send h 0x17 [] else r.2.sendRefused h 0x17 r.1))

/-! ## FAULT_ACK, settings, CLOSE -/

/-- FAULT_ACK (R430). -/
def execFaultAck (h : MsgHdr) (body : List Byte) (s : State) : Host.Outcome State Fault Refusal :=
  msgRow s (fun s => sessionMsg 0x18 true h (body.length == 4) s (fun n s => (s.ackFault (.peer n) (lfld body 0 4)).send h 0x18 []))

/-- A change of settings: in the running slot, and from ACTIVATE to CONFIRM or REVERT in both (R521). -/
def State.settings (s : State) (f : Slot → Slot) : State :=
  let b := s.update.runningB
  let s' := s.setSlot b (f (s.slot b))
  match s.update.phase with
  | .preparing | .holding | .trial => s'.setSlot (!b) (f (s'.slot (!b)))
  | _ => s'
/-- SET_ADDR (R500). -/
def execSetAddr (h : MsgHdr) (body : List Byte) (s : State) : Host.Outcome State Fault Refusal :=
  let v := lfld body 0 1
  let n := lfld body 17 1
  let fmt := body.length == 18 && ((v == 4 && decide (n ≤ 32)) || (v == 6 && decide (n ≤ 128)))
  msgRow s (fun s => sessionMsg 0x19 true h fmt s (fun _ s =>
    (s.settings (fun x => { x with mgmtAddr := some (v, BitVec.ofNat 128 (lfld body 1 16), n) })).send h 0x19 []))
/-- REVOKE: the list holds up to 64 IDs (R502); a full list refuses with a code that is free (log entry 3). -/
def execRevoke (h : MsgHdr) (body : List Byte) (s : State) : Host.Outcome State Fault Refusal :=
  let id := lfld body 0 8
  msgRow s (fun s => sessionMsg 0x1A true h (body.length == 8) s (fun _ s =>
    let l := (s.slot s.update.runningB).revoked
    if l.contains id then s.send h 0x1A []
    else if 64 ≤ l.length then (let r := s.takeFree; r.2.sendRefused h 0x1A (r.1.toNat % 256))
    else (s.settings (fun x => { x with revoked := if x.revoked.contains id then x.revoked else (x.revoked ++ [id]).take 64 })).send h 0x1A []))
/-- CLOSE. -/
def execClose (h : MsgHdr) (body : List Byte) (s : State) : Host.Outcome State Fault Refusal :=
  msgRow s (fun s => sessionMsg 0x1F false h body.isEmpty s (fun n s => (s.send h 0x1F []).closePeer n))
/-- MGMT_SESSION_IDLE: 60 s without a valid message close a session (R502). -/
def execMgmtSessionIdle (n : Nat) (s : State) : Host.Outcome State Fault Refusal :=
  if n < 4 ∧ ((s.mgmt n).opened ∨ (s.mgmt n).opening) then .next (s.closePeer n) else .next s

end Sys2Proof.Machine
end

