-- ==== Sys2Proof/Machine/Update.lean ====
section
/-! DEFINITION.  Field update (R514-R529): deltas and their checks, the reception and the apply, forwarding down a chain,
activation by hold and switch, confirmation and reversion; one meaning per row. -/
namespace Sys2Proof.Machine
open Sys2Proof

/-! ## Slots and records (R515, R527) -/

/-- The slot that is not running. -/
def UpdateState.otherB (u : UpdateState) : Bool := !u.runningB
/-- PHASE at rest: staged while the other slot is. -/
def State.restPhase (s : State) : FwPhase := if (s.slot s.update.otherB).state = .staged then .staged else .idle
/-- A FIRMWARE record. -/
def State.noteFirmware (s : State) (event : Nat) (b : Bool) (version code : Nat) : State :=
  s.note 0x0A (toLE 1 event ++ toLE 1 (b2n b) ++ toLE 4 version ++ toLE 1 code)
/-- A code of R517 is shown. -/
def State.fwErr (s : State) (code : Nat) : State := { s with update := { s.update with lastErr := code } }
/-- The reception or apply is over: nothing is left of the delta. -/
def State.dropDelta (s : State) : State :=
  let s := { s with update := { s.update with staging := [], deltaLen := 0, forwarded := false, chain := [], applyHandle := 0, applyDelta := none } }
  { s with update := { s.update with phase := s.restPhase } }

/-! ## Deltas (R516, R517) -/

/-- An operation of a delta: a range of the base, or of the delta itself. -/
inductive DeltaOp
  | copy (ofs len : Nat)
  | insert (ofs len : Nat)
  deriving DecidableEq, Repr

/-- A field of the delta in the staging area. -/
def State.deltaFld (s : State) (o n : Nat) : Nat := leNat ((List.range n).map (fun i => sget 0 s.update.staging (o + i)))
/-- `count` operations from offset `o`, which must fill the bytes up to `stop`. -/
def State.deltaOps (s : State) : Nat → Nat → Nat → Option (List DeltaOp)
  | 0, o, stop => if o = stop then some [] else none
  | count + 1, o, stop =>
    let kind := s.deltaFld o 1
    let len := s.deltaFld (o + 4) 4
    let next := if kind = 1 then o + 16 else o + 8 + roundUp len 8
    if stop < next ∨ s.deltaFld (o + 1) 3 ≠ 0 ∨ (kind ≠ 1 ∧ kind ≠ 2) ∨ (kind = 1 ∧ s.deltaFld (o + 12) 4 ≠ 0) then none
    else
      let op := if kind = 1 then DeltaOp.copy (s.deltaFld (o + 8) 4) len else DeltaOp.insert (o + 8) len
      (s.deltaOps count next stop).map (op :: ·)
/-- Bytes that an operation writes. -/
def DeltaOp.len : DeltaOp → Nat
  | .copy _ n => n
  | .insert _ n => n
/-- The COPY ranges lie within a base of n bytes. -/
def DeltaOp.inBase (n : Nat) : DeltaOp → Bool
  | .copy o k => decide (o + k ≤ n)
  | .insert _ _ => true
/-- The header. -/
def State.deltaHeader (s : State) : Delta :=
  let f := s.deltaFld
  { version := f 8 4, baseVersion := f 12 4, baseDigest := BitVec.ofNat 256 (f 16 32), targetDigest := BitVec.ofNat 256 (f 48 32),
    targetLen := f 80 4, rollbackOk := bit (f 6 2) 0, settingsOld := f 88 2, settingsNew := f 90 2, opCount := f 84 4 }
/-- Bytes of the running image; in recovery there is none. -/
def State.baseImage (s : State) : List Byte := if s.update.recovery then [] else (s.slot s.update.runningB).image
/-- Check 1: the header, and the operations, whose lengths make up TARGET_LEN. -/
def State.deltaForm (s : State) : Option (Delta × List DeltaOp) :=
  let f := s.deltaFld
  let n := s.update.deltaLen
  let d := s.deltaHeader
  if n < 224 ∨ f 0 4 ≠ 0x544C4446 ∨ f 4 2 ≠ 1 ∨ 2 ≤ f 6 2 ∨ f 92 36 ≠ 0 ∨ 0x4000000 < d.targetLen then none
  else match s.deltaOps d.opCount 128 (n - 96) with
  | some l => if l.all (DeltaOp.inBase s.baseImage.length) && (l.map DeltaOp.len).sum == d.targetLen then some (d, l) else none
  | none => none
/-- The bytes received. -/
def State.deltaBytes (s : State) : List Byte := (List.range s.update.deltaLen).map (fun i => sget 0 s.update.staging i)
/-- Checks 1 to 6 (R517): the first code that fails, or the header. -/
def State.checkDelta (s : State) (sigOk : Bool) : Except Nat Delta :=
  match s.deltaForm with
  | none => .error 0x01
  | some r =>
    let d := r.1
    let run := s.slot s.update.runningB
    if !trailerHolds s.deltaBytes then .error 0x02
    else if !sigOk then .error 0x03
    else if d.baseDigest ≠ 0 ∧ (s.update.recovery ∨ d.baseDigest ≠ run.imageDigest) then .error 0x04
    else if d.version ≤ s.update.highestConfirmed ∧ !d.rollbackOk then .error 0x05
    else if !s.update.recovery ∧ d.settingsOld ≠ run.settingsFormat then .error 0x06
    else .ok d
/-- The target image. -/
def State.targetImage (s : State) : List Byte :=
  match s.deltaForm with
  | some r => r.2.flatMap (fun o => match o with
    | .copy a n => (s.baseImage.drop a).take n
    | .insert a n => (List.range n).map (fun i => sget 0 s.update.staging (a + i)))
  | none => []

/-! ## Reception (R518, R520) -/

/-- The delta goes on to the first module of the chain, with session 0 (R520). -/
def State.forwardDelta (s : State) : State :=
  match s.update.chain with
  | [] => s
  | a :: rest =>
    let n := s.update.deltaLen
    let begin_ := toLE 4 n ++ toLE 1 1 ++ toLE 1 rest.length ++ List.replicate 10 0 ++ rest.flatMap (fun x => toLE 16 x.toNat)
    let puts := (List.range ((n + 1023) / 1024)).map (fun k =>
      (a, 0x21, toLE 4 (1024 * k) ++ (List.range (min 1024 (n - 1024 * k))).map (fun i => sget 0 s.update.staging (1024 * k + i))))
    { s with update := { s.update with forwardedOut := s.update.forwardedOut ++ [(a, 0x20, begin_)] ++ puts ++ [(a, 0x22, [])] } }

/-- How an update message is admitted: in a session by an ADMIN; with SESSION 0 where `open0` says so (forwarded, or in
recovery).  From the downstream port FW_BEGIN and what is forwarded are dropped with source 406 (R526). -/
def fwMsg (typ : Nat) (h : MsgHdr) (fmt open0 : Bool) (s : State) (k : Option Nat → State → State) : Host.Outcome State Fault Refusal :=
  if s.update.recovery then (if h.session = 0 then .next (openMsg typ h fmt s (k none)) else .next s)
  else if !s.mgmtUp then .next s
  else if !h.upstream ∧ (typ = 0x20 ∨ h.session = 0) then .next s.replayed
  else if h.session = 0 ∧ open0 then .next (openMsg typ h fmt s (k none))
  else .next (sessionMsg typ true h fmt s (fun n s => k (some n) s))
/-- A command refused with a code of R517. -/
def State.fwRefused (s : State) (h : MsgHdr) (typ code : Nat) : State := (s.fwErr code).sendRefused h typ code

/-- A delta, a trial, an activation or an installation bars the command (R517). -/
def State.fwBusy (s : State) : Bool :=
  s.update.phase == .receiving || s.update.phase == .applying || s.activating || s.update.slotA.state == .trial || s.update.slotB.state == .trial ||
    s.mould.install.isSome
/-- FW_BEGIN. -/
def execFwBegin (h : MsgHdr) (body : List Byte) (s : State) : Host.Outcome State Fault Refusal :=
  let n := lfld body 5 1
  let fwd := bit (lfld body 4 1) 0
  let fmt := decide (n ≤ 15) && body.length == 16 + 16 * n && decide (lfld body 4 1 < 2) && lzero body 6 10 && decide (lfld body 0 4 ≤ 0x2000000)
  fwMsg 0x20 h fmt fwd s (fun _ s =>
    if s.fwBusy then s.fwRefused h 0x20 0x09
    else
      ({ s with update := { s.update with
        phase := .receiving, staging := [], deltaLen := lfld body 0 4, forwarded := fwd
        chain := (List.range n).map (fun i => BitVec.ofNat 128 (lfld body (16 + 16 * i) 16)) } } : State).send h 0x20 [])
/-- FW_PUT. -/
def execFwPut (h : MsgHdr) (body : List Byte) (s : State) : Host.Outcome State Fault Refusal :=
  let o := lfld body 0 4
  let fmt := decide (4 ≤ body.length) && decide (body.length ≤ 1028) && decide (o + (body.length - 4) ≤ s.update.deltaLen)
  fwMsg 0x21 h fmt s.update.forwarded s (fun _ s =>
    if s.update.phase ≠ .receiving then s.fwRefused h 0x21 0x0B
    else ({ s with update := { s.update with staging := stageBytes s.update.staging o (body.drop 4) } } : State).send h 0x21 [])
/-- FW_RECEPTION_TIMEOUT (R518). -/
def execFwReceptionTimeout (s : State) : Host.Outcome State Fault Refusal :=
  if s.update.phase = .receiving then .next s.dropDelta else .next s

/-! ## The apply (R519) -/

/-- The peer number of a forwarded apply's handle: no credential bears it. -/
def forwardedPeer : Nat := 2 ^ 64
/-- FW_END: checks 1 to 6, then the apply begins and the delta is forwarded; a refused delta is discarded and noted.  The digest follows
from the bytes, and the row's operand for it is not read. -/
def execFwEnd (h : MsgHdr) (body : List Byte) (_digestOk sigOk : Bool) (s : State) : Host.Outcome State Fault Refusal :=
  fwMsg 0x22 h body.isEmpty s.update.forwarded s (fun n s =>
    let o : Origin := match n with | some n => s.peerOrigin n | none => .peer forwardedPeer
    let b := s.update.otherB
    if s.update.phase ≠ .receiving then s.fwRefused h 0x22 0x0B
    else if 4 ≤ s.openHandles o then s.sendErr h 0x22 0x06 []
    else match s.checkDelta sigOk with
    | .error c => (s.noteFirmware 6 b s.deltaHeader.version c).dropDelta.fwRefused h 0x22 c
    | .ok d =>
      let r := s.forwardDelta.newHandle { origin := o, kind := .fwApply, part := 8 }
      let s := r.2.setSlot b ((r.2.slot b).enter .empty)
      ({ s with update := { s.update with phase := .applying, applyHandle := r.1, applyDelta := some d } } : State).send h 0x22 (toLE 4 r.1))

/-- The apply fails with a code: the other slot is EMPTY (R517). -/
def State.applyFailed (s : State) (d : Delta) (code : Nat) : State :=
  let h := s.update.applyHandle
  (((s.dropApply.noteFirmware 6 s.update.otherB d.version code).endHandle h .done 0 0).fwErr code)
/-- FW_APPLY_DONE: the target, the running slot's mould, log, checkpoints and settings are in the other slot, which is STAGED;
a target that is not TARGET_DIGEST's or whose own trailer does not verify (the operand), or a flash failure, leaves it EMPTY.  In recovery nothing runs that could be copied. -/
def execFwApplyDone (targetOk flashOk : Bool) (components : List (BitVec 256)) (s : State) : Host.Outcome State Fault Refusal :=
  match s.update.applyDelta, s.op? s.update.applyHandle with
  | some d, some o =>
    if s.update.phase ≠ .applying ∨ o.state ≠ .running ∨ s.islands.noneActive then .next s
    else if !flashOk then .next ((s.applyFailed d 0x08).raise { source := 408 })
    else if !targetOk || sm3 s.targetImage != d.targetDigest then .next (s.applyFailed d 0x07)
    else
      let b := s.update.otherB
      let x := s.slot b
      let run := if s.update.recovery then x else s.slot s.update.runningB
      let y := { x with
        version := d.version, imageDigest := d.targetDigest, settingsFormat := d.settingsNew, confirmWindow := 0, image := s.targetImage
        components := components, mould := run.mould, amendLog := run.amendLog, checkA := run.checkA, checkB := run.checkB, newestB := run.newestB
        mgmtAddr := run.mgmtAddr, revoked := run.revoked }
      let h := s.update.applyHandle
      .next (((s.setSlot b (y.enter .staged)).dropDelta.noteFirmware 1 b d.version 0).endHandle h .done 0 0)
  | _, _ => .next s
/-- RECOVERY_IMAGE_WRITTEN: the module fires again from the image written in recovery (R512). -/
def execRecoveryImageWritten (s : State) : Host.Outcome State Fault Refusal :=
  if s.update.recovery ∧ s.update.phase = .staged then .next { s with links := { s.links with firingDue := some .recovery } } else .next s

/-! ## FW_STATUS -/

/-- STATE codes of a slot header (R515). -/
def slotCode : SlotState → Nat
  | .empty => 0 | .staged => 1 | .trial => 2 | .valid => 3 | .retired => 4
/-- FW_STATUS (R518); the progress of a running apply is free (log entry 3). -/
def execFwStatus (h : MsgHdr) (body : List Byte) (s : State) : Host.Outcome State Fault Refusal :=
  msgRow s (fun s => sessionMsg 0x23 false h body.isEmpty s (fun _ s =>
    let u := s.update
    let p : Nat × State := match s.op? u.applyHandle with | some o => s.opProgress o | none => (0, s)
    p.2.send h 0x23 (toLE 1 (b2n u.runningB) ++ toLE 1 (slotCode u.slotA.state) ++ toLE 1 (slotCode u.slotB.state) ++ toLE 1 (phaseCode u.phase) ++
      toLE 4 u.slotA.version ++ toLE 4 u.slotB.version ++ toLE 4 u.applyHandle ++ toLE 2 p.1 ++ toLE 1 u.lastErr ++ [0])))

/-! ## Activation (R522-R525) -/

/-- The first hold of an activation or reversion begins. -/
def State.startHold (s : State) (b revert : Bool) : State :=
  { s with update := { s.update with phase := .holding, targetB := b, reverting := revert, attempts := 1, holdBegun := true, holding := false } }
/-- ACTIVATE: the STAGED image verifies and its slot is TRIAL, with service running on; the first hold follows.  The reply waits until
dispatch resumes.  An image that does not verify is refused with TARGET_BAD, for which R522 gives no code (log entry 54). -/
def execActivate (h : MsgHdr) (body : List Byte) (imageOk : Bool) (s : State) : Host.Outcome State Fault Refusal :=
  msgRow s (fun s => sessionMsg 0x24 true h (body.length == 6) s (fun _ s =>
    let b := s.update.otherB
    let x := s.slot b
    if x.state ≠ .staged ∨ x.version ≠ lfld body 0 4 then s.fwRefused h 0x24 0x0B
    else if s.fwBusy ∨ s.mould.amend.isSome ∨ s.unsettled ∨ s.islands.noneActive ∨ s.islands.gap.isSome ∨
        s.islands.st s.islands.standby ≠ .sync then s.fwRefused h 0x24 0x09
    else if !imageOk then (s.noteFirmware 7 b x.version 0x07).fwRefused h 0x24 0x07
    else
      let s := s.setSlot b ({ x with confirmWindow := lfld body 4 2 }.enter .trial)
      { s with update := { s.update with phase := .preparing, targetB := b, reverting := false, attempts := 0, activateSession := h.session, activateSeq := h.seq } }))

/-- Header that the deferred reply of ACTIVATE answers. -/
def UpdateState.activateHdr (u : UpdateState) : MsgHdr := { session := u.activateSession, seq := u.activateSeq }
/-- Every ware has reached its boundary. -/
def State.allHeld (s : State) : Bool := s.teller.wares.all (fun e => e.2.isImage || (e.2.runs.isEmpty && !e.2.rerun))
/-- The holds of every ware set or released. -/
def State.holdWares (s : State) (on : Bool) : State :=
  { s with teller := { s.teller with wares := s.teller.wares.map (fun (e : Nat × Ware) => (e.1, { e.2 with held := on && !e.2.isImage })) } }
/-- The pause, or the hold attempt, is over: dispatch resumes where nothing else holds it. -/
def State.endHold (s : State) : State :=
  let s := s.holdWares false
  let s := { s with
    update := { s.update with holding := false, holdBegun := false }
    teller := { s.teller with held := s.islands.gap.isSome || s.islands.noneActive || s.power.coolShutdown || s.power.holdup } }
  if s.throttleHeld then s else s.endPause
/-- Ten attempts have found no hold point (R523): PAUSE; the slot is STAGED again, or the trial of a REVERT goes on. -/
def State.holdFailed (s : State) : State :=
  let u := s.update
  let b := u.targetB
  if u.reverting then ({ s with update := { u with phase := .trial, reverting := false } } : State).fwErr 0x0A
  else
    let x := s.slot b
    let s := (s.setSlot b (x.enter .staged)).noteFirmware 7 b x.version 0x0A
    ({ s with update := { s.update with phase := .staged } } : State).fwRefused u.activateHdr 0x24 0x0A
/-- ACTIVATE_HOLD_ATTEMPT: after preparation the first hold begins; after a release, the next hold begins; of a hold, the pause begins if every ware is held within
20 ms, otherwise it is released, the tenth for good.  A pause of which a ware has been released is given up (R526). -/
def execActivateHoldAttempt (s : State) : Host.Outcome State Fault Refusal :=
  let u := s.update
  if u.phase = .preparing then .next (s.startHold u.targetB false)
  else if u.phase ≠ .holding then .next s
  else if u.holding then
    if s.teller.wares.all (fun e => e.2.isImage || e.2.held) then .next s else .next s.endHold
  else if !u.holdBegun then
    if s.teller.held then .next s else .next { s with update := { u with holdBegun := true, attempts := u.attempts + 1 } }
  else if s.allHeld && !s.teller.held then
    let s := s.holdWares true
    .next { s with update := { s.update with holding := true }, teller := { s.teller with held := true } }
  else
    let s := s.endHold
    .next (if 10 ≤ u.attempts then s.holdFailed else s)

/-- The islands hand over as a planned switch-over; the island that was active rejoins by its self-test (R449, R524). -/
def State.switchIslands (s : State) : State :=
  let x := s.islands
  let old := x.activeB
  let y := { ((x.setSt (!old) .active).setSt old .selfTest) with
    activeB := !old, selfCycles := 0, fullCopyLeft := 0, copySent := false, swapReq := false }
  ({ s with islands := y } : State).noteSwitch old (!old) 0xFFFF true
/-- Measurements 0x02 to 0x05 of a slot's components (R488). -/
def State.measure (s : State) (x : Slot) : State :=
  { s with sec := { s.sec with measured := (s.sec.measured.take 1 ++ List.replicate (1 - s.sec.measured.length) 0) ++ (x.components ++ List.replicate 4 0).take 4 } }
/-- ACTIVATE_SWITCH: with every ware held, islands, kernel library and Ohmis go over to the target slot; sessions close where
the Ohmis or kernel-library measurement changes; dispatch resumes, the record is written and ACTIVATE is answered. -/
def execActivateSwitch (s : State) : Host.Outcome State Fault Refusal :=
  let u := s.update
  if u.phase ≠ .holding ∨ !u.holding ∨ s.islands.gap.isSome ∨ s.islands.noneActive ∨ !s.links.rootLock ∨
      !s.teller.wares.all (fun e => e.2.isImage || e.2.held) then .next s
  else
    let b := u.targetB
    let s := s.switchIslands
    let was := s.sec.measured
    let s := s.measure (s.slot b)
    let changed (i : Nat) : Bool := was[i]? != s.sec.measured[i]?
    let s := if changed 1 || changed 3 then (List.range 8).foldl (fun s p => s.closeSessions p) s else s
    let trial := u.otherB
    let s := if u.reverting then s.setSlot (!b) ((s.slot (!b)).enter .staged) else s
    let s := { s with update := { s.update with
      runningB := b, phase := if u.reverting then .staged else .trial, reverting := false
      trialSince := s.links.aoCount.toNat } }
    let s := s.endHold
    if u.reverting then .next (s.noteFirmware 5 (!b) (s.slot (!b)).version 0)
    else .next ((s.noteFirmware 2 trial (s.slot b).version 0).send u.activateHdr 0x24 [])

/-- CONFIRM: the TRIAL slot is VALID, the other RETIRED, and its version is the highest confirmed one (R525). -/
def execConfirm (h : MsgHdr) (body : List Byte) (s : State) : Host.Outcome State Fault Refusal :=
  msgRow s (fun s => sessionMsg 0x25 true h (body.length == 4) s (fun _ s =>
    let b := s.update.runningB
    let x := s.slot b
    if s.update.phase ≠ .trial ∨ x.state ≠ .trial ∨ x.version ≠ lfld body 0 4 then s.fwRefused h 0x25 0x0B
    else
      let s := s.setSlot (!b) ((s.slot (!b)).enter .retired)
      let s := s.setSlot b (x.enter .valid)
      -- the next firing uses this slot: installations and logged amendments go there from now on (R65, R66; DEDUCED, log entry 94)
      let s := { s with mould := { s.mould with firedSlotB := b } }
      ((({ s with update := { s.update with phase := .idle, highestConfirmed := x.version } } : State).noteFirmware 3 b x.version 0).send h 0x25 [])))
/-- REVERT: the hold and the switch back to the VALID slot begin (R525). -/
def execRevert (h : MsgHdr) (body : List Byte) (s : State) : Host.Outcome State Fault Refusal :=
  msgRow s (fun s => sessionMsg 0x26 true h body.isEmpty s (fun _ s =>
    if s.update.phase ≠ .trial then s.fwRefused h 0x26 0x0B
    else (s.startHold s.update.otherB true).send h 0x26 []))
/-- CONFIRM_WINDOW_EXPIRY: that many minutes of MNT_AO_COUNT have passed without CONFIRM (R525). -/
def execConfirmWindowExpiry (s : State) : Host.Outcome State Fault Refusal :=
  let w := (s.slot s.update.runningB).confirmWindow
  if s.update.phase = .trial ∧ w ≠ 0 ∧ w * 60 * 68750000 ≤ s.links.aoCount.toNat - s.update.trialSince then
    .next (s.startHold s.update.otherB true)
  else .next s

end Sys2Proof.Machine
end

