-- ==== Sys2Proof/Machine/Firing.lean ====
section
/-! DEFINITION.  The firing sequence (R510-R513): identity, the choice of a slot (R512), the verification of its mould,
checkpoint and log (R53, R64, R67), fences (R451, R452), training, cleared memory; the row FIRING. -/
namespace Sys2Proof.Machine
open Sys2Proof

/-! ## The mould at firing (R53, R64, R67) -/

/-- A structure reached at firing. -/
structure FiredMould where
  full : Image
  serial : Nat
  parts : List (Nat × PartRec)
  wins : List (Nat × WinRec)
  /-- Amendments of the log applied, and the code of the one that made the rest be discarded. -/
  count : Nat := 0
  discarded : Option Nat := none
  deriving DecidableEq, Repr

/-- Steps 2 to 4 of R53: Ohmis's findings, and the scope against the module's BOUND_ID. -/
def Verdict.code (id : BitVec 256) (x : Image) (v : Verdict) : Nat :=
  if !v.digestOk then 0x02 else if !v.sigOk then 0x03 else if x.scope == 1 && x.boundId != id then 0x04 else 0
/-- The full mould in a slot's area, re-verified: its code, 0 where it passes (R53, R75). -/
def Slot.mouldCode (x : Slot) (id : BitVec 256) (highest : Nat) (v : Verdict) : Nat :=
  match x.mould with
  | none => 0x01
  | some m =>
    if Verdict.code id m v ≠ 0 then Verdict.code id m v
    else if highest < m.serial then 0x0F
    else leastCode (fixedCodes m ++ setCodes m.parts m.wins ((m.device.getD {}).ecc == 1))
/-- A checkpoint copy is valid. -/
def Checkpoint.valid (c : Checkpoint) (m : Image) (highest : Nat) (ok : Bool) : Bool := ok && c.mouldDigest == m.digest && decide (c.serial ≤ highest)
/-- The copy that holds the newest valid checkpoint of a slot: true for B. -/
def Slot.newestCopy (x : Slot) (m : Image) (highest : Nat) (r : SlotReads) : Option Bool :=
  let keep (c : Option Checkpoint) (ok : Bool) : Option Checkpoint := c.filter (fun c => c.valid m highest ok)
  match keep x.checkA r.checkAOk, keep x.checkB r.checkBOk with
  | some a, some b => some (decide (a.count < b.count))
  | some _, none => some false
  | none, some _ => some true
  | none, none => none
/-- The newest valid checkpoint of a slot. -/
def Slot.newest (x : Slot) (m : Image) (highest : Nat) (r : SlotReads) : Option Checkpoint :=
  match x.newestCopy m highest r with
  | some b => if b then x.checkB else x.checkA
  | none => none
/-- A slot that keeps in mind which copy the firing found to hold its newest valid checkpoint (R67). -/
def Slot.judged (x : Slot) (highest : Nat) (r : SlotReads) : Slot :=
  match x.mould with
  | some m => { x with newestB := x.newestCopy m highest r }
  | none => x
/-- Highest VF that a set of records names. -/
def maxFunc (parts : List (Nat × PartRec)) : Nat := ((parts.map (fun e => e.2.func)).max?).getD 0
/-- Logged amendments in order; the first that fails is discarded with all after it. -/
def applyLog (id : BitVec 256) (highest : Nat) : List (Image × Verdict) → FiredMould → FiredMould
  | [], m => m
  | (x, v) :: rest, m =>
    let c := if Verdict.code id x v ≠ 0 then Verdict.code id x v
      else if highest < x.serial then 0x0F
      else if x.baseSerial ≠ m.serial then 0x06
      else leastCode (amendCodes x m.parts m.wins ((m.full.device.getD {}).ecc == 1) (maxFunc m.parts))
    if c ≠ 0 then { m with discarded := some c }
    else applyLog id highest rest { m with serial := x.serial, parts := overlay m.parts x.parts, wins := overlay m.wins x.wins, count := m.count + 1 }
/-- The full mould alone. -/
def Image.alone (m : Image) : FiredMould := { full := m, serial := m.serial, parts := overlay [] m.parts, wins := overlay [] m.wins }
/-- The structure that a slot gives: mould, newest checkpoint, log; or the code that bars it.  A checkpoint needs the module's
identity; a slot with none that verifies has failed. -/
def Slot.structure_ (x : Slot) (id : BitVec 256) (highest : Nat) (r : SlotReads) (identity : Bool) : Except Nat FiredMould :=
  let c := x.mouldCode id highest r.mould
  match x.mould with
  | none => .error c
  | some m =>
    let log := x.amendLog.zipIdx.map (fun e => (e.1, (r.amends[e.2]?).getD {}))
    if c ≠ 0 then .error c
    else if x.checkA.isNone && x.checkB.isNone then .ok (applyLog id highest log m.alone)
    else if !identity then .error 0x03
    else match x.newest m highest r with
    | none => .error 0x03
    | some k => .ok (applyLog id highest log { full := m, serial := k.serial, parts := overlay [] k.parts, wins := overlay [] k.wins })

/-! ## What a firing starts from -/

/-- A slot after a firing that did not confirm it: TRIAL becomes STAGED (R525). -/
def Slot.afterFiring (x : Slot) : Slot := if x.state = .trial then x.enter .staged else x
/-- What is left when every domain is reset: flash, the Ledger, host memory, the levels of the pins, what has been sent out. -/
def State.bare (s : State) (cause : FiringCause) : State :=
  let h := s.host
  let live := cause == .chipRst || cause == .noIsland || cause == .recovery
  { update := { slotA := s.update.slotA, slotB := s.update.slotB, highestConfirmed := s.update.highestConfirmed, forwardedOut := s.update.forwardedOut }
    ledger := { nextSeq := s.ledger.nextSeq, firingCount := s.ledger.firingCount + 1, highestSerial := s.ledger.highestSerial,
                fenceTiles := s.ledger.fenceTiles, fenceChans := s.ledger.fenceChans, fenceWheels := s.ledger.fenceWheels,
                bins := s.ledger.bins, ring := s.ledger.ring, ringB := s.ledger.ringB }
    links := { xtalOk := true, rootLock := true, tapIr := s.links.tapIr,
               resetCause := match cause with | .powerOn => 1 | .chipRst => 2 | .rootReturn => 4 | .noIsland => 8 | .recovery => 16 }
    host := { perstAsserted := h.perstAsserted, refclkPresent := h.refclkPresent, mgmtLinkUp := if live then h.mgmtLinkUp else 0, mgmtOut := h.mgmtOut,
              sbActive := h.sbActive &&& 0x3D, sbHeld := h.sbHeld &&& 0xD, sbLong := h.sbHeld &&& 0xD, sbChattering := h.sbChattering,
              sbChatter := h.sbChattering, tachHz := h.tachHz, smbusBusy := true }
    sec := { nextMgmt := s.sec.nextMgmt, replies := s.sec.replies, wire := s.sec.wire }
    mem := { bytes := s.mem.bytes.filter (fun e => decide (hostWindow ≤ e.1)), junk := s.mem.junk.filter (fun j => decide (hostWindow ≤ j.base)) }
    teller := { held := true }
    free := s.free, pending := s.pending }

/-- Step 4: the islands' self-tests. -/
def State.bootIslands (s : State) (a b : Bool) : State :=
  match a, b with
  | true, true => { s with islands := { stA := .active, stB := .sync, selfCycles := 64 } }
  | true, false => { s with islands := { stA := .active, stB := .failed } }
  | false, true => { s with islands := { activeB := true, stA := .failed, stB := .active } }
  | false, false => ({ s with islands := { stA := .failed, stB := .failed } } : State).loseIslands
/-- Step 5: the key pair derived from the device key, and what Ohmis's self-tests found; a certificate that is missing or names another
key raises source 409 (R486, R487, R505). -/
def State.bootOhmis (s : State) (r : FiringReads) : State :=
  let s := { s with sec := { s.sec with identityOk := !r.pufFailed, trngOk := r.trngOk, enginesOk := r.enginesOk, idKey := if r.pufFailed then 0 else identityKey
                                        idSecret := if r.pufFailed then 0 else identitySecret
                                        measured := (r.measured ++ List.replicate 5 0).take 5 } }
  let s := if r.pufCorrected && !r.pufFailed then s.raise { source := 385 } else s
  let s := if r.pufFailed then s.raise { source := 386 } else s
  let s := if r.trngOk then s else s.raise { source := 387 }
  let s := if r.enginesOk then s else s.raise { source := 388 }
  { s with faults := if r.certOk && Config.certKey identityCert == identityKey then s.faults else (s.raise { source := 409 }).faults }
/-- Step 5: the slot to fire from, and whether it is not the one first chosen (R512): the VALID one, else the other. -/
def State.pickSlot (s : State) (r : FiringReads) : Option (Bool × Bool) :=
  let ok (b : Bool) : Bool := (s.slot b).state != .empty && (if b then r.slotB.imageOk else r.slotA.imageOk)
  let first : Bool := (s.slot true).state == .valid
  if (s.slot first).state = .valid then (if ok first then some (first, false) else if ok (!first) then some (!first, true) else none)
  else if ok false then some (false, false) else if ok true then some (true, false) else none
/-- The slot is fired: it becomes VALID, one that failed EMPTY, and a trial not confirmed STAGED, with its record (R512, R525).  R512 says
no more of the failed slot: its mould, log and checkpoints stay, and may serve as the fallback of R64 (DESIGN CHOICE, log entry 92). -/
def State.fireSlot (s : State) (b failed : Bool) : State :=
  let o := s.slot (!b)
  let s := s.setSlot b ((s.slot b).enter .valid)
  let s := s.setSlot (!b) (if failed then o.enter .empty else o.afterFiring)
  let s := { s with update := { s.update with runningB := b } }
  let s := { s with update := { s.update with phase := s.restPhase } }
  let s := if o.state = .trial ∧ !failed then s.noteFirmware 4 (!b) o.version 0 else s
  if failed then s.raise { source := 384 } else s

/-- A logged amendment that fails verification is discarded with every one after it (R64). -/
def Slot.cutLog (x : Slot) (m : FiredMould) : Slot := if m.discarded.isSome then { x with amendLog := x.amendLog.take m.count } else x
/-- Step 6: the structure to fire with; FALLBACK; the codes met (R64, R67). -/
def State.pickMould (s : State) (b : Bool) (r : FiringReads) : Option (FiredMould × Bool) × List Nat :=
  let reads (k : Bool) : SlotReads := if k then r.slotB else r.slotA
  let hi := s.ledger.highestSerial
  let ok := s.sec.identityOk
  let id := s.boundId
  let bare (k : Bool) : Option FiredMould := if (s.slot k).mouldCode id hi (reads k).mould = 0 then (s.slot k).mould.map Image.alone else none
  match (s.slot b).structure_ id hi (reads b) ok with
  | .ok m => (some (m, false), m.discarded.toList)
  | .error c => match (s.slot (!b)).structure_ id hi (reads (!b)) ok with
    | .ok m => (some (m, true), c :: m.discarded.toList)
    | .error d => (if ok then none else (bare b).map (fun m => (m, true)), [c, d])
/-- The structure fired. -/
def State.fireMould (s : State) (b : Bool) (m : FiredMould) (fallback : Bool) : State :=
  let x := m.full
  let vfWins := (m.parts.filter (fun e => e.2.func ≠ 0)).map (fun (e : Nat × PartRec) => ((((m.wins.find? (fun (w : Nat × WinRec) => w.1 = e.1)).map (·.2)).getD {}) : WinRec).bar4Log2)
  { s with mould := { s.mould with
      fired := true, device := x.device.getD {}, laneRoles := x.laneRoles.getD [], guardModes := x.guardModes.getD [], reactions := x.reactions.getD []
      pins := x.pins.getD {}, parts := m.parts, wins := m.wins, signer := x.signer.getD 0, mouldDigest := x.digest, totalVfs := maxFunc m.parts
      vfBar4Log2 := (vfWins.max?).getD 30, serial := m.serial, firedSlotB := b, fallback := fallback, amendCount := min 65535 m.count } }

/-! ## Clocks, links, memory (steps 6 to 10) -/

/-- The fences of the Ledger summary, and the channels that training lost for this firing (R451, R452, R511). -/
def State.fireFences (s : State) (bad : BitVec 48) : State :=
  let s := { s with faults := { s.faults with fenceTiles := s.ledger.fenceTiles, fenceChans := s.ledger.fenceChans ||| bad, fenceWheels := s.ledger.fenceWheels } }
  (List.range 48).foldl (fun s c => if bad.getLsbD c && !s.ledger.fenceChans.getLsbD c then s.noteFence 1 c true else s) s
/-- Every die has its clock and leaves reset; every port trains from reset (R343, R350). -/
def State.fireLinks (s : State) (r : FiringReads) : State :=
  let test (e : Nat) : LaneTest := ((r.lanes.find? (fun x => x.1 = e)).map (·.2)).getD {}
  let s := { s with links := { s.links with fwdOk := 0x3FF } }
  let s := (List.range 10).foldl (fun s d => s.setDie d .ready) s
  (List.range 15).foldl (fun s j =>
    (s.bothEnds j (fun x => { x with training := true, fromReset := true })).endTraining j (test (2 * j)) (test (2 * j + 1))) s
/-- DRAM with inline ECC on reads as zero; with it off its bytes are free values (R513). -/
def State.fireMemory (s : State) : State :=
  let s := { s with mem := { s.mem with ecc := s.mould.device.ecc == 1 } }
  if s.mem.ecc then s else s.freeBytes 0 s.dramTop
/-- Every tile at the lowest divider that CLK_OPT allows and full duty, and every kiln rail at the voltage of that divider (R459, R461). -/
def State.firePower (s : State) : State :=
  let d := s.lowestD
  let s := (List.range 32).foldl (fun s t => s.setTilePower t { d := d, duty := 16, thermD := d, thermDuty := 16, powerD := d }) s
  let s := s.assignShares
  let rails := (List.range 4).foldl (fun m k => sset {} m k { sget {} m k with moved := railSteps k d }) s.power.rails
  let s := { s with power := { s.power with rails := rails } }
  let brake := s.mould.pins.brakeUse == 1 && s.host.sbActive.getLsbD 2
  let cool := s.mould.pins.coolOkUse == 1 && s.host.sbActive.getLsbD 3
  let s := { s with power := { s.power with brake := brake, brakeDuty := if brake then 4 else 16, coolClamp := cool, coolWait := cool } }
  let s := if cool then s.raise { source := 357 } else s
  ({ s with therm := { s.therm with lifeStep := s.lifeNum s.worst * 10 / 264000000 } } : State).judgeLife

/-- Why a firing may run now: one that has been caused, or 48 V good on a module that is off. -/
def State.firingCause (s : State) : Option FiringCause :=
  if s.power.holdup ∨ (!s.links.rootLock ∧ !s.links.rootLost ∧ s.links.firingDue.isNone) then some .powerOn
  else if s.links.rootLost then none else s.links.firingDue

/-- FIRING (R510): the whole sequence, from 48 V good or another cause to the Hallmark ready.  It stops in recovery where no
image verifies, and before clocks reach the dies where no mould does. -/
def execFiring (r : FiringReads) (s : State) : Host.Outcome State Fault Refusal :=
  match s.firingCause with
  | none => .next s
  | some cause =>
    let test := s.faults.testMode
    let tail := s.ledger.tail
    -- the root clock has run from its lock on (R354)
    let count := if cause = .rootReturn then s.links.aoCount else 0
    let s := s.installMoved.bare cause
    let s := { s with links := { s.links with aoCount := count } }
    let s := (if cause = .powerOn then s else { s with ledger := { s.ledger with tail := tail } }.writeTail).readLedger r.lostA r.lostB
    let s := if test then s.note 0x08 [0] else s
    let s := (s.bootIslands r.islandAOk r.islandBOk).bootOhmis r
    match s.pickSlot r with
    | none => .next { s with update := { s.update with recovery := true } }
    | some (b, failed) =>
      let s := s.fireSlot b failed
      let p := s.pickMould b r
      let s := if s.sec.identityOk then (s.setSlot false ((s.slot false).judged s.ledger.highestSerial r.slotA)).setSlot true
        ((s.slot true).judged s.ledger.highestSerial r.slotB) else s
      let s := { s with mould := { s.mould with lastErr := (p.2.getLast?).getD 0, firedSlotB := b } }
      match p.1 with
      | none => .next { s with faults := { s.faults with mouldsFailed := true } }
      | some (m, fallback) =>
        let s := (s.fireMould b m fallback).setSlot (if fallback then !b else b) ((s.slot (if fallback then !b else b)).cutLog m)
        let s := if fallback || m.discarded.isSome then s.raise { source := 308 } else s
        let s := ((s.fireFences r.badChannels).fireLinks r).fireMemory.firePower.assignWays m.parts
        let s := (List.range 32).foldl (fun s t => if r.badTiles.getLsbD t && !s.ledger.fenceTiles.getLsbD t then s.fenceTile t else s) s
        let s := (List.range 4).foldl (fun s k => if (List.range 8).all (fun i => s.faults.fenceTiles.getLsbD (8 * k + i)) then s.fenceDie k else s) s
        let s := { s with
          host := { s.host with refclkPresent := r.refclk, refclkUsed := r.refclk, linkTraining := !s.host.perstAsserted && s.dieReady 8 }
          teller := { s.teller with held := s.islands.noneActive } }
        let s := s.note 0x02 (toLE 1 s.links.resetCause.toNat ++ toLE 1 (b2n b) ++ toLE 4 s.mould.serial ++ [0, 0])
        if cause = .rootReturn then
          let s := s.record { source := 426 }
          .next { s with links := { s.links with firingDue := none } }
        else .next s

end Sys2Proof.Machine
end

