-- ==== Sys2Proof/Machine/TileCmds.lean ====
section
/-! DEFINITION.  The tile commands (R112) and what happens at a tile: one meaning per row. -/
namespace Sys2Proof.Machine
open Sys2Proof

/-- SLAB_LOAD (R119): the shadow buffer is loaded and the preload record made (R108). -/
def execSlabLoad (t : Nat) (s : State) : Host.Outcome State Fault Refusal :=
  whenRunning s t 0x01 (fun c =>
    let r := slabLoadRun c.desc t s
    let x := r.s.tile t
    let rec' : Preload := { queue := c.queue, wAddr := dAddr c.desc 16, fmts := dfld c.desc 30 1, tgt := dfld c.desc 31 1 }
    let s' := if r.status = stOk then r.s.setTile t { x with preload := some rec' } else r.s
    finishCommand s t c { r with s := s' })

/-- SLAB_MATMUL (R120). -/
def execSlabMatmul (t : Nat) (s : State) : Host.Outcome State Fault Refusal :=
  perform s t 0x02 (fun d _ w s => matRun d t w (s.slabUsed t d))

/-- SLAB_CONV (R121). -/
def execSlabConv (t : Nat) (s : State) : Host.Outcome State Fault Refusal :=
  perform s t 0x03 (fun d _ w s => convRun d t w (s.slabUsed t d))

/-- ATTEND (R122). -/
def execAttend (t : Nat) (s : State) : Host.Outcome State Fault Refusal :=
  perform s t 0x04 (fun d p w s => attRun d t p w (s.slabUsed t d))

/-- VEC_RUN (R123). -/
def execVecRun (t : Nat) (s : State) : Host.Outcome State Fault Refusal :=
  perform s t 0x05 (fun d p w s => vecRun d t p w.vec s)

/-- MOVE (R125, R126). -/
def execMove (t : Nat) (s : State) : Host.Outcome State Fault Refusal :=
  whenRunning s t 0x06 (fun c => if dAsync c.desc then startAsync s t c else finishCommand s t c (moveRun c.desc t c.work s))

/-- GATHER_PAGES (R125, R126, R254). -/
def execGatherPages (t : Nat) (s : State) : Host.Outcome State Fault Refusal :=
  whenRunning s t 0x07 (fun c =>
    if dAsync c.desc then startAsync s t c else finishCommand s t c (gatherRun c.desc t (s.tilePart t) c.work s))

/-- REDUCE (R127): the tile contributes; the last contribution combines all, a difference ends all with MISMATCH. -/
def execReduce (t : Nat) (s : State) : Host.Outcome State Fault Refusal :=
  match s.runnable t 0x08 with
  | none => .next s
  | some c =>
    let x := redFields c.desc
    let p := s.tilePart t
    let ck := redChecks c.desc s t p
    let n := x.count * x.esz
    let s := s.fetch (.tile t) x.src n
    if s.meetsPoison (.tile t) x.src n then .next (finishCommand s t c (failed s ck.outs stPoison))
    else
      let peers := s.mem.reductions.filter (fun k =>
        k.outcome.isNone && s.tilePart k.tile == p && (redFields k.desc).id == x.id)
      if peers.any (fun k => (redFields k.desc).key != x.key) then
        let reds := s.mem.reductions.map (fun k =>
          if k.outcome.isNone && s.tilePart k.tile == p && (redFields k.desc).id == x.id
          then { k with outcome := some (stMismatch, 0, []) } else k)
        .next (finishCommand s t c (failed { s with mem := { s.mem with reductions := reds } } ck.outs stMismatch))
      else
        let mine : Contribution := { tile := t, desc := c.desc, data := s.readBytes x.src n }
        let all := peers ++ [mine]
        let have_ (u : Nat) : Option Contribution := all.find? (fun k => k.tile = u)
        let reds := s.mem.reductions ++ [mine]
        let reds :=
          if x.tiles.all (fun u => (have_ u).isSome) then
            let out := redCombine x (x.tiles.filterMap (fun u => (have_ u).map (·.data)))
            reds.map (fun k => if k.outcome.isNone && x.tiles.contains k.tile && (redFields k.desc).id == x.id
              then { k with outcome := some out } else k)
          else reds
        .next ({ s with mem := { s.mem with reductions := reds } }.setTile t
          { s.tile t with running := some { c with wait := .reduce } })

/-- The result of a reduction reaches tile t (R127, R128). -/
def execReduceResult (t : Nat) (s : State) : Host.Outcome State Fault Refusal :=
  let x := s.tile t
  match x.running, s.mem.reductions.find? (fun k => k.tile = t) with
  | some c, some k =>
    match k.outcome with
    | none => .next s
    | some (st, num, bytes) =>
      if c.wait ≠ .reduce ∨ x.spilling.isSome then .next s
      else
        let r := redFields c.desc
        let ck := redChecks c.desc s t (s.tilePart t)
        let num := if t = r.root then num else 0
        let d := if st ≠ stOk then failed s ck.outs st
          else finishRows s (.tile t) ck (if r.writes t then [(r.dst, bytes)] else []) num 0 0
        .next (finishCommand s t c d)
  | _, _ => .next s

/-- TALLY_WAIT (R129): its registration goes to the home. -/
def execTallyWait (t : Nat) (s : State) : Host.Outcome State Fault Refusal :=
  match s.runnable t 0x09 with
  | some c => .next (s.setTile t { s.tile t with running := some { c with wait := .tallySent } })
  | none => .next s

/-- A registration reaches the tally's home (R203). -/
def execWaitRegistration (t : Nat) (s : State) : Host.Outcome State Fault Refusal :=
  let x := s.tile t
  match x.running with
  | some c =>
    if c.wait ≠ .tallySent ∨ x.spilling.isSome ∨ c.abandoned ∨ c.flushed then .next s
    else
      let n := dfld c.desc 16 2
      let th := dfld c.desc 18 4
      if !s.homeUp (4 + t / 8) n || s.tallyBad n then .next (finishCommand s t c { s := s, status := stHw })
      else if th ≤ (s.tally n).toNat then .next (finishCommand s t c { s := s })
      else
        let h := s.hearth (tallyHome n)
        let s := s.setHearth (tallyHome n) { h with waiters := sset none h.waiters t (some { tally := n, threshold := th }) }
        .next (s.setTile t { s.tile t with running := some { c with wait := .tallyHeld } })
  | none => .next s

/-- A wake reaches tile t; one that crosses a removal is discarded (R203). -/
def execTallyWake (t : Nat) (s : State) : Host.Outcome State Fault Refusal :=
  let x := s.tile t
  match x.running with
  | some c =>
    match (s.hearth (tallyHome (dfld c.desc 16 2))).waiter t with
    | some w =>
      if c.wait = .tallyHeld ∧ w.woken ∧ x.spilling.isNone then .next (finishCommand s t c { s := s }) else .next s
    | none => .next s
  | none => .next s

/-- A wait of TALLY_WAIT or REDUCE exceeds its limit (R129, R128); a limit of 0 never does. -/
def execWaitTimeout (t : Nat) (s : State) : Host.Outcome State Fault Refusal :=
  let x := s.tile t
  match x.running with
  | some c =>
    if x.spilling.isSome then .next s
    else if (c.wait = .tallySent ∨ c.wait = .tallyHeld) ∧ (dfld c.desc 22 4 ≠ 0 ∨ x.waitLimit ≠ 0) then
      .next (finishCommand s t c { s := s, status := stTimeout })
    else if c.wait = .reduce ∧ x.waitLimit ≠ 0 then
      .next (finishCommand s t c (failed s (redChecks c.desc s t (s.tilePart t)).outs stTimeout))
    else .next s
  | none => .next s

/-- TALLY_SIGNAL (R129): the operation goes to the home, and the command ends when it has been applied. -/
def execTallySignal (t : Nat) (s : State) : Host.Outcome State Fault Refusal :=
  match s.runnable t 0x0A with
  | some c =>
    .next ((s.setTile t { s.tile t with running := some { c with wait := .signal } }).pushSignal
      { src := 4 + t / 8, tally := dfld c.desc 16 2, value := dfld c.desc 18 4, reset := dfld c.desc 22 1 == 1, after := .command t })
  | none => .next s

/-- YIELD (R130). -/
def execYield (t : Nat) (s : State) : Host.Outcome State Fault Refusal :=
  match s.runnable t 0x0B with
  | some c =>
    let x := s.tile t
    let s' := if dfld c.desc 16 1 = 1
      then s.setTile t (x.setQ c.queue { x.q c.queue with ceding := true, cedeLeft := dfld c.desc 18 2 }) else s
    .next (finishCommand s' t c { s := s' })
  | none => .next s

/-- A ceding queue has let its units pass (R130). -/
def execCedeExpiry (t q : Nat) (s : State) : Host.Outcome State Fault Refusal :=
  let x := s.tile t
  if (x.q q).ceding then .next (s.setTile t (breakRestore (x.setQ q { x.q q with ceding := false, cedeLeft := 0 }))) else .next s

/-- SAMPLE (R124). -/
def execSample (t : Nat) (s : State) : Host.Outcome State Fault Refusal := perform s t 0x0C (fun d p _ s => sampleRun d t p s)

/-- CROP_RESIZE (R131). -/
def execCropResize (t : Nat) (s : State) : Host.Outcome State Fault Refusal := perform s t 0x0D (fun d _ w s => cropRun d t w s)

/-- BOX_DECODE (R131). -/
def execBoxDecode (t : Nat) (s : State) : Host.Outcome State Fault Refusal := perform s t 0x0E (fun d _ _ s => boxRun d t s)

/-- NMS (R131). -/
def execNms (t : Nat) (s : State) : Host.Outcome State Fault Refusal := perform s t 0x0F (fun d _ w s => nmsRun d t w s)

/-- A transfer of a stream of queue q is still under way: its writes have not been acknowledged. -/
def Tile.streaming (x : Tile) (q : Nat) : Bool :=
  (match x.engine0 with | some e => e.queue == q | none => false) || (match x.engine1 with | some e => e.queue == q | none => false)
/-- END (R130): the stream number is RESULT.  It ends only after every write of its stream's commands has been acknowledged
(R250). -/
def execEndStream (t : Nat) (s : State) : Host.Outcome State Fault Refusal :=
  match s.runnable t 0x10 with
  | some c => if (s.tile t).streaming c.queue then .next s else .next (finishCommand s t c { s := s, result := dfld c.desc 16 2 })
  | none => .next s

/-- A mint write to a command-queue register of tile t; any other master's access is refused (R106, R141).  It interrupts a first
dual write of that master to the block (R397). -/
def tileWrite (s : State) (m : Master) (t ofs : Nat) (k : State → State) : Host.Outcome State Fault Refusal :=
  if s.isStandby m then .next (s.reply .dropped)
  else if s.isMint m && decide (t < 32) && s.dieReady (t / 8) then .next ((k (s.failDual m (addrBlock (tqAddr t ofs)))).reply .accepted)
  else .next (s.refuse m (tqAddr t ofs) true)

/-- KLN_TQ_TAILq (R144). -/
def execKlnTqTail (m : Master) (t q : Nat) (v : Word) (s : State) : Host.Outcome State Fault Refusal :=
  if q < 4 then tileWrite s m t (0x10 + q * 8) (fun s => tailWrite s t q v) else .next s
/-- KLN_TQ_CTRL for EN (R142). -/
def execQueueEn (m : Master) (t : Nat) (v : Word) (s : State) : Host.Outcome State Fault Refusal :=
  tileWrite s m t 0 (fun s => ctrlWrite s t v)
/-- KLN_TQ_CTRL for FLUSH (R142). -/
def execFlush (m : Master) (t : Nat) (v : Word) (s : State) : Host.Outcome State Fault Refusal :=
  tileWrite s m t 0 (fun s => ctrlWrite s t v)
/-- KLN_TQ_CTRL for RESUME (R142). -/
def execResume (m : Master) (t : Nat) (v : Word) (s : State) : Host.Outcome State Fault Refusal :=
  tileWrite s m t 0 (fun s => ctrlWrite s t v)
/-- KLN_ABANDON (R136, R144). -/
def execKlnAbandon (m : Master) (t : Nat) (tag : Word) (s : State) : Host.Outcome State Fault Refusal :=
  tileWrite s m t 0x58 (fun s => abandonWrite s t tag)
/-- The tile has acted on an abandoned tag (R136). -/
def execAbandonActed (t tag : Nat) (s : State) : Host.Outcome State Fault Refusal := .next (abandonActed s t tag)
/-- A yield point (R132). -/
def execYieldPoint (t : Nat) (s : State) : Host.Outcome State Fault Refusal := .next (yieldPoint s t)
/-- A spill completes (R133). -/
def execSpillDone (t : Nat) (s : State) : Host.Outcome State Fault Refusal := .next (spillDone s t)
/-- A restore completes (R133). -/
def execRestoreDone (t : Nat) (s : State) : Host.Outcome State Fault Refusal := .next (restoreDone s t)
/-- A command boundary (R107, R113). -/
def execCommandBoundary (t : Nat) (s : State) : Host.Outcome State Fault Refusal :=
  if t < 32 then .next (boundary s t) else .next s
/-- A page DMA engine takes a waiting hand-over (R207). -/
def execDmaHandover (t : Nat) (s : State) : Host.Outcome State Fault Refusal := .next (handover s t)
/-- A page DMA transfer ends (R126, R208). -/
def execDmaTransferDone (t e : Nat) (s : State) : Host.Outcome State Fault Refusal := .next (transferDone s t e)

/-- A SIGNAL is applied at its home (R201, R202, R205). -/
def execSignalAtHome (s : State) : Host.Outcome State Fault Refusal :=
  match s.popSignal false with
  | some (g, s) => let r := s.signalTally g.src g.tally g.value; .next (afterSignal r.1 g.after r.2)
  | none => .next s
/-- A RESET is applied at its home (R201). -/
def execResetAtHome (s : State) : Host.Outcome State Fault Refusal :=
  match s.popSignal true with
  | some (g, s) => let r := s.resetTally g.src g.tally (BitVec.ofNat 32 g.value); .next (afterSignal r.1 g.after r.2)
  | none => .next s
/-- An error in a tally's value (R205). -/
def execTallyBroken (r : TallyRead) (s : State) : Host.Outcome State Fault Refusal :=
  if r.tally < 16384 ∧ s.dieReady (4 + tallyHome r.tally) then .next (breakTally s r.tally r.event) else .next s

end Sys2Proof.Machine
end

