-- ==== Sys2Proof/Machine/Dispatch.lean ====
section
/-! DEFINITION.  What each command does: one arm per row of the table, each one call of its meaning. -/
namespace Sys2Proof.Machine
open Sys2Proof

def exec (i : Instr) (s : State) : Host.Outcome State Fault Refusal :=
  match i with
  | .firing r => Sys2Proof.Machine.execFiring r s
  | .smbusClockLowTimeout => Sys2Proof.Machine.execSmbusClockLowTimeout s
  | .recoveryImageWritten => Sys2Proof.Machine.execRecoveryImageWritten s
  | .mouldInstall q v => Sys2Proof.Machine.execMouldInstall q v s
  | .mouldInstallMsg h body v => Sys2Proof.Machine.execMouldInstallMsg h body v s
  | .mouldInstallWriteDone readBackOk => Sys2Proof.Machine.execMouldInstallWriteDone readBackOk s
  | .amend q v => Sys2Proof.Machine.execAmend q v s
  | .amendMsg h body v => Sys2Proof.Machine.execAmendMsg h body v s
  | .amendFence => Sys2Proof.Machine.execAmendFence s
  | .amendScrubDone => Sys2Proof.Machine.execAmendScrubDone s
  | .amendGrant => Sys2Proof.Machine.execAmendGrant s
  | .slabLoad t => Sys2Proof.Machine.execSlabLoad t s
  | .slabMatmul t => Sys2Proof.Machine.execSlabMatmul t s
  | .slabConv t => Sys2Proof.Machine.execSlabConv t s
  | .attend t => Sys2Proof.Machine.execAttend t s
  | .vecRun t => Sys2Proof.Machine.execVecRun t s
  | .move t => Sys2Proof.Machine.execMove t s
  | .gatherPages t => Sys2Proof.Machine.execGatherPages t s
  | .reduce t => Sys2Proof.Machine.execReduce t s
  | .tallyWait t => Sys2Proof.Machine.execTallyWait t s
  | .tallySignal t => Sys2Proof.Machine.execTallySignal t s
  | .yield t => Sys2Proof.Machine.execYield t s
  | .cedeExpiry t q => Sys2Proof.Machine.execCedeExpiry t q s
  | .sample t => Sys2Proof.Machine.execSample t s
  | .cropResize t => Sys2Proof.Machine.execCropResize t s
  | .boxDecode t => Sys2Proof.Machine.execBoxDecode t s
  | .nms t => Sys2Proof.Machine.execNms t s
  | .endStream t => Sys2Proof.Machine.execEndStream t s
  | .klnTqTail m t q v => Sys2Proof.Machine.execKlnTqTail m t q v s
  | .queueEn m t v => Sys2Proof.Machine.execQueueEn m t v s
  | .flush m t v => Sys2Proof.Machine.execFlush m t v s
  | .resume m t v => Sys2Proof.Machine.execResume m t v s
  | .klnAbandon m t tag => Sys2Proof.Machine.execKlnAbandon m t tag s
  | .abandonActed t tag => Sys2Proof.Machine.execAbandonActed t tag s
  | .yieldPoint t => Sys2Proof.Machine.execYieldPoint t s
  | .spillDone t => Sys2Proof.Machine.execSpillDone t s
  | .restoreDone t => Sys2Proof.Machine.execRestoreDone t s
  | .commandBoundary t => Sys2Proof.Machine.execCommandBoundary t s
  | .dmaHandover t => Sys2Proof.Machine.execDmaHandover t s
  | .dmaTransferDone t e => Sys2Proof.Machine.execDmaTransferDone t e s
  | .tallyWake t => Sys2Proof.Machine.execTallyWake t s
  | .waitTimeout t => Sys2Proof.Machine.execWaitTimeout t s
  | .reduceResult t => Sys2Proof.Machine.execReduceResult t s
  | .signalAtHome => Sys2Proof.Machine.execSignalAtHome s
  | .resetAtHome => Sys2Proof.Machine.execResetAtHome s
  | .waitRegistration t => Sys2Proof.Machine.execWaitRegistration t s
  | .tallyBroken r => Sys2Proof.Machine.execTallyBroken r s
  | .hrtTallyValWrite m n v => Sys2Proof.Machine.execHrtTallyValWrite m n v s
  | .hrtTallyStatClear m h v => Sys2Proof.Machine.execHrtTallyStatClear m h v s
  | .hrtRcFlush m h v => Sys2Proof.Machine.execHrtRcFlush m h v s
  | .readMiss h addr e => Sys2Proof.Machine.execReadMiss h addr e s
  | .ownershipRequest h ask => Sys2Proof.Machine.execOwnershipRequest h ask s
  | .writeBack h addr => Sys2Proof.Machine.execWriteBack h addr s
  | .evictionNotice h addr => Sys2Proof.Machine.execEvictionNotice h addr s
  | .homeSideAccess addr write => Sys2Proof.Machine.execHomeSideAccess addr write s
  | .patrolRead v e => Sys2Proof.Machine.execPatrolRead v e s
  | .accountingWindowEnd chan served queued => Sys2Proof.Machine.execAccountingWindowEnd chan served queued s
  | .zeroWriterDone => Sys2Proof.Machine.execZeroWriterDone s
  | .admitReq q tagOk => Sys2Proof.Machine.execAdmit q tagOk s
  | .cancel q => Sys2Proof.Machine.execCancel q s
  | .cancelNow q => Sys2Proof.Machine.execCancelNow q s
  | .cancelNowComplete idx => Sys2Proof.Machine.execCancelNowComplete idx s
  | .reqSuspend q => Sys2Proof.Machine.execReqSuspend q s
  | .reqResume q => Sys2Proof.Machine.execReqResume q s
  | .ringSet q => Sys2Proof.Machine.execRingSet q s
  | .poolAdd q => Sys2Proof.Machine.execPoolAdd q s
  | .poolShrink q => Sys2Proof.Machine.execPoolShrink q s
  | .poolShrinkDone handle => Sys2Proof.Machine.execPoolShrinkDone handle s
  | .adapterPublish q => Sys2Proof.Machine.execAdapterPublish q s
  | .adapterUnpin ware adapter version => Sys2Proof.Machine.execAdapterUnpin ware adapter version s
  | .completionRecord => Sys2Proof.Machine.execCompletionRecord s
  | .stepBoundary ware => Sys2Proof.Machine.execStepBoundary ware s
  | .chunkDispatch ware => Sys2Proof.Machine.execChunkDispatch ware s
  | .pagesFreed p => Sys2Proof.Machine.execPagesFreed p s
  | .deadline idx => Sys2Proof.Machine.execDeadline idx s
  | .ringRecord => Sys2Proof.Machine.execRingRecord s
  | .keyCacheFill idx => Sys2Proof.Machine.execKeyCacheFill idx s
  | .ringReadIndex f idx v => Sys2Proof.Machine.execRingReadIndex f idx v s
  | .streamOpen q => Sys2Proof.Machine.execStreamOpen q s
  | .streamClose q => Sys2Proof.Machine.execStreamClose q s
  | .streamClosed c => Sys2Proof.Machine.execStreamClosed c s
  | .streamFeed q => Sys2Proof.Machine.execStreamFeed q s
  | .streamKey q => Sys2Proof.Machine.execStreamKey q s
  | .streamClass q => Sys2Proof.Machine.execStreamClass q s
  | .frameReceive f => Sys2Proof.Machine.execFrameReceive f s
  | .jitterGapLost c => Sys2Proof.Machine.execJitterGapLost c s
  | .nalRelease c arrival => Sys2Proof.Machine.execNalRelease c arrival s
  | .wheelRowBoundary w r => Sys2Proof.Machine.execWheelRowBoundary w r s
  | .bufferTallyPoll c => Sys2Proof.Machine.execBufferTallyPoll c s
  | .encodeNalPost c => Sys2Proof.Machine.execEncodeNalPost c s
  | .flitReceive e g f => Sys2Proof.Machine.execFlitReceive e g f s
  | .nakReplay e g seq => Sys2Proof.Machine.execNakReplay e g seq s
  | .laneFail e lane => Sys2Proof.Machine.execLaneFail e lane s
  | .repairDone e => Sys2Proof.Machine.execRepairDone e s
  | .narrowingDone e => Sys2Proof.Machine.execNarrowingDone e s
  | .portTrained port a b => Sys2Proof.Machine.execPortTrained port a b s
  | .retrain x => Sys2Proof.Machine.execRetrain x s
  | .portEn x => Sys2Proof.Machine.execPortEn x s
  | .rootClockLost crystal => Sys2Proof.Machine.execRootClockLost crystal s
  | .rootClockReturn => Sys2Proof.Machine.execRootClockReturn s
  | .forwardedClockLoss d => Sys2Proof.Machine.execForwardedClockLoss d s
  | .mntDieReset x => Sys2Proof.Machine.execMntDieReset x s
  | .dieReset => Sys2Proof.Machine.execDieReset s
  | .dieReady d tilesFailed => Sys2Proof.Machine.execDieReady d tilesFailed s
  | .idcode tap => Sys2Proof.Machine.execIdcode tap s
  | .samplePreload tap => Sys2Proof.Machine.execSamplePreload tap s
  | .extest tap => Sys2Proof.Machine.execExtest tap s
  | .clamp tap => Sys2Proof.Machine.execClamp tap s
  | .highz tap => Sys2Proof.Machine.execHighz tap s
  | .ijtag tap => Sys2Proof.Machine.execIjtag tap s
  | .bypass tap code => Sys2Proof.Machine.execBypass tap code s
  | .instrumentWrite inst v => Sys2Proof.Machine.execInstrumentWrite inst v s
  | .bar4Write f ofs data ep => Sys2Proof.Machine.execBar4Write f ofs data ep s
  | .bar4Read f ofs len => Sys2Proof.Machine.execBar4Read f ofs len s
  | .sqTailDoorbell f q v => Sys2Proof.Machine.execSqTailDoorbell f q v s
  | .cqHeadDoorbell f q v => Sys2Proof.Machine.execCqHeadDoorbell f q v s
  | .queueCfgWrite f cq q v => Sys2Proof.Machine.execQueueCfgWrite f cq q v s
  | .queueBaseWrite f cq q v => Sys2Proof.Machine.execQueueBaseWrite f cq q v s
  | .sqFetch q r => Sys2Proof.Machine.execSqFetch q r s
  | .completionPost => Sys2Proof.Machine.execCompletionPost s
  | .wareLoad q => Sys2Proof.Machine.execWareLoad q s
  | .wareLoadDone handle w => Sys2Proof.Machine.execWareLoadDone handle w s
  | .wareUnload q => Sys2Proof.Machine.execWareUnload q s
  | .scrub q => Sys2Proof.Machine.execScrub q s
  | .memTest q => Sys2Proof.Machine.execMemTest q s
  | .longOperationDone handle failing => Sys2Proof.Machine.execLongOperationDone handle failing s
  | .opQuery q => Sys2Proof.Machine.execOpQuery q s
  | .opSuspend q => Sys2Proof.Machine.execOpSuspend q s
  | .opResume q => Sys2Proof.Machine.execOpResume q s
  | .opCancel q => Sys2Proof.Machine.execOpCancel q s
  | .flr f => Sys2Proof.Machine.execFlr f s
  | .perstN asserted refclk => Sys2Proof.Machine.execPerstN asserted refclk s
  | .hotReset => Sys2Proof.Machine.execHotReset s
  | .linkDown d => Sys2Proof.Machine.execLinkDown d s
  | .linkDownTimeout => Sys2Proof.Machine.execLinkDownTimeout s
  | .refclkLost => Sys2Proof.Machine.execRefclkLost s
  | .linkRetry refclk => Sys2Proof.Machine.execLinkRetry refclk s
  | .msixUnmask f e => Sys2Proof.Machine.execMsixUnmask f e s
  | .mgmtFrameForward port forUs broadcast frame => Sys2Proof.Machine.execMgmtFrameForward port forUs broadcast frame s
  | .pwrFailN => Sys2Proof.Machine.execPwrFailN s
  | .pwrBrakeN asserted => Sys2Proof.Machine.execPwrBrakeN asserted s
  | .brakeRampStep => Sys2Proof.Machine.execBrakeRampStep s
  | .coolOk => Sys2Proof.Machine.execCoolOk s
  | .coolOkTimeout => Sys2Proof.Machine.execCoolOkTimeout s
  | .tachWindow hz => Sys2Proof.Machine.execTachWindow hz s
  | .coolingStepChange step => Sys2Proof.Machine.execCoolingStepChange step s
  | .flowLostTimeout => Sys2Proof.Machine.execFlowLostTimeout s
  | .testEn asserted => Sys2Proof.Machine.execTestEn asserted s
  | .sidebandLongHold n => Sys2Proof.Machine.execSidebandLongHold n s
  | .chatter n => Sys2Proof.Machine.execChatter n s
  | .chatterEnd n => Sys2Proof.Machine.execChatterEnd n s
  | .pairArm x => Sys2Proof.Machine.execPairArm x s
  | .pairComplete x => Sys2Proof.Machine.execPairComplete x s
  | .pairTimeout m block => Sys2Proof.Machine.execPairTimeout m block s
  | .dualWrite x => Sys2Proof.Machine.execDualWrite x s
  | .postedWriteApplied block => Sys2Proof.Machine.execPostedWriteApplied block s
  | .registerWrite x => Sys2Proof.Machine.execRegisterWrite x s
  | .unimplementedAccess x write => Sys2Proof.Machine.execUnimplementedAccess x write s
  | .mntIdx m v => Sys2Proof.Machine.execMntIdx m v s
  | .mntDat m write v => Sys2Proof.Machine.execMntDat m write v s
  | .mntMbxReq m v => Sys2Proof.Machine.execMntMbxReq m v s
  | .tileCountersSel m => Sys2Proof.Machine.execTileCountersSel m s
  | .vaultBwSel m => Sys2Proof.Machine.execVaultBwSel m s
  | .pendingSel m => Sys2Proof.Machine.execPendingSel m s
  | .expandMacSel m => Sys2Proof.Machine.execExpandMacSel m s
  | .identitySel m => Sys2Proof.Machine.execIdentitySel m s
  | .sessionSlotsSel m => Sys2Proof.Machine.execSessionSlotsSel m s
  | .mgmtSessionsSel m => Sys2Proof.Machine.execMgmtSessionsSel m s
  | .mailboxValid m => Sys2Proof.Machine.execMailboxValid m s
  | .mntMbxDone m v => Sys2Proof.Machine.execMntMbxDone m v s
  | .voteCompare field a b c => Sys2Proof.Machine.execVoteCompare field a b c s
  | .voteReload field => Sys2Proof.Machine.execVoteReload field s
  | .evcPend m w v => Sys2Proof.Machine.execEvcPend m w v s
  | .evcAck m v => Sys2Proof.Machine.execEvcAck m v s
  | .evcRoute m src v => Sys2Proof.Machine.execEvcRoute m src v s
  | .evcCoal m e v => Sys2Proof.Machine.execEvcCoal m e v s
  | .eventOccurrence => Sys2Proof.Machine.execEventOccurrence s
  | .coalesceTimer f e => Sys2Proof.Machine.execCoalesceTimer f e s
  | .collectorSleep => Sys2Proof.Machine.execCollectorSleep s
  | .collectorWake => Sys2Proof.Machine.execCollectorWake s
  | .faultRecord detected => Sys2Proof.Machine.execFaultRecord detected s
  | .fltAck m v => Sys2Proof.Machine.execFltAck m v s
  | .classCAutoAck seq => Sys2Proof.Machine.execClassCAutoAck seq s
  | .fltSrcStatClear m w v => Sys2Proof.Machine.execFltSrcStatClear m w v s
  | .fltNPulseEnd => Sys2Proof.Machine.execFltNPulseEnd s
  | .hbeatToggle => Sys2Proof.Machine.execHbeatToggle s
  | .healthStrobe => Sys2Proof.Machine.execHealthStrobe s
  | .strobeTimeout => Sys2Proof.Machine.execStrobeTimeout s
  | .fence x => Sys2Proof.Machine.execFence x s
  | .unfence x => Sys2Proof.Machine.execUnfence x s
  | .fltInject x => Sys2Proof.Machine.execFltInject x s
  | .fltLdgSel m v => Sys2Proof.Machine.execFltLdgSel m v s
  | .ledgerReadDone => Sys2Proof.Machine.execLedgerReadDone s
  | .ledgerTailWrite => Sys2Proof.Machine.execLedgerTailWrite s
  | .ledgerWindowEnd => Sys2Proof.Machine.execLedgerWindowEnd s
  | .controlCycleEnd => Sys2Proof.Machine.execControlCycleEnd s
  | .stateCopy crcOk => Sys2Proof.Machine.execStateCopy crcOk s
  | .copyAckMissed => Sys2Proof.Machine.execCopyAckMissed s
  | .switchOver src => Sys2Proof.Machine.execSwitchOver src s
  | .switchOverDone => Sys2Proof.Machine.execSwitchOverDone s
  | .islandReset b => Sys2Proof.Machine.execIslandReset b s
  | .handBack => Sys2Proof.Machine.execHandBack s
  | .noIslandTimeout => Sys2Proof.Machine.execNoIslandTimeout s
  | .standbyReset x => Sys2Proof.Machine.execStandbyReset x s
  | .returnNow x => Sys2Proof.Machine.execReturnNow x s
  | .swap x => Sys2Proof.Machine.execSwap x s
  | .powerSample p => Sys2Proof.Machine.execPowerSample p s
  | .railOutOfRange d above => Sys2Proof.Machine.execRailOutOfRange d above s
  | .dvfsStep d => Sys2Proof.Machine.execDvfsStep d s
  | .pwrCap x => Sys2Proof.Machine.execPwrCap x s
  | .capTimeout => Sys2Proof.Machine.execCapTimeout s
  | .temperatureSample r => Sys2Proof.Machine.execTemperatureSample r s
  | .throttleStep t => Sys2Proof.Machine.execThrottleStep t s
  | .shutdownRecovery d => Sys2Proof.Machine.execShutdownRecovery d s
  | .cycleSample => Sys2Proof.Machine.execCycleSample s
  | .thermalCycle => Sys2Proof.Machine.execThermalCycle s
  | .hallmark q => Sys2Proof.Machine.execHallmark q s
  | .sessionOpen q pointOk => Sys2Proof.Machine.execSessionOpen q pointOk s
  | .sessionConfirm q confirmOk => Sys2Proof.Machine.execSessionConfirm q confirmOk s
  | .sessionClose q => Sys2Proof.Machine.execSessionClose q s
  | .openingTimeout p slot => Sys2Proof.Machine.execOpeningTimeout p slot s
  | .closeSess x => Sys2Proof.Machine.execCloseSess x s
  | .closeMgmt x => Sys2Proof.Machine.execCloseMgmt x s
  | .discover h body => Sys2Proof.Machine.execDiscover h body s
  | .identityGet h body => Sys2Proof.Machine.execIdentityGet h body s
  | .kexInit h body certOk => Sys2Proof.Machine.execKexInit h body certOk s
  | .kexConfirm h body confirmOk => Sys2Proof.Machine.execKexConfirm h body confirmOk s
  | .regRead h body => Sys2Proof.Machine.execRegRead h body s
  | .regWrite h body => Sys2Proof.Machine.execRegWrite h body s
  | .hallmarkGet h body => Sys2Proof.Machine.execHallmarkGet h body s
  | .powerCap h body => Sys2Proof.Machine.execPowerCap h body s
  | .testToken h body sigOk => Sys2Proof.Machine.execTestToken h body sigOk s
  | .blockPut h body => Sys2Proof.Machine.execBlockPut h body s
  | .op h body => Sys2Proof.Machine.execOp h body s
  | .faultAck h body => Sys2Proof.Machine.execFaultAck h body s
  | .setAddr h body => Sys2Proof.Machine.execSetAddr h body s
  | .revoke h body => Sys2Proof.Machine.execRevoke h body s
  | .close h body => Sys2Proof.Machine.execClose h body s
  | .mgmtSessionIdle n => Sys2Proof.Machine.execMgmtSessionIdle n s
  | .fwBegin h body => Sys2Proof.Machine.execFwBegin h body s
  | .fwPut h body => Sys2Proof.Machine.execFwPut h body s
  | .fwEnd h body digestOk sigOk => Sys2Proof.Machine.execFwEnd h body digestOk sigOk s
  | .fwReceptionTimeout => Sys2Proof.Machine.execFwReceptionTimeout s
  | .fwApplyDone targetOk flashOk components => Sys2Proof.Machine.execFwApplyDone targetOk flashOk components s
  | .fwStatus h body => Sys2Proof.Machine.execFwStatus h body s
  | .activate h body imageOk => Sys2Proof.Machine.execActivate h body imageOk s
  | .activateHoldAttempt => Sys2Proof.Machine.execActivateHoldAttempt s
  | .activateSwitch => Sys2Proof.Machine.execActivateSwitch s
  | .confirm h body => Sys2Proof.Machine.execConfirm h body s
  | .revert h body => Sys2Proof.Machine.execRevert h body s
  | .confirmWindowExpiry => Sys2Proof.Machine.execConfirmWindowExpiry s
  | .pcieLinkUp => Sys2Proof.Machine.execPcieLinkUp s
  | .configSpaceWrite f w => Sys2Proof.Machine.execConfigSpaceWrite f w s
  | .forwardedClockReturn d => Sys2Proof.Machine.execForwardedClockReturn d s
  | .streamPortLink port up => Sys2Proof.Machine.execStreamPortLink port up s
  | .mgmtPortLink port up => Sys2Proof.Machine.execMgmtPortLink port up s
  | .mcGroupResumed g => Sys2Proof.Machine.execMcGroupResumed g s
  | .tapReset => Sys2Proof.Machine.execTapReset s
  | .coolOkReturn => Sys2Proof.Machine.execCoolOkReturn s

end Sys2Proof.Machine
end

