-- ==== Sys2Proof/Machine/Step.lean ====
section
/-! DEFINITION.  One step: the command at the front of the queue, or, on an empty queue, the passing of time. -/
namespace Sys2Proof.Machine
open Sys2Proof

/-- Take the command at the front and run it on the rest; on an empty queue the block idles for 4 µs (log entry 5). -/
def step (s : State) : Host.Outcome State Fault Refusal :=
  match s.pending with
  | c :: rest => exec c { s with pending := rest }
  | [] => .next (idle s)

/-- The state with the command that a word of the table spells put in front; the table gives no row bits, so no
word spells one and the state stands as it is. -/
def State.withFetchWord (s : State) (nbits w : Nat) : State :=
  match decodeTableWord nbits w with
  | some c => { s with pending := c :: s.pending }
  | none => s

end Sys2Proof.Machine
end

