-- ==== Sys2Proof/Safety.lean ====
section
/-! DEFINITION.  What counts as a safe run of the block, and the invariant that every step keeps. -/
namespace Sys2Proof.Machine
open Sys2Proof

/-- An outcome is safe when it is a next state: R11 says that the block never acts unpredictably. -/
def Safe (o : Host.Outcome State Fault Refusal) : Prop := ∃ t, o = .next t

/-- The canonical form of memory: addresses strictly rising with no byte listed at its unlisted value, and poisoned lines
strictly rising with none listed as clean (R39, R183). -/
def Memory.wf (m : MemState) : Bool := swf 0 m.bytes && swf false m.poison

/-- Every owner's record queue holds at most 64 records (R430). -/
def State.queuesBounded (s : State) : Prop := ∀ e ∈ s.faults.queues, e.2.length ≤ 64
/-- Every tile's abandon list holds at most 16 tags (R136). -/
def State.abandonsBounded (s : State) : Prop := ∀ e ∈ s.tiles, e.2.abandonList.length ≤ 16

/-- The invariant of the block. -/
structure State.Inv (s : State) : Prop where
  mem : Memory.wf s.mem = true
  queues : s.queuesBounded
  abandons : s.abandonsBounded

/-- A master's path to registers is open: a function's BARs are enabled and it belongs to a partition or is the PF, a peer has a
session, an island is the active one (R366, R381, R392, R502). -/
def State.masterOpen (s : State) (m : Master) : Bool :=
  match m with
  | .func f => s.barOpen f && s.funcLive f
  | .peer n => (s.mgmt n).opened
  | .island b => s.isActive b
  | _ => true

/-- A write access reaches register `r` and finds nothing armed: the address is the register's, its die answers, the master may
write it (R393), and the master has no pair and no dual write begun (R395, R397). -/
structure Reaches (s : State) (x : RegAccess) (r : Reg) : Prop where
  reg : accReg? x = some r
  fits : locFits x.loc x.master = true
  path : s.masterOpen x.master = true
  clean : x.poisoned = false
  up : ∀ a, locAddr x.loc = some a → s.regUp x.master a = true
  may : s.canWrite x.master r = true
  noPair : ∀ b, s.armedIn x.master b = none
  noDual : ∀ a ∈ s.reg.dual, a.master ≠ x.master

/-- A write that reaches a guarded register of 32 bits and passes its guard: the group is in PRIV and the master is privileged (R394). -/
structure Passes (s : State) (x : RegAccess) (r : Reg) : Prop extends Reaches s x r where
  mode : ∀ g, r.group = some g → s.pairMode g = false
  priv : s.privileged x.master = true

/-- The mint has a route to every die that is ready (R36). -/
def State.Routed (s : State) : Prop := ∀ d ∈ [4, 5, 6, 7, 8, 9], s.die d = .ready → s.reach 10 d = true

/-- Every hearth that the directory records as a line's owner holds the line (R192, R209). -/
def State.OwnersHold (s : State) : Prop := ∀ line, s.ownerGone line = false

/-- Tile `u` after its running command `c` is over with `st`, where it stood as `x` when the command ended: nothing runs, the command's queue has
moved past it (OK, ABANDONED), emptied (flushed) or halted, and the other queues stand (R107, R115, R137). -/
structure Ended (x u : Tile) (c : RunCmd) (st : Nat) : Prop where
  idle : u.running = none
  queue : u.q c.queue =
    if c.flushed then { x.q c.queue with head := (x.q c.queue).tail, marked := [] }
    else if st = stOk ∨ st = stAbandoned then
      { x.q c.queue with head := (c.slot + 1) % 64, marked := (x.q c.queue).marked.filter (fun m => m ≠ c.slot) }
    else { x.q c.queue with halted := true }
  others : ∀ q, q ≠ c.queue → u.q q = x.q q
  lastErr : u.lastErr = if st = stOk ∨ st = stAbandoned then x.lastErr else st

/-- The completion record that a command posts, where it posts one (R116): CPL with OK, any other status, or an END. -/
def recordOf (t : Nat) (c : RunCmd) (st num opf res : Nat) : List TileDone :=
  if (st = stOk ∧ dCpl c.desc) ∨ st ≠ stOk ∨ dOp c.desc = 0x10 then
    [{ opcode := dOp c.desc, status := st, numeric := BitVec.ofNat 8 num, opflags := BitVec.ofNat 8 opf, queue := c.queue,
       tile := t, taken := c.taken, result := res, tag := dTag c.desc, user := dUser c.desc, tally := dTally c.desc, add := dAdd c.desc }]
  else []

/-- A tile on which nothing runs, spills or restores. -/
def Tile.quiet (x : Tile) : Bool := x.running.isNone && x.spilling.isNone && x.restoring.isNone && x.frame0.isNone && x.frame1.isNone

/-- Submission queue q's oldest forwarded command is f, it is `op`, and it is acted on now: dispatch is not held, and of the Teller's commands it is the queue's
turn (R279, R280, R301). -/
structure State.Awaits (s : State) (q op : Nat) (f : Forwarded) : Prop where
  going : s.teller.held = false
  oldest : s.forwardedAt q op = some f
  turn : tellerOp op = true → s.turn (s.sqPart q) = some q

/-- The state in which such a command is acted on: it has left the queue's forwarded commands, and a command of the Teller has had its queue's turn. -/
def State.taken (s : State) (q op : Nat) : State := if tellerOp op then (s.dropForwarded q).markServed q else s.dropForwarded q

/-- A message header that an open session's message is taken with: the session is open in slot n, its tag verifies, its SEQ is not stale, and where
the message wants it the role is ADMIN (R501, R502). -/
structure Speaks (s : State) (h : MsgHdr) (n : Nat) (admin : Bool) : Prop where
  up : s.mgmtUp = true
  slot : s.peerOf h.session = some n
  tag : h.tagOk = true
  fresh : (s.mgmt n).seqIn ≤ h.seq
  role : admin = true → (s.mgmt n).admin = true

/-- The state once such a message's SEQ has been taken. -/
def State.heard (s : State) (n : Nat) (h : MsgHdr) : State := s.setMgmt n { s.mgmt n with seqIn := h.seq + 1 }
/-- The reply of a message: TYPE | 0x80 with SEQ echoed (R501). -/
def replyOf (h : MsgHdr) (typ : Nat) (body : List Byte) : MgmtReply := { typ := typ + 0x80, session := h.session, seq := h.seq, body := body }

end Sys2Proof.Machine
end

