-- ==== Sys2Proof/WellFormed.lean ====
section
/-! DEFINITION.  Which commands the block can be given: every unit a command names exists (R1, R4, R10, R29, R44, R46, R106,
R138, R338, R352, R361, R366, R373, R391), and every payload has a length that its port can carry. -/
namespace Sys2Proof

/-- A master that exists: functions 0-8, management slots 0-3 (R366, R392, R502). -/
def Master.wf : Master → Bool
  | .func f => decide (f < 9)
  | .peer n => decide (n < 4)
  | .island _ | .ohmis | .mint => true
/-- A register access: BAR0 has 16 MiB, BAR2 64 MiB, a device address 48 bits; a function uses its BARs, the others device addresses (R369, R392). -/
def RegAccess.wf (x : RegAccess) : Bool :=
  x.master.wf && (match x.loc, x.master with
    | .bar0 o, .func _ => decide (o < 2 ^ 24)
    | .bar2 o, .func _ => decide (o < 2 ^ 26)
    | .window _, .func _ => false
    | .window a, _ => decide (a < 2 ^ 48)
    | _, _ => false)
/-- A management message: header fields of their widths, and a body that one datagram carries (R500, R501). -/
def msgWf (h : MsgHdr) (body : List Byte) : Bool := decide (h.session < 2 ^ 32) && decide (h.seq < 2 ^ 64) && decide (body.length ≤ 1400 - 32)
/-- Bounds of one number. -/
def below (n k : Nat) : Bool := decide (n < k)
/-- A flit's class has 3 bits and its partition 4, its payload at most 64 bytes, and 72 bytes arrive (R341). -/
def Flit.wf (f : Flit) : Bool :=
  below f.cls 8 && below f.part 16 && decide (f.payload.length ≤ 64) && f.waiting.all (fun w => below w.1 8 && below w.2 16) &&
    f.got.all (fun b => b.length == 72)
/-- A fault names a source and an owner (R424, R426). -/
def FaultReq.wf (f : FaultReq) : Bool := below f.source 512 && decide (f.owner ≤ 8) && below f.addr (2 ^ 48)
/-- A configuration write's value fits its field (R371). -/
def ConfigWrite.wf : ConfigWrite → Bool
  | .msixEntry e _ _ _ => below e 256
  | .bar4Size n => below n 64
  | _ => true

/-- The command names units that exist. -/
def Instr.wf : Instr → Bool
  | .firing r => r.lanes.all (fun e => below e.1 30) && below r.measured.length 6
  | .smbusClockLowTimeout | .recoveryImageWritten | .mouldInstallWriteDone _ | .amendFence | .amendScrubDone | .amendGrant => true
  | .mouldInstall q _ | .amend q _ | .admitReq q _ | .cancel q | .cancelNow q | .reqSuspend q | .reqResume q | .ringSet q | .poolAdd q | .poolShrink q
  | .adapterPublish q | .streamOpen q | .streamClose q | .streamFeed q | .streamKey q | .streamClass q | .sqFetch q _ | .wareLoad q | .wareUnload q
  | .scrub q | .memTest q | .opQuery q | .opSuspend q | .opResume q | .opCancel q | .hallmark q | .sessionOpen q _ | .sessionConfirm q _
  | .sessionClose q => below q 1024
  | .mouldInstallMsg h body _ | .amendMsg h body _ | .discover h body | .identityGet h body | .kexInit h body _ | .kexConfirm h body _ | .regRead h body
  | .regWrite h body | .hallmarkGet h body | .powerCap h body | .testToken h body _ | .blockPut h body | .op h body | .faultAck h body | .setAddr h body
  | .revoke h body | .close h body | .fwBegin h body | .fwPut h body | .fwEnd h body _ _ | .fwStatus h body | .activate h body _ | .confirm h body
  | .revert h body => msgWf h body
  | .slabLoad t | .slabMatmul t | .slabConv t | .attend t | .vecRun t | .move t | .gatherPages t | .reduce t | .tallyWait t | .tallySignal t | .yield t
  | .sample t | .cropResize t | .boxDecode t | .nms t | .endStream t | .yieldPoint t | .spillDone t | .restoreDone t | .commandBoundary t | .dmaHandover t
  | .tallyWake t | .waitTimeout t | .reduceResult t | .waitRegistration t | .throttleStep t => below t 32
  | .cedeExpiry t q => below t 32 && below q 4
  | .klnTqTail m t q _ => m.wf && below t 32 && below q 4
  | .queueEn m t _ | .flush m t _ | .resume m t _ | .klnAbandon m t _ => m.wf && below t 32
  | .abandonActed t tag => below t 32 && below tag (2 ^ 32)
  | .dmaTransferDone t e => below t 32 && below e 2
  | .signalAtHome | .resetAtHome | .zeroWriterDone | .completionRecord | .ringRecord | .completionPost => true
  | .tallyBroken r => below r.tally 16384
  | .hrtTallyValWrite m n _ => m.wf && below n 16384
  | .hrtTallyStatClear m h _ | .hrtRcFlush m h _ => m.wf && below h 4
  | .ownershipRequest h x => below h 4 && below x.addr (2 ^ 48)
  | .readMiss h addr _ | .writeBack h addr | .evictionNotice h addr => below h 4 && below addr (2 ^ 48)
  | .homeSideAccess addr _ => below addr (2 ^ 48)
  | .patrolRead v _ => below v 2
  | .accountingWindowEnd chan served _ => below chan 48 && decide (served.length ≤ 8)
  | .cancelNowComplete i | .deadline i | .keyCacheFill i => below i 65536
  | .poolShrinkDone h | .wareLoadDone h _ | .longOperationDone h _ => below h (2 ^ 32)
  | .adapterUnpin ware _ _ => below ware 65536
  | .stepBoundary ware | .chunkDispatch ware => below ware 65536
  | .pagesFreed p => below p 8
  | .ringReadIndex f i _ => below f 9 && below i 65536
  | .streamClosed c | .jitterGapLost c | .nalRelease c _ | .bufferTallyPoll c | .encodeNalPost c => below c 256
  | .frameReceive f => below f.port 4 && decide (f.bytes.length ≤ 9216)
  | .wheelRowBoundary w _ => below w 4
  | .flitReceive e g f => below e 30 && below g 8 && f.wf
  | .nakReplay e g seq => below e 30 && below g 8 && below seq 4096
  | .laneFail e lane => below e 30 && below lane 68
  | .repairDone e | .narrowingDone e => below e 30
  | .portTrained port _ _ => below port 15
  | .retrain x | .portEn x | .mntDieReset x | .pairArm x | .pairComplete x | .dualWrite x | .registerWrite x | .unimplementedAccess x _ | .fence x
  | .unfence x | .fltInject x | .standbyReset x | .returnNow x | .swap x | .pwrCap x | .closeSess x | .closeMgmt x => x.wf
  | .rootClockLost _ | .rootClockReturn | .dieReset => true
  | .forwardedClockLoss d | .forwardedClockReturn d | .dieReady d _ => below d 10
  | .idcode tap | .samplePreload tap | .extest tap | .clamp tap | .highz tap | .ijtag tap => below tap 11
  | .bypass tap code => below tap 11 && below code 256
  | .instrumentWrite _ _ | .tapReset => true
  | .bar4Write f ofs data _ => below f 9 && below ofs (2 ^ 40) && decide (data.length ≤ 4096)
  | .bar4Read f ofs len => below f 9 && below ofs (2 ^ 40) && decide (len ≤ 4096)
  | .sqTailDoorbell f q _ | .cqHeadDoorbell f q _ | .queueCfgWrite f _ q _ | .queueBaseWrite f _ q _ => below f 9 && below q 1024
  | .flr f => below f 9
  | .perstN _ _ | .hotReset | .linkDownTimeout | .refclkLost | .linkRetry _ | .pcieLinkUp => true
  | .linkDown d => (match d with | .link => true | .d3hot f | .busMasterClear f => below f 9)
  | .msixUnmask f e => below f 9 && below e 256
  | .mgmtFrameForward port _ _ frame => below port 2 && decide (frame.length ≤ 1522)
  | .pwrFailN | .pwrBrakeN _ | .brakeRampStep | .coolOk | .coolOkTimeout | .flowLostTimeout | .testEn _ | .coolOkReturn => true
  | .tachWindow hz => below hz (2 ^ 17)
  | .coolingStepChange step => below step 4
  | .sidebandLongHold n => below n 4
  | .chatter n | .chatterEnd n => below n 6
  | .pairTimeout m _ => m.wf
  | .postedWriteApplied _ => true
  | .mntIdx m _ | .mntDat m _ _ | .mntMbxReq m _ | .tileCountersSel m | .vaultBwSel m | .pendingSel m | .expandMacSel m | .identitySel m
  | .sessionSlotsSel m | .mgmtSessionsSel m | .mailboxValid m | .mntMbxDone m _ | .evcAck m _ | .fltAck m _ | .fltLdgSel m _ => m.wf
  | .voteCompare field _ _ _ | .voteReload field => below field.addr (2 ^ 48)
  | .evcPend m w _ => m.wf && below w 64
  | .evcRoute m src _ => m.wf && below src 2048
  | .evcCoal m e _ => m.wf && below e 256
  | .eventOccurrence | .collectorSleep | .collectorWake => true
  | .coalesceTimer f e => below f 9 && below e 256
  | .faultRecord f => f.all FaultReq.wf
  | .classCAutoAck seq => below seq (2 ^ 32)
  | .fltSrcStatClear m w _ => m.wf && below w 16
  | .fltNPulseEnd | .hbeatToggle | .healthStrobe | .strobeTimeout | .ledgerReadDone | .ledgerTailWrite | .ledgerWindowEnd => true
  | .controlCycleEnd | .stateCopy _ | .copyAckMissed | .switchOverDone | .islandReset _ | .handBack | .noIslandTimeout => true
  | .switchOver src => (decide (416 ≤ src) && decide (src ≤ 423)) || src == 0xFFFF
  | .powerSample p => decide (p.rails.length ≤ 13)
  | .railOutOfRange d _ => below d 13
  | .dvfsStep d => (match d with | .slower t _ | .faster t => below t 32 | .railUp k | .railDown k => below k 4 | .relax => true)
  | .capTimeout | .cycleSample | .thermalCycle => true
  | .temperatureSample r => r.tileA.length == 32 && r.tileB.length == 32 && r.stores.length == 32 && r.junctions.length == 3
  | .shutdownRecovery d => below d 11
  | .openingTimeout p slot => below p 8 && below slot 16
  | .mgmtSessionIdle n => below n 4
  | .fwReceptionTimeout | .activateHoldAttempt | .activateSwitch | .confirmWindowExpiry => true
  | .fwApplyDone _ _ components => components.length == 4
  | .configSpaceWrite f w => below f 9 && w.wf
  | .streamPortLink port _ => below port 4
  | .mgmtPortLink port _ => below port 2
  | .mcGroupResumed g => below g 6

end Sys2Proof
end

