-- ==== Sys2Proof/Certificates/Slice0/Obligations.lean ====
section
/-! DEFINITION.  The statements for the provers.  In each, `t = { s with f := t.f, ... }` says that nothing but the
fields named there changes: it is the statement's frame. -/
open Sys2Proof Sys2Proof.Machine

/-! ## The machine -/

/-- A step takes the command at the front of the queue and runs it on the rest. -/
def Obligations.StepRunsTheFrontCommand : Prop :=
  ∀ (c : Instr) (rest : List Instr) (s : State), step { s with pending := c :: rest } = exec c { s with pending := rest }

/-- Every step answers a next state (R11: the module never acts unpredictably), and it takes exactly the front command
off the queue: a command never adds to, drops or reorders the commands that wait. -/
def Obligations.StepTakesOneCommand : Prop :=
  ∀ s : State, ∃ t, step s = .next t ∧ t.pending = s.pending.tail

/-- Every step keeps the invariant: memory in canonical form, at most 64 records in each fault queue (R430) and at most 16
tags in each abandon list (R136). -/
def Obligations.StepKeepsInvariant : Prop :=
  ∀ (s t : State), s.Inv → step s = .next t → t.Inv

/-- The invariant holds at reset. -/
def Obligations.ResetSatisfiesInvariant : Prop := State.reset.Inv

/-- What the Reset columns of the register tables say of State.reset: KLN_WAIT_LIMIT 0x1_0000 (R144), MLD_SCRUB_RATE 0x40
(R74), VLT_PATROL_CTRL 24 and running (R215), MNT_IDX OFFSET 0 with INC set (R411), EVC_COAL COUNT 1 and TIME 0 (R423),
EFK_PORT EN set (R362), tallies and counters 0 (R201, R304), no request and no wait. -/
def Obligations.ResetRegisterValues : Prop :=
  (∀ t, (State.reset.tile t).waitLimit = 0x10000 ∧ (State.reset.tile t).takeCount = 0 ∧ (State.reset.tile t).numSticky = 0) ∧
  State.reset.mould.scrubRate = 0x40 ∧ State.reset.mould.amendCount = 0 ∧
  (∀ v, (State.reset.vault v).patrolPeriod = 24 ∧ (State.reset.vault v).patrolOff = false ∧ (State.reset.vault v).ceCount = 0) ∧
  (∀ i, (State.reset.inst i).offset = 0 ∧ (State.reset.inst i).inc = true ∧ (State.reset.inst i).errCount = 0) ∧
  (∀ k, (State.reset.coal k).count = 1 ∧ (State.reset.coal k).time = 0) ∧
  (∀ e, (State.reset.portEnd e).en = true ∧ (State.reset.portEnd e).up = false) ∧
  (∀ n, State.reset.tally n = 0) ∧ (∀ i, (State.reset.request i).state = .free) ∧
  State.reset.teller.usec = 0 ∧ State.reset.links.aoCount = 0 ∧ State.reset.pending = []

/-- The block idles on an empty queue: 4 µs pass, so TLR_USEC counts 4 once fired and MNT_AO_COUNT 275 once the PLL has
locked.  The model's choice, log entry 5.  Where no enable is latched, nothing else changes but that the shut-downs of ports end (R357). -/
def Obligations.EmptyQueueIdles : Prop :=
  ∀ s : State, s.pending = [] → ∃ t, step s = .next t ∧
    ((∀ e < 30, (s.portEnd e).rearm = false) →
      t.teller = { s.teller with usec := if s.mould.fired then s.teller.usec + 4 else s.teller.usec } ∧
      t.links.aoCount = (if s.links.rootLock then s.links.aoCount + 275 else s.links.aoCount) ∧
      (∀ e < 30, (t.portEnd e).shutting = false) ∧ (∀ e, (t.portEnd e).up = (s.portEnd e).up) ∧
      t = { s with links := t.links, teller := t.teller })

/-! ## Event collector (R413-R423) -/

/-- EVENT_OCCURRENCE counts the oldest released occurrence on the vector of its source (R416, R417): COUNT goes up by one to
at most 255 and its timer runs; where the threshold is then reached and no message is outstanding, the vector starts anew,
outstanding exactly when a source of it is pending (R418).  COALESCE_TIMER compares a vector whose timer has run TIME units, and leaves one
with a message outstanding as it is. -/
def Obligations.OccurrencesCoalesce : Prop :=
  (∀ (s : State) (x k : Nat) (rest : List Nat), s.reg.sleeping = false → s.reg.occurrences = x :: rest → s.srcVec x = some k →
    let v := s.vec k
    let w : Vec := { v with occurred := min 255 (v.occurred + 1), timing := true, since := if v.timing then v.since else s.links.aoCount.toNat }
    ∃ t, exec .eventOccurrence s = .next t ∧ t.reg.occurrences = rest ∧
      (if w.reached (s.coal k) s.links.aoCount.toNat && !w.outstanding then
         (t.vec k).outstanding = s.vecPending k ∧ (t.vec k).occurred = 0 ∧ (t.vec k).timing = false
       else t.vec k = w) ∧
      (∀ j, j ≠ k → t.vec j = s.vec j) ∧ t = { s with host := t.host, reg := t.reg, mem := t.mem }) ∧
  (∀ (s : State) (x : Nat) (rest : List Nat), s.reg.sleeping = false → s.reg.occurrences = x :: rest → s.srcVec x = none →
    exec .eventOccurrence s = .next { s with reg := { s.reg with occurrences := rest } }) ∧
  (∀ (s : State) (f e : Nat), s.reg.sleeping = false → (s.vec (vecKey f e)).timing = true →
    (s.coal (vecKey f e)).time * 64 ≤ s.links.aoCount.toNat - (s.vec (vecKey f e)).since →
    let v := s.vec (vecKey f e)
    ∃ t, exec (.coalesceTimer f e) s = .next t ∧
      (if v.outstanding then t = s
       else (t.vec (vecKey f e)).outstanding = s.vecPending (vecKey f e) ∧ (t.vec (vecKey f e)).occurred = 0 ∧
         (∀ j, j ≠ vecKey f e → t.vec j = s.vec j)) ∧
      t = { s with host := t.host, reg := t.reg, mem := t.mem })

/-- COLLECTOR_SLEEP: with no function able to receive messages the collector sleeps.  In the sleep a posting of a source that is pending
already is no occurrence of its own, and occurrences wait.  COLLECTOR_WAKE: what waited counts once for each source, and a vector whose
threshold has been met meanwhile, its timer having gone on by MNT_AO_COUNT, starts anew (R420). -/
def Obligations.CollectorSleepAndWake : Prop :=
  (∀ s : State, s.receivable = false → s.reg.sleeping = false → s.reg.occurrences = [] →
    exec .collectorSleep s = .next { s with reg := { s.reg with sleeping := true } }) ∧
  (∀ (s : State) (was : Bool) (x : Nat), s.reg.sleeping = true → exec .eventOccurrence s = .next s ∧
    (s.occurFrom was x).reg.occurrences = (if was then s.reg.occurrences else s.reg.occurrences ++ [x])) ∧
  (∀ s : State, s.receivable = true → s.reg.sleeping = true →
    ∃ t, exec .collectorWake s = .next t ∧ t.reg.sleeping = false ∧ t.reg.occurrences.Nodup ∧
      (∀ x, x ∈ t.reg.occurrences ↔ x ∈ s.reg.occurrences) ∧
      (∀ k, if (s.vec k).reached (s.coal k) s.links.aoCount.toNat && !(s.vec k).outstanding then
          (t.vec k).outstanding = s.vecPending k ∧ (t.vec k).occurred = 0 ∧ (t.vec k).timing = false
        else t.vec k = s.vec k) ∧
      t = { s with host := t.host, reg := t.reg, mem := t.mem })

/-- The registers of a function's event view, written by that function while the collector is awake (a write interrupts its first dual write
in the block, R397): EVC_PEND serves the tile
completion latches named (R415), EVC_ACK ends a message that has left V0 (R418), EVC_ROUTE takes VECTOR only with EN clear
and inside the table (R416), EVC_COAL sets COUNT and TIME (R423).
MSIX_UNMASK clears the entry's mask (R419); a message that waited for it is written to host memory once no other mask
holds it, and then waits no longer. -/
def Obligations.EventRegistersAndUnmask : Prop :=
  (∀ (s : State) (f : Nat), s.barOpen f = true → s.funcLive f = true → s.reg.sleeping = false →
  let u := s.failDual (.func f) (addrBlock (evcAddr 0))
  (∀ v : Word, ∃ t, exec (.evcPend (.func f) 32 v) s = .next t ∧ t.reg.reply = .accepted ∧
      (∀ b < 32, t.reg.latches.getLsbD b = (s.reg.latches.getLsbD b && !(v.getLsbD b && s.srcFunc (1024 + b) == f))) ∧
      t = { u with reg := t.reg }) ∧
  (∀ v : Word, (s.vec (vecKey f (v.toNat % 256))).outstanding = true → (s.vec (vecKey f (v.toNat % 256))).sent = false →
      exec (.evcAck (.func f) v) s = .next (u.reply .accepted)) ∧
  (∀ v : Word, (s.vec (vecKey f (v.toNat % 256))).outstanding = true → (s.vec (vecKey f (v.toNat % 256))).sent = true →
      (s.vec (vecKey f (v.toNat % 256))).reached (s.coal (vecKey f (v.toNat % 256))) s.links.aoCount.toNat = false →
      ∃ t, exec (.evcAck (.func f) v) s = .next t ∧ (t.vec (vecKey f (v.toNat % 256))).outstanding = false ∧ t = { u with reg := t.reg }) ∧
  (∀ (x : Nat) (v : Word), 1024 ≤ x → x < 2048 → s.srcFunc x = f → ∃ t, exec (.evcRoute (.func f) x v) s = .next t ∧
      (t.route x).en = v.getLsbD 8 ∧
      (t.route x).vector = (if (s.route x).en = false ∧ v.toNat % 256 < tableSize f then v.toNat % 256 else (s.route x).vector) ∧
      t = { u with reg := t.reg }) ∧
  (∀ (e : Nat) (v : Word), e < tableSize f → (s.vec (vecKey f e)).occurred = 0 → (s.vec (vecKey f e)).timing = false →
      ∃ t, exec (.evcCoal (.func f) e v) s = .next t ∧ (t.coal (vecKey f e)).count = v.toNat % 256 ∧
        (t.coal (vecKey f e)).time = v.toNat / 256 % 65536 ∧ t = { u with reg := t.reg })) ∧
  (∀ (s : State) (f e : Nat), f ≤ 8 → e < tableSize f → ∃ t, exec (.msixUnmask f e) s = .next t ∧
    ((t.func f).msixEntry e).mask = false ∧
    (¬ e ∈ (s.func f).pba → t.mem = s.mem ∧ (t.func f).pba = (s.func f).pba) ∧
    (e ∈ (s.func f).pba → (s.func f).funcMask = false → s.funcQuiet f = false → ¬ e ∈ (t.func f).pba ∧ (t.vec (vecKey f e)).sent = true) ∧
    t = { s with host := t.host, reg := t.reg, mem := t.mem })

/-! ## Faults, the Ledger and the Assay islands (R424-R457) -/

/-- The Ledger's own events: the tail is written behind what each of the ring's two flash copies keeps (R439, R442); at the end of a one-second window
each source's further record enters the tail (R442); a read that FLT_LDG_SEL began shows the record of that SEQ or NOT_HELD (R443). -/
def Obligations.LedgerTailWindowAndRead : Prop :=
  (∀ s : State, ∃ t, exec .ledgerTailWrite s = .next t ∧ t.ledger.tail = [] ∧
      t.ledger.ring = ledgerKeep (s.ledger.ring ++ s.ledger.tail) ∧ t.ledger.ringB = ledgerKeep (s.ledger.ringB ++ s.ledger.tail) ∧ t = { s with ledger := t.ledger }) ∧
  (∀ s : State, ∃ t, exec .ledgerWindowEnd s = .next t ∧ t.ledger.windows = [] ∧ t.ledger.ring = s.ledger.ring ∧ t.ledger.ringB = s.ledger.ringB ∧
      t.ledger.tail = s.ledger.tail ++ s.ledger.windows.filterMap (fun e => e.2.bind (·.further)) ∧ t = { s with ledger := t.ledger }) ∧
  (∀ (s : State) (p : Posted), s.reg.posted.find? (fun p => p.block = faultBlock) = some p →
    ∃ t, exec .ledgerReadDone s = .next t ∧ t.ledger.sel = p.value.toNat % 2 ^ 32 ∧ t.ledger.busy = false ∧
      t.ledger.shown = s.ledger.ring.find? (fun r => r.seq = p.value.toNat % 2 ^ 32) ∧ t.ledger.notHeld = t.ledger.shown.isNone ∧
      t = { s with reg := t.reg, ledger := t.ledger })

/-- FAULT_RECORD of a source that is raised, is not reserved and has no unacknowledged record with its owner: the source's bit of
FLT_SRC_STAT is set (R434), and the owner's queue gains, behind what it holds, one record of that source with COUNT 1 (R430) whose
class is the source's, one higher where the owner holds an unacknowledged record of that class (R432), while the queue has room;
a full queue stays as it is and DROPPED counts (R430).  The first clause takes only records with reaction INT.
A further occurrence of a source whose queued record is unacknowledged makes no new record: the queued one counts it, the fences that the source's history asks for come (R451),
and its reaction is applied again (R431), which for INT does nothing more.
A source that hardware detects makes its record as one that another row has raised, with its own class and not injected. -/
def Obligations.FaultRecords : Prop :=
  (∀ (s : State) (f : FaultReq) (rest : List FaultReq), s.links.rootLock = true → s.faults.raised = f :: rest → srcReserved f.source = false →
    (s.faultQueue (s.srcOwner f)).find? (fun r => r.source = f.source) = none →
    let o := s.srcOwner f
    let q := s.faultQueue o
    let c := f.cls.getD (srcClass f.source)
    let r := stronger ((s.mould.reactions[f.source]?).getD 0) (factoryReaction f.source)
    (escalate q o c r).2.2 = 0 → 32 ≤ f.source → within f.source 181 228 = false → within f.source 279 282 = false →
    ∃ t, exec (.faultRecord none) s = .next t ∧ t.faults.raised = rest ∧ t.faults.srcStat = s.faults.srcStat ||| BitVec.ofNat 512 (2 ^ f.source) ∧
      (q.length < 64 → ∃ n, t.faultQueue o = q ++ [n] ∧ n.source = f.source ∧ n.owner = o ∧ n.count = 1 ∧ n.injected = f.injected ∧
        n.cls = (if c < 2 ∧ q.any (fun x => x.cls == c) then c + 1 else c)) ∧
      (64 ≤ q.length → t.faultQueue o = q ∧ sget 0 t.faults.dropped o = min 65535 (sget 0 s.faults.dropped o + 1)) ∧
      (∀ p, p ≠ o → t.faultQueue p = s.faultQueue p) ∧
      t = { s with faults := t.faults, ledger := t.ledger, reg := t.reg }) ∧
  (∀ (s : State) (f : FaultReq) (r : LedgerRec) (rest : List FaultReq), s.links.rootLock = true → s.faults.raised = f :: rest →
    srcReserved f.source = false → (s.faultQueue (s.srcOwner f)).find? (fun x => x.source = f.source) = some r →
    ∃ u : State, exec (.faultRecord none) s = .next ((u.fenceByHistory f.source (s.makesRecord f.source)).react r.reaction f.source (s.srcOwner f) f.injected) ∧ u.faults.raised = rest ∧
      u.faultQueue (s.srcOwner f) = (s.faultQueue (s.srcOwner f)).map
        (fun x => if x.source = f.source then { x with count := min 65535 (x.count + 1) } else x) ∧
      (∀ o, o ≠ s.srcOwner f → u.faultQueue o = s.faultQueue o) ∧
      u = { s with faults := u.faults, ledger := u.ledger, reg := u.reg }) ∧
  (∀ (s : State) (n o : Nat) (b : Bool), s.react 0 n o b = s) ∧
  (∀ (s : State) (f : FaultReq), s.links.rootLock = true → (s.detect f).links.rootLock = true → srcReserved f.source = false →
    exec (.faultRecord (some f)) s = exec (.faultRecord none)
      { s.detect f with faults := { (s.detect f).faults with raised := { f with injected := false, cls := none } :: (s.detect f).faults.raised } })

/-- Acknowledging: FLT_ACK with the SEQ of the head of a function's own partition's queue drops that head and nothing else, and
with another SEQ drops nothing there (R430); the active island drops class C system records that the Ledger holds (R430).
Writing 1 to bits of FLT_SRC_STATw from the PF: a set bit whose cause has gone is cleared; one whose cause persists stays set, and
CLR_REFUSED is set with LAST_REFUSED naming a refused source (R434).  Stated for a write of one bit. -/
def Obligations.AcknowledgeAndClear : Prop :=
  ((∀ (s : State) (f : Nat) (v : Word) (r : LedgerRec) (rest : List LedgerRec), s.barOpen f = true → s.funcLive f = true → s.funcPart f < 8 →
    s.faultQueue (s.funcPart f) = r :: rest →
    ∃ t, exec (.fltAck (.func f) v) s = .next t ∧ t.reg.reply = .accepted ∧
      (r.seq = v.toNat → t.faultQueue (s.funcPart f) = rest) ∧ (r.seq ≠ v.toNat → t.faultQueue (s.funcPart f) = r :: rest) ∧
      (∀ o, o ≠ s.funcPart f → o ≠ 8 → t.faultQueue o = s.faultQueue o) ∧ t = { s with faults := t.faults, reg := t.reg }) ∧
  (∀ (s : State) (n : Nat), s.islands.noneActive = false → s.islands.gap = none → (s.ledger.tail ++ s.ledger.ring).any (fun r => r.seq == n) = true →
    ∃ t, exec (.classCAutoAck n) s = .next t ∧ t.faultQueue 8 = (s.faultQueue 8).filter (fun r => !(r.seq == n && r.cls == 0)) ∧
      (∀ o, o ≠ 8 → t.faultQueue o = s.faultQueue o) ∧ t = { s with faults := t.faults, reg := t.reg })) ∧
  (∀ (s : State) (w b : Nat), s.barOpen 0 = true → w < 16 → b < 32 → s.faults.srcStat.getLsbD (32 * w + b) = true →
    ∃ t, exec (.fltSrcStatClear (.func 0) w (BitVec.ofNat 32 (2 ^ b))) s = .next t ∧
      (s.persists (32 * w + b) = false → t.faults.srcStat.getLsbD (32 * w + b) = false ∧ t.faults.clrRefused = s.faults.clrRefused) ∧
      (s.persists (32 * w + b) = true → t.faults.srcStat = s.faults.srcStat ∧ t.faults.clrRefused = true ∧ t.faults.lastRefused = 32 * w + b) ∧
      (∀ j, j ≠ 32 * w + b → t.faults.srcStat.getLsbD j = s.faults.srcStat.getLsbD j) ∧ t = { s with faults := t.faults, reg := t.reg })

/-- FLT_N and HBEAT: the pulse ends (R435); HBEAT toggles while a strobe has come, an island is active, no safety-class record is present
and no cooling shutdown holds, and stays at its level otherwise (R436); a strobe is noted, and 1 ms without one stops HBEAT (R436).
MC_GROUP_RESUMED ends the pause of its memory-controller group and of no other (R428). -/
def Obligations.HeartbeatAndFaultPin : Prop :=
  (∀ s : State, exec .fltNPulseEnd s = .next { s with faults := { s.faults with pulse := 0 } }) ∧
  (∀ s : State, s.links.rootLock = true → s.power.holdup = false → ∃ t, exec .hbeatToggle s = .next t ∧
      (s.faults.strobed = true ∧ s.safetyFault = false ∧ s.islands.noneActive = false ∧ s.power.coolShutdown = false →
        t.faults.hbeat = !s.faults.hbeat ∧ t.faults.hbeatStopped = false) ∧
      (s.faults.strobed = false ∨ s.safetyFault = true ∨ s.islands.noneActive = true ∨ s.power.coolShutdown = true →
        t.faults.hbeat = s.faults.hbeat ∧ t.faults.hbeatStopped = true) ∧ t = { s with faults := t.faults }) ∧
  (∀ s : State, s.islands.noneActive = false → s.islands.gap = none → s.mould.fired = true →
      exec .healthStrobe s = .next { s with faults := { s.faults with strobed := true } }) ∧
  (∀ s : State, exec .strobeTimeout s = .next { s with faults := { s.faults with strobed := false, hbeatStopped := true } }) ∧
  (∀ (s : State) (g : Nat), g < 6 → ∃ t, exec (.mcGroupResumed g) s = .next t ∧
      (∀ i < 6, t.faults.mcPaused.getLsbD i = (s.faults.mcPaused.getLsbD i && !(i == g))) ∧ t = { s with faults := t.faults })

/-- Control cycles of the active island (R445): a cycle strobes, counts, and sends a copy to a standby that takes copies; a copy with a
good CRC to a synchronised standby is acknowledged and changes nothing else; a missed acknowledgement raises source 424, counts in
COPY_FAILS, and starts a full copy over 20 cycles; an island reset puts the other island in self-test (R449). -/
def Obligations.ControlCycles : Prop :=
  (∀ s : State, s.islands.noneActive = false → s.islands.gap = none → s.mould.fired = true → ∃ t, exec .controlCycleEnd s = .next t ∧
      t.faults = { s.faults with strobed := true } ∧ t.islands.cycle = (s.islands.cycle + 1) % 2 ^ 64 ∧
      t.islands.copySent = decide (s.islands.st s.islands.standby ∈ [IslState.sync, .unsync, .selfTest]) ∧
      t = { s with faults := t.faults, islands := t.islands }) ∧
  (∀ s : State, s.islands.noneActive = false → s.islands.copySent = true → s.islands.st s.islands.standby = .sync →
      exec (.stateCopy true) s = .next { s with islands := { s.islands with copySent := false } }) ∧
  (∀ s : State, s.islands.copySent = true → ∃ t, exec .copyAckMissed s = .next t ∧ t.islands.st s.islands.standby = .unsync ∧
      t.islands.fullCopyLeft = 20 ∧ t.islands.copyFails = min 65535 (s.islands.copyFails + 1) ∧
      t.faults.raised = s.faults.raised ++ [{ source := 424 }] ∧ t = { s with islands := t.islands, faults := t.faults }) ∧
  (∀ (s : State) (b : Bool), s.islands.gap = none → s.mould.fired = true → s.islands.noneActive = false → b ≠ s.islands.activeB →
      ∃ t, exec (.islandReset b) s = .next t ∧ t.islands.st b = .selfTest ∧ t.islands.selfCycles = 0 ∧ t.islands.st (!b) = s.islands.st (!b) ∧
        t.islands.activeB = s.islands.activeB ∧ t = { s with islands := t.islands })

/-- A switch-over (R447-R449): a fault of the active island with a synchronised standby opens the gap, FLT_N keeps its level and dispatch is
held; SWITCH_OVER_DONE makes the other island active, closes the gap and counts an unplanned one in SWITCHOVERS; A takes control back only
when it is synchronised, has passed 64 self-test cycles and is not pinned; 100 ms without an active island cause a firing (R450). -/
def Obligations.SwitchOver : Prop :=
  (∀ (s : State) (src : Nat), s.islands.noneActive = false → s.mould.fired = true → s.islands.gap = none → 416 ≤ src → src ≤ 423 →
      (src % 2 == 1) = s.islands.activeB → s.islands.st s.islands.standby = .sync → ∃ t, exec (.switchOver src) s = .next t ∧
      t.islands.gap = some src ∧ t.islands.planned = false ∧ t.islands.st s.islands.activeB = .failed ∧ t.islands.st s.islands.standby = .sync ∧
      t.faults.fltNHeld = s.fltNCause ∧ t.teller.held = true ∧ t = { s with faults := t.faults, islands := t.islands, teller := t.teller }) ∧
  (∀ (s : State) (src : Nat), s.islands.gap = some src → s.islands.planned = false → s.islands.swap = false → ∃ t, exec .switchOverDone s = .next t ∧
      t.islands.activeB = !s.islands.activeB ∧ t.islands.st (!s.islands.activeB) = .active ∧ t.islands.gap = none ∧
      t.islands.switchovers = min 65535 (s.islands.switchovers + 1) ∧ t.islands.returns = s.islands.returns) ∧
  (∀ s : State, s.islands.noneActive = false → s.islands.activeB = true → s.islands.gap = none → s.islands.pinned = false → s.islands.stA = .sync →
      64 ≤ s.islands.selfCycles → s.update.holding = false → ∃ t, exec .handBack s = .next t ∧ t.islands.gap = some 0xFFFF ∧
      t.islands.planned = true ∧ t.teller.held = true ∧ t = { s with faults := t.faults, islands := t.islands, teller := t.teller }) ∧
  (∀ s : State, s.islands.noneActive = true → exec .noIslandTimeout s = .next { s with links := { s.links with firingDue := some .noIsland } }) ∧
  (∀ s : State, s.islands.noneActive = false → exec .noIslandTimeout s = .next s)

/-! ## Sideband pins (R385-R391) -/

/-- TEST_EN is a level and ends factory test mode when it falls (R437), unless the input chatters, which keeps its acting state (R387); a long hold sets its LONG bit, which stays set while the input is held,
and raises source 307 (R386, R391); chatter of TEST_EN sets its CHATTER bit and puts the input in its acting state (R387); the end of TEST_EN's chatter
clears CHATTERING; the third SMBus abort leaves the inventory absent with source 306 (R388). -/
def Obligations.SidebandInputs : Prop :=
  (∀ s : State, ∃ t, exec (.testEn true) s = .next t ∧ t.host.sbActive.getLsbD 5 = true ∧ t = { s with host := t.host }) ∧
  (∀ s : State, s.host.sbChattering.getLsbD 5 = false → ∃ t, exec (.testEn false) s = .next t ∧ t.host.sbActive.getLsbD 5 = false ∧ t.faults.testMode = false) ∧
  (∀ s : State, s.host.sbChattering.getLsbD 5 = true → exec (.testEn false) s = .next s) ∧
  (∀ (s : State) (n : Nat), n < 4 → s.host.sbActive.getLsbD (longInput n) = true → ∃ t, exec (.sidebandLongHold n) s = .next t ∧
      t.host.sbLong = s.host.sbLong ||| BitVec.ofNat 4 (2 ^ n) ∧ t.host.sbHeld = s.host.sbHeld ||| BitVec.ofNat 4 (2 ^ n) ∧
      t.faults.raised = s.faults.raised ++ [{ source := 307 }] ∧
      t = { s with host := t.host, faults := t.faults, ledger := t.ledger, reg := t.reg }) ∧
  (∀ s : State, s.host.sbChattering.getLsbD 5 = false → ∃ t, exec (.chatter 5) s = .next t ∧ t.host.sbChattering.getLsbD 5 = true ∧
      t.host.sbChatter.getLsbD 5 = true ∧ t.host.sbActive.getLsbD 5 = true ∧ t.faults.raised = s.faults.raised ++ [{ source := 307 }]) ∧
  (∀ s : State, s.host.sbChattering.getLsbD 5 = true → ∃ t, exec (.chatterEnd 5) s = .next t ∧ t.host.sbChattering.getLsbD 5 = false ∧
      t.host.sbActive.getLsbD 5 = false ∧ t.faults.testMode = false) ∧
  (∀ s : State, s.host.smbusBusy = true → ∃ t, exec .smbusClockLowTimeout s = .next t ∧ t.host.smbusAborts = s.host.smbusAborts + 1 ∧
      (s.host.smbusAborts < 2 → t.host.smbusBusy = true ∧ t.faults = s.faults) ∧
      (2 ≤ s.host.smbusAborts → t.host.smbusBusy = false ∧ t.host.sbActive.getLsbD 6 = true ∧ t.faults.raised = s.faults.raised ++ [{ source := 306 }]))

/-! ## Efrok links, clocks, die resets and test access (R339-R364) -/

/-- Flits (R340-R342) on a group that is up at both ends, its sender not in a replay.  A flit that arrives with a bad CRC, or whose SEQ is not the one expected, owes a NAK
and counts in FLIT_ERR, with the expected SEQ unchanged; a good flit in sequence moves the expected SEQ on by one, mod 4,096; either way a flit of a class joins the sender's
replay buffer.  A NAK at the sender acknowledges all before its SEQ, sends the rest again from the first and counts in REPLAYS; the eighth in a row for one SEQ stops the group
and, where no lane is named, the port trains again.  A group that is stopped takes nothing. -/
def Obligations.FlitsAndReplay : Prop :=
  ∀ (s : State) (e g : Nat), e < 30 →
  let o := farEnd e
  let x := s.portEnd o
  let y := x.group g
  let r := (s.portEnd e).group g
  ((s.portEnd e).groupUp g = true → x.groupUp g = true → r.bad.length < 15 →
    (∀ f : Flit, y.again = none → x.maySend (s.firstClass o f) g f = true → (∀ l, f.got = some l → l.length = 72 ∧ (readFlit l).crcOk = false) →
      (f.got = none → f.cls < 5 ∧ y.sendSeq ≠ r.expectSeq) → ∃ t, exec (.flitReceive e g f) s = .next t ∧
        ((t.portEnd e).group g).nakOwed = true ∧ ((t.portEnd e).group g).expectSeq = r.expectSeq ∧
        (t.portEnd e).flitErr = min (2 ^ 32 - 1) ((s.portEnd e).flitErr + 1) ∧
        ((t.portEnd o).group g).sent = (if f.cls < 5 then y.sent ++ [⟨f.cls, f.part, f.payload⟩] else y.sent) ∧ t = { s with links := t.links }) ∧
    (∀ f : Flit, y.again = none → x.maySend (s.firstClass o f) g f = true → f.got = none → f.cls < 5 → y.nakOwed = false → y.sendSeq = r.expectSeq →
      ∃ t, exec (.flitReceive e g f) s = .next t ∧ ((t.portEnd e).group g).expectSeq = (r.expectSeq + 1) % 4096 ∧
        ((t.portEnd e).group g).nakOwed = false ∧ (t.portEnd e).flitErr = (s.portEnd e).flitErr ∧
        ((t.portEnd o).group g).sent = y.sent ++ [⟨f.cls, f.part, f.payload⟩] ∧ t = { s with links := t.links })) ∧
  (∀ q : Nat, q < 4096 → (s.portEnd e).groupUp g = true → (s.portEnd e).nakFits g q = true →
    (¬ (r.nakSeq = q ∧ 7 ≤ r.nakRun) → ∃ t, exec (.nakReplay e g q) s = .next t ∧ ((t.portEnd e).group g).acked = q ∧
      ((t.portEnd e).group g).stopped = false ∧ ((t.portEnd e).group g).sent = r.sent.drop ((q + 4096 - r.acked) % 4096) ∧
      (((t.portEnd e).group g).sent ≠ [] → ((t.portEnd e).group g).again = some 0) ∧
      (t.portEnd e).replays = min (2 ^ 24 - 1) ((s.portEnd e).replays + 1) ∧ t = { s with links := t.links }) ∧
    (r.nakSeq = q → 7 ≤ r.nakRun → (s.portEnd e).repairing = false → y.bad = [] →
      ∃ u : State, exec (.nakReplay e g q) s = .next (u.retrainPort (e / 2)) ∧ ((u.portEnd e).group g).stopped = true ∧ ((u.portEnd e).group g).acked = q ∧
        (∀ k, k ≠ e → u.portEnd k = s.portEnd k) ∧ u = { s with links := u.links })) ∧
  (((s.portEnd e).group g).stopped = true → ∀ (f : Flit) (q : Nat), exec (.flitReceive e g f) s = .next s ∧ exec (.nakReplay e g q) s = .next s)

/-- Lanes and ports (R343-R345, R357): a lane that fails is marked at its end; on a port that is up the port repairs while it keeps 16 lanes, with
the lane's group stopped at both ends, or is fenced with source 118 + j; a repair raises 88 + j and a narrowing 103 + j, and both end the repair; a port that
trains from reset with all lanes good comes up at full width.  A port that goes down or is fenced takes no die with it while every die keeps a route to the mint. -/
def Obligations.PortsTrainRepairAndFence : Prop :=
  (∀ (s : State) (e lane : Nat), e < 30 → lane < portLanes (e / 2) + 4 →
    let y := (s.portEnd e).mark (portLanes (e / 2)) lane
    ((s.portEnd e).up = false → exec (.laneFail e lane) s = .next (s.setPortEnd e y)) ∧
    (∀ g, (s.portEnd e).up = true → propose (portLanes (e / 2)) (y.working (portLanes (e / 2))) ≠ 0 → (s.portEnd e).groupOf (portLanes (e / 2)) lane = some g →
      ∃ t, exec (.laneFail e lane) s = .next t ∧ (∀ k ∈ [e, farEnd e], (t.portEnd k).repairing = true ∧ ((t.portEnd k).group g).stopped = true) ∧
        (t.portEnd e).laneFail = y.laneFail ∧ (t.portEnd e).spareFail = y.spareFail ∧ (∀ k, k ≠ e → k ≠ farEnd e → t.portEnd k = s.portEnd k) ∧
        t = { s with links := t.links }) ∧
    ((s.portEnd e).up = true → propose (portLanes (e / 2)) (y.working (portLanes (e / 2))) = 0 →
      exec (.laneFail e lane) s = .next (((s.setPortEnd e y).fencePort (e / 2) false).raise { source := 118 + e / 2 }))) ∧
  (∀ (s : State) (j : Nat) (shut : Bool), j < 8 → (s.closePort j shut).Routed →
    (∀ e ∈ [2 * j, 2 * j + 1], ((s.fencePort j shut).portEnd e).fenced = true ∧ ((s.fencePort j shut).portEnd e).up = false ∧
      ((s.fencePort j shut).portEnd e).training = false) ∧
    s.fencePort j shut = { s with links := (s.fencePort j shut).links, faults := { s.faults with raised := (s.fencePort j shut).faults.raised } }) ∧
  (∀ (s : State) (e : Nat), e < 30 → (s.portEnd e).up = true → (s.portEnd e).repairing = true → (s.portEnd e).narrowTo = 0 →
      ∃ t, exec (.repairDone e) s = .next t ∧ (t.portEnd e).repairing = false ∧ (t.portEnd e).width = (s.portEnd e).width ∧
        (∀ g, ((t.portEnd e).group g).stopped = false) ∧
        t.faults.raised = s.faults.raised ++ [{ source := 88 + e / 2 }] ∧ t = { s with links := t.links, faults := t.faults }) ∧
  (∀ (s : State) (e : Nat), e < 30 → (s.portEnd e).up = true → (s.portEnd e).repairing = true → (s.portEnd e).narrowTo ≠ 0 →
      ∃ t, exec (.narrowingDone e) s = .next t ∧ (t.portEnd e).repairing = false ∧ (t.portEnd e).width = (s.portEnd e).narrowTo ∧
        t.faults.raised = s.faults.raised ++ [{ source := 103 + e / 2 }] ∧ t = { s with links := t.links, faults := t.faults }) ∧
  (∀ (s : State) (j : Nat), j < 8 → s.links.rootLock = true → (∀ e ∈ [2 * j, 2 * j + 1], (s.portEnd e).en = true ∧ (s.portEnd e).training = true ∧
        (s.portEnd e).fromReset = true ∧ (s.portEnd e).disagree = false ∧ (s.portEnd e).laneFail = 0 ∧ (s.portEnd e).spareFail = 0) →
      ∃ t, exec (.portTrained j { lanes := 0, spares := 0 } { lanes := 0, spares := 0 }) s = .next t ∧
        (∀ e ∈ [2 * j, 2 * j + 1], (t.portEnd e).up = true ∧ (t.portEnd e).training = false ∧ (t.portEnd e).width = 3 ∧ (t.portEnd e).sparesUsed = 0) ∧
        t = { s with links := t.links })

/-! ## Clocks, die resets, ports and test access by register and by event (R349-R364) -/

/-- The root clock is lost: every die but the mint is held in reset with nothing left in its tiles and wheels, the islands are in reset, no port is up, the forwarded clocks, the host link and
the management links are down and dispatch is held, while memory, Ledger and update state stay (R354); its return starts MNT_AO_COUNT anew and causes a firing.  A forwarded clock's loss holds a die in reset without a clock, clears FWD_OK and raises source 309 + d;
its return is seen in FWD_OK, and the die's reset goes on (R350, R356). -/
def Obligations.ClockLossAndReturn : Prop :=
  (∀ (s : State) (c : Bool), s.links.rootLock = true → ∃ t, exec (.rootClockLost c) s = .next t ∧ t.links.rootLock = false ∧ t.links.rootLost = true ∧
      t.links.xtalOk = (!c) ∧ t.links.fwdOk = 0 ∧ (∀ d < 10, t.die d = .inReset) ∧ (∀ e, (t.portEnd e).up = false) ∧ t.mould.fired = false ∧
      t.teller.held = true ∧ t.host.linkUp = false ∧ t.host.mgmtLinkUp = 0 ∧ t.tiles = [] ∧ t.wheels = {} ∧ t.islands = {} ∧
      (∀ a, t.readByte a = s.readByte a) ∧ t.ledger = s.ledger ∧ t.update = s.update) ∧
  (∀ s : State, s.links.rootLost = true → ∃ t, exec .rootClockReturn s = .next t ∧ t.links.rootLost = false ∧ t.links.rootLock = true ∧
      t.links.xtalOk = true ∧ t.links.aoCount = 0 ∧ t.links.firingDue = some .rootReturn ∧ t = { s with links := t.links }) ∧
  (∀ (s : State) (d : Nat), d < 10 → s.links.rootLock = true → s.die d ≠ .fenced → ∃ t, exec (.forwardedClockLoss d) s = .next t ∧
      t.links.fwdOk.getLsbD d = false ∧ (4 ≤ d → t.die d = .noClock) ∧ t.faults.raised.getLast? = some { source := 309 + d }) ∧
  (∀ (s : State) (d : Nat), d < 10 → s.links.rootLock = true → ∃ t, exec (.forwardedClockReturn d) s = .next t ∧ t.links.fwdOk.getLsbD d = true ∧
      (s.die d = .noClock → t.die d = .clockStarting) ∧ (s.die d ≠ .noClock → t.die d = s.die d) ∧ t = { s with links := t.links })

/-- Die resets (R355-R357, R364): a guarded write of MNT_DIE_RESET queues the reset of a die that runs and latches it for one that is resetting or without its clock;
the oldest reset asked for begins, with DIE_RESETS counted and V0's host interface gone with V0; a vault that completes the sequence with its forwarded clock and its
mint port up is ready, and V0 then trains its link unless PERST_N is asserted; with no ware loaded a kiln with its clock above a hearth that is no longer shut down is ready with its
tiles at D = 8, and a hearth is ready with its stores zeroed. -/
def Obligations.DieResets : Prop :=
  (∀ (s : State) (x : RegAccess) (d : Nat), d < 10 → Passes s x (.clk 2) → (accVal x).toNat % 2 ^ 32 = 2 ^ d → s.die d ≠ .fenced →
      ∃ t, exec (.mntDieReset x) s = .next t ∧ t.reg.reply = .accepted ∧
        ((s.die d).resetting = true ∨ s.die d = .noClock → t.links.rearm = s.links.rearm ||| BitVec.ofNat 10 (2 ^ d) ∧ t.links.resetDue = s.links.resetDue) ∧
        ((s.die d).resetting = false → s.die d ≠ .noClock → t.links.rearm = s.links.rearm ∧
          t.links.resetDue = if d ∈ s.links.resetDue then s.links.resetDue else s.links.resetDue ++ [d]) ∧ t = { s with reg := t.reg, links := t.links }) ∧
  (∀ (s : State) (d : Nat) (rest : List Nat), s.links.resetDue = d :: rest → d < 10 → 4 ≤ d → s.die d = .ready → ∃ t, exec .dieReset s = .next t ∧
      t.links.resetDue = rest ∧ t.die d = .inReset ∧ t.links.dieResets = min (2 ^ 24 - 1) (s.links.dieResets + 1) ∧
      (d = 8 → t.host.sqs = [] ∧ t.host.cqs = [] ∧ t.host.linkUp = false)) ∧
  (∀ (s : State) (d : Nat), 8 ≤ d → d < 10 → (s.die d).resetting = true → d ∉ s.links.resetDue → s.links.rootLock = true → s.links.fwdOk.getLsbD d = true →
      (s.cyc d).shutdown = false → (s.portEnd (2 * mintPort d)).up = true → s.links.rearm.getLsbD d = false → ∃ t, exec (.dieReady d 0) s = .next t ∧ t.die d = .ready ∧
        (d = 8 → t.host.linkTraining = !s.host.perstAsserted) ∧ t = { s with links := t.links, host := t.host }) ∧
  (∀ (s : State) (d : Nat), d < 4 → (s.die d).resetting = true → d ∉ s.links.resetDue → s.links.rootLock = true → s.links.fwdOk.getLsbD d = true →
      (s.cyc d).shutdown = false → (s.cyc (d + 4)).shutdown = false → (s.die (d + 4)).resetting = true ∨ s.die (d + 4) = .ready → s.links.rearm.getLsbD d = false → s.teller.wares = [] →
      ∃ t, exec (.dieReady d 0) s = .next t ∧ t.die d = .ready ∧ (∀ i < 8, (t.tilePower (8 * d + i)).thermD = 8) ∧
        t = { s with links := t.links, power := t.power, faults := { s.faults with fenceBack := 0 } }) ∧
  (∀ (s : State) (d : Nat), 4 ≤ d → d < 8 → (s.die d).resetting = true → d ∉ s.links.resetDue → s.links.rootLock = true → s.links.fwdOk.getLsbD d = true →
      (s.cyc d).shutdown = false → (s.portEnd (2 * mintPort d)).up = true → s.links.rearm.getLsbD d = false → s.teller.wares = [] → ∃ t, exec (.dieReady d 0) s = .next t ∧ t.die d = .ready ∧
        (∀ a, t.readByte a = if storeBase (8 * (d - 4)) ≤ a ∧ a < storeBase (8 * (d - 4) + 8) then 0 else s.readByte a) ∧
        t = { s with links := t.links, mem := t.mem })

/-- EFK_PORTj by register (R357, R362): RETRAIN on an up port that neither trains nor repairs, whose going down cuts no die off, takes both ends down into training, and is
ignored while the port trains; clearing EN fences the port with a shut-down. -/
def Obligations.PortControl : Prop :=
  (∀ (s : State) (x : RegAccess) (e : Nat), Passes s x (.efk e 0) → (accVal x).toNat % 2 ^ 32 = 3 → (s.portEnd e).en = true → (s.portEnd e).up = true →
      (s.portEnd e).repairing = false → (s.portEnd e).fenced = false → (s.portEnd e).shutting = false → e < 30 →
      ∃ t, exec (.retrain x) s = .next t ∧ t.reg.reply = .accepted ∧
        ((s.portEnd e).training = false → (s.restartPort (e / 2)).Routed →
          (∀ k ∈ [2 * (e / 2), 2 * (e / 2) + 1], (t.portEnd k).up = false ∧ (t.portEnd k).training = true ∧ (t.portEnd k).width = 0) ∧
          t = { s with reg := t.reg, links := t.links, faults := { s.faults with raised := t.faults.raised } }) ∧
        ((s.portEnd e).training = true → (∀ k, t.portEnd k = s.portEnd k) ∧ t = { s with reg := t.reg, links := t.links })) ∧
  (∀ (s : State) (x : RegAccess) (e : Nat), Passes s x (.efk e 0) → (accVal x).toNat % 2 ^ 32 = 0 → e < 30 →
      exec (.portEn x) s = .next (((s.reply .accepted).setPortEnd e { s.portEnd e with en := false, rearm := false }).fencePort (e / 2) true))

/-- The TAPs (R358-R360): IDCODE and SAMPLE/PRELOAD always, EXTEST, CLAMP and HIGHZ only with TEST_EN asserted, IJTAG only with DEBUG = 1; an instruction
whose condition fails, and a code that is none, selects BYPASS and raises the class C source 305; only SAMPLE/PRELOAD touches the TAP's boundary register, whose new
contents are a free value (log entry 22); with IDCODE selected M's TAP holds 0x1C4D_A9AF; an instrument is written only in factory test
mode through a TAP that holds IJTAG; TAP_RESET puts every TAP at its reset instruction (log entry 22). -/
def Obligations.TestAccessPorts : Prop :=
  (∀ (s : State) (n : Nat), n < 11 → ∀ c ∈ [(Instr.idcode n, 0x01, true), (.samplePreload n, 0x02, true), (.extest n, 0x03, s.host.sbActive.getLsbD 5),
        (.clamp n, 0x04, s.host.sbActive.getLsbD 5), (.highz n, 0x05, s.host.sbActive.getLsbD 5), (.ijtag n, 0x10, s.mould.device.debug == 1), (.bypass n 0xFF, 0xFF, true)],
      ∃ t, exec c.1 s = .next t ∧ sget 1 t.links.tapIr n = (if c.2.2 then c.2.1 else 0xFF) ∧ (∀ k, k ≠ n → sget 1 t.links.tapIr k = sget 1 s.links.tapIr k) ∧
        t.faults.raised = (if c.2.2 then s.faults.raised else s.faults.raised ++ [{ source := 305 }]) ∧
        (c.2.1 ≠ 0x02 → t.links.boundary = s.links.boundary ∧ t.free = s.free) ∧ (∀ k, k ≠ n → sget 0 t.links.boundary k = sget 0 s.links.boundary k) ∧
        t = { s with links := t.links, faults := t.faults, free := t.free }) ∧
  (∀ s : State, sget 1 s.links.tapIr 0 = 0x01 → s.tapData 0 = (32, 0x1C4DA9AF)) ∧
  (∀ (s : State) (n code : Nat), n < 11 → code ≠ 0xFF → ∃ t, exec (.bypass n code) s = .next t ∧ sget 1 t.links.tapIr n = 0xFF ∧
      t.faults.raised = s.faults.raised ++ [{ source := 305 }]) ∧
  (∀ (s : State) (i : Nat) (v : DWord), s.faults.testMode = true → (s.links.tapIr.any (fun e => e.2 = 0x10)) = true → ∃ t, exec (.instrumentWrite i v) s = .next t ∧
      sget 0 t.links.instruments i = v ∧ (∀ k, k ≠ i → sget 0 t.links.instruments k = sget 0 s.links.instruments k) ∧ t = { s with links := t.links }) ∧
  (∀ (s : State) (i : Nat) (v : DWord), s.faults.testMode = false → exec (.instrumentWrite i v) s = .next s) ∧
  (∀ s : State, exec .tapReset s = .next { s with links := { s.links with tapIr := [] } })

/-! ## Register access (R392-R412, R530) -/

/-- REGISTER_WRITE to a guarded register whose group is in PRIV (R394): from a master that is neither secure nor privileged the write is dropped, the log
gains cause PRIV at the register's address and source 299 is raised, and nothing else of the module changes; from a privileged master it
takes effect, shown on FLT_HOLD and on MLD_SCRUB_RATE.
PAIR (R395, R396): a first write to an RWG register of a group in PAIR changes no register and arms it for its master; the complement at A + 0x8
completes the pair within 64 F3 cycles and the first value takes effect; any other value there, or a later one, fails it with cause PAIR and source 299; PAIR_TIMEOUT fails an armed pair
and leaves a master with none as it is. -/
def Obligations.GuardLogic : Prop :=
  ((∀ (s : State) (x : RegAccess) (r : Reg) (g a : Nat), Reaches s x r → locAddr x.loc = some a → r.group = some g → s.pairMode g = false →
      s.privileged x.master = false → ∃ t, exec (.registerWrite x) s = .next t ∧ t.reg.reply = .dropped ∧ (t.inst (instOf x.master)).errCause = 0x2 ∧
        (t.inst (instOf x.master)).errAddr = a ∧ t.faults.raised = s.faults.raised ++ [{ source := 299, addr := a }] ∧
        t = { s with reg := t.reg, faults := { s.faults with raised := t.faults.raised } }) ∧
  (∀ (s : State) (x : RegAccess), Passes s x (.flt 1) → ∃ t, exec (.registerWrite x) s = .next t ∧ t.reg.reply = .accepted ∧
      t.faults = { s.faults with hold := bit (accVal x).toNat 0 } ∧ t = { s with reg := t.reg, faults := t.faults }) ∧
  (∀ (s : State) (x : RegAccess), Passes s x (.mld 3) → ∃ t, exec (.registerWrite x) s = .next t ∧ t.reg.reply = .accepted ∧
      t.mould = { s.mould with scrubRate := (accVal x).toNat % 256 } ∧ t = { s with reg := t.reg, mould := t.mould })) ∧
  ((∀ (s : State) (x : RegAccess) (r : Reg) (g a : Nat), Reaches s x r → locAddr x.loc = some a → r.group = some g → s.pairMode g = true →
      ∃ t, exec (.pairArm x) s = .next t ∧ t.reg.reply = .accepted ∧
        t.reg.armed = s.reg.armed ++ [{ master := x.master, block := addrBlock a, addr := a, value := accVal x, wide := x.wide, since := s.links.aoCount.toNat }] ∧ t = { s with reg := t.reg }) ∧
  (∀ (s : State) (x : RegAccess) (p : Armed) (a : Nat), locAddr x.loc = some a → locFits x.loc x.master = true → s.masterOpen x.master = true → x.poisoned = false →
      s.armedIn x.master (addrBlock a) = some p → p.addr + 8 = a →
      let u := s.failDual x.master (addrBlock a)
      ∃ t, exec (.pairComplete x) s = .next t ∧
        (¬ (s.late p = false ∧ x.wide = p.wide ∧ accVal x = complement p.value p.wide) → t.armedIn x.master p.block = none ∧ t.reg.reply = .dropped ∧ (t.inst (instOf x.master)).errCause = 0x3 ∧
          t.faults.raised = u.faults.raised ++ [{ source := 299, addr := p.addr }] ∧ t = { u with reg := t.reg, faults := t.faults }) ∧
        (s.late p = false → x.wide = p.wide → accVal x = complement p.value p.wide → locate p.addr p.wide = some (.flt 1, false) →
          t.armedIn x.master p.block = none ∧ t.faults.hold = bit p.value.toNat 0 ∧ t = { u with reg := t.reg, faults := { u.faults with hold := t.faults.hold } })) ∧
  (∀ (s : State) (m : Master) (b : Nat) (p : Armed), s.armedIn m b = some p → ∃ t, exec (.pairTimeout m b) s = .next t ∧ t.armedIn m b = none ∧
      (t.inst (instOf m)).errCause = 0x3 ∧ t.faults.raised = s.faults.raised ++ [{ source := 299, addr := p.addr }] ∧ t = { s with reg := t.reg, faults := t.faults }) ∧
  (∀ (s : State) (m : Master) (b : Nat), s.armedIn m b = none → exec (.pairTimeout m b) s = .next s))

/-- DUAL_WRITE (R397): a first write changes no register and is remembered; the same value again within 64 F3 cycles takes it off and is a write of the register, shown on
a write of KLN_WAIT_LIMIT by the mint; another value, or a later write, discards the first with cause DUAL and source 299 and is a first write itself; a write that its register's guard stops is
dropped and logged with cause PRIV, and holds nothing.  The row takes any address as an RWD register, since the spec names none (log entry 50).
Posted writes (R398): HRT_RC_FLUSH sets BUSY and waits, a second write of the block meanwhile is dropped with cause BUSY; when the write is applied
BUSY clears, PART and INVAL are the written ones, and no byte of memory changes.  FLT_LDG_SEL sets BUSY of the Ledger read in the same way. -/
def Obligations.DualAndPostedWrites : Prop :=
  ((∀ (s : State) (x : RegAccess) (r : Reg) (a : Nat), Reaches s x r → locAddr x.loc = some a → s.guardPasses x = true → ∃ t, exec (.dualWrite x) s = .next t ∧ t.reg.reply = .accepted ∧
      t.reg.dual = s.reg.dual ++ [{ master := x.master, block := addrBlock a, addr := a, value := accVal x, wide := x.wide, since := s.links.aoCount.toNat }] ∧
      t = { s with reg := t.reg }) ∧
  (∀ (s : State) (x : RegAccess) (r : Reg) (a : Nat), Reaches s x r → locAddr x.loc = some a → s.guardPasses x = false → ∃ t, exec (.dualWrite x) s = .next t ∧
      t.reg.reply = .dropped ∧ (t.inst (instOf x.master)).errCause = 0x2 ∧ t.reg.dual = s.reg.dual ∧
      t = { s with reg := t.reg, faults := { s.faults with raised := t.faults.raised } }) ∧
  (∀ (s : State) (v : DWord) (i k : Nat), i < 32 → s.regUp .mint (tqAddr i 0x50) = true → (∀ b, s.armedIn .mint b = none) → s.links.aoCount.toNat ≤ k + 16 →
      s.reg.dual = [{ master := .mint, block := addrBlock (tqAddr i 0x50), addr := tqAddr i 0x50, value := BitVec.ofNat 64 (v.toNat % 2 ^ 32), wide := false, since := k }] →
      ∃ t, exec (.dualWrite { master := .mint, loc := .window (tqAddr i 0x50), wide := false, value := v }) s = .next t ∧ t.reg.dual = [] ∧
        (t.tile i).waitLimit = BitVec.ofNat 32 v.toNat ∧ (∀ j, j ≠ i → t.tile j = s.tile j) ∧ t = { s with reg := t.reg, tiles := t.tiles }) ∧
  (∀ (s : State) (x : RegAccess) (r : Reg) (a : Nat) (p : Armed), Reaches { s with reg := { s.reg with dual := [] } } x r → locAddr x.loc = some a → s.guardPasses x = true →
      s.reg.dual = [p] → p.master = x.master → p.block = addrBlock a → p.addr ≠ a ∨ p.value ≠ accVal x ∨ p.wide ≠ x.wide ∨ s.late p = true →
      ∃ t, exec (.dualWrite x) s = .next t ∧ t.reg.reply = .accepted ∧ (t.inst (instOf x.master)).errCause = 0x4 ∧ (t.inst (instOf x.master)).errAddr = p.addr ∧
        t.faults.raised = s.faults.raised ++ [{ source := 299, addr := p.addr }] ∧
        t.reg.dual = [{ master := x.master, block := addrBlock a, addr := a, value := accVal x, wide := x.wide, since := s.links.aoCount.toNat }] ∧
        t = { s with reg := t.reg, faults := { s.faults with raised := t.faults.raised } })) ∧
  ((∀ (s : State) (h : Nat) (v : Word), h < 4 → s.dieReady (4 + h) = true →
      let u := s.failDual .mint (addrBlock (hearthAddr h 0x18))
      ((∀ p ∈ s.reg.posted, p.block ≠ hearthBlock h) → ∃ t, exec (.hrtRcFlush .mint h v) s = .next t ∧ t.reg.reply = .accepted ∧ (t.hearth h).flushBusy = true ∧
        t.reg.posted = s.reg.posted ++ [{ block := hearthBlock h, addr := hearthAddr h 0x18, value := v.zeroExtend 64, master := .mint }] ∧
        t = { u with reg := t.reg, mem := { s.mem with hearths := t.mem.hearths } }) ∧
      ((∃ p ∈ s.reg.posted, p.block = hearthBlock h) → ∃ t, exec (.hrtRcFlush .mint h v) s = .next t ∧ t.reg.reply = .dropped ∧ (t.inst 9).errCause = 0x5 ∧
        t.reg.posted = s.reg.posted ∧ t = { u with reg := t.reg })) ∧
  (∀ (s : State) (h : Nat) (p : Posted), h < 4 → s.dieReady (4 + h) = true → s.reg.posted.find? (fun p => p.block = 40 + h) = some p →
      ∃ t, exec (.postedWriteApplied (40 + h)) s = .next t ∧ (t.hearth h).flushBusy = false ∧ (t.hearth h).flushPart = p.value.toNat % 8 ∧
        (t.hearth h).flushInval = p.value.getLsbD 3 ∧ (∀ q ∈ t.reg.posted, q.block ≠ 40 + h) ∧ (∀ a, t.readByte a = s.readByte a)) ∧
  (∀ (s : State) (v : Word), (∀ p ∈ s.reg.posted, p.block ≠ faultBlock) → ∃ t, exec (.fltLdgSel .mint v) s = .next t ∧ t.reg.reply = .accepted ∧ t.ledger.busy = true ∧
      t = { s.failDual .mint (addrBlock (fltAddr 0x300)) with reg := t.reg, ledger := t.ledger }))

/-- UNIMPLEMENTED_ACCESS (R402, R412): a function's read is answered with Completer Abort and changes nothing else; its write is dropped and logged with cause
UNIMPL; a management peer's access gets an error reply and is logged.
Indirect access (R405-R407, R411): MNT_IDX takes OFFSET, a multiple of 4, and INC; a DAT read with INC set moves OFFSET on to the high half after a low half
of a 64-bit register that is not refused and else to the next register; a DAT write of a low half of a 64-bit register that completes no armed pair is held and changes no register.
A write of the block interrupts a first dual write of the master there (R397). -/
def Obligations.UnimplementedAndIndirectAccess : Prop :=
  ((∀ (s : State) (f : Nat) (l : RegLoc) (w : Bool), locFits l (.func f) = true → s.barOpen f = true → s.funcLive f = true →
      s.unimplemented (.func f) l w false = true →
      ∃ t, exec (.unimplementedAccess { master := .func f, loc := l, wide := w } false) s = .next t ∧
        t = { s with reg := { s.reg with reply := .completerAbort }, free := t.free }) ∧
  (∀ (s : State) (f : Nat) (l : RegLoc) (w : Bool) (v : DWord), locFits l (.func f) = true → s.barOpen f = true → s.funcLive f = true →
      s.unimplemented (.func f) l w true = true → (∀ b, s.armedIn (.func f) b = none) → (∀ d ∈ s.reg.dual, d.master ≠ .func f) →
      ∃ t, exec (.unimplementedAccess { master := .func f, loc := l, wide := w, value := v } true) s = .next t ∧ t.reg.reply = .dropped ∧
        (t.inst f).errCause = 0x1 ∧ (∀ a, locAddr l = some a → (t.inst f).errAddr = a) ∧ (t.inst f).logged = true ∧ t = { s with reg := t.reg, free := t.free }) ∧
  (∀ (s : State) (n a : Nat) (w : Bool), (s.mgmt n).opened = true → a < 2 ^ 48 → s.unimplemented (.peer n) (.window a) w false = true →
      ∃ t, exec (.unimplementedAccess { master := .peer n, loc := .window a, wide := w } false) s = .next t ∧ t.reg.reply = .errorReply ∧ t = { s with reg := t.reg })) ∧
  ((∀ (s : State) (m : Master) (v : Word), s.masterOpen m = true → (s.inst (instOf m)).heldLo = none → ∃ t, exec (.mntIdx m v) s = .next t ∧
      (t.inst (instOf m)).offset = v.toNat % 2 ^ 24 / 4 * 4 ∧ (t.inst (instOf m)).inc = v.getLsbD 24 ∧
      t = { s.failDual m (addrBlock (accAddr 0)) with reg := t.reg }) ∧
  (∀ (s : State) (m : Master), s.masterOpen m = true → (s.inst (instOf m)).inc = true → ∃ t, exec (.mntDat m false 0) s = .next t ∧
      (t.inst (instOf m)).offset = nextOffset (s.inst (instOf m)).offset (s.datLow m (s.inst (instOf m)).offset false)) ∧
  (∀ (s : State) (f a : Nat) (r : Reg) (v : Word), s.barOpen f = true → s.funcLive f = true → (s.inst f).heldLo = none → (s.inst f).inc = false →
      bar0Addr (s.inst f).offset = some a → locate a false = some (r, false) → r.wide = true → s.unimplemented (.func f) (.bar0 (s.inst f).offset) false true = false →
      addrBlock a ≠ addrBlock (accAddr 0) → (∀ p, s.armedIn (.func f) (addrBlock a) = some p → p.addr + 8 ≠ a) → ∃ t, exec (.mntDat (.func f) true v) s = .next t ∧ t.reg.reply = .accepted ∧ (t.inst f).heldLo = some ((s.inst f).offset, v) ∧
        t = { s.failDual (.func f) (addrBlock (accAddr 0)) with reg := t.reg }))

/-- The mailbox (R408, R409, R509): a request with none open opens with its selector and index, and with one open only sets OVERRUN; each selector samples its
words, or ERR where the index names nothing; VALID then shows them; DONE ends the request and clears all. -/
def Obligations.Mailbox : Prop :=
  ∀ (s : State) (m : Master), s.masterOpen m = true →
  let u := s.failDual m (addrBlock (accAddr 0))
  (∀ v : Word, ∃ t, exec (.mntMbxReq m v) s = .next t ∧ t = { u with reg := t.reg } ∧
      ((s.inst (instOf m)).mbxOpen = false → (t.inst (instOf m)).mbxOpen = true ∧ (t.inst (instOf m)).mbxSel = v.toNat % 65536 ∧ (t.inst (instOf m)).mbxIndex = v.toNat / 65536) ∧
      ((s.inst (instOf m)).mbxOpen = true → t.inst (instOf m) = { u.inst (instOf m) with mbxOverrun := true })) ∧
  (∃ t, exec (.mntMbxDone m 1) s = .next t ∧ (t.inst (instOf m)).mbxOpen = false ∧ (t.inst (instOf m)).mbxValid = false ∧ (t.inst (instOf m)).mbxOverrun = false ∧
      (t.inst (instOf m)).mbxData = [] ∧ t = { u with reg := t.reg }) ∧
  ((s.inst (instOf m)).mbxOpen = true → (s.inst (instOf m)).mbxValid = false → (s.inst (instOf m)).mbxSampled = none →
    ∀ c ∈ [(Instr.tileCountersSel m, 0x0001, 32), (.vaultBwSel m, 0x0002, 2), (.pendingSel m, 0x0003, 1), (.expandMacSel m, 0x0004, 4), (.identitySel m, 0x0100, 1),
           (.sessionSlotsSel m, 0x0101, 1), (.mgmtSessionsSel m, 0x0102, 1)],
      (s.inst (instOf m)).mbxSel = c.2.1 → ∃ t, exec c.1 s = .next t ∧ t = { s with reg := t.reg } ∧
        ∃ e ws, (t.inst (instOf m)).mbxSampled = some (e, ws) ∧ (c.2.2 ≤ (s.inst (instOf m)).mbxIndex → e = 2) ∧ (e ≠ 0 → ws = []) ∧
          (c.2.1 = 1 → pfLike m = true → (s.inst (instOf m)).mbxIndex < 32 → s.dieReady ((s.inst (instOf m)).mbxIndex / 8) = true →
            e = 0 ∧ ws = [(s.tile (s.inst (instOf m)).mbxIndex).slabActive, (s.tile (s.inst (instOf m)).mbxIndex).vecIssue, (s.tile (s.inst (instOf m)).mbxIndex).takeCount])) ∧
  (∀ (e : Nat) (ws : List DWord), (s.inst (instOf m)).mbxSampled = some (e, ws) → s.mbxLost (s.inst (instOf m)) = false →
    ∃ t, exec (.mailboxValid m) s = .next t ∧ (t.inst (instOf m)).mbxValid = true ∧ (t.inst (instOf m)).mbxErr = e ∧ (t.inst (instOf m)).mbxData = ws ∧
      t = { s with reg := t.reg })

/-- Voting (R403, R404): one copy that differs raises source 299 and the field takes the majority; three that all differ raise source 300 and the field goes back to
its reset value, or is reloaded from the mould or Ledger; three that agree change nothing. -/
def Obligations.Voting : Prop :=
  ∀ (s : State) (f : VotedField) (r : Reg) (a b c : DWord), regAt f.addr = some r → s.dieReady (addrDie f.addr) = true →
  (a = b → b = c → exec (.voteCompare f a b c) s = .next s) ∧
  (r.voted = some .reset → (a = b ∨ b = c ∨ a = c) → ¬ (a = b ∧ b = c) → ∃ t, exec (.voteCompare f a b c) s = .next t ∧ t.faults.raised = s.faults.raised ++ [{ source := 299, addr := f.addr }] ∧
      t = (s.setVoted r (r.votedBits (if a = b ∨ a = c then a else b).toNat)).raise { source := 299, addr := f.addr }) ∧
  (r.voted = some .reload → (a = b ∨ b = c ∨ a = c) → ¬ (a = b ∧ b = c) → exec (.voteCompare f a b c) s =
      .next ((s.setShown f.addr r (r.votedBits (if a = b ∨ a = c then a else b).toNat)).raise { source := 299, addr := f.addr })) ∧
  (r.voted = some .reset → a ≠ b → b ≠ c → a ≠ c → ∃ t, exec (.voteCompare f a b c) s = .next t ∧ t.faults.raised = s.faults.raised ++ [{ source := 300, addr := f.addr }] ∧
      t = (s.raise { source := 300, addr := f.addr }).setVoted r r.resetValue) ∧
  (r.voted = some .reload → a ≠ b → b ≠ c → a ≠ c → ∃ t, exec (.voteCompare f a b c) s = .next t ∧ f ∈ t.reg.reloads ∧
      t.faults.raised = s.faults.raised ++ [{ source := 300, addr := f.addr }] ∧ t = { s with reg := t.reg, faults := t.faults }) ∧
  (exec (.voteReload f) s = .next { s with reg := { s.reg with reloads := s.reg.reloads.erase f } })

/-- Fences and injection by register (R438, R451): FLT_FENCE_CMD with GO marks the unit it names in the running list, but for a channel, and in the Ledger's, and
UNF takes it off, a tile then waiting for plans to be laid next (R451); FLT_INJECT with GO raises the source it names in factory test mode and source 319 outside it. -/
def Obligations.FenceUnfenceInject : Prop :=
  (∀ (s : State) (x : RegAccess) (i : Nat), Passes s x (.fence 0) → i < 48 → (accVal x).toNat % 2 ^ 32 = 1 + 8 * i + 512 → ∃ t, exec (.fence x) s = .next t ∧
      t.ledger.fenceChans = s.ledger.fenceChans ||| BitVec.ofNat 48 (2 ^ i) ∧ t.faults.fenceChans = s.faults.fenceChans ∧
      t = { s with reg := t.reg, faults := t.faults, ledger := t.ledger }) ∧
  (∀ (s : State) (x : RegAccess) (i : Nat), Passes s x (.fence 0) → i < 32 → (accVal x).toNat % 2 ^ 32 = 8 * i + 512 → ∃ t, exec (.fence x) s = .next t ∧
      t.ledger.fenceTiles = s.ledger.fenceTiles ||| BitVec.ofNat 32 (2 ^ i) ∧ t.faults.fenceTiles = s.faults.fenceTiles ||| BitVec.ofNat 32 (2 ^ i) ∧
      (t.tile i).queues = [] ∧ (t.tile i).running = none) ∧
  (∀ (s : State) (x : RegAccess) (i : Nat), Passes s x (.fence 0) → i < 32 → (accVal x).toNat % 2 ^ 32 = 4 + 8 * i + 512 → ∃ t, exec (.unfence x) s = .next t ∧
      t.ledger.fenceTiles.getLsbD i = false ∧ t.faults.fenceTiles.getLsbD i = false ∧ (s.faults.fenceTiles.getLsbD i = true → t.faults.fenceBack.getLsbD i = true) ∧
      (∀ j, j ≠ i → t.ledger.fenceTiles.getLsbD j = s.ledger.fenceTiles.getLsbD j ∧ t.faults.fenceTiles.getLsbD j = s.faults.fenceTiles.getLsbD j) ∧
      t = { s with reg := t.reg, faults := t.faults, ledger := t.ledger }) ∧
  (∀ (s : State) (x : RegAccess), Passes s x .inject → bit (accVal x).toNat 11 = true → ∃ t, exec (.fltInject x) s = .next t ∧
      (s.faults.testMode = false → t.faults.raised = s.faults.raised ++ [{ source := 319 }]) ∧
      (s.faults.testMode = true → srcReserved (bits (accVal x).toNat 0 9) = false → ∃ c, t.faults.raised = s.faults.raised ++ [{ source := bits (accVal x).toNat 0 9, cls := c, injected := true }]) ∧
      t = { s with reg := t.reg, faults := t.faults })

/-- MNT_ASY_CTRL, PWR_CAP and OHM_CTRL by register (R457, R465, R508): STANDBY_RESET resets the standby and leaves the active island; RETURN_NOW clears PINNED; SWAP
is taken only outside a gap and with a synchronised standby; a cap outside a pause, a hold-up and a cooling shutdown is at least 150 W, or none for 0; CLOSE_SESS
leaves every session of the partition free or closing and CLOSE_MGMT ends every management session. -/
def Obligations.ControlRegisters : Prop :=
  (∀ (s : State) (x : RegAccess), Passes s x (.asy 0) → (accVal x).toNat % 2 ^ 32 = 1 → s.islands.gap = none → s.islands.noneActive = false →
      ∃ t, exec (.standbyReset x) s = .next t ∧ t.islands.st s.islands.standby = .reset ∧ t.islands.st s.islands.activeB = s.islands.st s.islands.activeB ∧
        t.islands.activeB = s.islands.activeB ∧ t = { s with reg := t.reg, islands := t.islands }) ∧
  (∀ (s : State) (x : RegAccess), Passes s x (.asy 0) → (accVal x).toNat % 2 ^ 32 = 2 → ∃ t, exec (.returnNow x) s = .next t ∧
      t.islands = { s.islands with pinned := false } ∧ t = { s with reg := t.reg, islands := t.islands }) ∧
  (∀ (s : State) (x : RegAccess), Passes s x (.asy 0) → (accVal x).toNat % 2 ^ 32 = 4 → ∃ t, exec (.swap x) s = .next t ∧
      t.islands = (if s.islands.gap = none ∧ s.islands.st s.islands.standby = .sync then { s.islands with swapReq := true } else s.islands) ∧ t = { s with reg := t.reg, islands := t.islands }) ∧
  (∀ (s : State) (x : RegAccess), Passes s x (.pwr 1) → s.power.holdup = false → s.power.coolShutdown = false → s.throttleHeld = false →
      ∃ t, exec (.pwrCap x) s = .next t ∧ t.power.capW = (if (accVal x).toNat % 4096 = 0 then 0 else max 150 ((accVal x).toNat % 4096)) ∧
        (0 < (accVal x).toNat % 4096 → (accVal x).toNat % 4096 < 150 → (t.inst (instOf x.master)).errCause = 0x7) ∧
        t = { s with reg := t.reg, power := t.power, free := t.free }) ∧
  (∀ (s : State) (x : RegAccess) (p : Nat), Passes s x (.ohm 1) → p < 8 → (accVal x).toNat % 2 ^ 32 = 2 ^ p → ∃ t, exec (.closeSess x) s = .next t ∧
      ∀ k < 16, (t.session p k).use = .free ∨ (t.session p k).closing = true) ∧
  (∀ (s : State) (x : RegAccess), Passes s x (.ohm 1) → (accVal x).toNat % 2 ^ 32 = 256 → ∃ t, exec (.closeMgmt x) s = .next t ∧
      (∀ n, (t.mgmt n).opened = false) ∧ t = { s with reg := t.reg, sec := t.sec })

/-! ## Power and thermal (R458-R481) -/

/-- POWER_SAMPLE outside a hold-up (R458, R463): the readings are taken; the second sample in a row above 1.25 L clamps every tile, and a 100 µs average below L
releases the clamp; the average that functions other than the PF see is refreshed once a second (R484); the second sample in a row outside 38-62 V runs the hold-up sequence (R474); a rail out of range sets OOR and raises its source with the direction in its detail (R463, R478); a cap not met in 5 ms raises 359 (R465). -/
def Obligations.PowerSampling : Prop :=
  (∀ (s : State) (r : PowerReads), s.power.holdup = false → (38000 ≤ r.inMv ∧ r.inMv ≤ 62000) ∨ s.power.deepRun = 0 → ∃ t, exec (.powerSample r) s = .next t ∧ t.power.inMv = r.inMv ∧ t.power.inCa = r.inCa ∧
      t.power.avg1s = r.avg1s ∧ t.power.avg100us = r.avg100us ∧ t.power.joules = s.power.joules + r.joules ∧
      (let k := s.links.aoCount.toNat / 68750000; t.power.vfSecond = k ∧ t.power.vfAvg = (if k = s.power.vfSecond then s.power.vfAvg else r.avg1s)) ∧
      (s.limit * 50 < r.nowDw * 4 → 1 ≤ s.power.overRun → t.power.overClamp = true) ∧
      (r.nowDw * 4 ≤ s.limit * 50 → r.avg100us < s.limit * 10 → t.power.overClamp = false) ∧ t = { s with power := t.power, faults := t.faults }) ∧
  (∀ (s : State) (r : PowerReads), s.power.holdup = false → r.inMv < 38000 ∨ 62000 < r.inMv → 1 ≤ s.power.deepRun → ∃ t, exec (.powerSample r) s = .next t ∧
      t.power.inMv = r.inMv ∧ t.power.holdup = true ∧ (∀ d < 10, t.die d = .inReset) ∧ t.links.rootLock = false ∧ t.teller.held = true ∧ t.ledger.tail = []) ∧
  (∀ (s : State) (d : Nat) (up : Bool), d < 13 → s.power.holdup = false → ∃ t, exec (.railOutOfRange d up) s = .next t ∧ (sget {} t.power.rails d).oor = true ∧
      t.faults.raised = s.faults.raised ++ [{ source := if d ≤ 10 then 360 + d else 363 + d, code := if up then 2 else 1 }] ∧ t = { s with power := t.power, faults := t.faults }) ∧
  (∀ s : State, exec .capTimeout s = .next (if s.power.capPending then s.raise { source := 359 } else s))

/-- DVFS_STEP while throttle commands do not hold (R459, R465): a slower step raises a tile's power divider by one to at most 8 where its partition draws beyond its share or no
tile of such a partition can be lowered further (R462); a faster one lowers it to no less than CLK_OPT allows where the kiln's rail supplies that divider; a rail step moves a kiln rail by
10 mV towards the voltage of the lowest divider in use on that kiln (the voltages are this model's constants, log entry 44), and a step that may not be taken leaves all as it is; a clamp taken for a cap relaxes by 1/16 while the average is 5 % below the cap; PWR_BRAKE_N with BRAKE_USE = 1 takes the brake clamp of 4/16, and its ramp rises by
1/16 a step to 16 once it is released (R464); while the input chatters it stays in its acting state (R387). -/
def Obligations.DividersAndBrake : Prop :=
  (∀ (s : State) (i : Nat), s.throttleHeld = false → s.power.holdup = false → s.power.coolShutdown = false → i < 32 →
      (∀ draws, s.mayLower i draws = true → ∃ t, exec (.dvfsStep (.slower i draws)) s = .next t ∧ (t.tilePower i).powerD = min 8 (max s.lowestD ((s.tilePower i).powerD + 1)) ∧
        (∀ j, j ≠ i → t.tilePower j = s.tilePower j) ∧ t = { s with power := t.power }) ∧
      (∀ draws, s.mayLower i draws = false → exec (.dvfsStep (.slower i draws)) s = .next s) ∧
      (railSteps (i / 8) (min (max s.lowestD ((s.tilePower i).powerD - 1)) (s.kilnD (i / 8))) ≤ (sget {} s.power.rails (i / 8)).moved →
        ∃ t, exec (.dvfsStep (.faster i)) s = .next t ∧ (t.tilePower i).powerD = max s.lowestD ((s.tilePower i).powerD - 1) ∧
        (∀ j, j ≠ i → t.tilePower j = s.tilePower j) ∧ t = { s with power := t.power })) ∧
  (∀ (s : State) (k : Nat), s.throttleHeld = false → s.power.holdup = false → s.power.coolShutdown = false → k < 4 →
      (let goal := railSteps k (s.kilnD k)
      let now := (sget {} s.power.rails k).moved
      (now < goal → ∃ t, exec (.dvfsStep (.railUp k)) s = .next t ∧ (sget {} t.power.rails k).moved = now + 1 ∧ t = { s with power := t.power }) ∧
      (goal < now → ∃ t, exec (.dvfsStep (.railDown k)) s = .next t ∧ (sget {} t.power.rails k).moved = now - 1 ∧ t = { s with power := t.power }) ∧
      (goal ≤ now → exec (.dvfsStep (.railUp k)) s = .next s) ∧ (now ≤ goal → exec (.dvfsStep (.railDown k)) s = .next s))) ∧
  (∀ s : State, s.throttleHeld = false → s.power.holdup = false → s.power.coolShutdown = false → s.power.capClamp < 16 →
      s.power.avg100us * 100 ≤ s.power.capW * 950 → ∃ t, exec (.dvfsStep .relax) s = .next t ∧ t.power.capClamp = s.power.capClamp + 1 ∧ t = { s with power := t.power }) ∧
  (∀ (s : State) (on : Bool), on = true ∨ s.host.sbChattering.getLsbD 2 = false → s.mould.pins.brakeUse ≠ 1 → ∃ t, exec (.pwrBrakeN on) s = .next t ∧ t.host.sbActive.getLsbD 2 = on ∧ t = { s with host := t.host }) ∧
  (∀ s : State, s.host.sbChattering.getLsbD 2 = true → exec (.pwrBrakeN false) s = .next s) ∧
  (∀ (s : State) (on : Bool), on = true ∨ s.host.sbChattering.getLsbD 2 = false → s.mould.pins.brakeUse = 1 → ∃ t, exec (.pwrBrakeN on) s = .next t ∧ t.power.brake = on ∧ (on = true → t.power.brakeDuty = 4 ∧ ∀ i, t.askedDuty i ≤ 4 ∧ ((t.tile i).running = none → t.tileDuty i ≤ 4)) ∧
      (on = false → s.power.brake = true → t.power.brakeDuty = 4) ∧ t.host.sbActive.getLsbD 2 = on ∧ t = { s with host := t.host, power := t.power }) ∧
  (∀ s : State, s.power.brake = false → exec .brakeRampStep s = .next { s with power := { s.power with brakeDuty := min 16 (s.power.brakeDuty + 1) } }) ∧
  (∀ s : State, s.power.brake = true → exec .brakeRampStep s = .next s)

/-- Loss of cooling and of the input (R472-R474): COOL_OK deasserting with COOL_OK_USE = 1 clamps every tile and raises 357; 1 s without it begins the cooling shutdown, which
turns the dies off, holds dispatch and writes the Ledger tail; its return, outside chatter (R387), releases the clamp, starts the ramp, and after the shutdown causes a
firing; PWR_FAIL_N runs the hold-up sequence once: every die off with nothing left in tiles and wheels, the root clock gone, and the Ledger tail in flash. -/
def Obligations.CoolingAndInputLoss : Prop :=
  (∀ s : State, s.mould.pins.coolOkUse = 1 → s.power.holdup = false → s.power.coolClamp = false → ∃ t, exec .coolOk s = .next t ∧ t.power.coolClamp = true ∧
      (∀ i, t.askedDuty i ≤ 4 ∧ ((t.tile i).running = none → t.tileDuty i ≤ 4)) ∧ t.faults.raised = s.faults.raised ++ [{ source := 357 }] ∧ t.power.coolWait = !s.power.coolShutdown ∧
      t = { s with host := t.host, power := t.power, faults := t.faults }) ∧
  (∀ s : State, s.power.coolWait = true → s.power.coolShutdown = false → s.power.holdup = false → ∃ t, exec .coolOkTimeout s = .next t ∧ t.power.coolShutdown = true ∧
      (∀ d < 10, t.die d = .inReset) ∧ t.teller.held = true ∧ t.ledger.tail = [] ∧ t.faults.hbeatStopped = true) ∧
  (∀ s : State, s.power.flowLost = true → s.power.coolShutdown = false → s.power.holdup = false → ∃ t, exec .flowLostTimeout s = .next t ∧ t.power.coolShutdown = true ∧
      (∀ d < 10, t.die d = .inReset) ∧ t.teller.held = true ∧ t.ledger.tail = []) ∧
  (∀ s : State, s.host.sbChattering.getLsbD 3 = true → exec .coolOkReturn s = .next s) ∧
  (∀ s : State, s.host.sbChattering.getLsbD 3 = false → s.power.coolClamp = true → ∃ t, exec .coolOkReturn s = .next t ∧ t.power.coolClamp = false ∧ t.power.brakeDuty = 4 ∧ t.host.sbActive.getLsbD 3 = false ∧
      (s.power.coolShutdown = true → s.power.coolCause = 1 → t.links.firingDue = some .chipRst) ∧ (s.power.coolShutdown = false → t.links = s.links) ∧
      t = { s with host := t.host, power := t.power, links := t.links }) ∧
  (∀ s : State, s.power.holdup = false → ∃ t, exec .pwrFailN s = .next t ∧ t.power.holdup = true ∧ (∀ d < 10, t.die d = .inReset) ∧ t.links.rootLock = false ∧
      t.teller.held = true ∧ t.ledger.tail = [] ∧ t.host.linkUp = false ∧ t.tiles = [] ∧
      t.wheels = {} ∧ (∀ a, t.readByte a = s.readByte a) ∧ t.update = s.update)

/-- Throttling and recovery (R469-R471): with a threshold met the tile's divider rises by one step from the one in force to at most 8 and then its duty falls to no less than 4/16; with every threshold
clear by 3 K the duty recovers first and then the divider, to no less than CLK_OPT allows; between the two nothing changes; a die shut down restarts once its sensors
read 10 K below their threshold, a vault's and the mint's at most 100 °C, and not before, a kiln's tiles at D = 8; a TACH window shorter than TACH_MIN is lost flow with source 356. -/
def Obligations.ThrottleAndFlow : Prop :=
  (∀ (s : State) (i : Nat), i < 32 → ∃ t, exec (.throttleStep i) s = .next t ∧
      ((s.tileTherm i).kilnHot = true ∨ (s.tileTherm i).storeHot = true → (s.tilePower i).thermD < 8 → (t.tilePower i).thermD = min 8 (s.askedD i + 1)) ∧
      ((s.tileTherm i).kilnHot = true ∨ (s.tileTherm i).storeHot = true → 8 ≤ (s.tilePower i).thermD → (t.tilePower i).thermDuty = max 4 ((s.tilePower i).thermDuty - 1)) ∧
      ((s.tileTherm i).kilnHot = false → (s.tileTherm i).storeHot = false → (s.tileTherm i).near = true → t = s) ∧
      ((s.tileTherm i).kilnHot = false → (s.tileTherm i).storeHot = false → (s.tileTherm i).near = false → (s.tilePower i).thermDuty < 16 →
        (t.tilePower i).thermDuty = (s.tilePower i).thermDuty + 1 ∧ (t.tilePower i).thermD = (s.tilePower i).thermD) ∧
      ((s.tileTherm i).kilnHot = false → (s.tileTherm i).storeHot = false → (s.tileTherm i).near = false → 16 ≤ (s.tilePower i).thermDuty →
        (t.tilePower i).thermD = max s.lowestD ((s.tilePower i).thermD - 1)) ∧
      (∀ j, j ≠ i → t.tilePower j = s.tilePower j) ∧ t = { s with power := t.power }) ∧
  (∀ (s : State) (d : Nat), d < 10 → s.cooled d = true → (s.cyc d).shutdown = true → ∃ t, exec (.shutdownRecovery d) s = .next t ∧ (t.cyc d).shutdown = false ∧
      (d < 4 → ∀ i < 8, (t.tilePower (8 * d + i)).thermD = 8) ∧ t = { s with therm := t.therm, power := t.power }) ∧
  (∀ (s : State) (d : Nat), s.cooled d = false → exec (.shutdownRecovery d) s = .next s) ∧
  (∀ s : State, s.cooled 10 = true → s.power.coolShutdown = true → s.power.coolCause = 3 → exec (.shutdownRecovery 10) s = .next { s with links := { s.links with firingDue := some .chipRst } }) ∧
  (∀ (s : State) (hz : Nat), hz < 2 ^ 17 → hz < s.mould.pins.tachMin → s.power.flowLost = false → ∃ t, exec (.tachWindow hz) s = .next t ∧ t.host.tachHz = hz ∧
      t.host.sbActive.getLsbD 4 = true ∧ t.power.flowLost = true ∧ t.faults.raised = s.faults.raised ++ [{ source := 356 }] ∧ t = { s with host := t.host, power := t.power, faults := t.faults }) ∧
  (∀ (s : State) (k : Nat), s.power.step < k → k = s.coolingStep false → exec (.coolingStepChange k) s = .next ({ s with power := { s.power with step := k } }.raise { source := 355 })) ∧
  (∀ (s : State) (k : Nat), k < s.power.step → s.coolingStep true ≤ k → exec (.coolingStepChange k) s = .next ({ s with power := { s.power with step := k } }.raise { source := 355 }))

/-- TEMPERATURE_SAMPLE on a module whose dies are all out of service but for the mint (R466, R467): the inlet and board sensors are taken, one that does not answer has failed, raises
371 or 372, and an inlet that fails asks for step 1 at least; the mint shuts down at 115 °C with source 354 (R470, R473).  CYCLE_SAMPLE counts a
half-cycle of a die into its swing's bin of the Ledger and keeps the other dies' bins; THERMAL_CYCLE starts a new hour for every die (R475, R476). -/
def Obligations.TemperaturesAndCycles : Prop :=
  (∀ (s : State) (r : TempReads), s.power.holdup = false → (∀ d < 10, s.die d = .inReset) → ∃ t, exec (.temperatureSample r) s = .next t ∧
      (∀ v, r.inlet = some v → t.therm.inlet = BitVec.ofInt 12 v ∧ t.therm.inletFail = s.therm.inletFail) ∧ (r.inlet = none → t.therm.inletFail = true) ∧
      (∀ v, r.board = some v → t.therm.board = BitVec.ofInt 12 v ∧ t.therm.boardFail = s.therm.boardFail) ∧ (r.board = none → t.therm.boardFail = true) ∧
      (r.inlet = none → s.therm.inletFail = false → { source := 371 } ∈ t.faults.raised) ∧
      (∀ v, r.junctions[2]? = some v → 8 * 115 ≤ v → v < 2048 → s.power.coolShutdown = false → { source := 354 } ∈ t.faults.raised ∧ t.power.coolShutdown = true)) ∧
  (∀ s : State, (∀ d < 11, s.cycleTemp d = none) → ∃ t, exec .cycleSample s = .next t ∧ t.ledger = s.ledger ∧ t.therm.worstDie = s.worst ∧
      t.therm.consumed = min (2 ^ 24 - 1) (s.lifeNum s.worst * 65536 / 264000000) ∧ t = { s with therm := t.therm, faults := t.faults }) ∧
  (∀ (s : State) (d b : Nat) (u : Int), d < 11 → s.cycleTemp d = some u → (∀ e < 11, e ≠ d → s.cycleTemp e = none) → ((s.cyc d).sample u).2 = some b →
      ∃ t, exec .cycleSample s = .next t ∧ t.cyc d = ((s.cyc d).sample u).1 ∧
        sget 0 t.ledger.bins (4 * d + b) = min (2 ^ 32 - 1) (sget 0 s.ledger.bins (4 * d + b) + 1) ∧
        (∀ k, k ≠ 4 * d + b → sget 0 t.ledger.bins k = sget 0 s.ledger.bins k) ∧ t = { s with therm := t.therm, faults := t.faults, ledger := t.ledger }) ∧
  (∀ (x : CycleState) (u p : Int), x.turning = some p → p ≤ x.extreme → u ≤ x.extreme - 80 → (x.sample u).1.turning = some x.extreme ∧ (x.sample u).1.extreme = u ∧
      (x.sample u).2 = swingBin (x.extreme - p).natAbs) ∧
  (∀ s : State, ∃ t, exec .thermalCycle s = .next t ∧ (∀ d < 11, (t.cyc d).hour = [0, 0, 0, 0] ∧ (t.cyc d).hiHour = none ∧ (t.cyc d).loHour = none ∧ (t.cyc d).turning = (s.cyc d).turning) ∧
      t.ledger.bins = s.ledger.bins ∧ t = { s with therm := t.therm, ledger := t.ledger })


/-! ## Tiles and their commands (R106-R144) -/

/-- KLN_TQ_TAILq, KLN_TQ_CTRL and KLN_ABANDON written by the mint on a tile whose kiln is ready and on which nothing runs (R106, R136, R142, R144): TAIL takes its six bits; EN takes bits 3:0;
FLUSH empties a queue and clears HALTED; RESUME of a halted queue passes its head; a tag joins the abandon list while it holds fewer than 16, and
is dropped with ABANDON_FULL set at 16.  Each of these writes interrupts a first dual write of the master to the block (R397).  Any master but the mint and the standby island is refused.  The slot window (R106) holds the eight
64-bit words of each descriptor, taken as registers (log entry 50), for the Teller and the Assay islands alone: a write of a word changes that word and nothing else. -/
def Obligations.TileQueueRegisters : Prop :=
  (∀ (s : State) (m : Master) (t : Nat), s.isStandby m = false → s.isMint m = true → t < 32 → s.dieReady (t / 8) = true → (s.tile t).quiet = true →
    let w := s.failDual m (addrBlock (tqAddr t 0))
    (∀ (q : Nat) (v : Word), q < 4 → ∃ u, exec (.klnTqTail m t q v) s = .next u ∧ (u.tile t).q q = { (s.tile t).q q with tail := v.toNat % 64 } ∧
        (∀ k, k ≠ q → (u.tile t).q k = (s.tile t).q k) ∧ (∀ j, j ≠ t → u.tile j = s.tile j) ∧ u.reg.reply = .accepted ∧
        u = { w with tiles := u.tiles, islands := u.islands, reg := u.reg }) ∧
    (∀ v : Word, (∀ k < 8, v.getLsbD (4 + k) = false) → ∃ u, exec (.queueEn m t v) s = .next u ∧ (∀ q < 4, (u.tile t).q q = { (s.tile t).q q with en := v.getLsbD q }) ∧
        (∀ j, j ≠ t → u.tile j = s.tile j) ∧ u.reg.reply = .accepted ∧ u = { w with tiles := u.tiles, reg := u.reg }) ∧
    (∀ v : Word, (∀ k < 4, v.getLsbD (8 + k) = false) → ∃ u, exec (.flush m t v) s = .next u ∧
        (∀ q < 4, (u.tile t).q q = if v.getLsbD (4 + q) then { (s.tile t).q q with en := v.getLsbD q, halted := false, marked := [], head := ((s.tile t).q q).tail }
          else { (s.tile t).q q with en := v.getLsbD q }) ∧
        (∀ j, j ≠ t → u.tile j = s.tile j) ∧ u.reg.reply = .accepted ∧ u = { w with tiles := u.tiles, reg := u.reg }) ∧
    (∀ v : Word, (∀ k < 4, v.getLsbD (4 + k) = false) → ∃ u, exec (.resume m t v) s = .next u ∧
        (∀ q < 4, (u.tile t).q q = if v.getLsbD (8 + q) && ((s.tile t).q q).halted
          then { (s.tile t).q q with en := v.getLsbD q, halted := false, head := (((s.tile t).q q).head + 1) % 64,
                                     marked := ((s.tile t).q q).marked.filter (fun k => k ≠ ((s.tile t).q q).head) }
          else { (s.tile t).q q with en := v.getLsbD q }) ∧
        (∀ j, j ≠ t → u.tile j = s.tile j) ∧ u.reg.reply = .accepted ∧ u = { w with tiles := u.tiles, reg := u.reg }) ∧
    (∀ tag : Word, tag ≠ 0 → (s.tile t).abandonList.length < 16 → ∃ u, exec (.klnAbandon m t tag) s = .next u ∧
        (u.tile t).abandonList = (s.tile t).abandonList ++ [tag.toNat] ∧ (u.tile t).abandonFull = false ∧ (u.tile t).lastAbandon = tag ∧
        (∀ q < 4, ((u.tile t).q q).head = ((s.tile t).q q).head ∧ ((u.tile t).q q).tail = ((s.tile t).q q).tail ∧ ((u.tile t).q q).slots = ((s.tile t).q q).slots) ∧
        u.reg.reply = .accepted ∧ u = { w with tiles := u.tiles, reg := u.reg }) ∧
    (∀ tag : Word, tag ≠ 0 → 16 ≤ (s.tile t).abandonList.length →
        exec (.klnAbandon m t tag) s = .next ((w.setTile t { s.tile t with abandonFull := true }).reply .accepted)) ∧
    exec (.klnAbandon m t 0) s = .next (w.reply .accepted)) ∧
  (∀ (x : RegAccess) (t q k n : Nat), t < 32 → q < 4 → k < 64 → n < 8 → x.wide = true →
    x.loc = .window (dieWindow (t / 8) + 0x1000000 + t % 8 * 0x4000 + q * 0x1000 + k * 0x40 + n * 8) → accReg? x = some (.slot t q k n)) ∧
  (∀ (s : State) (x : RegAccess) (t q k n : Nat), n < 8 → x.wide = true → Reaches s x (.slot t q k n) → ∃ u, exec (.registerWrite x) s = .next u ∧ u.reg.reply = .accepted ∧
    dfld (sget 0 ((u.tile t).q q).slots k) (8 * n) 8 = x.value.toNat ∧
    (∀ j, j < 8 → j ≠ n → dfld (sget 0 ((u.tile t).q q).slots k) (8 * j) 8 = dfld (sget 0 ((s.tile t).q q).slots k) (8 * j) 8) ∧
    (∀ j, j ≠ k → sget 0 ((u.tile t).q q).slots j = sget 0 ((s.tile t).q q).slots j) ∧ (∀ i, i ≠ q → (u.tile t).q i = (s.tile t).q i) ∧
    ((u.tile t).q q = { (s.tile t).q q with slots := ((u.tile t).q q).slots }) ∧ (∀ i, i ≠ t → u.tile i = s.tile i) ∧ u = { s with tiles := u.tiles, reg := u.reg }) ∧
  (∀ (s : State) (m : Master) (t q k n : Nat), s.canWrite m (.slot t q k n) = tellerSide m ∧ s.canRead m (.slot t q k n) = tellerSide m) ∧
  (∀ (s : State) (m : Master) (t q : Nat) (v : Word), s.isStandby m = false → s.isMint m = false ∨ s.dieReady (t / 8) = false → q < 4 →
    exec (.klnTqTail m t q v) s = .next (s.refuse m (tqAddr t (0x10 + q * 8)) true) ∧
    exec (.queueEn m t v) s = .next (s.refuse m (tqAddr t 0) true) ∧ exec (.flush m t v) s = .next (s.refuse m (tqAddr t 0) true) ∧
    exec (.resume m t v) s = .next (s.refuse m (tqAddr t 0) true) ∧ exec (.klnAbandon m t v) s = .next (s.refuse m (tqAddr t 0x58) true))

/-- How a tile passes from one command to the next (R27, R107, R108, R113, R130, R132, R133, R136, R351).  COMMAND_BOUNDARY of a tile whose kiln and hearth are ready takes the ready queue of
highest priority: its head's descriptor runs where its check passes, and otherwise ends at once with its status, the queue halted and a record posted; a divider and duty
that wait take effect; a command that uses the array clears another queue's preload record.  YIELD_POINT of a tile that works runs one more unit of the command, where one lies ahead of its last, after which a ready queue of higher priority
takes the tile where the frame it uses is free, the take is counted and the command's wait is removed; a command that is abandoned or flushed ends there with ABANDONED instead, the outputs it had begun undefined; in its last unit, and while it only waits for its own signal, it has no yield point.  SPILL_DONE puts command
and vector unit into the frame, and no byte outside the frame's area changes; RESTORE_DONE takes them back out.  CEDE_EXPIRY ends the ceding; ABANDON_ACTED frees the tag's place in the list. -/
def Obligations.TileScheduling : Prop :=
  (∀ (s : State) (t q : Nat), t < 32 → (s.tile t).quiet = true → s.tileOut t = false → s.tileUp t = true → (s.tile t).best = some q →
    ¬ ((s.tile t).q q).head ∈ ((s.tile t).q q).marked →
    let d := sget 0 ((s.tile t).q q).slots ((s.tile t).q q).head
    let c : RunCmd := { desc := d, queue := q, slot := ((s.tile t).q q).head }
    let st := (descVerdict d t (s.tilePart t) (s.settlePower t)).1
    (st = stOk → ∃ u, exec (.commandBoundary t) s = .next u ∧
      u.tile t = { s.tile t with
        running := some c
        preload := if usesArray (dOp d) = true ∧ ((s.tile t).preload.map (·.queue)) ≠ some q then none else (s.tile t).preload
        weights := (u.tile t).weights
        shadow := (u.tile t).shadow } ∧
      (dOp d ≠ 0x02 → dOp d ≠ 0x03 → (u.tile t).weights = (s.tile t).weights ∧ (u.tile t).shadow = (s.tile t).shadow) ∧
      (u.tilePower t).d = s.askedD t ∧ (u.tilePower t).duty = s.askedDuty t ∧
      (∀ j, j ≠ t → u.tile j = s.tile j) ∧ u = { s with tiles := u.tiles, power := u.power }) ∧
    (st ≠ stOk → st ≠ stAbandoned → ∃ u, exec (.commandBoundary t) s = .next u ∧ Ended (s.tile t) (u.tile t) c st ∧
      u.teller.records = s.teller.records ++ recordOf t c st 0 0 0 ∧
      u.mem = s.mem ∧ (∀ j, j ≠ t → u.tile j = s.tile j) ∧ u = { s with tiles := u.tiles, teller := u.teller, reg := u.reg, faults := u.faults, power := u.power })) ∧
  (∀ (s : State) (t : Nat), (s.tile t).running.isSome = true ∨ (s.tile t).best = none ∨ s.tileUp t = false ∨ s.tileOut t = true →
    ∃ u, exec (.commandBoundary t) s = .next u ∧ u = { s with power := u.power }) ∧
  (∀ (s r : State) (t q f : Nat) (c : RunCmd), (s.tile t).spilling = none → (s.tile t).restoring = none → s.tileWorks t = true → (s.tile t).running = some c →
    c.abandoned = false → c.flushed = false → unitOf s t c = some r →
    (r.tile t).best = some q → q < c.queue → (r.tile t).takeFrame q = some f →
    ∃ u, exec (.yieldPoint t) s = .next u ∧ u.tile t = { r.tile t with spilling := some (f, q), takeCount := (r.tile t).takeCount + 1, preload := none } ∧
      (∀ h < 4, (u.hearth h).waiter t = none) ∧ (∀ j, j ≠ t → u.tile j = r.tile j) ∧ (∀ a, u.readByte a = r.readByte a) ∧
      (c.wait ≠ .none → r = s) ∧ u = { r with tiles := u.tiles, mem := { r.mem with hearths := u.mem.hearths }, power := u.power }) ∧
  (∀ (s : State) (t : Nat) (c : RunCmd), (s.tile t).spilling = none → (s.tile t).restoring = none → s.tileWorks t = true → (s.tile t).running = some c →
    stopsFirst s t c = true → let v := abandonedOuts c t (s.tilePart t) s
    ∃ u, exec (.yieldPoint t) s = .next u ∧ Ended (v.tile t) (u.tile t) c stAbandoned ∧
      u.teller.records = v.teller.records ++ recordOf t c stAbandoned 0 0 0 ∧ (∀ j, j ≠ t → u.tile j = v.tile j) ∧ (∀ a, u.readByte a = v.readByte a)) ∧
  (∀ (s : State) (t : Nat) (c : RunCmd), dOp c.desc ≠ 0x05 ∨ c.work.vec = none → (abandonedOuts c t (s.tilePart t) s).tiles = s.tiles ∧
    (abandonedOuts c t (s.tilePart t) s).teller = s.teller) ∧
  (∀ (s : State) (t : Nat) (c : RunCmd), (s.tile t).running = some c → unitOf s t c = none → exec (.yieldPoint t) s = .next s) ∧
  (∀ (s : State) (t q f : Nat) (c : RunCmd), (s.tile t).spilling = some (f, q) → f < 2 → (s.tile t).running = some c → c.wait = .none → c.abandoned = false → c.flushed = false →
    ∃ u, exec (.spillDone t) s = .next u ∧ (u.tile t).frame f = some { cmd := { c with taken := true }, vec := (s.tile t).vec } ∧
      (u.tile t).spilling = none ∧ (∀ a, (a < frameBase t f ∨ frameBase t f + frameBytes ≤ a) → u.readByte a = s.readByte a) ∧ (∀ j, j ≠ t → u.tile j = s.tile j)) ∧
  (∀ (s : State) (t f : Nat) (fr : Frame), f < 2 → (s.tile t).restoring = some f → (s.tile t).frame f = some fr → ∃ u, exec (.restoreDone t) s = .next u ∧
    (u.tile t).running = some fr.cmd ∧ (u.tile t).vec = fr.vec ∧ (u.tile t).frame f = none ∧ (u.tile t).restoring = none ∧ (u.tile t).queues = (s.tile t).queues ∧
    (usesArray (dOp fr.cmd.desc) = true → ((s.tile t).preload.map (·.queue)) ≠ some fr.cmd.queue → (u.tile t).preload = none) ∧
    (∀ j, j ≠ t → u.tile j = s.tile j) ∧ u = { s with tiles := u.tiles }) ∧
  (∀ (s : State) (t q : Nat), ((s.tile t).q q).ceding = true → ∃ u, exec (.cedeExpiry t q) s = .next u ∧ (u.tile t).q q = { (s.tile t).q q with ceding := false, cedeLeft := 0 } ∧
    (∀ j, j ≠ t → u.tile j = s.tile j) ∧ u = { s with tiles := u.tiles }) ∧
  (∀ (s : State) (t tag : Nat), (s.tile t).quiet = true → (s.tile t).engine0 = none → (s.tile t).engine1 = none → tag ∈ (s.tile t).abandonList → s.teller.abandons = [] →
    ∃ u, exec (.abandonActed t tag) s = .next u ∧ ¬ tag ∈ (u.tile t).abandonList ∧ (∀ g, g ≠ tag → g ∈ (s.tile t).abandonList → g ∈ (u.tile t).abandonList) ∧
      (∀ j, j ≠ t → u.tile j = s.tile j) ∧ u = { s with tiles := u.tiles })

/-- A command that computes runs to its end in one step from where its work stands (R107, R109, R115, R116, R130, R250, log entry 1): with DONE_EN clear, or a status other than OK, the tile's queue
has moved on, emptied or halted as `Ended` says, its record is posted where it posts one, and memory holds what the command wrote; with DONE_EN set and OK the signal
of its DONE_TALLY leaves for the home and the command waits for it.  A command that is abandoned or flushed with a yield point ahead of its last unit ends there with ABANDONED.  An END waits while a transfer of its queue is under way.  YIELD with MODE 1 makes its queue cede. -/
def Obligations.CommandsRunAndEnd : Prop :=
  ∀ (s : State) (t : Nat) (c : RunCmd),
  (∀ p ∈ [(Instr.slabMatmul t, 0x02, matRun c.desc t c.work (s.slabUsed t c.desc)), (.slabConv t, 0x03, convRun c.desc t c.work (s.slabUsed t c.desc)),
      (.attend t, 0x04, attRun c.desc t (s.tilePart t) c.work (s.slabUsed t c.desc)), (.vecRun t, 0x05, vecRun c.desc t (s.tilePart t) c.work.vec s),
      (.sample t, 0x0C, sampleRun c.desc t (s.tilePart t) s), (.cropResize t, 0x0D, cropRun c.desc t c.work s), (.boxDecode t, 0x0E, boxRun c.desc t s),
      (.nms t, 0x0F, nmsRun c.desc t c.work s), (.endStream t, 0x10, { s := s, result := dfld c.desc 16 2 })],
    s.runnable t p.2.1 = some c → (p.2.1 = 0x10 → (s.tile t).streaming c.queue = false) → (p.2.1 ≠ 0x10 → stopsFirst s t c = false) →
    (p.2.2.status ≠ stOk ∨ dDoneEn c.desc = false → ∃ u, exec p.1 s = .next u ∧ Ended (p.2.2.s.tile t) (u.tile t) c p.2.2.status ∧
      u.teller.records = p.2.2.s.teller.records ++ recordOf t c p.2.2.status p.2.2.numeric p.2.2.opflags p.2.2.result ∧
      (∀ a, u.readByte a = p.2.2.s.readByte a)) ∧
    (p.2.2.status = stOk → dDoneEn c.desc = true → ∃ u x, exec p.1 s = .next u ∧ (u.tile t).running = some x ∧ x.wait = .signal ∧
      u.mem.signals = p.2.2.s.mem.signals ++ [{ src := 4 + t / 8, tally := dTally c.desc, value := dAdd c.desc, after := .command t }] ∧
      (∀ a, u.readByte a = p.2.2.s.readByte a))) ∧
  (stopsFirst s t c = true → let v := abandonedOuts c t (s.tilePart t) s
    ∀ p ∈ [(Instr.slabLoad t, 0x01), (.slabMatmul t, 0x02), (.slabConv t, 0x03), (.attend t, 0x04), (.vecRun t, 0x05), (.move t, 0x06), (.gatherPages t, 0x07),
      (.sample t, 0x0C), (.cropResize t, 0x0D), (.boxDecode t, 0x0E), (.nms t, 0x0F)], s.runnable t p.2 = some c → ∃ u, exec p.1 s = .next u ∧
      Ended (v.tile t) (u.tile t) c stAbandoned ∧ u.teller.records = v.teller.records ++ recordOf t c stAbandoned 0 0 0 ∧ (∀ a, u.readByte a = v.readByte a)) ∧
  (s.runnable t 0x10 = some c → (s.tile t).streaming c.queue = true → exec (.endStream t) s = .next s) ∧
  (s.runnable t 0x0B = some c → dDoneEn c.desc = false → ∃ u, exec (.yield t) s = .next u ∧ (u.tile t).running = none ∧
    (dfld c.desc 16 1 = 1 → c.flushed = false → (u.tile t).q c.queue = { (s.tile t).q c.queue with ceding := true, cedeLeft := dfld c.desc 18 2, head := (c.slot + 1) % 64, marked := ((s.tile t).q c.queue).marked.filter (fun m => m ≠ c.slot) }) ∧
    (dfld c.desc 16 1 ≠ 1 → Ended (s.tile t) (u.tile t) c stOk) ∧ u.teller.records = s.teller.records ++ recordOf t c stOk 0 0 0)

/-- What the moving commands leave in memory (R119, R125, R126, R245), from their first unit, for a descriptor that passes its check, ranges that meet no poison and recorded owners that hold their lines:
MOVE puts row r of the source, or the fill byte, at DST + r · DST_STRIDE and no byte elsewhere; a plain GATHER_PAGES writes no byte outside DST's LEN bytes, and of a stretch that is cached and
lies in one page it writes that page's bytes; SLAB_LOAD stores nothing, fills the shadow buffer and makes the
preload record; with ASYNC a free engine takes the transfer, stopped where the tile's abandon list holds its tag (R126, R136), and the queue moves on; DMA_TRANSFER_DONE of such a MOVE writes the same bytes and frees the
engine; DMA_HANDOVER gives a waiting transfer to a free engine; a MOVE that is not ASYNC leaves the queue as `Ended` says. -/
def Obligations.MovesAndTransfers : Prop :=
  (∀ (s : State) (t : Nat) (c : RunCmd), s.runnable t 0x06 = some c → dAsync c.desc = false → dDoneEn c.desc = false → (descVerdict c.desc t (s.tilePart t) s).1 = stOk →
    stopsFirst s t c = false → c.work = {} → s.OwnersHold → (∀ r ∈ (moveChecks c.desc).ins ++ (moveChecks c.desc).outs, s.meetsPoison (.tile t) r.1 r.2 = false) →
    let x := moveFields c.desc
    ∃ u, exec (.move t) s = .next u ∧ Ended (s.tile t) (u.tile t) c stOk ∧
      (∀ r < x.rows, ∀ i < x.rowBytes, u.readByte (x.dst + (if x.rows = 1 then 0 else r * x.dstStride) + i) =
        if x.fill then BitVec.ofNat 8 x.byte else s.readByte (x.src + (if x.rows = 1 then 0 else r * x.srcStride) + i)) ∧
      (∀ a, (∀ r < x.rows, ∀ i < x.rowBytes, a ≠ x.dst + (if x.rows = 1 then 0 else r * x.dstStride) + i) → u.readByte a = s.readByte a) ∧
      (∀ j, j ≠ t → u.tile j = s.tile j)) ∧
  (∀ (s : State) (t : Nat) (c : RunCmd), s.runnable t 0x07 = some c → stopsFirst s t c = false → dAsync c.desc = false → (gatherFields c.desc).expand = false →
    let x := gatherFields c.desc
    ∃ u, exec (.gatherPages t) s = .next u ∧ (∀ a, (a < x.dst ∨ x.dst + x.len ≤ a) → u.readByte a = s.readByte a) ∧
      (∀ (l : PageList) (a left : Nat), c.work = {} → dDoneEn c.desc = false → s.OwnersHold →
        (∀ r ∈ (x.dst, x.len) :: gatherReads s (.tile t) (s.tilePart t) c.desc, s.meetsPoison (.tile t) r.1 r.2 = false) →
        readList s (.tile t) (s.tilePart t) x.list = .ok l → 0 < x.len → x.len % 64 = 0 → x.ofs + x.len ≤ l.cached →
        pageAt s (.tile t) (s.tilePart t) l x.ofs = .ok (a, left) → x.len ≤ left → s.bound (s.tilePart t) x.dst x.len = .ok → s.meetsPoison (.tile t) a x.len = false →
        Ended (s.tile t) (u.tile t) c stOk ∧ ∀ i < x.len, u.readByte (x.dst + i) = s.readByte (a + i))) ∧
  (∀ (s : State) (t : Nat) (c : RunCmd), s.runnable t 0x01 = some c → stopsFirst s t c = false → dDoneEn c.desc = false → s.OwnersHold → (∀ r ∈ (slabLoadChecks c.desc).ins, s.meetsPoison (.tile t) r.1 r.2 = false) →
    ∃ u, exec (.slabLoad t) s = .next u ∧ Ended (s.tile t) (u.tile t) c stOk ∧ (∀ a, u.readByte a = s.readByte a) ∧
      (u.tile t).shadow = (slabLoadChecks c.desc).ins.flatMap (fun r => s.readBytes r.1 r.2) ∧
      (u.tile t).preload = some { queue := c.queue, wAddr := dAddr c.desc 16, fmts := dfld c.desc 30 1, tgt := dfld c.desc 31 1 }) ∧
  (∀ (s : State) (t : Nat) (c : RunCmd), c.flushed = false → dAsync c.desc = true → (s.tile t).engine0 = none →
    ∀ p ∈ [(Instr.move t, 0x06), (.gatherPages t, 0x07)], s.runnable t p.2 = some c → ∃ u, exec p.1 s = .next u ∧
      (u.tile t).engine0 = some { desc := c.desc, queue := c.queue, taken := c.taken, stop := c.abandoned || (s.tile t).abandonList.contains (dTag c.desc) } ∧ (u.tile t).running = none ∧
      ((u.tile t).q c.queue).head = (c.slot + 1) % 64 ∧ (∀ j, j ≠ t → u.tile j = s.tile j) ∧ u = { s with tiles := u.tiles }) ∧
  (∀ (s : State) (t : Nat) (tr : Transfer), s.dieReady (4 + t / 8) = true → s.dramOpen = true → (s.tile t).engine0 = some tr → tr.stop = false → dOp tr.desc = 0x06 → dDoneEn tr.desc = false → dEvt tr.desc = false →
    (moveFields tr.desc).rows = 1 → (descVerdict tr.desc t (s.tilePart t) s).1 = stOk → s.OwnersHold →
    (∀ r ∈ (moveChecks tr.desc).ins ++ (moveChecks tr.desc).outs, s.meetsPoison (.engine t) r.1 r.2 = false) →
    ∃ u, exec (.dmaTransferDone t 0) s = .next u ∧ (u.tile t).engine0 = none ∧ (u.tile t).engine1 = (s.tile t).engine1 ∧
      (∀ i < (moveFields tr.desc).rowBytes, u.readByte ((moveFields tr.desc).dst + i) =
        if (moveFields tr.desc).fill then BitVec.ofNat 8 (moveFields tr.desc).byte else s.readByte ((moveFields tr.desc).src + i)) ∧
      (∀ a, (a < (moveFields tr.desc).dst ∨ (moveFields tr.desc).dst + (moveFields tr.desc).rowBytes ≤ a) → u.readByte a = s.readByte a) ∧
      u.teller.records.length = s.teller.records.length + (if dCpl tr.desc then 1 else 0)) ∧
  (∀ (s : State) (t : Nat) (c : RunCmd), (s.tile t).running = some c → c.queue < 4 → c.wait = .engine → c.abandoned = false → c.flushed = false → (s.tile t).frame0 = none → (s.tile t).frame1 = none →
    (s.tile t).spilling = none → (s.tile t).engine0 = none → ∃ u, exec (.dmaHandover t) s = .next u ∧ (u.tile t).running = none ∧
      (u.tile t).engine0 = some { desc := c.desc, queue := c.queue, taken := c.taken, stop := (s.tile t).abandonList.contains (dTag c.desc) } ∧ ((u.tile t).q c.queue).head = (c.slot + 1) % 64 ∧ u = { s with tiles := u.tiles })

/-- SLAB_MATMUL of integer operands into I32 without ACCUM, K within one pass of the array, from its first unit, on inputs and outputs free of poison that do not meet, the recorded owners of lines
holding them (R85, R96, R118, R120): entry (i, j) of OUT
is the dot product of row i of A and row j of W, saturated to 32 bits; no byte outside OUT's rows changes. -/
def Obligations.MatmulOfIntegers : Prop :=
  ∀ (s : State) (t : Nat) (c : RunCmd) (x : Mat), s.runnable t 0x02 = some c → stopsFirst s t c = false → dDoneEn c.desc = false → matFields c.desc = some x → (descVerdict c.desc t (s.tilePart t) s).1 = stOk →
    x.oa.blk = false → x.outFmt = 0xD → x.accum = false → x.k * x.oa.w ≤ 1024 → anyOverlap x.inSpans [x.outSpan] = false → c.work = {} → s.OwnersHold →
    (∀ r ∈ x.outSpan :: x.inSpans, s.meetsPoison (.tile t) r.1 r.2 = false) →
    ∃ u, exec (.slabMatmul t) s = .next u ∧ Ended (s.tile t) (u.tile t) c stOk ∧
      (∀ i < x.m, ∀ j < x.n, u.readNat (x.out + i * x.pitchOut + 4 * j) 4 = unsigned 32 (clampInt 32 (((List.range x.k).map (fun k =>
        s.elemInt (x.a + i * x.pitchA) x.oa.w k * s.elemInt (x.w + j * x.pitchW) x.ow.w k)).sum))) ∧
      (∀ a, (a < x.out ∨ x.out + x.m * x.pitchOut ≤ a) → u.readByte a = s.readByte a)

/-- REDUCE, TALLY_WAIT and TALLY_SIGNAL at a tile (R127-R129, R198, R203, R205), DONE_EN clear.  A REDUCE whose source meets no poison contributes and waits, among the waiting contributions of its
partition and RED_ID; the last contribution combines all
in ascending tile number; where one of them differs in a field that must agree, it and all of them end with MISMATCH; the result is written where the tile
writes it, and no other byte changes.  A TALLY_WAIT sends its registration; at the home it ends at once where the threshold is met, is registered where it is not, and ends
with HW_FAULT at a broken tally or one without its home; a wake ends it; a limit of its own or of the tile ends it with TIMEOUT.  A TALLY_SIGNAL leaves
for the home and waits. -/
def Obligations.ReductionsAndWaits : Prop :=
  (∀ (s : State) (t : Nat) (c : RunCmd), s.runnable t 0x08 = some c → dDoneEn c.desc = false →
    let x := redFields c.desc
    let mine : Contribution := { tile := t, desc := c.desc, data := s.readBytes x.src (x.count * x.esz) }
    let peers := s.mem.reductions.filter (fun k => k.outcome.isNone && s.tilePart k.tile == s.tilePart t && (redFields k.desc).id == x.id)
    let all := peers ++ [mine]
    s.OwnersHold → s.meetsPoison (.tile t) x.src (x.count * x.esz) = false →
    ((∀ k ∈ peers, (redFields k.desc).key = x.key) → ∃ u, exec (.reduce t) s = .next u ∧ (u.tile t).running = some { c with wait := .reduce } ∧
      ((∃ v ∈ x.tiles, ∀ k ∈ all, k.tile ≠ v) → u.mem.reductions = s.mem.reductions ++ [mine]) ∧
      ((∀ v ∈ x.tiles, ∃ k ∈ all, k.tile = v) → u.mem.reductions = (s.mem.reductions ++ [mine]).map (fun k =>
        if k.outcome.isNone && x.tiles.contains k.tile && (redFields k.desc).id == x.id
        then { k with outcome := some (redCombine x (x.tiles.filterMap (fun v => (all.find? (fun k => k.tile = v)).map (·.data)))) } else k)) ∧
      (∀ a, u.readByte a = s.readByte a) ∧ (∀ j, j ≠ t → u.tile j = s.tile j) ∧ u = { s with tiles := u.tiles, mem := u.mem, faults := u.faults }) ∧
    (∀ k ∈ peers, (redFields k.desc).key ≠ x.key → ∃ u, exec (.reduce t) s = .next u ∧ Ended (s.tile t) (u.tile t) c stMismatch ∧
      ∀ j ∈ peers, j.tile ≠ t → { j with outcome := some (stMismatch, 0, []) } ∈ u.mem.reductions)) ∧
  (∀ (s : State) (t : Nat) (c : RunCmd) (k : Contribution) (num : Nat) (bytes : List Byte), (s.tile t).running = some c → c.wait = .reduce → (s.tile t).spilling = none → dDoneEn c.desc = false →
    s.mem.reductions.find? (fun k => k.tile = t) = some k → k.outcome = some (stOk, num, bytes) → s.OwnersHold → s.meetsPoison (.tile t) (redFields c.desc).dst bytes.length = false →
    ∃ u, exec (.reduceResult t) s = .next u ∧ Ended (s.tile t) (u.tile t) c stOk ∧
      ((redFields c.desc).writes t = true → (∀ i < bytes.length, u.readByte ((redFields c.desc).dst + i) = bytes.getD i 0) ∧
        ∀ a, (a < (redFields c.desc).dst ∨ (redFields c.desc).dst + bytes.length ≤ a) → u.readByte a = s.readByte a) ∧
      ((redFields c.desc).writes t = false → ∀ a, u.readByte a = s.readByte a)) ∧
  (∀ (s : State) (t : Nat) (c : RunCmd), s.runnable t 0x09 = some c → ∃ u, exec (.tallyWait t) s = .next u ∧ (u.tile t).running = some { c with wait := .tallySent } ∧
    (∀ j, j ≠ t → u.tile j = s.tile j) ∧ u = { s with tiles := u.tiles }) ∧
  (∀ (s : State) (t : Nat) (c : RunCmd), (s.tile t).running = some c → (s.tile t).spilling = none → c.wait = .tallySent → c.abandoned = false → c.flushed = false → dDoneEn c.desc = false →
    let n := dfld c.desc 16 2
    let th := dfld c.desc 18 4
    (s.homeUp (4 + t / 8) n = false ∨ s.tallyBad n = true → ∃ u, exec (.waitRegistration t) s = .next u ∧ Ended (s.tile t) (u.tile t) c stHw) ∧
    (s.homeUp (4 + t / 8) n = true → s.tallyBad n = false → th ≤ (s.tally n).toNat → ∃ u, exec (.waitRegistration t) s = .next u ∧ Ended (s.tile t) (u.tile t) c stOk) ∧
    (s.homeUp (4 + t / 8) n = true → s.tallyBad n = false → (s.tally n).toNat < th → ∃ u, exec (.waitRegistration t) s = .next u ∧ (u.tile t).running = some { c with wait := .tallyHeld } ∧
      (u.hearth (tallyHome n)).waiter t = some { tally := n, threshold := th })) ∧
  (∀ (s : State) (t : Nat) (c : RunCmd) (w : Waiter), (s.tile t).running = some c → (s.tile t).spilling = none → c.wait = .tallyHeld → dDoneEn c.desc = false →
    (s.hearth (tallyHome (dfld c.desc 16 2))).waiter t = some w → w.woken = true →
    ∃ u, exec (.tallyWake t) s = .next u ∧ Ended (s.tile t) (u.tile t) c stOk ∧ ∀ h < 4, (u.hearth h).waiter t = none) ∧
  (∀ (s : State) (t : Nat) (c : RunCmd), (s.tile t).running = some c → (s.tile t).spilling = none →
    (c.wait = .tallySent ∨ c.wait = .tallyHeld → dfld c.desc 22 4 ≠ 0 ∨ (s.tile t).waitLimit ≠ 0 → ∃ u, exec (.waitTimeout t) s = .next u ∧ Ended (s.tile t) (u.tile t) c stTimeout) ∧
    (c.wait = .reduce → (s.tile t).waitLimit ≠ 0 → ∃ u, exec (.waitTimeout t) s = .next u ∧ Ended (s.tile t) (u.tile t) c stTimeout) ∧
    (dfld c.desc 22 4 = 0 → (s.tile t).waitLimit = 0 → exec (.waitTimeout t) s = .next s)) ∧
  (∀ (s : State) (t : Nat) (c : RunCmd), s.runnable t 0x0A = some c → ∃ u, exec (.tallySignal t) s = .next u ∧ (u.tile t).running = some { c with wait := .signal } ∧
    u.mem.signals = s.mem.signals ++ [{ src := 4 + t / 8, tally := dfld c.desc 16 2, value := dfld c.desc 18 4, reset := dfld c.desc 22 1 == 1, after := .command t }] ∧
    u = { s with tiles := u.tiles, mem := { s.mem with signals := u.mem.signals } })

/-- Tallies at their homes (R201-R203, R205, R213).  The oldest SIGNAL on its way adds and saturates at 2^32 - 1 with OVF set, LAST_OVF naming the tally and the partition's tally event pending, and no fault; it wakes the registered waits whose threshold is met and no others, and leaves
every other tally; it is dropped at a broken tally or without its home, and its command ends OK or with HW_FAULT.  The oldest RESET, or the mint's write of
HRT_TALLY_VAL, sets the value, ends BROKEN and wakes the same waits.  A corrected error of a tally's value counts and raises the class C source 68 + h; an uncorrectable one marks the tally broken with BROKEN and LAST_BROKEN, raises the class U source 76 + h and ends every
registered wait of that tally with HW_FAULT.  A write of 1s to
HRT_TALLY_STAT clears OVF and BROKEN, and the contributors with both; either write interrupts a first dual write of the master to the block (R397).  In these lists the operations of the other kind that wait longer do not matter. -/
def Obligations.TalliesAtTheirHomes : Prop :=
  (∀ (s : State) (g : Signal) (pre post : List Signal), s.mem.signals = pre ++ g :: post → (∀ k ∈ pre, k.reset = true) → g.reset = false →
    let n := g.tally
    let h := tallyHome n
    (g.after = .nothing → s.homeUp g.src n = true → s.tallyBad n = false →
      ∃ u, exec .signalAtHome s = .next u ∧ u.mem.signals = pre ++ post ∧ (u.tally n).toNat = min ((s.tally n).toNat + g.value) (2 ^ 32 - 1) ∧ (∀ k, k ≠ n → u.tally k = s.tally k) ∧
        (u.hearth h).ovf = ((s.hearth h).ovf || decide (2 ^ 32 ≤ (s.tally n).toNat + g.value)) ∧
        (2 ^ 32 ≤ (s.tally n).toNat + g.value → (u.hearth h).lastOvf = n % 4096 ∧ (n < 16384 → s.tallyPart n < 8 → u.srcPending (1088 + s.tallyPart n) = true)) ∧
        (∀ t w, (s.hearth h).waiter t = some w → (u.hearth h).waiter t =
          some { w with woken := w.woken || (decide (w.tally = n) && decide (w.threshold ≤ (u.tally n).toNat)) }) ∧
        u = { s with mem := u.mem, reg := u.reg }) ∧
    (g.after = .nothing → s.homeUp g.src n = false ∨ s.tallyBad n = true → exec .signalAtHome s = .next { s with mem := { s.mem with signals := pre ++ post } }) ∧
    (∀ t c, g.after = .command t → (s.tile t).running = some c → c.wait = .signal → dOp c.desc ≠ 0x0A ∨ c.unit ≠ 0 ∨ dDoneEn c.desc = false →
      ∃ u, exec .signalAtHome s = .next u ∧ Ended (s.tile t) (u.tile t) c (if s.homeUp g.src n = true ∧ s.tallyBad n = false then stOk else stHw))) ∧
  (∀ (s : State) (g : Signal) (pre post : List Signal), s.mem.signals = pre ++ g :: post → (∀ k ∈ pre, k.reset = false) → g.reset = true →
    (g.after = .nothing → s.homeUp g.src g.tally = true →
      ∃ u, exec .resetAtHome s = .next u ∧ u.mem.signals = pre ++ post ∧ u.tally g.tally = BitVec.ofNat 32 g.value ∧ u.tallyBad g.tally = false ∧ (∀ n, n ≠ g.tally → u.tally n = s.tally n) ∧
        u = { s with mem := u.mem }) ∧
    (g.after = .nothing → s.homeUp g.src g.tally = false → exec .resetAtHome s = .next { s with mem := { s.mem with signals := pre ++ post } }) ∧
    (∀ t c, g.after = .command t → (s.tile t).running = some c → c.wait = .signal → dOp c.desc ≠ 0x0A ∨ c.unit ≠ 0 ∨ dDoneEn c.desc = false →
      ∃ u, exec .resetAtHome s = .next u ∧ Ended (s.tile t) (u.tile t) c (if s.homeUp g.src g.tally = true then stOk else stHw))) ∧
  (∀ (s : State) (n : Nat), n < 16384 → s.dieReady (4 + tallyHome n) = true →
    let h := tallyHome n
    exec (.tallyBroken ⟨n, .clean⟩) s = .next s ∧
    (∃ u, exec (.tallyBroken ⟨n, .corrected⟩) s = .next u ∧ u.hearth h = { s.hearth h with ceCount := satAdd (2 ^ 32 - 1) (s.hearth h).ceCount 1 } ∧
      u.faults.raised = s.faults.raised ++ [{ source := 68 + h, addr := hearthAddr h (0x10000 + n % 4096 * 8) }] ∧ (∀ k, k ≠ h → u.hearth k = s.hearth k) ∧
      (∀ k, u.tally k = s.tally k) ∧ u = { s with mem := u.mem, faults := u.faults }) ∧
    (∀ b : Bool, ∃ u, exec (.tallyBroken ⟨n, .uncorrectable b⟩) s = .next u ∧ u.tallyBad n = true ∧ (∀ k, k ≠ n → u.tallyBad k = s.tallyBad k) ∧ (u.hearth h).broken = true ∧
      (u.hearth h).lastBroken = n % 4096 ∧ (u.hearth h).ueCount = satAdd (2 ^ 32 - 1) (s.hearth h).ueCount 1 ∧
      (s.tallyPart n < 8 → u.srcPending (1088 + s.tallyPart n) = true) ∧
      { source := 76 + h, owner := s.tallyPart n, addr := hearthAddr h (0x10000 + n % 4096 * 8) } ∈ u.faults.raised ∧ srcClass (76 + h) = 1 ∧
      (∀ k, u.tally k = s.tally k) ∧
      (∀ t c w, t < 32 → (s.hearth h).waiter t = some w → w.tally = n → (s.tile t).running = some c → Ended (s.tile t) (u.tile t) c stHw))) ∧
  (∀ (s : State) (m : Master) (n : Nat) (v : Word), s.isStandby m = false → s.isMint m = true → n < 16384 → s.homeUp 10 n = true →
    let f := s.failDual m (addrBlock (hearthAddr (tallyHome n) (0x10000 + n % 4096 * 8)))
    ∃ u, exec (.hrtTallyValWrite m n v) s = .next u ∧ u.tally n = v ∧ u.tallyBad n = false ∧ (∀ k, k ≠ n → u.tally k = s.tally k) ∧ u.reg.reply = .accepted ∧
      (∀ t w, (s.hearth (tallyHome n)).waiter t = some w → (u.hearth (tallyHome n)).waiter t =
        some { w with woken := w.woken || (decide (w.tally = n) && decide (w.threshold ≤ v.toNat)) }) ∧
      u = { f with mem := u.mem, reg := u.reg }) ∧
  (∀ (s : State) (m : Master) (h : Nat) (v : Word), s.isStandby m = false → s.isMint m = true → h < 4 → s.dieReady (4 + h) = true →
    let f := s.failDual m (addrBlock (hearthAddr h 0x28))
    ∃ u, exec (.hrtTallyStatClear m h v) s = .next u ∧ (u.hearth h).ovf = ((s.hearth h).ovf && !v.getLsbD 0) ∧ (u.hearth h).broken = ((s.hearth h).broken && !v.getLsbD 1) ∧
      (u.hearth h).contrib = (if (u.hearth h).ovf = false ∧ (u.hearth h).broken = false then 0 else (s.hearth h).contrib) ∧
      (∀ k, k ≠ h → u.hearth k = s.hearth k) ∧ (∀ n, u.tally n = s.tally n) ∧ u.reg.reply = .accepted ∧
      u = { f with mem := u.mem, reg := u.reg }) ∧
  (∀ (s : State) (m : Master) (h n : Nat) (v : Word), s.isStandby m = false → s.isMint m = false →
    exec (.hrtTallyValWrite m n v) s = .next (s.refuse m (hearthAddr (tallyHome n) (0x10000 + n % 4096 * 8)) true) ∧
    exec (.hrtTallyStatClear m h v) s = .next (s.refuse m (hearthAddr h 0x28) true))

/-! ## Memory (R180-R195, R207, R215) -/

/-- Directory coherence (R190-R195, R209, R210) at a home in directory mode, for a line that the hearth may hold and whose partition has ways there.  A read miss joins the holders, an owner being recalled and keeping a clean copy; where the home does not answer it
brings a poisoned line; an ownership request, of a whole-line or of a byte-masked write, leaves the
requester as owner and the only holder; a write-back or an eviction notice takes the copy away; a home-side write leaves no copy, a home-side
read none that is dirty.  A corrected error of the line counts at its home and raises a class C fault; one of a copy counts at its hearth, and an uncorrectable one of a dirty copy takes the copy and poisons the line (R180),
or, where nothing can be poisoned (R185), leaves the line's own bytes free (log entry 88).  Nothing else here changes what a byte of memory reads as.  The hearths that hold the line answer their home (R210). -/
def Obligations.DirectoryCoherence : Prop :=
  (∀ (s : State) (h a : Nat) (hm : Home), s.mayCache h a = true → s.home (a / 64 * 64) = some hm → s.homeUpFor (4 + h) hm = true → s.directory hm = true →
    let l := a / 64
    ((s.hearth h).line l = none → dirValid (s.dirOf l) = true → owned (s.dirOf l) = false → ∃ u c, exec (.readMiss h a .clean) s = .next u ∧
      u.dirOf l = s.dirOf l ||| 2 ^ h ∧ (u.hearth h).line l = some c ∧ c.dirty = false ∧ c.poisoned = s.mem.poisoned l ∧ (∀ k, k ≠ h → u.hearth k = s.hearth k) ∧ (∀ b, u.readByte b = s.readByte b) ∧ u = { s with mem := u.mem }) ∧
    (∀ k c, k < 4 → k ≠ h → s.hearthUp hm k = true → (s.hearth h).line l = none → s.dirOf l = 16 + k → (s.hearth k).line l = some c → ∃ u d, exec (.readMiss h a .clean) s = .next u ∧
      u.dirOf l = 2 ^ k ||| 2 ^ h ∧ (u.hearth k).line l = some { c with dirty := false, stale := [] } ∧ (u.hearth h).line l = some d ∧ d.dirty = false ∧
      (∀ b, u.readByte b = s.readByte b) ∧ u = { s with mem := u.mem }) ∧
    (∀ whole : Bool, (∀ k < 4, k ≠ h → s.hearthUp hm k = true ∨ (s.hearth k).line l = none) → ∃ u c, exec (.ownershipRequest h ⟨a, whole, .clean⟩) s = .next u ∧ u.dirOf l = 16 + h ∧ (u.hearth h).line l = some c ∧ c.dirty = true ∧ (∀ k < 4, k ≠ h → (u.hearth k).line l = none) ∧
      (∀ b, u.readByte b = s.readByte b) ∧ u = { s with mem := u.mem, faults := u.faults }) ∧
    ((∀ k < 4, s.hearthUp hm k = true ∨ (s.hearth k).line l = none) → ∃ u, exec (.homeSideAccess a true) s = .next u ∧ u.dirOf l = 0 ∧ (∀ k < 4, (u.hearth k).line l = none) ∧ (∀ b, u.readByte b = s.readByte b) ∧ u = { s with mem := u.mem, faults := u.faults }) ∧
    (∀ k c, k < 4 → s.hearthUp hm k = true → s.dirOf l = 16 + k → (s.hearth k).line l = some c → ∃ u, exec (.homeSideAccess a false) s = .next u ∧ u.dirOf l = 2 ^ k ∧
      (u.hearth k).line l = some { c with dirty := false, stale := [] } ∧ (∀ b, u.readByte b = s.readByte b) ∧ u = { s with mem := u.mem }) ∧
    (∀ v ch, hm = .vault v ch → (s.hearth h).line l = none → ∃ u, exec (.readMiss h a .corrected) s = .next u ∧ (u.vault v).ceCount = satAdd (2 ^ 32 - 1) (s.vault v).ceCount 1 ∧
      { source := 133 + ch, addr := l * 64 } ∈ u.faults.raised ∧ (∀ b, u.readByte b = s.readByte b))) ∧
  (∀ (s : State) (h a : Nat) (hm : Home), s.mayCache h a = true → s.home (a / 64 * 64) = some hm → s.homeUpFor (4 + h) hm = false → (s.hearth h).line (a / 64) = none →
    ∃ u c, exec (.readMiss h a .clean) s = .next u ∧ (u.hearth h).line (a / 64) = some c ∧ c.poisoned = true ∧ u.dirOf (a / 64) = s.dirOf (a / 64) ∧
      (∀ b, u.readByte b = s.readByte b) ∧ u = { s with mem := u.mem }) ∧
  (∀ (s : State) (h a : Nat) (c : RcLine), s.mayCache h a = true → (s.hearth h).line (a / 64) = some c →
    (∃ u, exec (.readMiss h a .corrected) s = .next u ∧ (u.hearth h).ceCount = satAdd (2 ^ 32 - 1) (s.hearth h).ceCount 1 ∧
      u.faults.raised = s.faults.raised ++ [{ source := 68 + h, addr := a / 64 * 64 }] ∧ (∀ b, u.readByte b = s.readByte b)) ∧
    (∀ b : Bool, c.dirty = true → s.poisonable (a / 64) = false → ∃ u, exec (.readMiss h a (.uncorrectable b)) s = .next u ∧ (u.hearth h).line (a / 64) = none ∧
      (u.mem.poisoned (a / 64) = true → s.mem.poisoned (a / 64) = true) ∧ { source := 72 + h, owner := s.addrPart a, addr := a / 64 * 64 } ∈ u.faults.raised ∧
      (∀ b, (b < a / 64 * 64 ∨ a / 64 * 64 + 64 ≤ b) → u.readByte b = s.readByte b)) ∧
    (∀ b : Bool, c.dirty = true → s.poisonable (a / 64) = true → ∃ u, exec (.readMiss h a (.uncorrectable b)) s = .next u ∧ (u.hearth h).line (a / 64) = none ∧ u.mem.poisoned (a / 64) = true ∧
      (∀ v ch, s.home (a / 64 * 64) = some (.vault v ch) → (u.vault v).lastCause = 3) ∧
      { source := 72 + h, owner := s.addrPart a, addr := a / 64 * 64 } ∈ u.faults.raised ∧ (∀ b, u.readByte b = s.readByte b))) ∧
  (∀ (s : State) (h a : Nat) (c : RcLine), h < 4 → (s.hearth h).line (a / 64) = some c →
    (c.dirty = true → ∃ u, exec (.writeBack h a) s = .next u ∧ (u.hearth h).line (a / 64) = none ∧ u.dirOf (a / 64) = 0 ∧ (∀ k, k ≠ h → u.hearth k = s.hearth k) ∧
      (∀ b, u.readByte b = s.readByte b) ∧ u = { s with mem := u.mem }) ∧
    (c.dirty = false → owned (s.dirOf (a / 64)) = false → ∃ u, exec (.evictionNotice h a) s = .next u ∧ (u.hearth h).line (a / 64) = none ∧
      bit (u.dirOf (a / 64)) h = false ∧ (∀ k < 4, k ≠ h → bit (u.dirOf (a / 64)) k = bit (s.dirOf (a / 64)) k) ∧ (∀ k, k ≠ h → u.hearth k = s.hearth k) ∧
      (∀ b, u.readByte b = s.readByte b) ∧ u = { s with mem := u.mem }))

/-- The patrol scrubber, the accounting windows and the zero writers (R184, R187, R207, R215, R499).  A clean patrol read, with inline ECC on and its channel not waiting (R428), moves on by one line, and a whole pass counts; a channel's window adds the bytes
served to each partition and raises source 229 + channel for one that had requests queued below its BW_MIN, which counts once in a vault's window whichever of its channels report it (log entry 72); a zero writer's range reads zero and no
other byte changes, and a freed pool block is free again. -/
def Obligations.PatrolWindowsAndZeroWriters : Prop :=
  (∀ (s : State) (v : Nat), v < 2 → (s.vault v).patrolOff = false → s.mem.ecc = true → s.dieReady (8 + v) = true → s.vaultLines v ≠ 0 →
    s.chanPaused (s.patrolLine v (s.vault v).patrolLine * 64) = false → ∃ u, exec (.patrolRead v .clean) s = .next u ∧
    u.vault v = (if s.vaultLines v ≤ (s.vault v).patrolLine + 1 then { s.vault v with patrolLine := 0, passes := ((s.vault v).passes + 1) % 65536 }
      else { s.vault v with patrolLine := (s.vault v).patrolLine + 1 }) ∧ (∀ k, k ≠ v → u.vault k = s.vault k) ∧ (∀ a, u.readByte a = s.readByte a) ∧ u = { s with mem := u.mem }) ∧
  (∀ (s : State) (v : Nat) (e : EccEvent), (s.vault v).patrolOff = true → exec (.patrolRead v e) s = .next s) ∧
  (∀ (s : State) (chan : Nat) (served : List Nat) (queued : BitVec 8), chan < 48 →
    let x := s.vault (chan / 24)
    let short (p : Nat) (r : PartRec) : Bool := queued.getLsbD p && decide (served.getD p 0 * 48 < r.bwMin * 80000)
    ∃ u, exec (.accountingWindowEnd chan served queued) s = .next u ∧
    (∀ p < 8, sget 0 (u.vault (chan / 24)).bwBytes p = sget 0 x.bwBytes p + (if (s.part? p).isSome then BitVec.ofNat 64 (served.getD p 0) else 0)) ∧
    (∀ p r, p < 8 → s.part? p = some r → (short p r = true → { source := 229 + chan } ∈ u.faults.raised) ∧
      sget 0 (u.vault (chan / 24)).bwShort p = (if short p r = true ∧ (x.windowDone.contains chan = true ∨ sget false x.counted p = false)
        then satAdd (2 ^ 32 - 1) (sget 0 x.bwShort p) 1 else sget 0 x.bwShort p)) ∧
    ((∀ p r, s.part? p = some r → queued.getLsbD p = false) → u.faults = s.faults) ∧ (∀ v, v ≠ chan / 24 → u.vault v = s.vault v) ∧
    u = { s with mem := u.mem, faults := u.faults }) ∧
  (∀ (s : State) (j : ZeroJob) (rest : List ZeroJob), s.mem.zeroJobs = j :: rest → j.handle = 0 ∨ (s.op? j.handle).map (·.state) = some OpState.running → ∃ u, exec .zeroWriterDone s = .next u ∧ u.mem.zeroJobs = rest ∧
    (∀ a, u.readByte a = if j.base ≤ a ∧ a < j.base + j.bytes then 0 else s.readByte a) ∧
    (j.purpose = 0 → u = { s with mem := u.mem }) ∧
    (∀ b, j.purpose = 2 → (s.pool j.part).zeroing.find? (fun b => b.addr = j.base) = some b →
      u.pool j.part = ({ s.pool j.part with zeroing := (s.pool j.part).zeroing.erase b } : Pool).give b ∧ u = { s with mem := u.mem, teller := u.teller }))


/-! ## Request serving (R277-R304) -/

/-- CANCEL, CANCEL_NOW, REQ_SUSPEND and REQ_RESUME (R279, R282, R295, R296, R301) are refused with RESERVED, OWNER or STATE as the body, the entry's owner and its state demand;
otherwise CANCEL drains the request, which retires at once where no step of it is in flight and no work of it is left on its tiles (R273); CANCEL_NOW, of an entry that is live or drains after CANCEL, drains it with reason 0x05 where V0 has not written its END, writes its tag to every tile of its partition and answers when
every tile has acted, with a compensating signal for each DONE_TALLY that no OK record reports; REQ_SUSPEND holds it, at the boundary of a step in flight; REQ_RESUME takes it back. -/
def Obligations.RequestCommands : Prop :=
  (∀ (s : State) (q : Nat) (f : Forwarded), ∀ p ∈ [(Instr.cancel q, 0x21), (.cancelNow q, 0x22), (.reqSuspend q, 0x23), (.reqResume q, 0x24)], s.Awaits q p.2 f →
    (bodyReserved f 18 = true → exec p.1 s = .next ((s.taken q p.2).answer f 0x02 0 0)) ∧
    (bodyReserved f 18 = false → s.ownsEntry (s.funcPart f.fn) (f.fld 16 2) = false → exec p.1 s = .next ((s.taken q p.2).answer f 0x20 0 0)) ∧
    (bodyReserved f 18 = false → s.ownsEntry (s.funcPart f.fn) (f.fld 16 2) = true → (s.request (f.fld 16 2)).state.active = false →
      exec p.1 s = .next ((s.taken q p.2).answer f 0x23 0 0))) ∧
  (∀ (s : State) (q : Nat) (f : Forwarded) (i : Nat), f.fld 16 2 = i → bodyReserved f 18 = false → s.ownsEntry (s.funcPart f.fn) i = true → (s.request i).state.active = true →
    (s.Awaits q 0x21 f → (s.request i).state ≠ .draining → (s.request i).inStep = none → s.tagBusy i = false → ∃ u, exec (.cancel q) s = .next u ∧ (u.request i).state = .retired ∧ (u.request i).pages = [] ∧
      ((s.request i).endReason = 0 → (u.request i).endReason = 0x04) ∧ (∀ j, j ≠ i → u.request j = s.request j) ∧ u.host.due = ((s.taken q 0x21).answer f 0 0 0).host.due) ∧
    (s.Awaits q 0x21 f → (s.request i).state ≠ .draining → (s.request i).inStep ≠ none ∨ s.tagBusy i = true → ∃ u, exec (.cancel q) s = .next u ∧ (u.request i).state = .draining ∧
      (u.request i).pages = (s.request i).pages ∧ (∀ j, j ≠ i → u.request j = s.request j) ∧ u.host.due = ((s.taken q 0x21).answer f 0 0 0).host.due) ∧
    (s.Awaits q 0x22 f → ((s.request i).state = .draining → (s.request i).cancelNow = false ∧ (s.request i).cancelled = true) → ∃ u, exec (.cancelNow q) s = .next u ∧
      (u.request i).state = .draining ∧ (u.request i).cancelNow = true ∧
      (u.request i).endReason = (if (s.ring i).ended = true then (s.request i).endReason else 0x05) ∧ u.host.due = s.host.due ∧
      ((s.request i).inStep ≠ none → ∀ t < 32, s.tilePart t = s.reqPart i → u.actedOn t (reqTag i) = false) ∧ (∀ j, j ≠ i → u.request j = s.request j)) ∧
    (s.Awaits q 0x23 f → (s.request i).state ≠ .draining → (s.request i).state ≠ .suspended → ∃ u, exec (.reqSuspend q) s = .next u ∧
      ((s.request i).inStep = none → (u.request i).state = .suspended ∧ (u.request i).resumeTo = (s.request i).state) ∧
      ((s.request i).inStep ≠ none → u.request i = { s.request i with suspendReq := true }) ∧
      (∀ j, j ≠ i → u.request j = s.request j) ∧ u.host.due = ((s.taken q 0x23).answer f 0 0 0).host.due) ∧
    (s.Awaits q 0x24 f → (s.request i).state = .suspended → ∃ u, exec (.reqResume q) s = .next u ∧ (u.request i).state = (s.request i).resumeTo ∧
      (∀ j, j ≠ i → u.request j = s.request j) ∧ u.host.due = ((s.taken q 0x24).answer f 0 0 0).host.due) ∧
    (s.Awaits q 0x24 f → (s.request i).state ≠ .suspended → exec (.reqResume q) s = .next ((s.taken q 0x24).answer f 0x23 0 0))) ∧
  (∀ (s : State) (i fn sq cid : Nat), i < 65536 → (s.request i).state = .draining → (s.request i).cancelNow = true → (s.request i).cancelSrc = some (fn, sq, cid) →
    (s.ware? (s.request i).ware).bind (·.chunk) = none → s.tagBusy i = false → ∃ u, exec (.cancelNowComplete i) s = .next u ∧
      (u.request i).state = .retired ∧ u.mem.signals = s.mem.signals ++ ((s.takeOk i).request i).taggedDone.map (fun d => { src := 10, tally := d.tally, value := d.add }) ∧
      u.host.due = s.host.due ++ [{ fn := fn, cid := cid, sq := sq, cq := (s.sq sq).bind }] ∧ (∀ j, j ≠ i → u.request j = s.request j)) ∧
  (∀ (s : State) (i : Nat), s.tagBusy i = true → exec (.cancelNowComplete i) s = .next s) ∧
  (∀ (s : State) (i t : Nat), t < 32 → s.tilePart t = s.reqPart i → s.actedOn t (reqTag i) = false → s.tagBusy i = true)

/-- ADMIT (R277, R279, R288, R491, R492): the lowest code that applies refuses it and the request table stands; in a partition that is not CONFIDENTIAL, with its regions and first pages free,
the entry is ADMITTED with the fields of the body; without them it is refused with NO_PAGES under NO_WAIT, and otherwise stalls with one STALL
record; a sealed job whose last 16 bytes are not the tag of its own bytes under K_in is refused with 0x50 and raises source 389 + p.  While records of the entry are on their way to V0 the command waits (log entry 76). -/
def Obligations.Admission : Prop :=
  ∀ (s : State) (q : Nat) (f : Forwarded) (tagOk : Bool), s.Awaits q 0x20 f → (s.ringLags q 0x20 = true → exec (.admitReq q tagOk) s = .next s) ∧ (s.ringLags q 0x20 = false →
    let p := s.funcPart f.fn
    let c := admitCmd f
    let s' := s.taken q 0x20
    let r := { c.r with admitStamp := s.teller.usec.toNat, state := .admitted }
    let last := min c.plen (max 1 (s.planOf c.r.ware).chunkTokens) - 1
    (s.admitCode p f c ≠ 0 → exec (.admitReq q tagOk) s = .next (s'.answer f (s.admitCode p f c) 0 0)) ∧
    (s.admitCode p f c = 0 → s.confidential p = false → s.tenantOk p c.r = true →
      (∀ a b, s'.admitAlloc p c.i r [] = some a → a.reserveFor c.i false last = some b → ∃ u, exec (.admitReq q tagOk) s = .next u ∧ (u.request c.i).state = .admitted ∧
        (u.request c.i).ware = c.r.ware ∧ (u.request c.i).cls = c.r.cls ∧ (u.request c.i).promptLen = c.plen ∧ (u.request c.i).maxNew = c.r.maxNew ∧ (u.request c.i).seqLen = 0 ∧
        (u.ring c.i).lastPos = none ∧ (u.ring c.i).ended = false ∧ (∀ j, j ≠ c.i → u.request j = s.request j) ∧ u.host.due = (s'.answer f 0 0 0).host.due) ∧
      (∀ a, s'.admitAlloc p c.i r [] = some a → a.reserveFor c.i false last = none →
        (c.r.noWait = true → exec (.admitReq q tagOk) s = .next (s'.answer f 0x27 0 0)) ∧
        (c.r.noWait = false → ∃ u, exec (.admitReq q tagOk) s = .next u ∧ (u.request c.i).state = .stalled ∧ (u.request c.i).resumeTo = .admitted ∧ (u.request c.i).stallCause = 1 ∧
          (∃ g, u.teller.ringRecs = s.teller.ringRecs ++ [g] ∧ g.req = c.i ∧ g.stall = true ∧ g.noToken = true) ∧ (∀ j, j ≠ c.i → u.request j = s.request j) ∧
          u.host.due = (s'.answer f 0 0 0).host.due)) ∧
      (s'.admitAlloc p c.i r [] = none → exec (.admitReq q tagOk) s = .next (s'.answer f 0x27 0 0))) ∧
    (s.admitCode p f c = 0 → s.confidential p = true → s.faults.testMode = false →
      let job := s.readNat c.addr 8
      let k := s.readNat (c.addr + 8) 1
      k ≤ 15 → (s.session p k).use = .opened → (s.session p k).closing = false →
      s.readBytes (c.addr + 96 + 4 * c.plen) 16 ≠ gcmTag (kdf (s.session p k).kSess job 1) (toLE 8 job ++ [0, 0, 0, 0]) (s.readBytes c.addr 64 ++ f.body)
        (s.readBytes (c.addr + 64) (32 + 4 * c.plen)) → c.r.noWait = false → (s'.admitAlloc p c.i r (List.replicate (4 * c.plen) 0)).isSome = true →
      ∃ u, exec (.admitReq q tagOk) s = .next u ∧ u.host.due = (s'.answer f 0x50 0 0).host.due ∧ { source := 389 + p, owner := p } ∈ u.faults.raised ∧ u.teller = s'.teller))

/-- RING_SET, POOL_ADD, POOL_SHRINK and ADAPTER_PUBLISH (R278, R286, R290, R300).  A ring outside active use takes BASE, LOG2 and EVT; a pool takes the units of a
range; a shrinking range whose blocks are all free leaves the pool and its handle is done, at once or when the last block returns; the first version of an adapter
is the newest and its handle is done; a superseded version without pins is unloaded. -/
def Obligations.RingsPoolsAndAdapters : Prop :=
  (∀ (s : State) (q : Nat) (f : Forwarded), s.Awaits q 0x25 f → s.ringLags q 0x25 = false → f.fld 25 1 < 2 → bodyReserved f 26 = false →
    let p := s.funcPart f.fn
    let i := f.fld 16 2
    (s.ownsEntry p i = false → exec (.ringSet q) s = .next ((s.taken q 0x25).answer f 0x20 0 0)) ∧
    (s.ownsEntry p i = true → 4 ≤ f.fld 24 1 → f.fld 24 1 ≤ 16 → 0xC000000000 ≤ f.fld 18 6 → f.fld 18 6 % 64 = 0 → f.fld 18 6 % min (16 * 2 ^ f.fld 24 1) 4096 = 0 →
      s.inHost p (f.fld 18 6) (s.ringBytes p (f.fld 24 1)) = true →
      ((s.request i).state.active = true → exec (.ringSet q) s = .next ((s.taken q 0x25).answer f 0x23 0 0)) ∧
      ((s.request i).state.active = false → ∃ u, exec (.ringSet q) s = .next u ∧ u.ring i = { base := f.fld 18 6, log2 := f.fld 24 1, evt := f.fld 25 1 % 2 == 1, set := true } ∧
        (∀ j, j ≠ i → u.ring j = s.ring j) ∧ (∀ j, u.request j = s.request j) ∧ u.host.due = ((s.taken q 0x25).answer f 0 0 0).host.due ∧ u.mem = s.mem))) ∧
  (∀ (s : State) (q : Nat) (f : Forwarded), s.Awaits q 0x26 f → (s.poolCode (s.funcPart f.fn) f ≠ 0 → exec (.poolAdd q) s = .next ((s.taken q 0x26).answer f (s.poolCode (s.funcPart f.fn) f) 0 0)) ∧
    (s.poolCode (s.funcPart f.fn) f = 0 → (∀ e ∈ s.teller.requests, e.2.state ≠ .stalled) → ∃ u, exec (.poolAdd q) s = .next u ∧
      u.pool (s.funcPart f.fn) = (s.pool (s.funcPart f.fn)).add (f.fld 16 6 / 2 ^ 21) (f.fld 22 4) ∧ (∀ p, p ≠ s.funcPart f.fn → u.pool p = s.pool p) ∧
      u.host.due = ((s.taken q 0x26).answer f 0 0 0).host.due ∧ u.mem = s.mem)) ∧
  (∀ (s : State) (q : Nat) (f : Forwarded), s.Awaits q 0x27 f → s.poolCode (s.funcPart f.fn) f = 0 → s.openHandles (.host f.fn f.sq f.cid) < 16 → (s.pool (s.funcPart f.fn)).shrinking = [] →
    s.op? s.host.nextHandle = none →
    let p := s.funcPart f.fn
    let k := f.fld 16 6 / 2 ^ 21
    ((s.pool p).rangeFree k (f.fld 22 4) = true → ∃ u, exec (.poolShrink q) s = .next u ∧ (u.op? s.host.nextHandle).map (·.state) = some .done ∧ (u.pool p).shrinking = [] ∧
      (∀ x, x ∈ (u.pool p).units ↔ (x ∈ (s.pool p).units ∧ ¬ (k ≤ x ∧ x < k + f.fld 22 4)))) ∧
    ((s.pool p).rangeFree k (f.fld 22 4) = false → ∃ u, exec (.poolShrink q) s = .next u ∧ (u.op? s.host.nextHandle).map (·.state) = some .running ∧
      u.pool p = { s.pool p with shrinking := [(k, f.fld 22 4, s.host.nextHandle)] } ∧ u.host.due = ((s.taken q 0x27).answer f 0 s.host.nextHandle 0).host.due)) ∧
  (∀ (s : State) (h k n : Nat) (o : OpRec), s.op? h = some o → o.kind = .poolShrink → o.state = .running → o.forgotten = false → s.islands.noneActive = false → (s.pool o.part).shrinking = [(k, n, h)] → (s.pool o.part).rangeFree k n = true →
    ∃ u, exec (.poolShrinkDone h) s = .next u ∧ (u.op? h).map (·.state) = some .done ∧ u.pool o.part = (s.pool o.part).dropRange k n ∧ (∀ p, p ≠ o.part → u.pool p = s.pool p) ∧ u.mem = s.mem) ∧
  (∀ (s : State) (q : Nat) (f : Forwarded) (x y : Ware), s.Awaits q 0x28 f → bodyReserved f 24 = false → s.openHandles (.host f.fn f.sq f.cid) < 16 → f.fld 18 2 ≤ 255 → s.ware? (f.fld 16 2) = some x →
    s.ware? (f.fld 20 4) = some y → x.part = s.funcPart f.fn → x.isImage = false → y.part = s.funcPart f.fn → y.isImage = true → y.joins = f.fld 16 2 → sget {} x.adapters (f.fld 18 2) = {} →
    s.op? s.host.nextHandle = none → ∃ u w, exec (.adapterPublish q) s = .next u ∧ u.ware? (f.fld 16 2) = some w ∧ (sget {} w.adapters (f.fld 18 2)).newest = some 1 ∧
      (sget {} w.adapters (f.fld 18 2)).versions = [(1, f.fld 20 4, 0)] ∧ (u.op? s.host.nextHandle).map (·.state) = some .done) ∧
  (∀ (s : State) (h a v img : Nat) (x : Ware), s.ware? h = some x → (sget {} x.adapters a).versions.find? (fun e => e.1 = v) = some (v, img, 0) → (sget {} x.adapters a).newest ≠ some v →
    (sget {} x.adapters a).publish = none → s.islands.noneActive = false → img ≠ h → ∃ u w, exec (.adapterUnpin h a v) s = .next u ∧ u.ware? h = some w ∧
      (sget {} w.adapters a).versions = (sget {} x.adapters a).versions.filter (fun e => e.1 ≠ v) ∧ u = { s with teller := u.teller }) ∧
  (∀ (s : State) (h a v img pins : Nat) (x : Ware), s.ware? h = some x → (sget {} x.adapters a).versions.find? (fun e => e.1 = v) = some (v, img, pins + 1) → exec (.adapterUnpin h a v) s = .next s)

/-- The Teller's steps and deadlines (R281-R285, R289, R294).  A boundary takes the one waiting DECODE request of a ware into its next step, at its SEQ_LEN, and a chunk takes the waiting prompt
from where it stands to at most CHUNK_TOKENS; each is in flight under a fresh tag and its STEP_SEQ counts; an OK END record of a tile takes the tile off the
step's list; a stalled request whose pages and ring now suffice goes back to RESUME_TO; a deadline marks the request late and, by its policy, ends it; while
dispatch is held none of these does anything.  The ware stands on tiles that are up, none of them draining for an amendment, and its plan has no vision or housekeeping stream. -/
def Obligations.StepsAndDeadlines : Prop :=
  (∀ (s : State) (h i : Nat) (w : Ware) (r : Request), s.teller.held = false → s.update.holdBegun = false → s.ware? h = some w → w.step = none → w.chunk = none → w.rerun = false → w.vision = none → w.house = none → w.isImage = false →
    s.tilesUp w = true → s.composeBar w = false → (∀ y ∈ w.streams, y.role = .decode ∨ y.role = .prefill) → s.teller.requests = [(i, r)] → r.ware = h → r.draft = 0xFFFF → r.inStep = none → s.reqPart i = w.part → s.ringRoom i 1 = true →
    (r.state = .decode → r.specK = 0 → s.missing r false r.seqLen = [] → ∃ u x, exec (.stepBoundary h) s = .next u ∧ (u.ware? h).bind (·.step) = some x ∧ x.tag = s.teller.nextTag ∧
      x.rows = [{ req := i, first := r.seqLen, count := 1 }] ∧ x.waiting = (w.streams.filter (fun y => y.role == .decode)).map (·.tile) ∧ u.teller.nextTag = (s.teller.nextTag + 1) % 2 ^ 31 ∧
      (u.request i).inStep = some s.teller.nextTag ∧ (u.request i).stepSeq = (r.stepSeq + 1) % 65536 ∧ (u.request i).state = .decode) ∧
    (r.state = .admitted → s.missing r false (r.prefilled + min (max 1 w.plan.chunkTokens) (r.promptLen - r.prefilled) - 1) = [] →
      ∃ u x, exec (.chunkDispatch h) s = .next u ∧ (u.ware? h).bind (·.chunk) = some x ∧ x.tag = s.teller.nextTag ∧
        x.rows = [{ req := i, first := r.prefilled, count := min (max 1 w.plan.chunkTokens) (r.promptLen - r.prefilled) }] ∧
        x.waiting = (w.streams.filter (fun y => y.role == .prefill)).map (·.tile) ∧ (u.request i).state = .prefill ∧ (u.request i).inStep = some s.teller.nextTag)) ∧
  (∀ (s : State) (d : TileDone) (rest : List TileDone) (h : Nat) (w : Ware) (role : Role) (x : StepRun), s.teller.held = false → s.teller.records = d :: rest → s.teller.feeds = [] → d.opcode = 0x10 → d.status = stOk →
    d.tag / 2 ^ 31 = 0 → s.runOf d.tag = some (h, role, x) → s.ware? h = some w → ∃ u, exec .completionRecord s = .next u ∧ u.teller.records = rest ∧
      u.ware? h = some (w.setRun role (some { x with waiting := x.waiting.erase d.tile })) ∧ (∀ i, u.request i = s.request i) ∧ u = { s with teller := u.teller }) ∧
  (∀ (s : State) (i : Nat) (r : Request), s.teller.held = false → s.teller.requests = [(i, r)] → r.state = .stalled → r.resumeTo = .decode → r.specK = 0 → r.draft = 0xFFFF → s.reqPart i < 8 →
    s.missing r false r.seqLen = [] → s.ringRoom i 1 = true → ∃ u, exec (.pagesFreed (s.reqPart i)) s = .next u ∧ (u.request i).state = .decode ∧ (u.request i).stallCause = 0 ∧
      u = { s with teller := u.teller }) ∧
  (∀ (s : State) (i : Nat), s.teller.held = false → (s.request i).budget ≠ 0 → (s.request i).late = false → (s.request i).state.active = true →
    (s.teller.usec.toNat < (s.request i).admitStamp + (s.request i).budget → exec (.deadline i) s = .next s) ∧
    ((s.request i).admitStamp + (s.request i).budget ≤ s.teller.usec.toNat →
      ((s.request i).state = .decode → (s.request i).lateStop = true → (s.request i).inStep ≠ none → ∃ u, exec (.deadline i) s = .next u ∧
        u.request i = { s.request i with late := true, lastPass := true } ∧ (u.ring i).late = true ∧ u = { s with teller := u.teller }) ∧
      ((s.request i).state = .decode → (s.request i).lateStop = true → (s.request i).inStep = none → s.tagBusy i = false → (s.request i).endReason = 0 → ∃ u, exec (.deadline i) s = .next u ∧
        (u.request i).state = .retired ∧ (u.request i).endReason = 0x06 ∧ (u.request i).late = true) ∧
      ((s.request i).state = .admitted → (s.request i).hardAbort = true → (s.request i).inStep = none → s.tagBusy i = false → (s.request i).endReason = 0 → ∃ u, exec (.deadline i) s = .next u ∧
        (u.request i).state = .retired ∧ (u.request i).endReason = 0x07) ∧
      ((s.request i).state = .decode → (s.request i).lateStop = false → ∃ u, exec (.deadline i) s = .next u ∧ u.request i = { s.request i with late := true } ∧ (u.ring i).late = true ∧
        u = { s with teller := u.teller }))) ∧
  (∀ (s : State) (h i p : Nat), s.teller.held = true → exec (.stepBoundary h) s = .next s ∧ exec (.chunkDispatch h) s = .next s ∧ exec .completionRecord s = .next s ∧
    exec (.pagesFreed p) s = .next s ∧ exec (.deadline i) s = .next s)

/-- Token rings (R41, R291-R293, R376, R491).  The ring writer drops a record after the END or at a position already written; otherwise, in a partition that is not CONFIDENTIAL and with the ring
writable, in the partition's bounds and free of poison, it writes the 16 bytes at BASE + (WR mod 2^LOG2) × 16, PHASE 1 on even laps, and WR counts; in a CONFIDENTIAL partition it waits for the key, which KEY_CACHE_FILL
brings, and which is erased, with the request's own, when the last record of a retired request has been taken.  A read index between RD and WR is taken; another is an ignored doorbell that raises 291 + p. -/
def Obligations.TokenRings : Prop :=
  (∀ (s : State) (g : RingRec) (rest : List RingRec), s.teller.ringRecs = g :: rest → s.ringDrops g = true → exec .ringRecord s = .next (({ s with teller := { s.teller with ringRecs := rest } } : State).eraseKey g.req)) ∧
  (∀ (s : State) (i : Nat), ((s.request i).state = .retired → (∀ g ∈ s.teller.ringRecs, g.req ≠ i) → sget none (s.eraseKey i).sec.keyCache i = none ∧ ((s.eraseKey i).request i).kOut = 0) ∧
    ((s.request i).state ≠ .retired ∨ (∃ g ∈ s.teller.ringRecs, g.req = i) → s.eraseKey i = s)) ∧
  (∀ (s : State) (g : RingRec) (rest : List RingRec), s.teller.ringRecs = g :: rest → s.ringDrops g = false → s.dieReady 8 = true → s.confidential (s.reqPart g.req) = false → s.stageRing g.req = false →
    s.dramOpen = true ∨ hostWindow ≤ (s.ring g.req).base →
    let x := s.ring g.req
    let a := x.base + x.wr % 2 ^ x.log2 * 16
    let b := ringBytes g x.late (if g.noToken then g.endReason else s.endOf g)
    s.bound (s.reqPart g.req) a 16 = .ok → s.OwnersHold → s.meetsPoison (.vault 0) a 16 = false → ∃ u, exec .ringRecord s = .next u ∧ u.teller.ringRecs = rest ∧ (u.ring g.req).wr = (x.wr + 1) % 2 ^ 32 ∧ b.length = 16 ∧
      (∀ k < 16, u.readByte (a + k) = if k = 10 then b.getD k 0 ||| (if x.wr / 2 ^ x.log2 % 2 = 0 then 1 else 0) else b.getD k 0) ∧
      (∀ k, (k < a ∨ a + 16 ≤ k) → u.readByte k = s.readByte k) ∧
      (g.noToken = false → (u.ring g.req).lastPos = some g.position ∧ (u.request g.req).generated = (s.request g.req).generated + 1) ∧
      (x.evt = true → u.reg.occurrences = s.reg.occurrences ++ [1096 + s.reqPart g.req]) ∧ (∀ j, j ≠ g.req → u.ring j = s.ring j ∧ u.request j = s.request j)) ∧
  (∀ (s : State) (g : RingRec) (rest : List RingRec), s.teller.ringRecs = g :: rest → s.ringDrops g = false → s.confidential (s.reqPart g.req) = true → sget none s.sec.keyCache g.req = none →
    exec .ringRecord s = .next s) ∧
  (∀ (s : State) (i : Nat), (s.request i).session.isSome = true → s.teller.ringRecs.any (fun g => g.req = i) = true → ∃ u, exec (.keyCacheFill i) s = .next u ∧
    sget none u.sec.keyCache i = some (s.request i).kOut ∧ u = { s with sec := { s.sec with keyCache := u.sec.keyCache } }) ∧
  (∀ (s : State) (f i : Nat) (v : Word), s.barOpen f = true → i < 65536 → s.ownsEntry (s.funcPart f) i = true → s.dieReady 8 = true →
    ((s.ring i).set = true → (v.toNat + 2 ^ 32 - (s.ring i).rd) % 2 ^ 32 ≤ ((s.ring i).wr + 2 ^ 32 - (s.ring i).rd) % 2 ^ 32 → ∃ u, exec (.ringReadIndex f i v) s = .next u ∧
      u.ring i = { s.ring i with rd := v.toNat } ∧ (∀ j, j ≠ i → u.ring j = s.ring j) ∧ u = { s with teller := u.teller, reg := u.reg }) ∧
    ((s.ring i).set = true → ((s.ring i).wr + 2 ^ 32 - (s.ring i).rd) % 2 ^ 32 < (v.toNat + 2 ^ 32 - (s.ring i).rd) % 2 ^ 32 → ∃ u, exec (.ringReadIndex f i v) s = .next u ∧
      (∀ j, u.ring j = s.ring j) ∧ u.faults.raised = s.faults.raised ++ [{ source := 291 + s.funcPart f, owner := s.funcPart f, addr := bar2Addr (0x800000 + i * 0x40) }])) ∧
  (∀ (s : State) (f i : Nat) (v : Word), s.barOpen f = false → exec (.ringReadIndex f i v) s = .next (s.reply .unsupported))


/-! ## Streams and wheels (R309-R338) -/

/-- The stream commands (R309-R312, R319, R334).  A body with reserved bits, or a context of another partition, is refused; STREAM_OPEN on a fenced wheel is refused with WHEEL (R451); of a good record it opens the context in WAIT_IRAP, an encode one
RUNNING; STREAM_CLOSE stops classification and answers when STREAM_CLOSED finds the context's picture done; STREAM_FEED takes the ring's fill, or an encoder's
read indices, which may go neither back nor past what has been written (log entry 34); STREAM_KEY asks for a key picture; STREAM_CLASS waits for the row boundary; on a closed context each is refused with STATE. -/
def Obligations.StreamCommands : Prop :=
  (∀ (s : State) (q : Nat) (f : Forwarded), ∀ p ∈ [(Instr.streamClose q, 0x31, 19), (.streamFeed q, 0x32, 27), (.streamKey q, 0x33, 18), (.streamClass q, 0x34, 19)], s.Awaits q p.2.1 f →
    (bodyReserved f p.2.2 = true → exec p.1 s = .next ((s.taken q p.2.1).answer f 0x02 0 0)) ∧
    (bodyReserved f p.2.2 = false → f.fld 18 1 ≤ 1 → f.fld 26 1 ≤ 1 → s.ctxPart (f.fld 16 2) ≠ s.funcPart f.fn → exec p.1 s = .next ((s.taken q p.2.1).answer f 0x30 0 0)) ∧
    (bodyReserved f p.2.2 = false → f.fld 18 1 ≤ 1 → f.fld 26 1 ≤ 1 → s.funcPart f.fn < 8 → s.ctxPart (f.fld 16 2) = s.funcPart f.fn → (s.ctx (f.fld 16 2)).state = .closed →
      exec p.1 s = .next ((s.taken q p.2.1).answer f 0x23 0 0))) ∧
  (∀ (s : State) (q : Nat) (f : Forwarded), s.Awaits q 0x30 f →
    let p := s.funcPart f.fn
    let c := f.fld 16 2
    let b := s.readBytes (f.fld 18 6) 256
    (bodyReserved f 24 = true → exec (.streamOpen q) s = .next ((s.taken q 0x30).answer f 0x02 0 0)) ∧
    (bodyReserved f 24 = false → f.fld 18 6 % 64 = 0 → s.inDram p (f.fld 18 6) 256 = true → recordBad b (ctxRecOf b) = false → (s.confidential p = true → (ctxRecOf b).hostFed = false) →
      p < 8 → s.ctxPart c = p →
      ((s.ctx c).state ≠ .closed → exec (.streamOpen q) s = .next ((s.taken q 0x30).answer f 0x23 0 0)) ∧
      ((s.ctx c).state = .closed → (∀ r, s.part? p = some r → r.wheels.getLsbD (ctxRecOf b).wheel = true) → (s.part? p).isSome = true →
        s.faults.fenceWheels.getLsbD (ctxRecOf b).wheel = true → exec (.streamOpen q) s = .next ((s.taken q 0x30).answer f 0x31 0 0)) ∧
      ((s.ctx c).state = .closed → (∀ r, s.part? p = some r → r.wheels.getLsbD (ctxRecOf b).wheel = true) → (s.part? p).isSome = true → targetBad s p (ctxRecOf b) = false →
        s.faults.fenceWheels.getLsbD (ctxRecOf b).wheel = false →
        ((ctxRecOf b).rtp = true → ∀ e ∈ s.wheels.ctxs, e.2.state = .closed) → ∃ u, exec (.streamOpen q) s = .next u ∧
        u.ctx c = { state := if (ctxRecOf b).encode then .running else .waitIrap, cfg := ctxRecOf b, cls := (ctxRecOf b).cls, evtBits := (s.ctx c).evtBits } ∧
        (∀ k, k ≠ c → u.ctx k = s.ctx k) ∧ u.mem = s.mem ∧ u.host.due = ((s.taken q 0x30).answer f 0 0 0).host.due))) ∧
  (∀ (s : State) (q : Nat) (f : Forwarded) (c : Nat), f.fld 16 2 = c → s.funcPart f.fn < 8 → s.ctxPart c = s.funcPart f.fn → (s.ctx c).state ≠ .closed →
    (s.Awaits q 0x31 f → bodyReserved f 19 = false → f.fld 18 1 ≤ 1 → (s.ctx c).state ≠ .closing → ∃ u, exec (.streamClose q) s = .next u ∧
      u.ctx c = { s.ctx c with state := .closing, closeMode := f.fld 18 1, closeSrc := (s.ctx c).closeSrc ++ [(f.fn, f.sq, f.cid)], packets := [], fu := none } ∧
      (∀ k, k ≠ c → u.ctx k = s.ctx k) ∧ u.host.due = s.host.due ∧ u.mem = s.mem) ∧
    (s.Awaits q 0x32 f → bodyReserved f 27 = false → f.fld 26 1 ≤ 1 → (s.ctx c).cfg.encode = true →
      let back := (f.fld 18 4 + 2 ^ 32 - (s.ctx c).bsRd) % 2 ^ 32 ≤ ((s.ctx c).bsWr + 2 ^ 32 - (s.ctx c).bsRd) % 2 ^ 32 ∧
        (f.fld 22 4 + 2 ^ 32 - (s.ctx c).descRd) % 2 ^ 32 ≤ ((s.ctx c).descWr + 2 ^ 32 - (s.ctx c).descRd) % 2 ^ 32
      (back → ∃ u, exec (.streamFeed q) s = .next u ∧
        u.ctx c = { s.ctx c with bsRd := f.fld 18 4, descRd := f.fld 22 4 } ∧ (∀ k, k ≠ c → u.ctx k = s.ctx k) ∧ u.host.due = ((s.taken q 0x32).answer f 0 0 0).host.due) ∧
      (¬ back → exec (.streamFeed q) s = .next ((s.taken q 0x32).answer f 0x22 0 0))) ∧
    (s.Awaits q 0x32 f → bodyReserved f 27 = false → f.fld 26 1 ≤ 1 → (s.ctx c).cfg.encode = false → (s.ctx c).cfg.hostFed = true → (f.fld 18 4 + 2 ^ 32 - (s.ctx c).rd) % 2 ^ 32 ≤ 2 ^ (s.ctx c).cfg.nalLog2 →
      ((s.ctx c).nalTotal + 2 ^ 32 - (s.ctx c).rd) % 2 ^ 32 ≤ (f.fld 18 4 + 2 ^ 32 - (s.ctx c).rd) % 2 ^ 32 → ∃ u, exec (.streamFeed q) s = .next u ∧
      u.ctx c = { s.ctx c with nalTotal := f.fld 18 4, eos := (s.ctx c).eos || f.fld 26 1 == 1 } ∧ (∀ k, k ≠ c → u.ctx k = s.ctx k) ∧ u.host.due = ((s.taken q 0x32).answer f 0 0 0).host.due) ∧
    (s.Awaits q 0x33 f → bodyReserved f 18 = false → (s.ctx c).cfg.encode = true → ∃ u, exec (.streamKey q) s = .next u ∧ u.ctx c = { s.ctx c with keyReq := true } ∧
      (∀ k, k ≠ c → u.ctx k = s.ctx k) ∧ u.host.due = ((s.taken q 0x33).answer f 0 0 0).host.due) ∧
    (s.Awaits q 0x34 f → bodyReserved f 19 = false → f.fld 18 1 ≤ 2 → ∃ u, exec (.streamClass q) s = .next u ∧ u.ctx c = { s.ctx c with nextClass := some (f.fld 18 1) } ∧
      (∀ k, k ≠ c → u.ctx k = s.ctx k) ∧ u.host.due = ((s.taken q 0x34).answer f 0 0 0).host.due)) ∧
  (∀ (s : State) (c : Nat), (s.ctx c).state = .closing → ¬ ((s.wheel (s.ctx c).cfg.wheel).active = true ∧ (s.wheel (s.ctx c).cfg.wheel).ctx = c) → ((s.ctx c).closeMode = 1 ∨ (s.ctx c).picOpen = false ∧ (s.ctx c).encNals = []) → ∃ u, exec (.streamClosed c) s = .next u ∧
    (u.ctx c).state = .closed ∧ u.host.due = s.host.due ++ (s.ctx c).closeSrc.map (fun k => { fn := k.1, cid := k.2.2, sq := k.2.1, cq := (s.sq k.2.1).bind }) ∧
    (∀ k, k ≠ c → u.ctx k = s.ctx k) ∧ u = { s with wheels := u.wheels, host := u.host }) ∧
  (∀ (s : State) (c : Nat), (s.ctx c).state ≠ .closing → exec (.streamClosed c) s = .next s)

/-- Ingest and the wheels (R315-R319, R323, R326, R332, R335, R336, R383).  A frame with a bad FEC or FCS is dropped and counted at its port; a neighbour request for an own address is answered; a frame that no open context claims is counted as unmatched; one that R316
discards is counted at its context; the next packet in order goes to an empty jitter buffer's first line, and waits for its release, which puts a single NAL unit behind its start code into the NAL ring and onto the pending list; a gap declared lost
counts and sets the loss bit.  At a row boundary a decode row whose output waits for a buffer with a tally that is not 0 is deferred whole; an encoded picture's end resets the buffer's tally and
signals DONE_TALLY; a wheel with nothing running takes a ready context, an encode context beginning a picture; an encoded NAL unit is posted, with its descriptor, once both rings have room.  No memory-controller group holds DRAM accesses back (R428).  The writes are within the partition's bounds and meet no poison. -/
def Obligations.IngestAndWheels : Prop :=
  (∀ (s : State) (f : EthFrame), f.port < 4 → s.dieReady 9 = true →
    let h := parseFrame f.bytes
    (f.fecOk = true → f.fcsOk = false → ∃ u, exec (.frameReceive f) s = .next u ∧ (sget {} u.host.eth f.port).dropped = satAdd (2 ^ 32 - 1) (sget {} s.host.eth f.port).dropped 1 ∧
      (sget {} u.host.eth f.port).corrected = satAdd (2 ^ 32 - 1) (sget {} s.host.eth f.port).corrected f.corrected ∧ u = { s with host := u.host }) ∧
    (f.fecOk = false → ∃ u, exec (.frameReceive f) s = .next u ∧ u.faults.raised = s.faults.raised ++ [{ source := 303 }] ∧ u = { s with host := u.host, faults := u.faults }) ∧
    (f.fecOk = true → f.fcsOk = true → s.classify f.port h = none → ∃ u, exec (.frameReceive f) s = .next u ∧ u.wheels.unmatched = satAdd (2 ^ 32 - 1) s.wheels.unmatched 1 ∧
      u.wheels.ctxs = s.wheels.ctxs ∧ (∀ r, s.neighbourReply f.port f.bytes = some r → (sget {} s.host.eth f.port).link = true → u.host.ethOut = s.host.ethOut ++ [(f.port, r)]) ∧
      u = { s with host := u.host, wheels := u.wheels }) ∧
    (∀ c, f.fecOk = true → f.fcsOk = true → s.classify f.port h = some c →
      (frameBad (s.ctx c).cfg h = true → ∃ u, exec (.frameReceive f) s = .next u ∧ u.ctx c = { s.ctx c with dropped := cap16 ((s.ctx c).dropped + 1) } ∧
        (∀ k, k ≠ c → u.ctx k = s.ctx k) ∧ u = { s with host := u.host, wheels := u.wheels }) ∧
      (∀ n, frameBad (s.ctx c).cfg h = false → (s.ctx c).packets = [] → (s.ctx c).nextSeq = some n → n % 65536 = h.seq % 65536 → Packet.room h.payload.length ≤ (s.ctx c).cfg.jitBytes →
        s.bound (s.ctxPart c) (s.ctx c).cfg.jitAddr h.payload.length = .ok → s.OwnersHold → s.meetsPoison (.vault 1) (s.ctx c).cfg.jitAddr h.payload.length = false →
        ∃ u, exec (.frameReceive f) s = .next u ∧ u.ctx c = { s.ctx c with packets := [{ seq := n, ts := h.ts, ofs := 0, len := h.payload.length }] } ∧
          (∀ i < h.payload.length, u.readByte ((s.ctx c).cfg.jitAddr + i) = h.payload.getD i 0) ∧
          (∀ k, k ≠ c → u.ctx k = s.ctx k) ∧ u = { s with host := u.host, wheels := u.wheels, mem := u.mem, faults := u.faults }))) ∧
  (∀ (s : State) (c n : Nat) (p : Packet) (rest : List Packet), (s.ctx c).state = .running → (s.ctx c).packets = p :: rest → (s.ctx c).nextSeq = some n →
    let x := s.ctx c
    let a := x.cfg.jitAddr + p.ofs
    let l := s.readBytes a p.len
    let size := 2 ^ x.cfg.nalLog2
    (n < p.seq → ∃ u, exec (.jitterGapLost c) s = .next u ∧ (u.ctx c).lost = cap16 (x.lost + (p.seq - n)) ∧ (u.ctx c).nextSeq = some p.seq ∧ (u.ctx c).evtBits.getLsbD 2 = true ∧
      (u.ctx c).packets = x.packets ∧ (∀ k, k ≠ c → u.ctx k = s.ctx k) ∧ u = { s with wheels := u.wheels, reg := u.reg }) ∧
    (p.seq ≤ n → exec (.jitterGapLost c) s = .next s) ∧
    (∀ ar, n ≠ p.seq → exec (.nalRelease c ar) s = .next s) ∧
    (∀ ar b d, s.dramOpen = true → n = p.seq → x.cfg.codec = 1 → l = b :: d → 1 ≤ b.toNat % 32 → b.toNat % 32 ≤ 23 → x.fu = none → s.bound (s.ctxPart c) a p.len = .ok → s.meetsPoison (.vault 1) a p.len = false →
      (x.nalTotal + 2 ^ 32 - x.rd) % 2 ^ 32 + (4 + p.len) ≤ size → (∀ b n, x.cfg.nalAddr ≤ b → b + n ≤ x.cfg.nalAddr + size → s.bound (s.ctxPart c) b n = .ok) →
      s.OwnersHold → s.meetsPoison (.vault 1) x.cfg.nalAddr size = false → ∃ u, exec (.nalRelease c ar) s = .next u ∧
        u.ctx c = { x with packets := rest, nextSeq := some (n + 1), fuLost := false, nalTotal := (x.nalTotal + (4 + p.len)) % 2 ^ 32,
                           pendingNals := x.pendingNals ++ [.unit x.nalTotal (4 + p.len) p.ts ar] } ∧
        (∀ i < 4 + p.len, u.readByte (x.cfg.nalAddr + (x.nalTotal + i) % size) = ([0, 0, 0, 1] ++ l).getD i 0) ∧
        (∀ k, k ≠ c → u.ctx k = s.ctx k) ∧ u = { s with wheels := u.wheels, mem := u.mem, faults := u.faults })) ∧
  (∀ (s : State) (w c : Nat) (r : RowReads), s.wheelUp w = true →
    let x := s.ctx c
    let b := (x.cfg.bufs[x.bufIndex]?).getD (0, 0)
    ((s.wheel w).active = false → s.pickCtx w = some c → ∃ u, exec (.wheelRowBoundary w r) s = .next u ∧ (u.wheel w).ctx = c ∧ (u.wheel w).active = true ∧ (u.wheel w).encode = x.cfg.encode ∧
      (∀ k, k ≠ w → u.wheel k = s.wheel k) ∧ u.ctx c = (if x.cfg.encode then x.beginEncode else x) ∧ (∀ k, k ≠ c → u.ctx k = s.ctx k) ∧ u = { s with wheels := u.wheels }) ∧
    ((s.wheel w).active = false → s.pickCtx w = none → exec (.wheelRowBoundary w r) s = .next (s.setWheel w { s.wheel w with active := false, encode := false })) ∧
    ((s.wheel w).active = true → (s.wheel w).ctx = c → x.state = .running → x.cfg.encode = true → x.picOpen = true → x.cfg.outH ≤ 32 * (x.row + 1) →
      let m := min (picBytes x.cfg.outW x.cfg.outH 8) x.cfg.dpbBytes
      s.bound (s.ctxPart c) b.1 x.cfg.bufBytes = .ok → s.bound (s.ctxPart c) x.cfg.dpbAddr m = .ok →
      (∀ e ∈ x.cfg.encSpans b.1 x.row, s.meetsPoison (.vault (w / 2)) e.1 e.2 = false) → x.idr = true ∨ s.meetsPoison (.vault (w / 2)) x.cfg.dpbAddr m = false →
      let ref := if x.idr then [] else s.readBytes x.cfg.dpbAddr m
      let y := { x with row := x.row + 1, encRows := x.encRows ++ [s.encInput x.cfg b.1 x.row], cls := x.nextClass.getD x.cls, nextClass := none }
      (∀ n ∈ y.nalsOf true ref, n.bytes.length ≤ 2 ^ x.cfg.bsLog2) →
      ∃ u, exec (.wheelRowBoundary w r) s = .next u ∧ (u.ctx c).picOpen = false ∧ (u.ctx c).pictures = (x.pictures + 1) % 2 ^ 32 ∧ (u.ctx c).encNals = x.encNals ++ y.nalsOf true ref ∧
        u.mem.signals = s.mem.signals ++ [{ src := 8 + w / 2, tally := b.2, value := 0, reset := true }, { src := 8 + w / 2, tally := x.cfg.doneTally, value := 1 }]) ∧
    ((s.wheel w).active = true → (s.wheel w).ctx = c → x.state = .running → x.cfg.encode = false → r.start = none → r.sets = [] →
      let y := { x with cls := x.nextClass.getD x.cls, nextClass := none }
      ((s.setCtx c y).takeRow w c r).output w c (((s.setCtx c y).takeRow w c r).ctx c).inputOver = none →
      ∃ u, exec (.wheelRowBoundary w r) s = .next u ∧ u.ctx c = { y with outWaiting := true } ∧ u.mem = s.mem ∧ u = { s with wheels := u.wheels })) ∧
  (∀ (s : State) (w c : Nat), (s.ctx c).picOpen = true → (s.ctx c).picSkip = false → (s.ctx c).granted = false → (s.ctx c).cfg.bufSkip = false →
    (s.ctx c).outRows < picRowsDue (s.picView (s.ctx c)) (s.ctx c).cfg ((s.ctx c).finalRows false) → s.targetState w c = none →
    s.tallySeen w (((s.ctx c).cfg.bufs[(s.ctx c).bufIndex]?).getD (0, 0)).2 ≠ 0 → s.output w c false = none) ∧
  (∀ (s : State) (w : Nat) (r : RowReads), s.wheelUp w = false → exec (.wheelRowBoundary w r) s = .next s) ∧
  (∀ (s : State) (c : Nat), (s.ctx c).outWaiting = true →
    let n := s.tallySeen (s.ctx c).cfg.wheel (((s.ctx c).cfg.bufs[(s.ctx c).bufIndex]?).getD (0, 0)).2
    (n = 0 → ∃ u, exec (.bufferTallyPoll c) s = .next u ∧ u.ctx c = { s.ctx c with outWaiting := false } ∧
      (∀ k, k ≠ c → u.ctx k = s.ctx k) ∧ u = { s with wheels := u.wheels }) ∧
    (n ≠ 0 → exec (.bufferTallyPoll c) s = .next s)) ∧
  (∀ (s : State) (c : Nat) (n : EncNal) (rest : List EncNal), (s.ctx c).encNals = n :: rest → (s.ctx c).nalDue = true → s.dramOpen = true →
    let x := s.ctx c
    let used := (x.bsWr + 2 ^ 32 - x.bsRd) % 2 ^ 32
    let dused := (x.descWr + 2 ^ 32 - x.descRd) % 2 ^ 32
    let slot := x.cfg.descAddr + x.descWr % 2 ^ x.cfg.descLog2 * 16
    (used + n.bytes.length ≤ 2 ^ x.cfg.bsLog2 → dused < 2 ^ x.cfg.descLog2 →
      (∀ b n, x.cfg.bsAddr ≤ b → b + n ≤ x.cfg.bsAddr + 2 ^ x.cfg.bsLog2 → s.bound (s.ctxPart c) b n = .ok) → s.bound (s.ctxPart c) slot 16 = .ok →
      s.OwnersHold → s.meetsPoison (.vault (x.cfg.wheel / 2)) x.cfg.bsAddr (2 ^ x.cfg.bsLog2) = false → s.meetsPoison (.vault (x.cfg.wheel / 2)) slot 16 = false →
      ∃ u, exec (.encodeNalPost c) s = .next u ∧ (u.ctx c).encNals = rest ∧
        (u.ctx c).bsWr = (x.bsWr + n.bytes.length) % 2 ^ 32 ∧ (u.ctx c).descWr = (x.descWr + 1) % 2 ^ 32 ∧ (x.cfg.evt = true → (u.ctx c).evtBits.getLsbD 4 = true) ∧
        u.readNat slot 4 = x.bsWr % 2 ^ 32 ∧ u.readNat (slot + 4) 4 = n.bytes.length % 2 ^ 32 ∧ u.readNat (slot + 8) 4 = n.picNum % 2 ^ 32 ∧
        (∀ k, k ≠ c → u.ctx k = s.ctx k) ∧ u = { s with wheels := u.wheels, mem := u.mem, reg := u.reg, faults := u.faults }) ∧
    (2 ^ x.cfg.bsLog2 < used + n.bytes.length ∨ 2 ^ x.cfg.descLog2 ≤ dused → exec (.encodeNalPost c) s = .next s))


/-! ## Host link (R366-R384) -/

/-- BAR4 and the queue registers (R371-R376).  A write to mapped memory puts its bytes at their device addresses and no others; a read answers them; an access past the BAR is unsupported, one inside it that
reaches no memory is refused and logged, and one to a channel that has to wait does nothing yet.  On a
queue of its own partition a function's good doorbell moves TAIL or HEAD, a bad one sets DB_ERR and raises 291 + p; CFG and BASE of a disabled queue are
taken; EN starts it where the check passes and sets BAD_CFG where it does not; on an enabled queue BASE is ignored with CFG_IGN; on another partition's queue the access is refused. -/
def Obligations.BarFourAndQueueRegisters : Prop :=
  (∀ (s : State) (f ofs a : Nat) (data : List Byte), s.barOpen f = true → s.dieReady 8 = true → s.bar4Map f ofs data.length = .mapped ((List.range data.length).map (a + ·)) →
    (∀ i < data.length, s.chanPaused (a + i) = false) → s.OwnersHold → s.meetsPoison (.vault 0) a data.length = false → ∃ u, exec (.bar4Write f ofs data false) s = .next u ∧ (∀ i < data.length, u.readByte (a + i) = data.getD i 0) ∧
      (∀ b, (b < a ∨ a + data.length ≤ b) → u.readByte b = s.readByte b) ∧ u.reg.reply = .accepted ∧ u = { s with mem := u.mem, reg := u.reg, faults := u.faults }) ∧
  (∀ (s : State) (f ofs n : Nat) (l : List Nat), s.barOpen f = true → s.dieReady 8 = true → s.bar4Map f ofs n = .mapped l → (∀ a ∈ l, s.chanPaused a = false) → s.OwnersHold →
    (∀ a ∈ l, s.meetsPoison (.vault 0) (a / 64 * 64) 64 = false) → ∃ u, exec (.bar4Read f ofs n) s = .next u ∧ u.reg.reply = .data (l.map s.readByte) false ∧ u = { s with mem := u.mem, reg := u.reg, faults := u.faults }) ∧
  (∀ (s : State) (f ofs : Nat) (data : List Byte) (l : List Nat), s.barOpen f = true → s.dieReady 8 = true → s.bar4Map f ofs data.length = .mapped l → (∃ a ∈ l, s.chanPaused a = true) →
    exec (.bar4Write f ofs data false) s = .next s ∧ exec (.bar4Read f ofs data.length) s = .next s) ∧
  (∀ (s : State) (f ofs n a : Nat) (l : List Nat), s.barOpen f = true → s.dieReady 8 = true → s.bar4Map f ofs n = .mapped l → (∀ b ∈ l, s.chanPaused b = false) → a ∈ l → s.meetsLost 8 (a / 64 * 64) 64 = true →
    ∃ u bytes, exec (.bar4Read f ofs n) s = .next u ∧ u.reg.reply = .data bytes true ∧ bytes.length = n) ∧
  (∀ (s : State) (f ofs : Nat) (data : List Byte), s.barOpen f = true → s.dieReady 8 = true →
    (s.bar4Map f ofs data.length = .outside → exec (.bar4Write f ofs data false) s = .next (s.reply .unsupported) ∧ exec (.bar4Read f ofs data.length) s = .next (s.reply .unsupported)) ∧
    (∀ a, s.bar4Map f ofs data.length = .refused a → exec (.bar4Write f ofs data false) s = .next (((s.logAccess f a causeUnimpl true).boundsFault (s.funcPart f) a).reply .dropped) ∧
      exec (.bar4Read f ofs data.length) s = .next ((s.boundsFault (s.funcPart f) a).reply .completerAbort)) ∧
    (s.bar4Map f ofs data.length = .absent → exec (.bar4Write f ofs data false) s = .next ((s.logAccess f 0 causeUnimpl true).reply .dropped) ∧
      exec (.bar4Read f ofs data.length) s = .next (s.reply .completerAbort)) ∧
    (∀ a, s.bar4Map f ofs data.length = .sealed_ a → exec (.bar4Write f ofs data false) s = .next ((s.logAccess f a causeUnimpl true).reply .dropped) ∧
      exec (.bar4Read f ofs data.length) s = .next ((s.logAccess f a causeUnimpl false).reply .completerAbort))) ∧
  (∀ (s : State) (f q : Nat), s.barOpen f = true → q < 1024 → s.funcPart f < 8 → s.dieReady 8 = true →
    (s.sqPart q = s.funcPart f → ∀ v : Word,
      (v.toNat % 4096 < (s.sq q).size → (v.toNat % 4096 + (s.sq q).size - (s.sq q).tail) % (s.sq q).size ≤ (s.sq q).size - 1 - ((s.sq q).tail + (s.sq q).size - (s.sq q).head) % (s.sq q).size →
        ∃ u, exec (.sqTailDoorbell f q v) s = .next u ∧ u.sq q = { s.sq q with tail := v.toNat % 4096 } ∧ (∀ k, k ≠ q → u.sq k = s.sq k) ∧ u = { s with host := u.host, reg := u.reg }) ∧
      ((s.sq q).size ≤ v.toNat % 4096 → ∃ u, exec (.sqTailDoorbell f q v) s = .next u ∧ u.sq q = { s.sq q with dbErr := true } ∧
        u.faults.raised = s.faults.raised ++ [{ source := 291 + s.funcPart f, owner := s.funcPart f, addr := bar2Addr (queueOfs false q 0x10) }])) ∧
    (s.cqPart q = s.funcPart f → sget [] s.host.staging (s.funcPart f) = [] → ∀ v : Word,
      (v.toNat % 4096 < (s.cq q).size → (v.toNat % 4096 + (s.cq q).size - (s.cq q).head) % (s.cq q).size ≤ (s.cq q).held → ∃ u, exec (.cqHeadDoorbell f q v) s = .next u ∧
        u.cq q = { s.cq q with head := v.toNat % 4096 } ∧ (∀ k, k ≠ q → u.cq k = s.cq k) ∧ u = { s with host := u.host, reg := u.reg }) ∧
      ((s.cq q).size ≤ v.toNat % 4096 → ∃ u, exec (.cqHeadDoorbell f q v) s = .next u ∧ u.cq q = { s.cq q with dbErr := true } ∧
        u.faults.raised = s.faults.raised ++ [{ source := 291 + s.funcPart f, owner := s.funcPart f, addr := bar2Addr (queueOfs true q 0x10) }])) ∧
    (s.sqPart q = s.funcPart f → (s.sq q).shutting = false → ∀ v : Word,
      let y := { s.sq q with loc := bit v.toNat 1, log2 := bits v.toNat 2 4, bind := bits v.toNat 6 10 }
      ((s.sq q).en = false → bit v.toNat 0 = false → ∃ u, exec (.queueCfgWrite f false q v) s = .next u ∧ u.sq q = y ∧ u = { s with host := u.host, reg := u.reg }) ∧
      ((s.sq q).en = false → bit v.toNat 0 = true → s.queueOk false q { y with shutting := false, latchedEn := false } = true → ∃ u, exec (.queueCfgWrite f false q v) s = .next u ∧
        (u.sq q).en = true ∧ (u.sq q).halted = false ∧ (u.sq q).badCfg = (s.sq q).badCfg ∧ u = { s with host := u.host, reg := u.reg }) ∧
      ((s.sq q).en = false → bit v.toNat 0 = true → s.queueOk false q { y with shutting := false, latchedEn := false } = false → ∃ u, exec (.queueCfgWrite f false q v) s = .next u ∧
        (u.sq q).en = false ∧ (u.sq q).badCfg = true ∧ u = { s with host := u.host, reg := u.reg })) ∧
    (s.sqPart q = s.funcPart f → ∀ v : DWord, ∃ u, exec (.queueBaseWrite f false q v) s = .next u ∧
      ((s.sq q).en = false → (s.sq q).shutting = false → u.sq q = { s.sq q with base := v, head := 0, tail := 0, lap := 0, halted := false }) ∧
      ((s.sq q).en = true → u.sq q = { s.sq q with cfgIgn := true }) ∧ u = { s with host := u.host, reg := u.reg }) ∧
    (s.sqPart q ≠ s.funcPart f → ∀ (v : Word) (w : DWord), exec (.sqTailDoorbell f q v) s = .next (s.refuse (.func f) (bar2Addr (queueOfs false q 0x10)) true) ∧
      exec (.queueCfgWrite f false q v) s = .next (s.refuse (.func f) (bar2Addr (queueOfs false q 0x08)) true) ∧
      exec (.queueBaseWrite f false q w) s = .next (s.refuse (.func f) (bar2Addr (queueOfs false q 0x00)) true)))

/-- Fetching and completing commands (R374-R377).  V0 takes the entry at HEAD of a queue that can run: a known opcode with a clean header is forwarded, another is answered 0x01 or 0x02, and an
entry that cannot be read halts the queue with a completion of CID 0xFFFF and status 0x08.  The oldest due completion is written at its CQ's tail, PHASE 1 on even laps, with its
event; where the CQ cannot be written it waits in staging, and not even there while that is full; it is an action of the island (R446). -/
def Obligations.FetchAndCompletion : Prop :=
  (∀ (s : State) (q : Nat), (s.sq q).en = true → (s.sq q).halted = false → (s.sq q).head ≠ (s.sq q).tail → s.sqPart q < 8 → s.funcQuiet (s.partFunc (s.sqPart q)) = false → s.dieReady 8 = true →
    ((s.sq q).loc = false ∨ s.dramOpen = true) → s.cqRoom (s.sq q).bind = true →
    let x := s.sq q
    let a := x.addr + x.head % x.size * 64
    let e := s.readBytes a 64
    let f : Forwarded := { fn := s.partFunc (s.sqPart q), sq := q, cid := lfld e 2 2, opcode := lfld e 0 1, body := e.drop 16 }
    (s.OwnersHold → s.meetsPoison (.vault 0) a 64 = false → s.bound (s.sqPart q) a 64 = .ok →
      (knownOpcode f.opcode = true → lzero e 1 1 = true → lzero e 4 12 = true → ∃ u, exec (.sqFetch q .data) s = .next u ∧ u.host.forwarded = s.host.forwarded ++ [f] ∧
        u.sq q = { x with head := (x.head + 1) % x.size, inFlight := x.inFlight + 1 } ∧ (∀ k, k ≠ q → u.sq k = s.sq k) ∧ u.host.due = s.host.due ∧
        u = { s with host := u.host, mem := u.mem, faults := u.faults }) ∧
      (knownOpcode f.opcode = false ∨ lzero e 1 1 = false ∨ lzero e 4 12 = false → ∃ u, exec (.sqFetch q .data) s = .next u ∧ u.host.forwarded = s.host.forwarded ∧
        u.host.due = s.host.due ++ [{ fn := f.fn, cid := f.cid, sq := q, cq := x.bind, status := if knownOpcode f.opcode then 0x02 else 0x01 }] ∧
        u.sq q = { x with head := (x.head + 1) % x.size, inFlight := x.inFlight + 1 } ∧ u = { s with host := u.host, mem := u.mem, faults := u.faults })) ∧
    (∀ r, r ≠ .data ∨ s.mem.poisoned (a / 64) = true ∧ s.goodOwner (a / 64) = false ∨ s.meetsLost 8 a 64 = true ∨ s.bound (s.sqPart q) a 64 ≠ .ok → ∃ u, exec (.sqFetch q r) s = .next u ∧ (u.sq q).halted = true ∧ (u.sq q).halt = true ∧ (u.sq q).head = x.head ∧ (u.sq q).inFlight = x.inFlight + 1 ∧
      u.host.due = s.host.due ++ [{ fn := f.fn, cid := 0xFFFF, sq := q, cq := x.bind, status := 0x08 }] ∧
      (s.bound (s.sqPart q) a 64 ≠ .ok → { source := 283 + s.sqPart q, owner := s.sqPart q, addr := a } ∈ u.faults.raised) ∧ u = { s with host := u.host, mem := u.mem, faults := u.faults })) ∧
  (∀ (s : State) (q : Nat) (r : FetchReply), (s.sq q).en = false ∨ (s.sq q).halted = true ∨ (s.sq q).head = (s.sq q).tail ∨ ((s.sq q).loc = true ∧ s.dramOpen = false) → exec (.sqFetch q r) s = .next s) ∧
  (∀ (s : State) (k : Completion) (rest : List Completion), s.host.due = k :: rest → k.final = false → k.handle = 0 → (s.sq k.sq).shutting = false → s.cqPart k.cq < 8 → ((s.cq k.cq).loc = false ∨ s.dramOpen = true) →
    let x := s.cq k.cq
    let a := x.addr + x.tail % x.size * 16
    (s.cqWritable k.cq = true → s.stagedFor (s.cqPart k.cq) k.cq = 0 → s.OwnersHold → s.meetsPoison (.vault 0) a 16 = false → s.bound (s.cqPart k.cq) a 16 = .ok → ∃ u, exec .completionPost s = .next u ∧ u.host.due = rest ∧
      (∀ i < 16, u.readByte (a + i) = (s.completionBytes k).getD i 0) ∧ (∀ b, (b < a ∨ a + 16 ≤ b) → u.readByte b = s.readByte b) ∧
      (u.cq k.cq).tail = (if x.tail % x.size + 1 = x.size then 0 else x.tail % x.size + 1) ∧ (u.sq k.sq).inFlight = (s.sq k.sq).inFlight - 1 ∧
      (s.reg.sleeping = false ∨ x.held = 0 → u.reg.occurrences = s.reg.occurrences ++ [k.cq]) ∧ u.islands = (s.logAct (.completion k.fn k.cid) true).islands ∧
      u = { s with host := u.host, mem := u.mem, reg := u.reg, faults := u.faults, islands := u.islands }) ∧
    (s.cqWritable k.cq = true → s.stagedFor (s.cqPart k.cq) k.cq = 0 → s.bound (s.cqPart k.cq) a 16 ≠ .ok → ∃ u, exec .completionPost s = .next u ∧ u.host.due = rest ∧ (u.cq k.cq).halted = true ∧ (u.cq k.cq).halt = true ∧
      sget [] u.host.staging (s.cqPart k.cq) = sget [] s.host.staging (s.cqPart k.cq) ++ [.completion k] ∧ u.faults.raised = s.faults.raised ++ [{ source := 283 + s.cqPart k.cq, owner := s.cqPart k.cq, addr := a }] ∧
      u = { s with host := u.host, faults := u.faults, islands := (s.logAct (.completion k.fn k.cid) true).islands }) ∧
    (s.cqWritable k.cq = false → s.stagingFull (s.cqPart k.cq) = true → exec .completionPost s = .next s) ∧
    (s.cqWritable k.cq = false → s.stagingFull (s.cqPart k.cq) = false → ∃ u, exec .completionPost s = .next u ∧ u.host.due = rest ∧ sget [] u.host.staging (s.cqPart k.cq) = sget [] s.host.staging (s.cqPart k.cq) ++ [.completion k] ∧
      u = { s with host := u.host, islands := (s.logAct (.completion k.fn k.cid) true).islands })) ∧
  (∀ s : State, s.host.due = [] → exec .completionPost s = .next s)

/-- Long operations of the host (R377-R379, R494, R497, R499, R531).  WARE_LOAD, SCRUB and MEM_TEST of a good range answer with a fresh handle that is RUNNING; a ware whose bytes (R496) pass every check is placed, once the dies that its
placement needs run (R506), under the next ware number, one that fails ends 0x41 with its code and, for a failed verification or identity, raises 397 + p; WARE_UNLOAD is refused while a request names the
ware; a SCRUB ends when its units are zero; OP_QUERY, OP_SUSPEND, OP_RESUME and OP_CANCEL act on a handle of the function's own. -/
def Obligations.LongOperations : Prop :=
  (∀ (s : State) (q : Nat) (f : Forwarded), bodyReserved f 26 = false → s.openHandles (.host f.fn f.sq f.cid) < 16 → s.op? s.host.nextHandle = none →
    let p := s.funcPart f.fn
    let a := f.fld 16 6
    let n := f.fld 22 4
    (s.Awaits q 0x01 f → 0 < n → n ≤ 2 ^ 32 → s.inHost p a n = true → s.inDram p a n = false → ∃ u, exec (.wareLoad q) s = .next u ∧ (u.op? s.host.nextHandle).map (·.state) = some .running ∧
      (u.op? s.host.nextHandle).map (·.kind) = some .wareLoad ∧ u.host.due = ((s.taken q 0x01).answer f 0 s.host.nextHandle 0).host.due ∧ u = { s with host := u.host }) ∧
    (s.Awaits q 0x04 f → 0 < n → s.inDram p a (n * 0x4000000) = true → a % 0x4000000 = 0 → ∃ u, exec (.scrub q) s = .next u ∧ (u.op? s.host.nextHandle).map (·.state) = some .running ∧
      u.mem.zeroJobs = s.mem.zeroJobs ++ (List.range n).map (fun i => { base := a + i * 0x4000000, bytes := 0x4000000, purpose := 1, part := p, handle := s.host.nextHandle }) ∧
      u.host.due = ((s.taken q 0x04).answer f 0 s.host.nextHandle 0).host.due ∧ (∀ b, u.readByte b = s.readByte b)) ∧
    (s.Awaits q 0x05 f → 0 < n → s.inDram p a (n * 0x4000000) = true → a % 0x4000000 = 0 → ∃ u, exec (.memTest q) s = .next u ∧ (u.op? s.host.nextHandle).map (·.state) = some .running ∧
      u.host.due = ((s.taken q 0x05).answer f 0 s.host.nextHandle 0).host.due ∧ (∀ b, (b < a ∨ a + n * 0x4000000 ≤ b) → u.readByte b = s.readByte b)) ∧
    (s.Awaits q 0x04 f → n = 0 → exec (.scrub q) s = .next ((s.taken q 0x04).answer f 0x0A 0 0))) ∧
  (∀ (s : State) (h : Nat) (w : WareReads) (o : OpRec), s.op? h = some o → o.kind = .wareLoad → o.state = .running → o.forgotten = false → s.islands.noneActive = false →
    let b := s.readBytes o.base o.units
    let poison := s.meetsPoison .mint o.base o.units
    (∀ c, s.checkWare o.part b poison w = .error c → c ≤ 6 ∨ c = 0x0A → ∃ u, exec (.wareLoadDone h w) s = .next u ∧ (u.op? h).map (·.state) = some .done ∧
      { source := 397 + o.part, owner := o.part } ∈ u.faults.raised ∧ u.teller = s.teller ∧ u.sec.errWare = true ∧ u.sec.lastCode = c) ∧
    (∀ f x, s.checkWare o.part b poison w = .ok f → f.confOnly = false → w.placed = some x → s.placeOk o.part w.plan f.adapterImage x = true →
      s.placeUp w.plan x = true → s.ware? s.teller.nextWare = none → ∃ u y, exec (.wareLoadDone h w) s = .next u ∧ u.ware? s.teller.nextWare = some y ∧ y.part = o.part ∧ y.version = f.version ∧ y.digest = f.digest ∧ y.signer = f.signer ∧
        y.members = f.members ∧ y.tenants = f.tenants ∧ y.sealedWare = f.sealedWare ∧ y.isImage = f.adapterImage ∧ y.plan = w.plan ∧ y.tallyBase = x.2.1 ∧ y.image = x.2.2 ∧
        (u.op? h).map (·.state) = some .done) ∧
    (∀ f x, s.checkWare o.part b poison w = .ok f → f.confOnly = false → w.placed = some x → s.placeOk o.part w.plan f.adapterImage x = true →
      s.placeUp w.plan x = false → exec (.wareLoadDone h w) s = .next s) ∧
    (∀ f, s.checkWare o.part b poison w = .ok f → f.confOnly = false → w.placed = none → ∃ u, exec (.wareLoadDone h w) s = .next u ∧ (u.op? h).map (·.state) = some .done ∧ u.teller = s.teller)) ∧
  (∀ (s : State) (q : Nat) (f : Forwarded) (w : Ware), s.Awaits q 0x02 f → bodyReserved f 18 = false → s.ware? (f.fld 16 2) = some w → w.part = s.funcPart f.fn →
    (s.wareNamed (f.fld 16 2) = true → exec (.wareUnload q) s = .next ((s.taken q 0x02).answer f 0x23 0 0)) ∧
    (s.wareNamed (f.fld 16 2) = false → ∃ u, exec (.wareUnload q) s = .next u ∧ u.ware? (f.fld 16 2) = none ∧ (∀ k, k ≠ f.fld 16 2 → u.ware? k = s.ware? k) ∧
      u.host.due = ((s.taken q 0x02).answer f 0 0 0).host.due ∧ (∀ r ∈ w.image, ∀ i < r.2, u.readByte (r.1 + i) = 0))) ∧
  (∀ (s : State) (h : Nat) (l : List Nat) (o : OpRec), s.op? h = some o → o.kind = .scrub → o.state = .running → s.islands.noneActive = false →
    (o.units ≤ o.doneUnits → o.forgotten = false → ∃ u, exec (.longOperationDone h l) s = .next u ∧ (u.op? h).map (·.state) = some .done ∧ u = { s with host := u.host }) ∧
    (o.doneUnits < o.units → exec (.longOperationDone h l) s = .next s)) ∧
  (∀ (s : State) (q : Nat) (f : Forwarded) (o : OpRec) (cid sq : Nat), bodyReserved f 20 = false → s.op? (f.fld 16 4) = some o → o.origin = .host f.fn sq cid → o.forgotten = false → o.kind = .scrub →
    (s.Awaits q 0x08 f → ∃ u, exec (.opQuery q) s = .next u ∧ u.host.due = ((s.taken q 0x08).answer f 0 (opCode o.state) o.progress).host.due ∧ u = { s with host := u.host }) ∧
    (s.Awaits q 0x09 f → o.state = .running → ∃ u, exec (.opSuspend q) s = .next u ∧ (u.op? (f.fld 16 4)) = some { o with state := .suspended } ∧ u.host.due = ((s.taken q 0x09).answer f 0 0 0).host.due) ∧
    (s.Awaits q 0x0A f → o.state = .suspended → ∃ u, exec (.opResume q) s = .next u ∧ (u.op? (f.fld 16 4)) = some { o with state := .running } ∧ u.host.due = ((s.taken q 0x0A).answer f 0 0 0).host.due) ∧
    (s.Awaits q 0x0B f → o.state = .running → ∃ u, exec (.opCancel q) s = .next u ∧ (u.op? (f.fld 16 4)).map (·.state) = some .cancelled ∧ (∀ j ∈ u.mem.zeroJobs, j.handle ≠ f.fld 16 4)) ∧
    (s.Awaits q 0x0B f → o.state = .done ∨ o.state = .cancelled → exec (.opCancel q) s = .next ((s.taken q 0x0B).answer f 0x05 0 0))) ∧
  (∀ (s : State) (q : Nat) (f : Forwarded), bodyReserved f 20 = false → s.ownOp f.fn (f.fld 16 4) = false →
    (s.Awaits q 0x08 f → exec (.opQuery q) s = .next ((s.taken q 0x08).answer f 0x04 0 0)) ∧ (s.Awaits q 0x09 f → exec (.opSuspend q) s = .next ((s.taken q 0x09).answer f 0x04 0 0)))

/-- Resets of functions and the links (R366-R368, R371, R380-R384).  An FLR disables and rewinds the partition's queues, drops what it had in flight and ends its requests with CANCEL_NOW; PERST_N and a hot
reset reset every function; the link's loss raises 301 and training brings it back; configuration writes set their bits, a BAR4 size or address, which the VFs share, only with memory space off; a stream port that goes
down raises 303, a management port 304; a frame for another address leaves by the other port. -/
def Obligations.ResetsAndLinks : Prop :=
  (∀ (s : State) (f : Nat), f ≠ 0 → s.funcLive f = true → s.host.linkUp = true → ∃ u, exec (.flr f) s = .next u ∧ u.func f = {} ∧ (∀ g, g ≠ f → u.func g = s.func g) ∧
    (∀ q, s.sqPart q = s.funcPart f → (u.sq q).en = false ∧ (u.sq q).head = 0 ∧ (u.sq q).tail = 0) ∧ (∀ k ∈ u.host.forwarded, k.fn ≠ f) ∧ (∀ k ∈ u.host.due, k.fn ≠ f) ∧
    (∀ i, s.reqPart i = s.funcPart f → (s.request i).state.active = true → (s.request i).cancelNow = false → (u.request i).state = .draining ∧ (u.request i).endReason = if (s.ring i).ended then (s.request i).endReason else 0x05) ∧
    (∀ i, s.reqPart i ≠ s.funcPart f → u.request i = s.request i)) ∧
  (∀ (s : State) (r : Bool), s.host.perstAsserted = false → ∃ u, exec (.perstN true r) s = .next u ∧ u.host.perstAsserted = true ∧ u.host.linkUp = false ∧ u.host.linkTraining = false ∧
    (∀ f, u.func f = {}) ∧ (∀ q, u.sq q = {} ∧ u.cq q = {}) ∧ u.host.sbActive.getLsbD 0 = true ∧ u.mould.parts = s.mould.parts ∧ u.links = s.links) ∧
  (∀ (s : State) (r : Bool), s.host.sbChattering.getLsbD 0 = true → exec (.perstN false r) s = .next s) ∧
  (∀ (s : State) (r : Bool), s.host.sbChattering.getLsbD 0 = false → ∃ u, exec (.perstN false r) s = .next u ∧ u.host.perstAsserted = false ∧ u.host.refclkUsed = r ∧ u.host.linkTraining = s.dieReady 8 ∧
    u.host.sbActive.getLsbD 0 = false ∧ u = { s with host := u.host }) ∧
  (∀ s : State, s.host.linkUp = true → ∃ u, exec .hotReset s = .next u ∧ u.host.linkUp = false ∧ u.host.linkTraining = true ∧ (∀ f, u.func f = {}) ∧ (∀ q, u.sq q = {} ∧ u.cq q = {})) ∧
  (∀ s : State, s.host.linkUp = true → ∃ u, exec (.linkDown .link) s = .next u ∧ u.host.linkUp = false ∧ u.host.linkTraining = !s.host.perstAsserted ∧
    u.faults.raised = s.faults.raised ++ [{ source := 301 }] ∧ u = { s with host := u.host, faults := u.faults }) ∧
  (∀ (s : State) (f : Nat), s.funcLive f = true → exec (.linkDown (.d3hot f)) s = .next (s.setFunc f { s.func f with d3hot := true }) ∧
    exec (.linkDown (.busMasterClear f)) s = .next (s.setFunc f { s.func f with bme := false })) ∧
  (∀ (s : State) (i : Nat), s.host.linkUp = false → s.reqPart i < 8 → s.hostRing i = true → (s.request i).state.active = true → (s.request i).cancelNow = false → ∃ u, exec .linkDownTimeout s = .next u ∧
    (u.request i).state = .draining ∧ (u.request i).endReason = if (s.ring i).ended then (s.request i).endReason else 0x09) ∧
  (∀ s : State, s.host.linkUp = true → s.host.refclkUsed = true → ∃ u, exec .refclkLost s = .next u ∧ u.host.linkUp = false ∧ u.host.refclkPresent = false ∧ u.host.linkTraining = false ∧
    u.faults.raised = s.faults.raised ++ [{ source := 301 }] ∧ u = { s with host := u.host, faults := u.faults }) ∧
  (∀ (s : State) (r : Bool), s.host.linkUp = false → s.host.perstAsserted = false → s.dieReady 8 = true →
    exec (.linkRetry r) s = .next { s with host := { s.host with linkTraining := true, refclkPresent := r, refclkUsed := r } }) ∧
  (∀ s : State, s.host.linkTraining = true → s.host.perstAsserted = false → s.dieReady 8 = true → ∃ u, exec .pcieLinkUp s = .next u ∧ u.host.linkUp = true ∧ u.host.linkTraining = false ∧
    1 ≤ u.host.linkRate ∧ u.host.linkRate ≤ 5 ∧ u.host.linkWidth ∈ [1, 4, 8, 16]) ∧
  (∀ (s : State) (f : Nat), f ≤ 8 → s.host.linkUp = true → (f ≠ 0 → s.host.vfEnable = true ∧ f ≤ s.mould.totalVfs) →
    (∀ on, exec (.configSpaceWrite f (.memorySpace on)) s = .next (s.setFunc f { s.func f with mse := on })) ∧
    (∀ v, s.barFixed f = false → exec (.configSpaceWrite f (.bar4Base v)) s =
      .next (if f = 0 then s.setFunc 0 { s.func 0 with bar4Base := v } else { s with host := { s.host with vfBarBase := v } })) ∧
    (∀ v, s.barFixed f = true → ∃ u, exec (.configSpaceWrite f (.bar4Base v)) s = .next u ∧ u.host = s.host ∧ (u.inst f).errCause = causeMse) ∧
    (∀ n, s.barFixed f = false → 20 ≤ n → n ≤ s.bar4Offer f → exec (.configSpaceWrite f (.bar4Size n)) s =
      .next (if f = 0 then s.setFunc 0 { s.func 0 with bar4Log2 := n } else { s with host := { s.host with vfBarLog2 := n } })) ∧
    (∀ a b, exec (.configSpaceWrite f (.payload a b)) s = .next (s.setFunc f { s.func f with mps := a % 8, mrrs := b % 8 })) ∧
    (∀ e a d, e < tableSize f → ∃ u, exec (.configSpaceWrite f (.msixEntry e a d true)) s = .next u ∧ (u.func f).msixEntry e = { addr := a, data := d, mask := true } ∧ u = { s with host := u.host })) ∧
  (∀ (s : State) (p : Nat) (up : Bool), p < 4 → s.dieReady 9 = true → ∃ u, exec (.streamPortLink p up) s = .next u ∧ (sget {} u.host.eth p).link = up ∧
    u.faults.raised = s.faults.raised ++ (if (sget {} s.host.eth p).link && !up then [{ source := 303 }] else []) ∧ u = { s with host := u.host, faults := u.faults }) ∧
  (∀ (s : State) (p : Nat) (up : Bool), p < 2 → s.links.rootLock = true → ∃ u, exec (.mgmtPortLink p up) s = .next u ∧ u.host.mgmtLinkUp.getLsbD p = up ∧
    u.faults.raised = s.faults.raised ++ (if s.host.mgmtLinkUp.getLsbD p && !up then [{ source := 304 }] else []) ∧ u = { s with host := u.host, faults := u.faults }) ∧
  (∀ (s : State) (p : Nat) (frame : List Byte), p < 2 → s.links.rootLock = true → s.host.mgmtLinkUp = 3 → frame.length ≤ 1522 →
    exec (.mgmtFrameForward p false false frame) s = .next { s with host := { s.host with mgmtOut := s.host.mgmtOut ++ [(1 - p, frame)] } } ∧
    exec (.mgmtFrameForward p true false frame) s = .next s)


/-! ## Security and management (R486-R509) -/

/-- The Hallmark and the tenant sessions (R488-R490, R499, R505).  A report is written where its buffer can hold it and waits while an amendment is between Fence and Grant; SESSION_OPEN leaves a free slot of a
CONFIDENTIAL partition OPENING, is refused in test mode, and fails with 0x54 and source 405 where what it is given are no points of the curve; SESSION_CONFIRM opens it for the S_A that the exchange gives and frees it for another; SESSION_CLOSE of a
slot no request uses frees it, and so do 10 s of OPENING. -/
def Obligations.HallmarkAndSessions : Prop :=
  (∀ (s : State) (q : Nat) (f : Forwarded), s.Awaits q 0x53 f → s.hallWaits = false → bodyReserved f 57 = false → f.fld 56 1 = 0 →
    let p := s.funcPart f.fn
    let a := f.fld 16 6
    let report := (s.taken q 0x53).hallmark ((f.body.drop 8).take 32) p
    (report.length ≤ f.fld 22 2 → a % 64 = 0 → s.inDram p a report.length = true → s.sec.identityOk = true → s.OwnersHold → s.meetsPoison .mint a report.length = false → ∃ u, exec (.hallmark q) s = .next u ∧
      (∀ i < report.length, u.readByte (a + i) = report.getD i 0) ∧ (∀ b, (b < a ∨ a + report.length ≤ b) → u.readByte b = s.readByte b) ∧
      u.host.due = ((s.taken q 0x53).answer f 0 0 report.length).host.due) ∧
    (f.fld 22 2 < report.length → ∃ u, exec (.hallmark q) s = .next u ∧ u.host.due = ((s.taken q 0x53).answer f 0x22 0 report.length).host.due ∧ u.mem = s.mem)) ∧
  (∀ (s : State) (q : Nat), s.hallWaits = true → exec (.hallmark q) s = .next s) ∧
  (∀ (s : State) (q : Nat) (f : Forwarded), s.Awaits q 0x50 f → bodyReserved f 23 = false →
    let p := s.funcPart f.fn
    let a := f.fld 16 6
    let k := f.fld 22 1
    (s.confidential p = false → ∀ ok, exec (.sessionOpen q ok) s = .next ((s.taken q 0x50).answer f 0x22 0 0)) ∧
    (s.confidential p = true → k ≤ 15 → a % 64 = 0 → s.inHost p a 224 = true → (s.session p k).use = .free →
      (s.faults.testMode = true → ∀ ok, ∃ u, exec (.sessionOpen q ok) s = .next u ∧ u.host.due = ((s.taken q 0x50).answer f 0x53 0 0).host.due ∧ u.sec.sessions = s.sec.sessions) ∧
      (s.faults.testMode = false → s.sec.trngOk = true → s.sec.identityOk = true →
        let msg := s.readBytes a 128
        (∀ pt ok, kexPoint (msg.take 64) (msg.drop 64) = some pt →
          let e := s.kex (msg.take 64) (msg.drop 64) pt
          ∃ u, exec (.sessionOpen q ok) s = .next u ∧ u.session p k = { use := .opening, tenantKey := BitVec.ofNat 512 (lfld msg 0 64), kSess := e.key, confirm := e.confirm } ∧
          (∀ j, j < 16 → j ≠ k → u.session p j = s.session p j) ∧ u.host.due = ((s.taken q 0x50).answer f 0 0 0).host.due ∧
          (s.OwnersHold → s.meetsPoison .mint (a + 128) 96 = false → ∀ i < 96, u.readByte (a + 128 + i) = e.reply.getD i 0)) ∧
        (∀ ok, kexPoint (msg.take 64) (msg.drop 64) = none → ∃ u, exec (.sessionOpen q ok) s = .next u ∧ u.sec.sessions = s.sec.sessions ∧ u.faults.raised = s.faults.raised ++ [{ source := 405 }] ∧
          u.host.due = ((s.taken q 0x50).answer f 0x54 0 0).host.due)))) ∧
  (∀ (s : State) (q : Nat) (f : Forwarded), s.confidential (s.funcPart f.fn) = true → f.fld 16 1 ≤ 15 →
    let p := s.funcPart f.fn
    let k := f.fld 16 1
    (s.Awaits q 0x51 f → bodyReserved f 49 = false → (s.session p k).use = .opening → ∀ ok,
      (f.fld 17 32 = (s.session p k).confirm.toNat → ∃ u, exec (.sessionConfirm q ok) s = .next u ∧ u.session p k = { s.session p k with use := .opened } ∧ u.host.due = ((s.taken q 0x51).answer f 0 0 0).host.due) ∧
      (f.fld 17 32 ≠ (s.session p k).confirm.toNat → ∃ u, exec (.sessionConfirm q ok) s = .next u ∧ u.session p k = {} ∧ u.faults.raised = s.faults.raised ++ [{ source := 405 }] ∧ u.host.due = ((s.taken q 0x51).answer f 0x54 0 0).host.due)) ∧
    (s.Awaits q 0x52 f → bodyReserved f 17 = false → (s.session p k).use = .opened → (∀ e ∈ s.teller.requests, e.2.session ≠ some k) → ∃ u, exec (.sessionClose q) s = .next u ∧
      u.session p k = {} ∧ u.teller.requests = s.teller.requests ∧ u.host.due = ((s.taken q 0x52).answer f 0 0 0).host.due)) ∧
  (∀ (s : State) (p k : Nat), p < 8 → k < 16 → (s.session p k).use = .opening → exec (.openingTimeout p k) s = .next (s.setSession p k {})) ∧
  (∀ (s : State) (p k : Nat), (s.session p k).use ≠ .opening → exec (.openingTimeout p k) s = .next s)

/-- How a management message is admitted (R501, R502, R505): of no open session it gets SESSION, with a bad tag nothing but source 405, with a stale SEQ nothing but 406, from a peer without the role ROLE;
beyond a rate limit a message of no session is dropped with 406; while no firmware answers it is not taken. -/
def Obligations.ManagementAdmission : Prop :=
  ∀ (s : State) (h : MsgHdr) (b : List Byte) (v : Verdict) (ok : Bool),
  let session : List (Instr × Nat × Bool) := [(.regRead h b, 0x10, false), (.regWrite h b, 0x11, true), (.powerCap h b, 0x13, true), (.testToken h b ok, 0x14, true), (.blockPut h b, 0x15, true),
    (.amendMsg h b v, 0x16, true), (.op h b, 0x17, false), (.faultAck h b, 0x18, true), (.setAddr h b, 0x19, true), (.revoke h b, 0x1A, true), (.mouldInstallMsg h b v, 0x1B, true),
    (.close h b, 0x1F, false), (.fwStatus h b, 0x23, false), (.activate h b ok, 0x24, true), (.confirm h b, 0x25, true), (.revert h b, 0x26, true)]
  let open_ : List Instr := [.discover h b, .identityGet h b, .kexInit h b ok, .kexConfirm h b ok]
  (s.mgmtUp = true → ∀ p ∈ session,
    (s.peerOf h.session = none → exec p.1 s = .next (s.sendErr h p.2.1 0x03 [])) ∧
    (∀ n, s.peerOf h.session = some n → h.tagOk = false → exec p.1 s = .next s.authFailed) ∧
    (∀ n, s.peerOf h.session = some n → h.tagOk = true → h.seq < (s.mgmt n).seqIn → exec p.1 s = .next s.replayed) ∧
    (∀ n, p.2.2 = true → s.peerOf h.session = some n → h.tagOk = true → (s.mgmt n).seqIn ≤ h.seq → (s.mgmt n).admin = false → exec p.1 s = .next ((s.heard n h).sendErr h p.2.1 0x02 []))) ∧
  (s.mgmtUp = true → h.excess = true → ∀ i ∈ open_, exec i s = .next s.replayed) ∧
  (s.mgmtLive = false → s.update.recovery = false → (∀ p ∈ session, exec p.1 s = .next s) ∧ (∀ i ∈ open_, exec i s = .next s))

/-- What the management messages do once they are admitted (R365, R430, R437, R465, R487, R500-R503, R508): DISCOVER and IDENTITY_GET answer the module's identity; KEX_INIT takes a free slot and KEX_CONFIRM opens it or
frees it; REG_READ and REG_WRITE are one access by the peer; HALLMARK_GET keeps and answers a report; POWER_CAP sets the cap; a good TEST_TOKEN enters test mode; BLOCK_PUT puts its bytes
into the staging area; OP reports a handle of the peer's own; FAULT_ACK acknowledges; SET_ADDR and REVOKE change the settings of the running slot; CLOSE and idleness free the slot.  The reply of
CLOSE goes out as its header and the tag over it under the session's key (R501; which of the agreed bits are the key is this model's constant, log entry 4). -/
def Obligations.ManagementMessages : Prop :=
  (∀ (s : State) (h : MsgHdr) (b : List Byte), s.mgmtUp = true → h.excess = false →
    (b = [] → exec (.discover h b) s = .next (s.send h 0x01 (toLE 6 Config.mgmtMac.toNat ++ digestBytes s.boundId ++ toLE 4 s.ledger.firingCount))) ∧
    (b.length = 2 → exec (.identityGet h b) s = .next (s.send h 0x02 ((identityCert.drop (1024 * lfld b 0 2)).take 1024))) ∧
    (∀ n, b.length = 344 → lfld b 208 1 = 1 ∨ lfld b 208 1 = 2 → lzero b 209 7 = true → (List.range 4).find? (fun n => !(s.mgmt n).opened && !(s.mgmt n).opening) = some n → s.sec.trngOk = true →
      s.sec.identityOk = true → ¬ credentialId b ∈ (s.slot s.update.runningB).revoked →
      (∀ pt, kexPoint ((b.drop 144).take 64) (b.drop 280) = some pt →
        let e := s.kex ((b.drop 144).take 64) (b.drop 280) pt
        ∃ u, exec (.kexInit h b true) s = .next u ∧
        u.mgmt n = { opening := true, session := s.sec.nextMgmt, admin := decide (lfld b 208 1 = 2), credential := credentialId b, km := e.key, confirm := e.confirm } ∧
        (∀ k, k ≠ n → u.mgmt k = s.mgmt k) ∧ u.sec.replies = s.sec.replies ++ [replyOf h 0x03 (toLE 4 s.sec.nextMgmt ++ e.reply)] ∧ u = { s with sec := u.sec, free := u.free }) ∧
      (kexPoint ((b.drop 144).take 64) (b.drop 280) = none → exec (.kexInit h b true) s = .next (s.authFailed.sendRefused h 0x03 0x54))) ∧
    (∀ n ok, b.length = 32 → (List.range 4).find? (fun n => (s.mgmt n).opening && (s.mgmt n).session == h.session) = some n →
      (lfld b 0 32 = (s.mgmt n).confirm.toNat → ∃ u, exec (.kexConfirm h b ok) s = .next u ∧ u.mgmt n = { s.mgmt n with opened := true, opening := false } ∧ u.sec.replies = s.sec.replies ++ [replyOf h 0x04 []] ∧
        (∀ k, k ≠ n → u.mgmt k = s.mgmt k)) ∧
      (lfld b 0 32 ≠ (s.mgmt n).confirm.toNat → ∃ u, exec (.kexConfirm h b ok) s = .next u ∧ u.mgmt n = {} ∧ u.faults.raised = s.faults.raised ++ [{ source := 405 }]))) ∧
  (∀ (s : State) (h : MsgHdr) (n : Nat) (b : List Byte), Speaks s h n true →
    (b.length = 2 → lfld b 0 2 < 4096 → ∃ u, exec (.powerCap h b) s = .next u ∧ u.power = ((s.heard n h).setCap (lfld b 0 2) 10).power ∧ u.sec.replies = s.sec.replies ++ [replyOf h 0x13 []]) ∧
    (b.length = 128 → lfld b 0 32 = s.boundId.toNat → lfld b 32 4 = s.ledger.firingCount → lzero b 36 28 = true → s.testEn = true → ∃ u, exec (.testToken h b true) s = .next u ∧
      u.faults.testMode = true ∧ u.sec.replies = s.sec.replies ++ [replyOf h 0x14 []]) ∧
    (b.length = 128 → ∃ u, exec (.testToken h b false) s = .next u ∧ u.faults.testMode = s.faults.testMode ∧ u.faults.raised = s.faults.raised ++ [{ source := 407 }]) ∧
    (2 ≤ b.length → b.length ≤ 1026 → lfld b 0 2 < 64 → ∃ u, exec (.blockPut h b) s = .next u ∧ (∀ i, i + 2 < b.length → sget 0 u.sec.blockStage (1024 * lfld b 0 2 + i) = b.getD (i + 2) 0) ∧
      (∀ k, (k < 1024 * lfld b 0 2 ∨ 1024 * lfld b 0 2 + (b.length - 2) ≤ k) → sget 0 u.sec.blockStage k = sget 0 s.sec.blockStage k) ∧ u.sec.replies = s.sec.replies ++ [replyOf h 0x15 []] ∧
      u = { s with sec := u.sec }) ∧
    (b.length = 4 → (s.mgmt n).opened = true → exec (.faultAck h b) s = .next (((s.heard n h).ackHead 8 (lfld b 0 4)).send h 0x18 [])) ∧
    (b.length = 18 → lfld b 0 1 = 4 → lfld b 17 1 ≤ 32 → ∃ u, exec (.setAddr h b) s = .next u ∧ (u.slot s.update.runningB).mgmtAddr = some (4, BitVec.ofNat 128 (lfld b 1 16), lfld b 17 1) ∧
      u.sec.replies = s.sec.replies ++ [replyOf h 0x19 []] ∧ u = { s with sec := u.sec, update := u.update }) ∧
    (b.length = 8 → (s.slot s.update.runningB).revoked.length < 64 → ∃ u, exec (.revoke h b) s = .next u ∧ lfld b 0 8 ∈ (u.slot s.update.runningB).revoked ∧
      (∀ x ∈ (s.slot s.update.runningB).revoked, x ∈ (u.slot s.update.runningB).revoked) ∧ u.sec.replies = s.sec.replies ++ [replyOf h 0x1A []] ∧ u = { s with sec := u.sec, update := u.update }) ∧
    (b.length = 25 → regForm b = true → lfld b 24 1 = 0 →
      let w := (s.heard n h).busWrite { master := .peer n, loc := .window (lfld b 0 8), wide := lfld b 8 1 == 64, value := BitVec.ofNat 64 (lfld b 16 8) }
      (w.reg.reply ≠ .errorReply → exec (.regWrite h b) s = .next (w.send h 0x11 [])) ∧ (w.reg.reply = .errorReply → exec (.regWrite h b) s = .next (w.sendErr h 0x11 0x01 [])))) ∧
  (∀ (s : State) (h : MsgHdr) (n : Nat) (b : List Byte), Speaks s h n false →
    (b.length = 9 → regForm b = true →
      let w := (s.heard n h).busRead (.peer n) (.window (lfld b 0 8)) (lfld b 8 1 == 64)
      (∀ x, w.reg.reply = .value x → exec (.regRead h b) s = .next (w.send h 0x10 (toLE (if lfld b 8 1 = 64 then 8 else 4) x.toNat))) ∧
      (w.reg.reply = .errorReply → exec (.regRead h b) s = .next (w.sendErr h 0x10 0x01 []))) ∧
    (b.length = 35 → lfld b 32 1 ≤ 8 → s.hallWaits = false → s.sec.identityOk = true → sget none s.sec.hallmarks n = none → ∃ u r, exec (.hallmarkGet h b) s = .next u ∧
      sget none u.sec.hallmarks n = some (BitVec.ofNat 256 (lfld b 0 32), lfld b 32 1, r) ∧ r = (s.heard n h).hallmark (b.take 32) (lfld b 32 1) ∧
      u.sec.replies = s.sec.replies ++ [replyOf h 0x12 ((r.drop (1024 * lfld b 33 2)).take 1024)]) ∧
    (∀ o, b.length = 5 → lfld b 4 1 = 0 → s.op? (lfld b 0 4) = some o → o.origin = s.peerOrigin n → o.state = .done → ∃ u, exec (.op h b) s = .next u ∧
      u.sec.replies = s.sec.replies ++ [replyOf h 0x17 (toLE 4 3 ++ toLE 4 o.progress)] ∧ u = { s with sec := u.sec }) ∧
    (b = [] → ∃ u, exec (.close h b) s = .next u ∧ u.mgmt n = {} ∧ (∀ k, k ≠ n → u.mgmt k = s.mgmt k) ∧ u.sec.replies = s.sec.replies ++ [replyOf h 0x1F []] ∧
      (let head : List Byte := [1, 0x9F] ++ toLE 2 0 ++ toLE 4 h.session ++ toLE 8 h.seq ++ List.replicate 16 0
       u.sec.wire = s.sec.wire ++ [head ++ gcmTag (Config.mgmtKey (s.mgmt n).km) (toLE 8 h.seq ++ toLE 4 1) head []]) ∧ u = { s with sec := u.sec })) ∧
  (∀ (s : State) (n : Nat), n < 4 → (s.mgmt n).opened = true → ∃ u, exec (.mgmtSessionIdle n) s = .next u ∧ u.mgmt n = {} ∧ (∀ k, k ≠ n → u.mgmt k = s.mgmt k) ∧ u = { s with sec := u.sec })

/-! ## Field update, moulds and firing (R64-R72, R510-R526) -/

/-- Field update (R516-R525).  FW_BEGIN starts a reception unless something bars it; FW_PUT puts its bytes into the delta; FW_END of a delta that passes its checks starts the apply, of one that does not
discards it; a finished apply leaves the other slot STAGED with the target's version, a bad target EMPTY; ACTIVATE makes it TRIAL and begins the hold; once every ware is at its boundary the pause
begins and the switch runs from the trial slot; CONFIRM makes it VALID and the other RETIRED; REVERT, and the confirm window's end, begin the way back. -/
def Obligations.FieldUpdate : Prop :=
  (∀ (s : State) (h : MsgHdr) (n : Nat) (b : List Byte), Speaks s h n true → s.update.recovery = false → h.upstream = true → h.session ≠ 0 →
    (b.length = 16 → lfld b 5 1 = 0 → lfld b 4 1 = 0 → lzero b 6 10 = true → lfld b 0 4 ≤ 0x2000000 →
      (s.fwBusy = true → exec (.fwBegin h b) s = .next ((s.heard n h).fwRefused h 0x20 0x09)) ∧
      (s.fwBusy = false → ∃ u, exec (.fwBegin h b) s = .next u ∧ u.update.phase = .receiving ∧ u.update.deltaLen = lfld b 0 4 ∧ u.update.staging = [] ∧
        u.sec.replies = s.sec.replies ++ [replyOf h 0x20 []] ∧ u = { s with sec := u.sec, update := u.update })) ∧
    (4 ≤ b.length → b.length ≤ 1028 → lfld b 0 4 + (b.length - 4) ≤ s.update.deltaLen →
      (s.update.phase ≠ .receiving → exec (.fwPut h b) s = .next ((s.heard n h).fwRefused h 0x21 0x0B)) ∧
      (s.update.phase = .receiving → ∃ u, exec (.fwPut h b) s = .next u ∧ (∀ i, i + 4 < b.length → sget 0 u.update.staging (lfld b 0 4 + i) = b.getD (i + 4) 0) ∧
        (∀ k, (k < lfld b 0 4 ∨ lfld b 0 4 + (b.length - 4) ≤ k) → sget 0 u.update.staging k = sget 0 s.update.staging k) ∧ u.sec.replies = s.sec.replies ++ [replyOf h 0x21 []])) ∧
    (b = [] → s.update.phase = .receiving → s.openHandles (s.peerOrigin n) < 4 → ∀ dok sok,
      (∀ c, s.checkDelta sok = .error c → ∃ u, exec (.fwEnd h b dok sok) s = .next u ∧ u.update.lastErr = c ∧ u.update.staging = [] ∧ u.update.phase = s.restPhase ∧ u.update.slotA = s.update.slotA ∧
        u.update.slotB = s.update.slotB) ∧
      (∀ d, s.checkDelta sok = .ok d → s.op? s.host.nextHandle = none → ∃ u, exec (.fwEnd h b dok sok) s = .next u ∧ u.update.phase = .applying ∧ u.update.applyHandle = s.host.nextHandle ∧
        u.update.applyDelta = some d ∧ (u.slot s.update.otherB).state = .empty ∧ (u.op? s.host.nextHandle).map (·.state) = some .running ∧
        u.sec.replies = s.sec.replies ++ [replyOf h 0x22 (toLE 4 s.host.nextHandle)])) ∧
    (b.length = 6 → (s.slot s.update.otherB).state = .staged → (s.slot s.update.otherB).version = lfld b 0 4 → s.fwBusy = false → s.mould.amend = none → s.unsettled = false → s.islands.noneActive = false →
      s.islands.gap = none → s.islands.st s.islands.standby = .sync → ∃ u, exec (.activate h b true) s = .next u ∧ (u.slot s.update.otherB).state = .trial ∧
        (u.slot s.update.otherB).confirmWindow = lfld b 4 2 ∧ u.update.phase = .preparing ∧ u.update.targetB = s.update.otherB ∧ u.update.attempts = 0 ∧
        u.sec.replies = s.sec.replies ∧ u = { s with sec := u.sec, update := u.update }) ∧
    (b.length = 4 → s.update.phase = .trial → (s.slot s.update.runningB).state = .trial → (s.slot s.update.runningB).version = lfld b 0 4 → ∃ u, exec (.confirm h b) s = .next u ∧
      (u.slot s.update.runningB).state = .valid ∧ (u.slot (!s.update.runningB)).state = .retired ∧ u.update.highestConfirmed = lfld b 0 4 ∧ u.update.phase = .idle ∧
      u.mould = { s.mould with firedSlotB := s.update.runningB } ∧ u.sec.replies = s.sec.replies ++ [replyOf h 0x25 []]) ∧
    (b.length = 4 → s.update.phase ≠ .trial → exec (.confirm h b) s = .next ((s.heard n h).fwRefused h 0x25 0x0B)) ∧
    (b = [] → s.update.phase = .trial → ∃ u, exec (.revert h b) s = .next u ∧ u.update.phase = .holding ∧ u.update.reverting = true ∧ u.update.targetB = s.update.otherB ∧
      u.sec.replies = s.sec.replies ++ [replyOf h 0x26 []] ∧ u = { s with sec := u.sec, update := u.update })) ∧
  (∀ (s : State) (h : MsgHdr) (n : Nat), Speaks s h n false → ∃ u r, exec (.fwStatus h []) s = .next u ∧ u.sec.replies = s.sec.replies ++ [replyOf h 0x23 r] ∧ r.length = 20 ∧
    r.take 4 = [BitVec.ofNat 8 (b2n s.update.runningB), BitVec.ofNat 8 (slotCode s.update.slotA.state), BitVec.ofNat 8 (slotCode s.update.slotB.state), BitVec.ofNat 8 (phaseCode s.update.phase)]) ∧
  (∀ s : State, s.update.phase = .receiving → ∃ u, exec .fwReceptionTimeout s = .next u ∧ u.update.staging = [] ∧ u.update.phase = s.restPhase ∧ u = { s with update := u.update }) ∧
  (∀ (s : State) (cs : List (BitVec 256)) (d : Delta) (o : OpRec), s.update.applyDelta = some d → s.op? s.update.applyHandle = some o → s.update.phase = .applying → o.state = .running → o.forgotten = false →
    s.islands.noneActive = false →
    (sm3 s.targetImage = d.targetDigest → ∃ u, exec (.fwApplyDone true true cs) s = .next u ∧ (u.slot s.update.otherB).state = .staged ∧ (u.slot s.update.otherB).version = d.version ∧ (u.slot s.update.otherB).image = s.targetImage ∧
      u.slot s.update.runningB = s.slot s.update.runningB ∧ u.update.phase = .staged ∧ (u.op? s.update.applyHandle).map (·.state) = some .done) ∧
    (∀ ok, ok = false ∨ sm3 s.targetImage ≠ d.targetDigest → ∃ u, exec (.fwApplyDone ok true cs) s = .next u ∧ (u.slot s.update.otherB).state = .empty ∧ u.slot s.update.runningB = s.slot s.update.runningB ∧ u.update.lastErr = 0x07 ∧ u.update.phase = .idle) ∧
    (∀ ok, ∃ u, exec (.fwApplyDone ok false cs) s = .next u ∧ (u.slot s.update.otherB).state = .empty ∧ u.update.lastErr = 0x08 ∧ { source := 408 } ∈ u.faults.raised)) ∧
  (∀ s : State, s.update.phase = .preparing → ∃ u, exec .activateHoldAttempt s = .next u ∧ u.update.phase = .holding ∧ u.update.attempts = 1 ∧ u.update.holdBegun = true ∧ u.update.reverting = false ∧
    u = { s with update := u.update }) ∧
  (∀ s : State, s.update.phase = .holding → s.update.holding = false → s.update.holdBegun = true →
    (s.allHeld = true → s.teller.held = false → ∃ u, exec .activateHoldAttempt s = .next u ∧ u.update.holding = true ∧ u.teller.held = true ∧ (∀ e ∈ u.teller.wares, e.2.held = !e.2.isImage) ∧
      u = { s with update := u.update, teller := u.teller }) ∧
    (s.allHeld = false → s.update.attempts < 10 → ∃ u, exec .activateHoldAttempt s = .next u ∧ u.update.holdBegun = false ∧ u.update.phase = .holding) ∧
    (s.allHeld = false → 10 ≤ s.update.attempts → s.update.reverting = false → ∃ u, exec .activateHoldAttempt s = .next u ∧ u.update.phase = .staged ∧ (u.slot s.update.targetB).state = .staged ∧
      u.update.lastErr = 0x0A)) ∧
  (∀ s : State, s.update.phase = .holding → s.update.holding = true → s.update.reverting = false → s.islands.gap = none → s.islands.noneActive = false → s.links.rootLock = true →
    (∀ e ∈ s.teller.wares, e.2.isImage = false → e.2.held = true) → ∃ u, exec .activateSwitch s = .next u ∧ u.update.runningB = s.update.targetB ∧ u.update.phase = .trial ∧
      u.update.trialSince = s.links.aoCount.toNat ∧ u.islands.activeB = !s.islands.activeB ∧ u.update.holding = false ∧
      u.sec.replies = s.sec.replies ++ [replyOf s.update.activateHdr 0x24 []]) ∧
  (∀ s : State, s.update.phase = .trial → (s.slot s.update.runningB).confirmWindow ≠ 0 →
    ((s.slot s.update.runningB).confirmWindow * 60 * 68750000 ≤ s.links.aoCount.toNat - s.update.trialSince → ∃ u, exec .confirmWindowExpiry s = .next u ∧ u.update.phase = .holding ∧
      u.update.reverting = true ∧ u.update.targetB = s.update.otherB ∧ u = { s with update := u.update }) ∧
    (s.links.aoCount.toNat - s.update.trialSince < (s.slot s.update.runningB).confirmWindow * 60 * 68750000 → exec .confirmWindowExpiry s = .next s)) ∧
  (∀ s : State, s.update.recovery = true → s.update.phase = .staged → exec .recoveryImageWritten s = .next { s with links := { s.links with firingDue := some .recovery } })

/-- Amendments and installations (R65-R72).  AMEND of a good image that releases nothing in use, while no die resets and no port trains, drains, with the losing partitions' steps then in flight; once these have ended Fence takes the
released resources out of the losing records' bounds, or ends with RES_IN_USE where one has come into use, the scrub zeroes them and clears their tallies, waiting while a die that holds some resets, and each gaining partition is granted at its own step
boundary; with the last the image's records are in force under its serial, logged, and its handle is done.  MOULD_INSTALL checks a full mould; writing it erases the fired slot's areas, and the image
stands there for the next firing; a suspended one not yet writing waits, as any does while no island is active, and a failed write raises 408; the two management messages do the same on the staged image. -/
def Obligations.MouldChanges : Prop :=
  (∀ (s : State) (q : Nat) (f : Forwarded) (v : Verdict), f.fn = 0 → bodyReserved f 26 = false → s.openHandles (.host f.fn f.sq f.cid) < 16 → s.op? s.host.nextHandle = none →
    s.srcOk (s.funcPart f.fn) (f.fld 16 6) (f.fld 22 4) 65536 = true →
    let b := s.readBytes (f.fld 16 6) (f.fld 22 4)
    let poison := s.meetsPoison .mint (f.fld 16 6) (f.fld 22 4)
    (s.Awaits q 0x03 f → s.amendBusy = false →
      (∀ c, s.checkImage b poison v true = .error c → ∃ u, exec (.amend q v) s = .next u ∧ u.mould.lastErr = c ∧ u.mould.amend = none ∧ (u.op? s.host.nextHandle).map (·.state) = some .done) ∧
      (∀ x, s.checkImage b poison v true = .ok x → s.amendBar x ≠ 0 → ∃ u, exec (.amend q v) s = .next u ∧ u.mould.lastErr = s.amendBar x ∧ u.mould.amend = none) ∧
      (∀ x, s.checkImage b poison v true = .ok x → s.amendBar x = 0 → ∃ u, exec (.amend q v) s = .next u ∧
        u.mould.amend = some { handle := s.host.nextHandle, image := x, step := .drain, waits := s.runsOf (s.losing x) } ∧ u.mould.parts = s.mould.parts ∧ (u.op? s.host.nextHandle).map (·.state) = some .running ∧
        u.host.due = ((s.taken q 0x03).answer f 0 s.host.nextHandle 0).host.due)) ∧
    (s.Awaits q 0x03 f → s.amendBusy = true → ∃ u, exec (.amend q v) s = .next u ∧ u.mould.lastErr = 0x0E ∧ u.mould.amend = s.mould.amend) ∧
    (s.Awaits q 0x06 f → s.installBusy = false → ∀ x, s.checkImage b poison v false = .ok x → ∃ u, exec (.mouldInstall q v) s = .next u ∧
      u.mould.install = some { handle := s.host.nextHandle, image := x } ∧ u.update = s.update ∧ u.mould.parts = s.mould.parts ∧ u.host.due = ((s.taken q 0x06).answer f 0 s.host.nextHandle 0).host.due)) ∧
  (∀ (s : State) (a : Amend), s.mould.amend = some a → a.suspended = false →
    (a.step = .drain → s.teller.held = false →
      (s.inFlight a.waits = [] → s.resInUse a.image = true → ∃ u, exec .amendFence s = .next u ∧ u.mould.amend = none ∧ u.mould.lastErr = 0x0D ∧ u.mould.parts = s.mould.parts ∧
        u = { s with mould := u.mould, host := u.host }) ∧
      (s.inFlight a.waits = [] → s.resInUse a.image = false → ∃ u, exec .amendFence s = .next u ∧
        u.mould.amend = some { a with step := .scrub, before := s.mould.parts, beforeWins := s.mould.wins, waits := [] } ∧
        (∀ e ∈ s.mould.parts, (e.1, e.2.fenced (s.amended a.image e.1).1) ∈ u.mould.parts) ∧
        (∀ e ∈ s.mould.wins, (e.1, e.2.fenced (s.amended a.image e.1).2) ∈ u.mould.wins) ∧ u = { s with mould := u.mould, mem := u.mem }) ∧
      (s.inFlight a.waits ≠ [] → exec .amendFence s = .next s)) ∧
    (a.step = .scrub → s.islands.noneActive = false → a.before = [] → ∃ u, exec .amendScrubDone s = .next u ∧
      u.mould.amend = some { a with step := .grant, waits := s.runsOf (s.gaining a.image) } ∧ u = { s with mould := u.mould }) ∧
    (∀ p o n, a.step = .scrub → s.islands.noneActive = false → a.before = [(p, o)] → s.part? p = some n →
      ((∀ d < 8, (s.die d).resetting = false) → ∃ u, exec .amendScrubDone s = .next u ∧
        u.mould.amend = some { a with step := .grant, waits := s.runsOf (s.gaining a.image) } ∧ (∀ k, lostUnit o.tally n.tally (k / 64) = true → u.tally k = 0) ∧
        (∀ i, lostUnit o.req n.req (i / 64) = true → u.request i = {} ∧ u.ring i = {}) ∧ (∀ k ∈ dramUnits o, n.dram.any (·.has k) = false → ∀ i < 0x4000000, u.readByte (k * 0x4000000 + i) = 0)) ∧
      (∀ k < 4, (s.die k).resetting = true → o.releasesAt n k false = true → exec .amendScrubDone s = .next s)) ∧
    (∀ o, a.step = .grant → s.teller.held = false → (∀ r ∈ s.inFlight a.waits, r.1 ∈ a.granted ∨ s.gaining a.image r.1 = false) → s.op? a.handle = some o → o.state = .running →
      o.forgotten = false → (s.slot s.mould.firedSlotB).amendLog.length < 256 → ∃ u, exec .amendGrant s = .next u ∧ u.mould.parts = overlay a.before a.image.parts ∧
        u.mould.wins = overlay a.beforeWins a.image.wins ∧ u.mould.serial = a.image.serial ∧ u.mould.amend = none ∧ u.ledger.highestSerial = max s.ledger.highestSerial a.image.serial ∧
        (u.slot s.mould.firedSlotB).amendLog = (s.slot s.mould.firedSlotB).amendLog ++ [a.image] ∧ (u.op? a.handle).map (·.state) = some .done) ∧
    (∀ r, a.step = .grant → s.teller.held = false → r ∈ s.inFlight a.waits → r.1 < 8 → r.1 ∉ a.granted → s.gaining a.image r.1 = true → ∃ u b, exec .amendGrant s = .next u ∧
      u.mould.amend = some b ∧ b.step = .grant ∧ b.image = a.image ∧ (∀ p ∈ a.granted, p ∈ b.granted) ∧ u.mould.serial = s.mould.serial ∧ u.part? r.1 = s.part? r.1 ∧
      u.update = s.update ∧ u.host = s.host)) ∧
  (∀ s : State, s.mould.amend = none → exec .amendFence s = .next s ∧ exec .amendScrubDone s = .next s ∧ exec .amendGrant s = .next s) ∧
  (∀ (s : State) (i : Install), s.mould.install = some i →
    let k := s.mould.firedSlotB
    (i.writing = false → s.opSuspended i.handle = true → ∀ ok, exec (.mouldInstallWriteDone ok) s = .next s) ∧
    (s.islands.noneActive = true → ∀ ok, exec (.mouldInstallWriteDone ok) s = .next s) ∧
    (i.writing = true ∨ s.opSuspended i.handle = false → s.islands.noneActive = false →
      (∃ u, exec (.mouldInstallWriteDone true) s = .next u ∧ (u.slot k).mould = some i.image ∧ (i.writing = false → (u.slot k).amendLog = [] ∧ (u.slot k).checkA = none ∧ (u.slot k).checkB = none) ∧
        u.slot (!k) = s.slot (!k) ∧ u.mould.installed = true ∧ u.mould.install = none ∧ u.ledger.highestSerial = max s.ledger.highestSerial i.image.serial ∧ u.mould.parts = s.mould.parts) ∧
      (∃ u, exec (.mouldInstallWriteDone false) s = .next u ∧ (i.writing = false → (u.slot k).mould = none ∧ (u.slot k).amendLog = []) ∧ u.slot (!k) = s.slot (!k) ∧
        u.mould.installed = s.mould.installed ∧ u.mould.install = none ∧ u.faults.raised = s.faults.raised ++ [{ source := 408 }]))) ∧
  (∀ (s : State) (h : MsgHdr) (n : Nat) (b : List Byte) (v : Verdict), Speaks s h n true → b.length = 4 → lfld b 0 4 ≤ 65536 → s.openHandles (s.peerOrigin n) < 4 → s.op? s.host.nextHandle = none →
    let image := s.staged (lfld b 0 4)
    (s.mould.amend.isSome = true → exec (.amendMsg h b v) s = .next ((s.heard n h).sendErr h 0x16 0x05 [])) ∧
    (∀ x, s.amendBusy = false → s.checkImage image false v true = .ok x → s.amendBar x = 0 → ∃ u, exec (.amendMsg h b v) s = .next u ∧
      u.mould.amend = some { handle := s.host.nextHandle, image := x, step := .drain, waits := s.runsOf (s.losing x) } ∧ u.sec.replies = s.sec.replies ++ [replyOf h 0x16 (toLE 4 s.host.nextHandle)]) ∧
    (∀ x, s.installBusy = false → s.checkImage image false v false = .ok x → ∃ u, exec (.mouldInstallMsg h b v) s = .next u ∧
      u.mould.install = some { handle := s.host.nextHandle, image := x } ∧ u.sec.replies = s.sec.replies ++ [replyOf h 0x1B (toLE 4 s.host.nextHandle)]))

/-- FIRING (R64, R510-R513, R525): whatever caused it, the firing is counted and every reset domain starts anew; where no slot's image verifies the module is in recovery; where no mould does it stops unfired;
otherwise it has fired from the slot chosen, which is VALID, with the records of its mould in force, every die ready, DRAM with inline ECC reading as zero, no request and no queue; with no
cause nothing happens. -/
def Obligations.FiringSequence : Prop :=
  (∀ (s : State) (r : FiringReads), s.firingCause = none → exec (.firing r) s = .next s) ∧
  (∀ (s : State) (r : FiringReads) (c : FiringCause), s.firingCause = some c → s.faults.testMode = false → ∃ u, exec (.firing r) s = .next u ∧ u.ledger.firingCount = s.ledger.firingCount + 1 ∧
    u.ledger.highestSerial = s.ledger.highestSerial ∧ (∀ i, u.request i = {}) ∧ (∀ q, u.sq q = {} ∧ u.cq q = {}) ∧ (∀ f, u.func f = {}) ∧ u.faults.testMode = false ∧
    (r.slotA.imageOk = false → r.slotB.imageOk = false → u.update.recovery = true ∧ u.mould.fired = false ∧ ∀ d < 10, u.die d = .inReset) ∧
    (∀ m, r.islandAOk = true → r.islandBOk = true → r.pufFailed = false → s.update.slotA.state = .valid → s.update.slotB.state = .empty → r.slotA.imageOk = true → s.update.slotA.mould = some m →
      s.update.slotA.checkA = none → s.update.slotA.checkB = none → s.update.slotA.amendLog = [] → s.mould.install = none →
      s.update.slotA.mouldCode ({ s with sec := { s.sec with idKey := identityKey } } : State).boundId s.ledger.highestSerial r.slotA.mould = 0 → r.badTiles = 0 → r.badChannels = 0 → r.lanes = [] →
      (∀ k < 4, ∃ i < 8, s.ledger.fenceTiles.getLsbD (8 * k + i) = false) →
      u.mould.fired = true ∧ u.update.runningB = false ∧ u.update.slotA.state = .valid ∧ u.update.recovery = false ∧ u.mould.parts = overlay [] m.parts ∧ u.mould.wins = overlay [] m.wins ∧
      u.mould.serial = m.serial ∧ u.mould.fallback = false ∧ (∀ d < 10, u.die d = .ready) ∧ u.teller.held = false ∧ u.islands.activeB = false ∧
      (u.mem.ecc = true → ∀ a < u.dramTop, u.readByte a = 0) ∧ u.host.linkTraining = !s.host.perstAsserted) ∧
    (r.pufFailed = false → s.update.slotA.state = .valid → s.update.slotB.state = .empty → r.slotA.imageOk = true → s.update.slotA.mould = none → s.update.slotB.mould = none →
      u.faults.mouldsFailed = true ∧ u.mould.fired = false ∧ ∀ d < 10, u.die d = .inReset))
end

