-- ==== Sys2Proof/Laws/Admission.lean ====
section
/-! SUPPORT.  What the shared gates of the rows answer: forwarded commands, management messages, register accesses. -/
namespace Sys2Proof.Machine
open Sys2Proof

/-! ## Forwarded commands (R279, R280, R301) -/

theorem onForwarded_awaits {s : State} {q op : Nat} {f : Forwarded} (h : s.Awaits q op f) (k : Forwarded → State → State) :
    onForwarded q op s k = k f (s.taken q op) := by
  unfold onForwarded State.taken
  rw [h.going, h.oldest]
  by_cases ht : tellerOp op = true
  · simp [ht, h.turn ht]
  · simp [ht]

theorem onForwarded_none {s : State} {q op : Nat} (h : s.forwardedAt q op = none) (k : Forwarded → State → State) : onForwarded q op s k = s := by
  unfold onForwarded
  rw [h]
  split <;> rfl

theorem onForwarded_held {s : State} (h : s.teller.held = true) (q op : Nat) (k : Forwarded → State → State) : onForwarded q op s k = s := by
  unfold onForwarded
  rw [if_pos h]

/-- A row of a forwarded command either finds none to act on, or acts on the queue's oldest. -/
theorem onForwarded_cases (s : State) (q op : Nat) (k : Forwarded → State → State) :
    onForwarded q op s k = s ∨ ∃ f, s.Awaits q op f ∧ onForwarded q op s k = k f (s.taken q op) := by
  by_cases hh : s.teller.held = true
  · exact .inl (onForwarded_held hh q op k)
  · cases hf : s.forwardedAt q op with
    | none => exact .inl (onForwarded_none hf k)
    | some f =>
      by_cases ht : tellerOp op = true → s.turn (s.sqPart q) = some q
      · have ha : s.Awaits q op f := ⟨by simpa using hh, hf, ht⟩
        exact .inr ⟨f, ha, onForwarded_awaits ha k⟩
      · left
        unfold onForwarded
        have h1 : tellerOp op = true := by
          apply Classical.byContradiction
          intro hc
          exact ht (fun h => absurd h hc)
        have h2 : ¬ s.turn (s.sqPart q) = some q := fun hc => ht (fun _ => hc)
        rw [if_neg hh, hf]
        simp only [h1, if_true, if_neg h2]

/-! ## Management messages (R501, R502) -/

theorem sessionMsg_speaks {s : State} {h : MsgHdr} {n : Nat} {admin : Bool} (hs : Speaks s h n admin) (typ : Nat) (k : Nat → State → State) :
    sessionMsg typ admin h true s k = k n (s.heard n h) := by
  unfold sessionMsg
  rw [hs.slot]
  have h1 : ¬ h.seq < (s.mgmt n).seqIn := Nat.not_lt.2 hs.fresh
  have h2 : (admin && !(s.mgmt n).admin) = false := by
    cases ha : admin
    · rfl
    · simp [hs.role ha]
  simp only [hs.tag, Bool.not_true, Bool.false_eq_true, if_false, h1, h2]
  rfl

theorem msgRow_up {s : State} (h : s.mgmtUp = true) (k : State → State) : msgRow s k = .next (k s) := by
  unfold msgRow
  rw [if_pos h]

theorem msgRow_down {s : State} (h : s.mgmtUp = false) (k : State → State) : msgRow s k = .next s := by
  unfold msgRow
  rw [if_neg (by simp [h])]

/-! ## Register accesses (R392-R397) -/

/-- A write that interrupts no dual write of its master in the block leaves the state (R397). -/
theorem failDual_none {s : State} {m : Master} {a : Nat} (h : ∀ b ∈ s.reg.dual, (b.master == m && b.block == addrBlock a) = false) :
    s.failDual m (addrBlock a) = s := by
  unfold State.failDual
  rw [List.find?_eq_none.2 (fun b hb => by simp [h b hb])]

theorem gate_open {s : State} {m : Master} (h : s.masterOpen m = true) (a : Nat) (w : Bool) (k : State → State) :
    s.gate m a w k = k (if w then s.failDual m (addrBlock a) else s) := by
  unfold State.gate
  cases m with
  | func f =>
    simp only [State.masterOpen, Bool.and_eq_true] at h
    simp [h.1, h.2]
  | peer n =>
    simp only [State.masterOpen] at h
    simp [h]
  | island b => rfl
  | ohmis => rfl
  | mint => rfl

theorem not_standby {s : State} {m : Master} (h : s.masterOpen m = true) : s.isStandby m = false := by
  cases m <;> simp_all [State.masterOpen, State.isStandby]

/-- A write that reaches its register with nothing armed goes to the guard, or straight to the register. -/
theorem writeReg_reaches {s : State} {x : RegAccess} {r : Reg} {a : Nat} (h : Reaches s x r) (ha : locAddr x.loc = some a) :
    ∃ hi, locate a x.wide = some (r, hi) ∧ s.writeReg x = match r.group with
      | some g => s.guarded x a g r
      | none => s.applyWrite x.master a r (writeHalf r hi x.wide (s.regValue x.master r) (accVal x).toNat) := by
  have hr := h.reg
  simp only [accReg?, ha, Option.bind_some] at hr
  cases hl : locate a x.wide with
  | none => simp [hl] at hr
  | some p =>
    obtain ⟨r', hi⟩ := p
    simp only [hl, Option.map_some, Option.some.injEq] at hr
    subst hr
    refine ⟨hi, rfl, ?_⟩
    have hlog : s.logAddr x.loc = (a, s) := by unfold State.logAddr; rw [ha]
    have hd : s.failDual x.master (addrBlock a) = s := failDual_none (fun b hb => by simp [h.noDual b hb])
    unfold State.writeReg
    simp only [h.fits, hlog, not_standby h.path, gate_open h.path, hd, ite_self, spoiled, h.clean, h.noPair, Bool.not_true, Bool.false_eq_true, if_false, Bool.false_and]
    unfold State.plainWrite
    simp only [ha, h.up a ha, hl, h.may, Option.isSome_some, Bool.and_self, if_true, Bool.not_true, Bool.false_eq_true, if_false]
    all_goals (cases r'.group <;> rfl)

/-- A guarded register of 32 bits takes the value of a write that passes its guard. -/
theorem writeReg_passes {s : State} {x : RegAccess} {r : Reg} {a g : Nat} (h : Passes s x r) (ha : locAddr x.loc = some a) (hg : r.group = some g) :
    s.writeReg x = s.applyWrite x.master a r (accVal x).toNat := by
  obtain ⟨hi, _, hw⟩ := writeReg_reaches h.toReaches ha
  rw [hw, hg]
  have hf : s.failPair x.master (addrBlock a) = s := by
    unfold State.failPair
    rw [h.noPair]
  simp only [State.guarded, hf, h.mode g hg, h.priv, Bool.false_eq_true, if_false, if_true]

/-- With the group in PRIV, a master without privilege changes no register: the write is dropped, logged and a fault (R394). -/
theorem writeReg_priv {s : State} {x : RegAccess} {r : Reg} {a g : Nat} (h : Reaches s x r) (ha : locAddr x.loc = some a) (hg : r.group = some g)
    (hm : s.pairMode g = false) (hp : s.privileged x.master = false) : s.writeReg x = (s.guardFail x.master a causePriv).reply .dropped := by
  obtain ⟨hi, _, hw⟩ := writeReg_reaches h ha
  rw [hw, hg]
  have hf : s.failPair x.master (addrBlock a) = s := by
    unfold State.failPair
    rw [h.noPair]
  simp only [State.guarded, hf, hm, hp, Bool.false_eq_true, if_false]

end Sys2Proof.Machine
end

