-- ==== Sys2Proof/Laws/Store.lean ====
section
/-! SUPPORT.  Laws of the sparse tables: a read after a write, and the canonical form that every write keeps. -/
namespace Sys2Proof.Machine
open Sys2Proof

variable {α : Type}

@[simp] theorem sget_nil (d : α) (k : Nat) : sget d [] k = d := rfl

theorem sget_cons (d : α) (k' k : Nat) (v : α) (r : Store α) : sget d ((k', v) :: r) k = if k' = k then v else sget d r k := rfl

theorem sget_sins_same (d : α) (m : Store α) (k : Nat) (v : α) : sget d (sins m k v) k = v := by
  induction m with
  | nil => simp [sins, sget_cons]
  | cons e r ih =>
    obtain ⟨k', v'⟩ := e
    unfold sins
    split
    · simp [sget_cons]
    · split
      · simp [sget_cons]
      · next h => rw [sget_cons, if_neg (fun h' => h h'.symm), ih]

theorem sget_sins_ne (d : α) (m : Store α) {k j : Nat} (v : α) (h : j ≠ k) : sget d (sins m k v) j = sget d m j := by
  induction m with
  | nil => simp [sins, sget_cons, Ne.symm h]
  | cons e r ih =>
    obtain ⟨k', v'⟩ := e
    unfold sins
    split
    · simp [sget_cons, Ne.symm h]
    · split
      · next h' => subst h'; simp [sget_cons, Ne.symm h]
      · simp [sget_cons, ih]

theorem sget_filter_ne (d : α) (m : Store α) {k j : Nat} (h : j ≠ k) : sget d (m.filter (fun e => e.1 ≠ k)) j = sget d m j := by
  induction m with
  | nil => rfl
  | cons e r ih =>
    obtain ⟨k', v'⟩ := e
    by_cases hk : k' = k
    · subst hk; simp_all [List.filter_cons, sget_cons, Ne.symm h]
    · simp_all [List.filter_cons, sget_cons]

theorem sget_filter_same (d : α) (m : Store α) (k : Nat) : sget d (m.filter (fun e => e.1 ≠ k)) k = d := by
  induction m with
  | nil => rfl
  | cons e r ih =>
    obtain ⟨k', v'⟩ := e
    by_cases hk : k' = k
    · subst hk; simp_all [List.filter_cons]
    · simp_all [List.filter_cons, sget_cons]

/-- A read after a write to the same key gives the value written. -/
@[simp] theorem sget_sset_same [DecidableEq α] (d : α) (m : Store α) (k : Nat) (v : α) : sget d (sset d m k v) k = v := by
  unfold sset
  split
  · next h => rw [sget_filter_same, h]
  · exact sget_sins_same d m k v

/-- A write leaves every other key alone. -/
theorem sget_sset_ne [DecidableEq α] (d : α) (m : Store α) {k j : Nat} (v : α) (h : j ≠ k) : sget d (sset d m k v) j = sget d m j := by
  unfold sset
  split
  · exact sget_filter_ne d m h
  · exact sget_sins_ne d m v h

theorem sget_sset [DecidableEq α] (d : α) (m : Store α) (k j : Nat) (v : α) :
    sget d (sset d m k v) j = if j = k then v else sget d m j := by
  split
  · next h => subst h; simp
  · next h => exact sget_sset_ne d m v h

/-- The canonical form, as keys that rise strictly and values that are not the default. -/
theorem swf_iff [DecidableEq α] (d : α) (m : Store α) : swf d m = true ↔ m.Pairwise (fun a b => a.1 < b.1) ∧ ∀ e ∈ m, e.2 ≠ d := by
  induction m with
  | nil => simp [swf]
  | cons e r ih =>
    obtain ⟨k, v⟩ := e
    cases r with
    | nil => simp [swf]
    | cons e' r' =>
      obtain ⟨k', v'⟩ := e'
      simp only [swf, Bool.and_eq_true, decide_eq_true_eq, ih]
      constructor
      · rintro ⟨⟨hk, hv⟩, hp, hd⟩
        refine ⟨List.pairwise_cons.2 ⟨?_, hp⟩, ?_⟩
        · intro a ha
          rcases List.mem_cons.1 ha with rfl | ha
          · exact hk
          · exact Nat.lt_trans hk ((List.pairwise_cons.1 hp).1 a ha)
        · intro a ha
          rcases List.mem_cons.1 ha with rfl | ha
          · exact hv
          · exact hd a ha
      · rintro ⟨hp, hd⟩
        have h := List.pairwise_cons.1 hp
        exact ⟨⟨h.1 _ (List.mem_cons_self ..), hd _ (List.mem_cons_self ..)⟩, h.2, fun a ha => hd a (List.mem_cons_of_mem _ ha)⟩

theorem swf_filter [DecidableEq α] (d : α) (m : Store α) (p : Nat × α → Bool) (h : swf d m = true) : swf d (m.filter p) = true := by
  rw [swf_iff] at h ⊢
  exact ⟨h.1.filter p, fun e he => h.2 e (List.mem_filter.1 he).1⟩

theorem mem_sins {m : Store α} {k : Nat} {v : α} {e : Nat × α} (h : e ∈ sins m k v) : e = (k, v) ∨ e ∈ m := by
  induction m with
  | nil => simp [sins] at h; exact .inl h
  | cons a r ih =>
    obtain ⟨k', v'⟩ := a
    unfold sins at h
    split at h
    · simpa using h
    · split at h
      · rcases List.mem_cons.1 h with h | h
        · exact .inl h
        · exact .inr (List.mem_cons_of_mem _ h)
      · rcases List.mem_cons.1 h with h | h
        · exact .inr (by simp [h])
        · rcases ih h with h | h
          · exact .inl h
          · exact .inr (List.mem_cons_of_mem _ h)

theorem swf_sins [DecidableEq α] (d : α) (m : Store α) (k : Nat) (v : α) (hv : v ≠ d) (h : swf d m = true) :
    swf d (sins m k v) = true := by
  rw [swf_iff] at h ⊢
  induction m with
  | nil => simp [sins, hv]
  | cons a r ih =>
    obtain ⟨k', v'⟩ := a
    obtain ⟨hp, hd⟩ := h
    have hc := List.pairwise_cons.1 hp
    have hr := ih ⟨hc.2, fun e he => hd e (List.mem_cons_of_mem _ he)⟩
    unfold sins
    split
    · next hlt =>
      refine ⟨List.pairwise_cons.2 ⟨fun a ha => ?_, hp⟩, fun e he => ?_⟩
      · rcases List.mem_cons.1 ha with rfl | ha
        · exact hlt
        · exact Nat.lt_trans hlt (hc.1 a ha)
      · rcases List.mem_cons.1 he with rfl | he
        · exact hv
        · exact hd e he
    · next hlt =>
      split
      · next heq =>
        subst heq
        refine ⟨List.pairwise_cons.2 ⟨hc.1, hc.2⟩, fun e he => ?_⟩
        rcases List.mem_cons.1 he with rfl | he
        · exact hv
        · exact hd e (List.mem_cons_of_mem _ he)
      · next hne =>
        refine ⟨List.pairwise_cons.2 ⟨fun a ha => ?_, hr.1⟩, fun e he => ?_⟩
        · rcases mem_sins ha with rfl | ha
          · exact Nat.lt_of_le_of_ne (Nat.le_of_not_lt hlt) (fun h => hne h.symm)
          · exact hc.1 a ha
        · rcases List.mem_cons.1 he with rfl | he
          · exact hd _ (List.mem_cons_self ..)
          · exact hr.2 e he

/-- Every write keeps the canonical form. -/
theorem swf_sset [DecidableEq α] (d : α) (m : Store α) (k : Nat) (v : α) (h : swf d m = true) : swf d (sset d m k v) = true := by
  unfold sset
  split
  · exact swf_filter d m _ h
  · next hv => exact swf_sins d m k v hv h

theorem mem_sset [DecidableEq α] {d : α} {m : Store α} {k : Nat} {v : α} {e : Nat × α} (h : e ∈ sset d m k v) : e = (k, v) ∨ e ∈ m := by
  unfold sset at h
  split at h
  · exact .inr (List.mem_filter.1 h).1
  · exact mem_sins h

/-- What a table holds is its default or a listed value. -/
theorem sget_mem (d : α) (m : Store α) (k : Nat) : sget d m k = d ∨ (k, sget d m k) ∈ m := by
  induction m with
  | nil => exact .inl rfl
  | cons e r ih =>
    obtain ⟨k', v'⟩ := e
    rw [sget_cons]
    split
    · next h => subst h; exact .inr (List.mem_cons_self ..)
    · rcases ih with h | h
      · exact .inl h
      · exact .inr (List.mem_cons_of_mem _ h)

end Sys2Proof.Machine
end

