-- ==== Sys2Proof/Laws/Coherence.lean ====
section
/-! SUPPORT.  What the coherence operations can do to a state: they move directory states, cached copies, counts and poison, and raise
faults; no byte of memory, and nothing else, changes. -/
namespace Sys2Proof.Machine
open Sys2Proof

/-- `t` is `s` after coherence traffic: the same bytes, and everything else but the directory, the remote caches, the vaults' counts, poison
and the faults raised. -/
structure Coh (s t : State) : Prop where
  rest : t = { s with mem := t.mem, faults := { s.faults with raised := t.faults.raised } }
  mem : t.mem = { s.mem with poison := t.mem.poison, dir := t.mem.dir, exports := t.mem.exports, hearths := t.mem.hearths, vaults := t.mem.vaults }
  wf : swf false s.mem.poison = true → swf false t.mem.poison = true

namespace Coh

theorem refl (s : State) : Coh s s := ⟨rfl, rfl, id⟩

theorem trans {s t u : State} (h : Coh s t) (g : Coh t u) : Coh s u where
  rest := by
    have hr := h.rest
    rw [hr] at g
    simpa using g.rest
  mem := by
    have hm := h.mem
    have gm := g.mem
    rw [hm] at gm
    simpa using gm
  wf := fun x => g.wf (h.wf x)

variable {s t : State} (h : Coh s t)
include h

theorem setHearth (k : Nat) (x : Hearth) : Coh s (t.setHearth k x) := h.trans ⟨rfl, rfl, id⟩
theorem setVault (k : Nat) (x : Vault) : Coh s (t.setVault k x) := h.trans ⟨rfl, rfl, id⟩
theorem raise (f : FaultReq) : Coh s (t.raise f) := h.trans ⟨rfl, rfl, id⟩
theorem setDir (l d : Nat) : Coh s (t.setDir l d) := h.trans ⟨rfl, rfl, id⟩
theorem setPoison (l : Nat) (v : Bool) : Coh s { t with mem := t.mem.setPoison l v } :=
  h.trans ⟨rfl, rfl, fun w => swf_sset false t.mem.poison l v w⟩

theorem poisonLine (l c : Nat) : Coh s (t.poisonLine l c) := by
  unfold State.poisonLine
  simp only []
  split
  · exact (h.setPoison l true).setVault _ _
  · exact h.setPoison l true
theorem eccEvent (l : Nat) (e : EccEvent) : Coh s (t.eccEvent l e) := by
  unfold State.eccEvent
  split
  · exact h
  · exact h
  · split
    · exact h
    · exact (h.setVault _ _).raise _
  · exact (h.setHearth _ _).raise _
  · split
    · exact h
    · exact (h.poisonLine _ _).raise _
  · exact ((h.setHearth _ _).poisonLine _ _).raise _
theorem wroteBack (l : Nat) (c : RcLine) : Coh s (t.wroteBack l c) := by
  unfold State.wroteBack
  split
  · exact h.setPoison l false
  · exact h
theorem dropCopy (k l : Nat) : Coh s (t.dropCopy k l) := by
  unfold State.dropCopy
  split
  · exact h
  · simp only []
    have h1 := (h.setHearth k ((t.hearth k).setLine l none)).wroteBack l ‹RcLine›
    split
    · exact h1.setDir _ _
    · split
      · split
        · exact h1.setDir _ _
        · exact h1
      · exact h1.setDir _ _
theorem hit (k l : Nat) : Coh s (t.hit k l) := by
  unfold State.hit
  simp only []
  split
  · exact h
  · exact h.setHearth _ _
theorem fill (k l p : Nat) (d b : Bool) : Coh s (t.fill k l p d b) := by
  unfold State.fill
  simp only []
  split
  · exact h.setHearth _ _
  · split
    · exact h.setHearth _ _
    · split
      · exact h
      · exact (h.dropCopy _ _).setHearth _ _
theorem lostOwner (l o : Nat) : Coh s (t.lostOwner l o) := (h.poisonLine _ _).raise _
theorem recalled (m : Home) (l o : Nat) (k : Bool) : Coh s (t.recall m l o k) := by
  unfold State.recall
  split
  · exact ((h.setHearth _ _).wroteBack _ _).setDir _ _
  · exact (h.lostOwner _ _).setDir _ _
theorem dirRead (l : Nat) (m : Home) : Coh s (t.dirRead l m).2 := by
  unfold State.dirRead
  simp only []
  split
  · exact h
  · exact h.raise _

omit h in
theorem foldl {α : Type} (f : State → α → State) (hf : ∀ s t a, Coh s t → Coh s (f t a)) (l : List α) :
    ∀ {s t : State}, Coh s t → Coh s (l.foldl f t) := by
  induction l with
  | nil => exact fun h => h
  | cons a r ih => exact fun h => ih (hf _ _ a h)

theorem invalidateOthers (m : Home) (l k : Nat) : Coh s (t.invalidateOthers m l k) :=
  foldl _ (fun s t a h => by split; exacts [h, h.dropCopy _ _]) _ h
theorem snoop (m : Home) (l k : Nat) : Coh s (t.snoop m l k) :=
  foldl _ (fun s t a h => by
    split
    · exact h
    · split
      · split
        · exact (h.setHearth _ _).wroteBack _ _
        · exact h
      · exact h) _ h

theorem readMiss (k l p : Nat) (e : EccEvent) : Coh s (readMiss t k l p e) := by
  unfold Sys2Proof.Machine.readMiss
  split
  · exact h
  · split
    · exact h.fill _ _ _ _ _
    · simp only []
      split
      · refine (Coh.setDir ?_ _ _).fill _ _ _ _ _
        have h1 := (h.eccEvent l e).dirRead l ‹Home›
        split
        · split
          · exact (h1.lostOwner _ _).setDir _ _
          · exact h1.recalled _ _ _ _
        · exact h1
      · exact ((h.eccEvent l e).snoop _ _ _).fill _ _ _ _ _
theorem ownershipRequest (k l p : Nat) (w : Bool) (e : EccEvent) : Coh s (ownershipRequest t k l p w e) := by
  unfold Sys2Proof.Machine.ownershipRequest
  split
  · exact h
  · split
    · exact h
    · simp only []
      refine Coh.fill ?_ _ _ _ _ _
      have h0 : Coh s (if (w || ((t.hearth k).line l).isSome) = true then t else t.eccEvent l e) := by split; exacts [h, h.eccEvent _ _]
      generalize (if (w || ((t.hearth k).line l).isSome) = true then t else t.eccEvent l e) = t0 at h0 ⊢
      split
      · refine (Coh.invalidateOthers ?_ _ _ _).setDir _ _
        have h1 := h0.dirRead l ‹Home›
        split
        · split
          · split
            · exact h1
            · exact h1.lostOwner _ _
          · exact h1.recalled _ _ _ _
        · exact h1
      · exact h0.invalidateOthers _ _ _
theorem homeSide (l : Nat) (w : Bool) : Coh s (homeSide t l w) := by
  unfold Sys2Proof.Machine.homeSide
  split
  · exact h
  · split
    · exact h
    · simp only []
      have h1 := h.dirRead l ‹Home›
      split
      · split
        · refine (Coh.invalidateOthers ?_ _ _ _).setDir _ _
          split
          · exact h1.lostOwner _ _
          · exact h1
        · split
          · exact h1.recalled _ _ _ _
          · exact h1.setDir _ _
      · split
        · exact h.invalidateOthers _ _ _
        · exact h.snoop _ _ _
/-- An error of a cached line is such traffic where its line can be poisoned; else it may free the line's bytes (R185). -/
theorem rcError (k l p : Nat) (e : EccEvent) (hp : ∀ u : State, u.mem.ecc = t.mem.ecc → u.poisonable l = true) : Coh s (rcError t k l p e) := by
  unfold Sys2Proof.Machine.rcError
  split
  · exact h
  · exact h.hit _ _
  · exact ((h.setHearth _ _).raise _).hit _ _
  · simp only []
    split
    · refine Coh.raise ?_ _
      have h1 := (h.setHearth k { t.hearth k with ueCount := satAdd (2 ^ 32 - 1) (t.hearth k).ueCount 1 }).dropCopy k l
      split
      · exact h1.poisonLine _ _
      · next hn => exact absurd (hp _ (by
          have hd := (((refl t).setHearth k { t.hearth k with ueCount := satAdd (2 ^ 32 - 1) (t.hearth k).ueCount 1 }).dropCopy k l).mem
          rw [hd])) hn
    · exact (((h.setHearth _ _).dropCopy _ _).readMiss _ _ _ _).raise _
theorem homeRange (a n : Nat) (w : Bool) : Coh s (t.homeRange a n w) := foldl _ (fun _ _ _ h => h.homeSide _ _) _ h
theorem readLine (k p l : Nat) : Coh s (t.readLine k p l) := by
  unfold State.readLine
  split
  · exact h.homeSide _ _
  · split
    · exact h.hit _ _
    · exact h.readMiss _ _ _ _
theorem writeLine (k p l : Nat) (w : Bool) : Coh s (t.writeLine k p l w) := by
  unfold State.writeLine
  split
  · exact h.homeSide _ _
  · split
    · simp only []
      have h1 : Coh s (if ((‹RcLine› : RcLine).dirty || (‹RcLine› : RcLine).poisoned && !w) = true then t.hit k l else Sys2Proof.Machine.ownershipRequest t k l p w .clean) := by
        split
        · exact h.hit _ _
        · exact h.ownershipRequest _ _ _ _ _
      split
      · split
        · exact h1.setHearth _ _
        · exact h1
      · exact h1
    · exact h.ownershipRequest _ _ _ _ _
theorem fetch (g : Agent) (a n : Nat) : Coh s (t.fetch g a n) := by
  unfold State.fetch
  split
  · exact foldl _ (fun _ _ _ h => h.readLine _ _ _) _ h
  · exact foldl _ (fun _ _ _ h => h.homeSide _ _) _ h
  · exact h.homeRange _ _ _
theorem fetchAll (g : Agent) (l : List (Nat × Nat)) : Coh s (t.fetchAll g l) := foldl _ (fun _ _ _ h => h.fetch _ _ _) _ h
theorem claim (g : Agent) (a n : Nat) : Coh s (t.claim g a n) := by
  unfold State.claim
  split
  · exact foldl _ (fun _ _ _ h => by split; exacts [h, h.writeLine _ _ _ _]) _ h
  · exact h.homeRange _ _ _

omit h
/-- Coherence traffic changes no byte. -/
theorem readByte {s t : State} (h : Coh s t) (x : Nat) : t.readByte x = s.readByte x := by
  rw [State.readByte, State.readByte, h.mem]
  rfl
/-- It changes no state outside memory and the faults raised. -/
theorem tiles {s t : State} (h : Coh s t) : t.tiles = s.tiles := by rw [h.rest]
theorem host {s t : State} (h : Coh s t) : t.host = s.host := by rw [h.rest]
theorem teller {s t : State} (h : Coh s t) : t.teller = s.teller := by rw [h.rest]
theorem wheels {s t : State} (h : Coh s t) : t.wheels = s.wheels := by rw [h.rest]
theorem reg {s t : State} (h : Coh s t) : t.reg = s.reg := by rw [h.rest]
theorem queues {s t : State} (h : Coh s t) : t.faults.queues = s.faults.queues := by rw [h.rest]
theorem tallies {s t : State} (h : Coh s t) : t.mem.tallies = s.mem.tallies := by rw [h.mem]
theorem signals {s t : State} (h : Coh s t) : t.mem.signals = s.mem.signals := by rw [h.mem]

end Coh
end Sys2Proof.Machine
end

