-- ==== Sys2Proof/Laws/Memory.lean ====
section
/-! SUPPORT.  Laws of memory: every operation keeps the canonical form, and what a byte reads as after a write. -/
namespace Sys2Proof.Machine
open Sys2Proof

/-! ## The canonical form -/

theorem Memory.wf_iff (m : MemState) : Memory.wf m = true ↔ swf 0 m.bytes = true ∧ swf false m.poison = true := by simp [Memory.wf]

theorem Memory.wf_writeByte (m : MemState) (a : Nat) (b : Byte) (h : Memory.wf m = true) : Memory.wf (m.writeByte a b) = true := by
  rw [Memory.wf_iff] at h ⊢
  exact ⟨swf_sset 0 m.bytes a b h.1, h.2⟩

theorem Memory.wf_writeBytes (m : MemState) (a : Nat) (bs : List Byte) (h : Memory.wf m = true) : Memory.wf (m.writeBytes a bs) = true := by
  induction bs generalizing m a with
  | nil => exact h
  | cons b r ih => exact ih _ _ (Memory.wf_writeByte m a b h)

theorem Memory.wf_setPoison (m : MemState) (l : Nat) (v : Bool) (h : Memory.wf m = true) : Memory.wf (m.setPoison l v) = true := by
  rw [Memory.wf_iff] at h ⊢
  exact ⟨h.1, swf_sset false m.poison l v h.2⟩

theorem Memory.wf_store (skip held : Nat → Bool) (fuel : Nat) (m : MemState) (a : Nat) (bs : List Byte) (h : Memory.wf m = true) :
    Memory.wf (MemState.store skip held fuel m a bs).1 = true := by
  induction fuel generalizing m a bs with
  | zero => exact h
  | succ n ih =>
    unfold MemState.store
    split
    · exact h
    · apply ih
      split
      · exact h
      · split
        · exact Memory.wf_setPoison _ _ _ (Memory.wf_writeBytes _ _ _ h)
        · exact Memory.wf_writeBytes _ _ _ h

theorem Memory.wf_coh {s t : State} (h : Coh s t) (hw : Memory.wf s.mem = true) : Memory.wf t.mem = true := by
  rw [Memory.wf_iff] at hw ⊢
  exact ⟨by rw [h.mem]; exact hw.1, h.wf hw.2⟩

theorem Memory.wf_put (s : State) (g : Agent) (a : Nat) (bs : List Byte) (h : Memory.wf s.mem = true) : Memory.wf (s.put g a bs).mem = true :=
  Memory.wf_store _ _ _ _ _ _ (Memory.wf_coh ((Coh.refl s).claim g a bs.length) h)

theorem Memory.wf_guardStore (s : State) (g : Agent) (p a : Nat) (bs : List Byte) (h : Memory.wf s.mem = true) :
    Memory.wf (s.guardStore g p a bs).1.mem = true := by
  unfold State.guardStore
  split
  · unfold State.boundsFault
    split <;> exact h
  · exact Memory.wf_put s g a bs h

theorem Memory.wf_zero (s : State) (a n : Nat) (h : Memory.wf s.mem = true) : Memory.wf (s.zero a n).mem = true := by
  rw [Memory.wf_iff] at h ⊢
  exact ⟨swf_filter 0 _ _ h.1, swf_filter false _ _ h.2⟩

theorem Memory.wf_undefine (s : State) (j : Junk) (h : Memory.wf s.mem = true) : Memory.wf (s.undefine j).mem = true := by
  unfold State.undefine
  split
  · exact h
  · rw [Memory.wf_iff] at h ⊢
    exact ⟨swf_filter 0 _ _ h.1, h.2⟩

theorem Memory.wf_freeBytes (s : State) (a n : Nat) (h : Memory.wf s.mem = true) : Memory.wf (s.freeBytes a n).mem = true :=
  Memory.wf_undefine _ _ h

theorem Memory.wf_reset : Memory.wf State.reset.mem = true := by decide

/-! ## Reads after writes -/

/-- Taking bytes from `a` out of an undefined range leaves a range of the same tag over every other byte it covered. -/
theorem Junk.without_find_out (j : Junk) (a n x : Nat) (hx : x < a ∨ a + n ≤ x) :
    ((j.without a n).find? (fun k => k.covers x)).map (·.tag) = if j.covers x = true then some j.tag else none := by
  unfold Junk.without
  split
  · simp only [Junk.covers, List.filter_cons, List.filter_nil, decide_eq_true_eq, Bool.and_eq_true]
    split <;> split <;> simp only [List.find?_cons, List.find?_nil] <;> split <;> try split
    all_goals simp_all
    all_goals omega
  · by_cases h : j.covers x = true <;> simp [h]

theorem Junk.without_find_in (j : Junk) (a n x : Nat) (hx : a ≤ x ∧ x < a + n) : (j.without a n).find? (fun k => k.covers x) = none := by
  rw [List.find?_eq_none]
  intro k hk
  unfold Junk.without at hk
  split at hk
  · have := (List.mem_filter.1 hk).1
    simp only [List.mem_cons, List.not_mem_nil, or_false] at this
    rcases this with rfl | rfl <;> simp [Junk.covers] <;> omega
  · simp only [List.mem_singleton] at hk
    subst hk
    simp [Junk.covers]
    omega

/-- The tag of the undefined range that a byte is read from, where one covers it. -/
def MemState.junkTag (m : MemState) (x : Nat) : Option Nat := (m.junk.find? (fun j => j.covers x)).map (·.tag)

theorem MemState.readByte_eq (m : MemState) (x : Nat) : m.readByte x = match m.junkTag x with
    | some t => Config.freeByte t x
    | none => sget 0 m.bytes x := by
  unfold MemState.readByte MemState.junkTag
  cases m.junk.find? (fun j => j.covers x) <;> rfl

theorem junk_without (l : List Junk) (a n x : Nat) :
    ((l.flatMap (fun j => j.without a n)).find? (fun j => j.covers x)).map (·.tag) =
      if a ≤ x ∧ x < a + n then none else (l.find? (fun j => j.covers x)).map (·.tag) := by
  induction l with
  | nil => simp
  | cons j r ih =>
    rw [List.flatMap_cons, List.find?_append]
    split
    · next h =>
      rw [if_pos h] at ih
      simpa [Junk.without_find_in j a n x h] using ih
    · next h =>
      rw [if_neg h] at ih
      have h' : x < a ∨ a + n ≤ x := by omega
      have hj := Junk.without_find_out j a n x h'
      cases hc : (j.without a n).find? (fun k => k.covers x) with
      | none =>
        rw [hc] at hj
        have : ¬ j.covers x = true := by intro hh; simp [hh] at hj
        simpa [List.find?_cons, this] using ih
      | some k =>
        rw [hc] at hj
        by_cases hh : j.covers x = true
        · simpa [List.find?_cons, hh] using hj
        · simp [hh] at hj

/-- A byte written reads as written, and every other byte as before. -/
theorem MemState.readByte_writeByte (m : MemState) (a x : Nat) (b : Byte) :
    (m.writeByte a b).readByte x = if x = a then b else m.readByte x := by
  rw [MemState.readByte_eq, MemState.readByte_eq m x]
  have hj : (m.writeByte a b).junkTag x = if a ≤ x ∧ x < a + 1 then none else m.junkTag x := junk_without m.junk a 1 x
  rw [hj]
  by_cases h : x = a
  · subst h
    simp [MemState.writeByte]
  · have : ¬ (a ≤ x ∧ x < a + 1) := by omega
    rw [if_neg this, if_neg h]
    cases m.junkTag x with
    | none => simp [MemState.writeByte, sget_sset_ne _ _ _ h]
    | some t => rfl

/-- Bytes written read as written, and every other byte as before. -/
theorem MemState.readByte_writeBytes (m : MemState) (a x : Nat) (bs : List Byte) :
    (m.writeBytes a bs).readByte x = if a ≤ x ∧ x < a + bs.length then bs.getD (x - a) 0 else m.readByte x := by
  induction bs generalizing m a with
  | nil =>
    have : ¬ (a ≤ x ∧ x < a + 0) := by omega
    simp only [MemState.writeBytes, List.length_nil, if_neg this]
  | cons b r ih =>
    rw [MemState.writeBytes, ih, MemState.readByte_writeByte]
    by_cases h : x = a
    · subst h
      simp
    · by_cases h2 : a + 1 ≤ x ∧ x < a + 1 + r.length
      · have h3 : a ≤ x ∧ x < a + (b :: r).length := by simp only [List.length_cons]; omega
        rw [if_pos h2, if_pos h3]
        have : x - a = (x - (a + 1)) + 1 := by omega
        rw [this, List.getD_cons_succ]
      · have h3 : ¬ (a ≤ x ∧ x < a + (b :: r).length) := by simp only [List.length_cons]; omega
        rw [if_neg h2, if_neg h3, if_neg h]

/-- Zeroed bytes read as zero, and every other byte as before (R207). -/
theorem State.readByte_zero (s : State) (a n x : Nat) :
    (s.zero a n).readByte x = if a ≤ x ∧ x < a + n then 0 else s.readByte x := by
  unfold State.readByte
  rw [MemState.readByte_eq, MemState.readByte_eq s.mem x]
  have hj : (s.zero a n).mem.junkTag x = if a ≤ x ∧ x < a + n then none else s.mem.junkTag x := junk_without s.mem.junk a n x
  rw [hj]
  have hb : sget 0 (s.zero a n).mem.bytes x = if a ≤ x ∧ x < a + n then 0 else sget 0 s.mem.bytes x := by
    show sget 0 (s.mem.bytes.filter _) x = _
    induction s.mem.bytes with
    | nil => simp
    | cons e r ih =>
      obtain ⟨k, v⟩ := e
      by_cases hk : a ≤ k ∧ k < a + n
      · rw [List.filter_cons_of_neg (by simpa using hk), ih, sget_cons]
        by_cases hx : k = x
        · subst hx; simp [hk]
        · simp [hx]
      · rw [List.filter_cons_of_pos (by simp; omega), sget_cons, ih, sget_cons]
        by_cases hx : k = x
        · subst hx; simp [hk]
        · simp [hx]
  rw [hb]
  by_cases h : a ≤ x ∧ x < a + n
  · simp [h]
  · simp only [if_neg h]

/-- An undefined range changes no byte outside it. -/
theorem State.readByte_undefine (s : State) (j : Junk) (x : Nat) (h : j.covers x = false) : (s.undefine j).readByte x = s.readByte x := by
  unfold State.undefine
  split
  · rfl
  · have hc : Junk.covers { j with tag := s.free } x = false := h
    have hb : sget 0 (s.mem.bytes.filter (fun e => !j.covers e.1)) x = sget 0 s.mem.bytes x := by
      induction s.mem.bytes with
      | nil => rfl
      | cons e r ih =>
        obtain ⟨k, v⟩ := e
        by_cases hk : j.covers k = true
        · rw [List.filter_cons_of_neg (by simp [hk]), ih, sget_cons, if_neg]
          intro hx
          subst hx
          rw [h] at hk
          cases hk
        · rw [List.filter_cons_of_pos (by simpa using hk), sget_cons, ih, sget_cons]
    simp only [State.readByte, MemState.readByte, List.find?_cons, hc, hb]

/-! ## Stores (R183) -/

theorem MemState.poisoned_writeBytes (m : MemState) (a l : Nat) (bs : List Byte) : (m.writeBytes a bs).poisoned l = m.poisoned l := by
  induction bs generalizing m a with
  | nil => rfl
  | cons b r ih => exact ih _ _

theorem MemState.readByte_setPoison (m : MemState) (l x : Nat) (v : Bool) : (m.setPoison l v).readByte x = m.readByte x := rfl

theorem MemState.poisoned_setPoison (m : MemState) (l k : Nat) (v : Bool) : (m.setPoison l v).poisoned k = if k = l then v else m.poisoned k :=
  sget_sset false m.poison l k v

/-- A store that meets no line held poisoned and none it must skip writes its bytes and nothing else, and does not answer that it met one. -/
theorem MemState.store_clean (skip held : Nat → Bool) (fuel : Nat) (m : MemState) (a x : Nat) (bs : List Byte) (hf : bs.length + a % 64 ≤ 64 * fuel)
    (hp : ∀ l, a / 64 ≤ l → l * 64 < a + bs.length → held l = false ∧ skip l = false) :
    (MemState.store skip held fuel m a bs).1.readByte x = (if a ≤ x ∧ x < a + bs.length then bs.getD (x - a) 0 else m.readByte x) ∧
    (MemState.store skip held fuel m a bs).2 = false := by
  induction fuel generalizing m a bs with
  | zero =>
    have : bs.length = 0 := by omega
    have hn : ¬ (a ≤ x ∧ x < a + bs.length) := by omega
    simp only [MemState.store, if_neg hn, and_self]
  | succ n ih =>
    cases bs with
    | nil =>
      have hn : ¬ (a ≤ x ∧ x < a + ([] : List Byte).length) := by simp only [List.length_nil]; omega
      simp only [MemState.store, if_neg hn, and_self]
    | cons b r =>
      unfold MemState.store
      have hm : a % 64 < 64 := Nat.mod_lt _ (by omega)
      have hl : (b :: r).length = r.length + 1 := List.length_cons
      have hclean := hp (a / 64) (Nat.le_refl _) (by omega)
      have hd : ((b :: r).drop (64 - a % 64)).length = r.length + 1 - (64 - a % 64) := by rw [List.length_drop, hl]
      have ht : ((b :: r).take (64 - a % 64)).length = min (64 - a % 64) (r.length + 1) := by rw [List.length_take, hl]
      have hchunk : ∀ m' : MemState, (∀ y, m'.readByte y = (m.writeBytes a ((b :: r).take (64 - a % 64))).readByte y) →
          (MemState.store skip held n m' (a + (64 - a % 64)) ((b :: r).drop (64 - a % 64))).1.readByte x =
            (if a ≤ x ∧ x < a + (b :: r).length then (b :: r).getD (x - a) 0 else m.readByte x) ∧
          (MemState.store skip held n m' (a + (64 - a % 64)) ((b :: r).drop (64 - a % 64))).2 = false := by
        intro m' hr'
        obtain ⟨h1, h2⟩ := ih m' (a + (64 - a % 64)) ((b :: r).drop (64 - a % 64)) (by omega)
          (fun l h1 h2 => hp l (by omega) (by omega))
        refine ⟨?_, h2⟩
        rw [h1, hd, hr', MemState.readByte_writeBytes, ht]
        by_cases hx : a + (64 - a % 64) ≤ x ∧ x < a + (r.length + 1)
        · rw [if_pos (by omega), if_pos (by omega), List.getD_eq_getElem?_getD, List.getElem?_drop, ← List.getD_eq_getElem?_getD]
          congr 1
          omega
        · rw [if_neg (by omega)]
          by_cases hy : a ≤ x ∧ x < a + (r.length + 1)
          · rw [if_pos (by omega), if_pos (by omega), List.getD_eq_getElem?_getD, List.getElem?_take_of_lt (by omega), ← List.getD_eq_getElem?_getD]
          · rw [if_neg (by omega), if_neg (by omega)]
      simp only [hclean.1, hclean.2, Bool.and_false, Bool.false_or, Bool.false_eq_true, if_false]
      split
      · exact hchunk _ (fun y => rfl)
      · exact hchunk _ (fun y => rfl)

/-- A store changes no byte outside its range, whatever it meets. -/
theorem MemState.store_out (skip held : Nat → Bool) (fuel : Nat) (m : MemState) (a x : Nat) (bs : List Byte) (hx : ¬ (a ≤ x ∧ x < a + bs.length)) :
    (MemState.store skip held fuel m a bs).1.readByte x = m.readByte x := by
  induction fuel generalizing m a bs with
  | zero => rfl
  | succ n ih =>
    cases bs with
    | nil => rfl
    | cons b r =>
      unfold MemState.store
      have hd : ((b :: r).drop (64 - a % 64)).length = r.length + 1 - (64 - a % 64) := by rw [List.length_drop, List.length_cons]
      have ht : ((b :: r).take (64 - a % 64)).length = min (64 - a % 64) (r.length + 1) := by rw [List.length_take, List.length_cons]
      have hl : (b :: r).length = r.length + 1 := List.length_cons
      have hm : a % 64 < 64 := Nat.mod_lt _ (by omega)
      have hw : (m.writeBytes a ((b :: r).take (64 - a % 64))).readByte x = m.readByte x := by
        rw [MemState.readByte_writeBytes, ht, if_neg (by omega)]
      simp only []
      rw [ih _ _ _ (by omega)]
      split
      · rfl
      · split
        · exact hw
        · exact hw

/-- Bytes that an agent puts change no byte outside them. -/
theorem State.readByte_put_out (s : State) (g : Agent) (a x : Nat) (bs : List Byte) (hx : ¬ (a ≤ x ∧ x < a + bs.length)) :
    (s.put g a bs).readByte x = s.readByte x := by
  show (MemState.store _ _ _ _ a bs).1.readByte x = _
  rw [MemState.store_out _ _ _ _ _ _ _ hx]
  exact ((Coh.refl s).claim g a bs.length).readByte x

/-- What an agent puts where every home answers and no line of the range is or turns out poisoned to the agent reads as put, and every other byte as
before. -/
theorem State.readByte_put (s : State) (g : Agent) (a x : Nat) (bs : List Byte)
    (hp : ∀ l, a / 64 ≤ l → l * 64 < a + bs.length → (s.claim g a bs.length).seesPoison g l = false)
    (hl : (s.claim g a bs.length).meetsLost g.die a bs.length = false) :
    (s.put g a bs).readByte x = if a ≤ x ∧ x < a + bs.length then bs.getD (x - a) 0 else s.readByte x := by
  show (MemState.store _ _ _ _ a bs).1.readByte x = _
  rw [(MemState.store_clean _ _ _ _ a x bs (by omega) (fun l h1 h2 => ⟨hp l h1 h2, by simp [hl]⟩)).1]
  rw [show (s.claim g a bs.length).mem.readByte x = s.readByte x from ((Coh.refl s).claim g a bs.length).readByte x]

end Sys2Proof.Machine
end

