-- ==== Sys2Proof/Laws/State.lean ====
section
/-! SUPPORT.  What each update of the state leaves alone, and what a read of what it wrote gives. -/
namespace Sys2Proof.Machine
open Sys2Proof

variable (s : State)

@[simp] theorem State.setTile_mould (t : Nat) (x : Tile) : (s.setTile t x).mould = s.mould := rfl
@[simp] theorem State.setTile_update (t : Nat) (x : Tile) : (s.setTile t x).update = s.update := rfl
@[simp] theorem State.setTile_links (t : Nat) (x : Tile) : (s.setTile t x).links = s.links := rfl
@[simp] theorem State.setTile_host (t : Nat) (x : Tile) : (s.setTile t x).host = s.host := rfl
@[simp] theorem State.setTile_reg (t : Nat) (x : Tile) : (s.setTile t x).reg = s.reg := rfl
@[simp] theorem State.setTile_faults (t : Nat) (x : Tile) : (s.setTile t x).faults = s.faults := rfl
@[simp] theorem State.setTile_ledger (t : Nat) (x : Tile) : (s.setTile t x).ledger = s.ledger := rfl
@[simp] theorem State.setTile_islands (t : Nat) (x : Tile) : (s.setTile t x).islands = s.islands := rfl
@[simp] theorem State.setTile_power (t : Nat) (x : Tile) : (s.setTile t x).power = s.power := rfl
@[simp] theorem State.setTile_therm (t : Nat) (x : Tile) : (s.setTile t x).therm = s.therm := rfl
@[simp] theorem State.setTile_sec (t : Nat) (x : Tile) : (s.setTile t x).sec = s.sec := rfl
@[simp] theorem State.setTile_mem (t : Nat) (x : Tile) : (s.setTile t x).mem = s.mem := rfl
@[simp] theorem State.setTile_teller (t : Nat) (x : Tile) : (s.setTile t x).teller = s.teller := rfl
@[simp] theorem State.setTile_wheels (t : Nat) (x : Tile) : (s.setTile t x).wheels = s.wheels := rfl
@[simp] theorem State.setTile_free (t : Nat) (x : Tile) : (s.setTile t x).free = s.free := rfl
@[simp] theorem State.setTile_pending (t : Nat) (x : Tile) : (s.setTile t x).pending = s.pending := rfl

@[simp] theorem State.setHearth_mould (h : Nat) (x : Hearth) : (s.setHearth h x).mould = s.mould := rfl
@[simp] theorem State.setHearth_update (h : Nat) (x : Hearth) : (s.setHearth h x).update = s.update := rfl
@[simp] theorem State.setHearth_links (h : Nat) (x : Hearth) : (s.setHearth h x).links = s.links := rfl
@[simp] theorem State.setHearth_host (h : Nat) (x : Hearth) : (s.setHearth h x).host = s.host := rfl
@[simp] theorem State.setHearth_reg (h : Nat) (x : Hearth) : (s.setHearth h x).reg = s.reg := rfl
@[simp] theorem State.setHearth_faults (h : Nat) (x : Hearth) : (s.setHearth h x).faults = s.faults := rfl
@[simp] theorem State.setHearth_ledger (h : Nat) (x : Hearth) : (s.setHearth h x).ledger = s.ledger := rfl
@[simp] theorem State.setHearth_islands (h : Nat) (x : Hearth) : (s.setHearth h x).islands = s.islands := rfl
@[simp] theorem State.setHearth_power (h : Nat) (x : Hearth) : (s.setHearth h x).power = s.power := rfl
@[simp] theorem State.setHearth_therm (h : Nat) (x : Hearth) : (s.setHearth h x).therm = s.therm := rfl
@[simp] theorem State.setHearth_sec (h : Nat) (x : Hearth) : (s.setHearth h x).sec = s.sec := rfl
@[simp] theorem State.setHearth_tiles (h : Nat) (x : Hearth) : (s.setHearth h x).tiles = s.tiles := rfl
@[simp] theorem State.setHearth_teller (h : Nat) (x : Hearth) : (s.setHearth h x).teller = s.teller := rfl
@[simp] theorem State.setHearth_wheels (h : Nat) (x : Hearth) : (s.setHearth h x).wheels = s.wheels := rfl
@[simp] theorem State.setHearth_free (h : Nat) (x : Hearth) : (s.setHearth h x).free = s.free := rfl
@[simp] theorem State.setHearth_pending (h : Nat) (x : Hearth) : (s.setHearth h x).pending = s.pending := rfl

@[simp] theorem State.setVault_mould (v : Nat) (x : Vault) : (s.setVault v x).mould = s.mould := rfl
@[simp] theorem State.setVault_update (v : Nat) (x : Vault) : (s.setVault v x).update = s.update := rfl
@[simp] theorem State.setVault_links (v : Nat) (x : Vault) : (s.setVault v x).links = s.links := rfl
@[simp] theorem State.setVault_host (v : Nat) (x : Vault) : (s.setVault v x).host = s.host := rfl
@[simp] theorem State.setVault_reg (v : Nat) (x : Vault) : (s.setVault v x).reg = s.reg := rfl
@[simp] theorem State.setVault_faults (v : Nat) (x : Vault) : (s.setVault v x).faults = s.faults := rfl
@[simp] theorem State.setVault_ledger (v : Nat) (x : Vault) : (s.setVault v x).ledger = s.ledger := rfl
@[simp] theorem State.setVault_islands (v : Nat) (x : Vault) : (s.setVault v x).islands = s.islands := rfl
@[simp] theorem State.setVault_power (v : Nat) (x : Vault) : (s.setVault v x).power = s.power := rfl
@[simp] theorem State.setVault_therm (v : Nat) (x : Vault) : (s.setVault v x).therm = s.therm := rfl
@[simp] theorem State.setVault_sec (v : Nat) (x : Vault) : (s.setVault v x).sec = s.sec := rfl
@[simp] theorem State.setVault_tiles (v : Nat) (x : Vault) : (s.setVault v x).tiles = s.tiles := rfl
@[simp] theorem State.setVault_teller (v : Nat) (x : Vault) : (s.setVault v x).teller = s.teller := rfl
@[simp] theorem State.setVault_wheels (v : Nat) (x : Vault) : (s.setVault v x).wheels = s.wheels := rfl
@[simp] theorem State.setVault_free (v : Nat) (x : Vault) : (s.setVault v x).free = s.free := rfl
@[simp] theorem State.setVault_pending (v : Nat) (x : Vault) : (s.setVault v x).pending = s.pending := rfl

@[simp] theorem State.setPortEnd_mould (e : Nat) (x : PortEnd) : (s.setPortEnd e x).mould = s.mould := rfl
@[simp] theorem State.setPortEnd_update (e : Nat) (x : PortEnd) : (s.setPortEnd e x).update = s.update := rfl
@[simp] theorem State.setPortEnd_host (e : Nat) (x : PortEnd) : (s.setPortEnd e x).host = s.host := rfl
@[simp] theorem State.setPortEnd_reg (e : Nat) (x : PortEnd) : (s.setPortEnd e x).reg = s.reg := rfl
@[simp] theorem State.setPortEnd_faults (e : Nat) (x : PortEnd) : (s.setPortEnd e x).faults = s.faults := rfl
@[simp] theorem State.setPortEnd_ledger (e : Nat) (x : PortEnd) : (s.setPortEnd e x).ledger = s.ledger := rfl
@[simp] theorem State.setPortEnd_islands (e : Nat) (x : PortEnd) : (s.setPortEnd e x).islands = s.islands := rfl
@[simp] theorem State.setPortEnd_power (e : Nat) (x : PortEnd) : (s.setPortEnd e x).power = s.power := rfl
@[simp] theorem State.setPortEnd_therm (e : Nat) (x : PortEnd) : (s.setPortEnd e x).therm = s.therm := rfl
@[simp] theorem State.setPortEnd_sec (e : Nat) (x : PortEnd) : (s.setPortEnd e x).sec = s.sec := rfl
@[simp] theorem State.setPortEnd_tiles (e : Nat) (x : PortEnd) : (s.setPortEnd e x).tiles = s.tiles := rfl
@[simp] theorem State.setPortEnd_mem (e : Nat) (x : PortEnd) : (s.setPortEnd e x).mem = s.mem := rfl
@[simp] theorem State.setPortEnd_teller (e : Nat) (x : PortEnd) : (s.setPortEnd e x).teller = s.teller := rfl
@[simp] theorem State.setPortEnd_wheels (e : Nat) (x : PortEnd) : (s.setPortEnd e x).wheels = s.wheels := rfl
@[simp] theorem State.setPortEnd_free (e : Nat) (x : PortEnd) : (s.setPortEnd e x).free = s.free := rfl
@[simp] theorem State.setPortEnd_pending (e : Nat) (x : PortEnd) : (s.setPortEnd e x).pending = s.pending := rfl

@[simp] theorem State.setDie_mould (d : Nat) (x : DieState) : (s.setDie d x).mould = s.mould := rfl
@[simp] theorem State.setDie_update (d : Nat) (x : DieState) : (s.setDie d x).update = s.update := rfl
@[simp] theorem State.setDie_host (d : Nat) (x : DieState) : (s.setDie d x).host = s.host := rfl
@[simp] theorem State.setDie_reg (d : Nat) (x : DieState) : (s.setDie d x).reg = s.reg := rfl
@[simp] theorem State.setDie_faults (d : Nat) (x : DieState) : (s.setDie d x).faults = s.faults := rfl
@[simp] theorem State.setDie_ledger (d : Nat) (x : DieState) : (s.setDie d x).ledger = s.ledger := rfl
@[simp] theorem State.setDie_islands (d : Nat) (x : DieState) : (s.setDie d x).islands = s.islands := rfl
@[simp] theorem State.setDie_power (d : Nat) (x : DieState) : (s.setDie d x).power = s.power := rfl
@[simp] theorem State.setDie_therm (d : Nat) (x : DieState) : (s.setDie d x).therm = s.therm := rfl
@[simp] theorem State.setDie_sec (d : Nat) (x : DieState) : (s.setDie d x).sec = s.sec := rfl
@[simp] theorem State.setDie_tiles (d : Nat) (x : DieState) : (s.setDie d x).tiles = s.tiles := rfl
@[simp] theorem State.setDie_mem (d : Nat) (x : DieState) : (s.setDie d x).mem = s.mem := rfl
@[simp] theorem State.setDie_teller (d : Nat) (x : DieState) : (s.setDie d x).teller = s.teller := rfl
@[simp] theorem State.setDie_wheels (d : Nat) (x : DieState) : (s.setDie d x).wheels = s.wheels := rfl
@[simp] theorem State.setDie_free (d : Nat) (x : DieState) : (s.setDie d x).free = s.free := rfl
@[simp] theorem State.setDie_pending (d : Nat) (x : DieState) : (s.setDie d x).pending = s.pending := rfl

@[simp] theorem State.setSq_mould (q : Nat) (x : HostQueue) : (s.setSq q x).mould = s.mould := rfl
@[simp] theorem State.setSq_update (q : Nat) (x : HostQueue) : (s.setSq q x).update = s.update := rfl
@[simp] theorem State.setSq_links (q : Nat) (x : HostQueue) : (s.setSq q x).links = s.links := rfl
@[simp] theorem State.setSq_reg (q : Nat) (x : HostQueue) : (s.setSq q x).reg = s.reg := rfl
@[simp] theorem State.setSq_faults (q : Nat) (x : HostQueue) : (s.setSq q x).faults = s.faults := rfl
@[simp] theorem State.setSq_ledger (q : Nat) (x : HostQueue) : (s.setSq q x).ledger = s.ledger := rfl
@[simp] theorem State.setSq_islands (q : Nat) (x : HostQueue) : (s.setSq q x).islands = s.islands := rfl
@[simp] theorem State.setSq_power (q : Nat) (x : HostQueue) : (s.setSq q x).power = s.power := rfl
@[simp] theorem State.setSq_therm (q : Nat) (x : HostQueue) : (s.setSq q x).therm = s.therm := rfl
@[simp] theorem State.setSq_sec (q : Nat) (x : HostQueue) : (s.setSq q x).sec = s.sec := rfl
@[simp] theorem State.setSq_tiles (q : Nat) (x : HostQueue) : (s.setSq q x).tiles = s.tiles := rfl
@[simp] theorem State.setSq_mem (q : Nat) (x : HostQueue) : (s.setSq q x).mem = s.mem := rfl
@[simp] theorem State.setSq_teller (q : Nat) (x : HostQueue) : (s.setSq q x).teller = s.teller := rfl
@[simp] theorem State.setSq_wheels (q : Nat) (x : HostQueue) : (s.setSq q x).wheels = s.wheels := rfl
@[simp] theorem State.setSq_free (q : Nat) (x : HostQueue) : (s.setSq q x).free = s.free := rfl
@[simp] theorem State.setSq_pending (q : Nat) (x : HostQueue) : (s.setSq q x).pending = s.pending := rfl

@[simp] theorem State.setCq_mould (q : Nat) (x : HostQueue) : (s.setCq q x).mould = s.mould := rfl
@[simp] theorem State.setCq_update (q : Nat) (x : HostQueue) : (s.setCq q x).update = s.update := rfl
@[simp] theorem State.setCq_links (q : Nat) (x : HostQueue) : (s.setCq q x).links = s.links := rfl
@[simp] theorem State.setCq_reg (q : Nat) (x : HostQueue) : (s.setCq q x).reg = s.reg := rfl
@[simp] theorem State.setCq_faults (q : Nat) (x : HostQueue) : (s.setCq q x).faults = s.faults := rfl
@[simp] theorem State.setCq_ledger (q : Nat) (x : HostQueue) : (s.setCq q x).ledger = s.ledger := rfl
@[simp] theorem State.setCq_islands (q : Nat) (x : HostQueue) : (s.setCq q x).islands = s.islands := rfl
@[simp] theorem State.setCq_power (q : Nat) (x : HostQueue) : (s.setCq q x).power = s.power := rfl
@[simp] theorem State.setCq_therm (q : Nat) (x : HostQueue) : (s.setCq q x).therm = s.therm := rfl
@[simp] theorem State.setCq_sec (q : Nat) (x : HostQueue) : (s.setCq q x).sec = s.sec := rfl
@[simp] theorem State.setCq_tiles (q : Nat) (x : HostQueue) : (s.setCq q x).tiles = s.tiles := rfl
@[simp] theorem State.setCq_mem (q : Nat) (x : HostQueue) : (s.setCq q x).mem = s.mem := rfl
@[simp] theorem State.setCq_teller (q : Nat) (x : HostQueue) : (s.setCq q x).teller = s.teller := rfl
@[simp] theorem State.setCq_wheels (q : Nat) (x : HostQueue) : (s.setCq q x).wheels = s.wheels := rfl
@[simp] theorem State.setCq_free (q : Nat) (x : HostQueue) : (s.setCq q x).free = s.free := rfl
@[simp] theorem State.setCq_pending (q : Nat) (x : HostQueue) : (s.setCq q x).pending = s.pending := rfl

@[simp] theorem State.setFunc_mould (f : Nat) (x : PcieFunc) : (s.setFunc f x).mould = s.mould := rfl
@[simp] theorem State.setFunc_update (f : Nat) (x : PcieFunc) : (s.setFunc f x).update = s.update := rfl
@[simp] theorem State.setFunc_links (f : Nat) (x : PcieFunc) : (s.setFunc f x).links = s.links := rfl
@[simp] theorem State.setFunc_reg (f : Nat) (x : PcieFunc) : (s.setFunc f x).reg = s.reg := rfl
@[simp] theorem State.setFunc_faults (f : Nat) (x : PcieFunc) : (s.setFunc f x).faults = s.faults := rfl
@[simp] theorem State.setFunc_ledger (f : Nat) (x : PcieFunc) : (s.setFunc f x).ledger = s.ledger := rfl
@[simp] theorem State.setFunc_islands (f : Nat) (x : PcieFunc) : (s.setFunc f x).islands = s.islands := rfl
@[simp] theorem State.setFunc_power (f : Nat) (x : PcieFunc) : (s.setFunc f x).power = s.power := rfl
@[simp] theorem State.setFunc_therm (f : Nat) (x : PcieFunc) : (s.setFunc f x).therm = s.therm := rfl
@[simp] theorem State.setFunc_sec (f : Nat) (x : PcieFunc) : (s.setFunc f x).sec = s.sec := rfl
@[simp] theorem State.setFunc_tiles (f : Nat) (x : PcieFunc) : (s.setFunc f x).tiles = s.tiles := rfl
@[simp] theorem State.setFunc_mem (f : Nat) (x : PcieFunc) : (s.setFunc f x).mem = s.mem := rfl
@[simp] theorem State.setFunc_teller (f : Nat) (x : PcieFunc) : (s.setFunc f x).teller = s.teller := rfl
@[simp] theorem State.setFunc_wheels (f : Nat) (x : PcieFunc) : (s.setFunc f x).wheels = s.wheels := rfl
@[simp] theorem State.setFunc_free (f : Nat) (x : PcieFunc) : (s.setFunc f x).free = s.free := rfl
@[simp] theorem State.setFunc_pending (f : Nat) (x : PcieFunc) : (s.setFunc f x).pending = s.pending := rfl

@[simp] theorem State.setOp_mould (h : Nat) (x : OpRec) : (s.setOp h x).mould = s.mould := rfl
@[simp] theorem State.setOp_update (h : Nat) (x : OpRec) : (s.setOp h x).update = s.update := rfl
@[simp] theorem State.setOp_links (h : Nat) (x : OpRec) : (s.setOp h x).links = s.links := rfl
@[simp] theorem State.setOp_reg (h : Nat) (x : OpRec) : (s.setOp h x).reg = s.reg := rfl
@[simp] theorem State.setOp_faults (h : Nat) (x : OpRec) : (s.setOp h x).faults = s.faults := rfl
@[simp] theorem State.setOp_ledger (h : Nat) (x : OpRec) : (s.setOp h x).ledger = s.ledger := rfl
@[simp] theorem State.setOp_islands (h : Nat) (x : OpRec) : (s.setOp h x).islands = s.islands := rfl
@[simp] theorem State.setOp_power (h : Nat) (x : OpRec) : (s.setOp h x).power = s.power := rfl
@[simp] theorem State.setOp_therm (h : Nat) (x : OpRec) : (s.setOp h x).therm = s.therm := rfl
@[simp] theorem State.setOp_sec (h : Nat) (x : OpRec) : (s.setOp h x).sec = s.sec := rfl
@[simp] theorem State.setOp_tiles (h : Nat) (x : OpRec) : (s.setOp h x).tiles = s.tiles := rfl
@[simp] theorem State.setOp_mem (h : Nat) (x : OpRec) : (s.setOp h x).mem = s.mem := rfl
@[simp] theorem State.setOp_teller (h : Nat) (x : OpRec) : (s.setOp h x).teller = s.teller := rfl
@[simp] theorem State.setOp_wheels (h : Nat) (x : OpRec) : (s.setOp h x).wheels = s.wheels := rfl
@[simp] theorem State.setOp_free (h : Nat) (x : OpRec) : (s.setOp h x).free = s.free := rfl
@[simp] theorem State.setOp_pending (h : Nat) (x : OpRec) : (s.setOp h x).pending = s.pending := rfl

@[simp] theorem State.due_mould (c : Completion) : (s.due c).mould = s.mould := rfl
@[simp] theorem State.due_update (c : Completion) : (s.due c).update = s.update := rfl
@[simp] theorem State.due_links (c : Completion) : (s.due c).links = s.links := rfl
@[simp] theorem State.due_reg (c : Completion) : (s.due c).reg = s.reg := rfl
@[simp] theorem State.due_faults (c : Completion) : (s.due c).faults = s.faults := rfl
@[simp] theorem State.due_ledger (c : Completion) : (s.due c).ledger = s.ledger := rfl
@[simp] theorem State.due_islands (c : Completion) : (s.due c).islands = s.islands := rfl
@[simp] theorem State.due_power (c : Completion) : (s.due c).power = s.power := rfl
@[simp] theorem State.due_therm (c : Completion) : (s.due c).therm = s.therm := rfl
@[simp] theorem State.due_sec (c : Completion) : (s.due c).sec = s.sec := rfl
@[simp] theorem State.due_tiles (c : Completion) : (s.due c).tiles = s.tiles := rfl
@[simp] theorem State.due_mem (c : Completion) : (s.due c).mem = s.mem := rfl
@[simp] theorem State.due_teller (c : Completion) : (s.due c).teller = s.teller := rfl
@[simp] theorem State.due_wheels (c : Completion) : (s.due c).wheels = s.wheels := rfl
@[simp] theorem State.due_free (c : Completion) : (s.due c).free = s.free := rfl
@[simp] theorem State.due_pending (c : Completion) : (s.due c).pending = s.pending := rfl

@[simp] theorem State.setRequest_mould (i : Nat) (x : Request) : (s.setRequest i x).mould = s.mould := rfl
@[simp] theorem State.setRequest_update (i : Nat) (x : Request) : (s.setRequest i x).update = s.update := rfl
@[simp] theorem State.setRequest_links (i : Nat) (x : Request) : (s.setRequest i x).links = s.links := rfl
@[simp] theorem State.setRequest_host (i : Nat) (x : Request) : (s.setRequest i x).host = s.host := rfl
@[simp] theorem State.setRequest_reg (i : Nat) (x : Request) : (s.setRequest i x).reg = s.reg := rfl
@[simp] theorem State.setRequest_faults (i : Nat) (x : Request) : (s.setRequest i x).faults = s.faults := rfl
@[simp] theorem State.setRequest_ledger (i : Nat) (x : Request) : (s.setRequest i x).ledger = s.ledger := rfl
@[simp] theorem State.setRequest_islands (i : Nat) (x : Request) : (s.setRequest i x).islands = s.islands := rfl
@[simp] theorem State.setRequest_power (i : Nat) (x : Request) : (s.setRequest i x).power = s.power := rfl
@[simp] theorem State.setRequest_therm (i : Nat) (x : Request) : (s.setRequest i x).therm = s.therm := rfl
@[simp] theorem State.setRequest_sec (i : Nat) (x : Request) : (s.setRequest i x).sec = s.sec := rfl
@[simp] theorem State.setRequest_tiles (i : Nat) (x : Request) : (s.setRequest i x).tiles = s.tiles := rfl
@[simp] theorem State.setRequest_mem (i : Nat) (x : Request) : (s.setRequest i x).mem = s.mem := rfl
@[simp] theorem State.setRequest_wheels (i : Nat) (x : Request) : (s.setRequest i x).wheels = s.wheels := rfl
@[simp] theorem State.setRequest_free (i : Nat) (x : Request) : (s.setRequest i x).free = s.free := rfl
@[simp] theorem State.setRequest_pending (i : Nat) (x : Request) : (s.setRequest i x).pending = s.pending := rfl

@[simp] theorem State.setRing_mould (i : Nat) (x : Ring) : (s.setRing i x).mould = s.mould := rfl
@[simp] theorem State.setRing_update (i : Nat) (x : Ring) : (s.setRing i x).update = s.update := rfl
@[simp] theorem State.setRing_links (i : Nat) (x : Ring) : (s.setRing i x).links = s.links := rfl
@[simp] theorem State.setRing_host (i : Nat) (x : Ring) : (s.setRing i x).host = s.host := rfl
@[simp] theorem State.setRing_reg (i : Nat) (x : Ring) : (s.setRing i x).reg = s.reg := rfl
@[simp] theorem State.setRing_faults (i : Nat) (x : Ring) : (s.setRing i x).faults = s.faults := rfl
@[simp] theorem State.setRing_ledger (i : Nat) (x : Ring) : (s.setRing i x).ledger = s.ledger := rfl
@[simp] theorem State.setRing_islands (i : Nat) (x : Ring) : (s.setRing i x).islands = s.islands := rfl
@[simp] theorem State.setRing_power (i : Nat) (x : Ring) : (s.setRing i x).power = s.power := rfl
@[simp] theorem State.setRing_therm (i : Nat) (x : Ring) : (s.setRing i x).therm = s.therm := rfl
@[simp] theorem State.setRing_sec (i : Nat) (x : Ring) : (s.setRing i x).sec = s.sec := rfl
@[simp] theorem State.setRing_tiles (i : Nat) (x : Ring) : (s.setRing i x).tiles = s.tiles := rfl
@[simp] theorem State.setRing_mem (i : Nat) (x : Ring) : (s.setRing i x).mem = s.mem := rfl
@[simp] theorem State.setRing_wheels (i : Nat) (x : Ring) : (s.setRing i x).wheels = s.wheels := rfl
@[simp] theorem State.setRing_free (i : Nat) (x : Ring) : (s.setRing i x).free = s.free := rfl
@[simp] theorem State.setRing_pending (i : Nat) (x : Ring) : (s.setRing i x).pending = s.pending := rfl

@[simp] theorem State.setPool_mould (p : Nat) (x : Pool) : (s.setPool p x).mould = s.mould := rfl
@[simp] theorem State.setPool_update (p : Nat) (x : Pool) : (s.setPool p x).update = s.update := rfl
@[simp] theorem State.setPool_links (p : Nat) (x : Pool) : (s.setPool p x).links = s.links := rfl
@[simp] theorem State.setPool_host (p : Nat) (x : Pool) : (s.setPool p x).host = s.host := rfl
@[simp] theorem State.setPool_reg (p : Nat) (x : Pool) : (s.setPool p x).reg = s.reg := rfl
@[simp] theorem State.setPool_faults (p : Nat) (x : Pool) : (s.setPool p x).faults = s.faults := rfl
@[simp] theorem State.setPool_ledger (p : Nat) (x : Pool) : (s.setPool p x).ledger = s.ledger := rfl
@[simp] theorem State.setPool_islands (p : Nat) (x : Pool) : (s.setPool p x).islands = s.islands := rfl
@[simp] theorem State.setPool_power (p : Nat) (x : Pool) : (s.setPool p x).power = s.power := rfl
@[simp] theorem State.setPool_therm (p : Nat) (x : Pool) : (s.setPool p x).therm = s.therm := rfl
@[simp] theorem State.setPool_sec (p : Nat) (x : Pool) : (s.setPool p x).sec = s.sec := rfl
@[simp] theorem State.setPool_tiles (p : Nat) (x : Pool) : (s.setPool p x).tiles = s.tiles := rfl
@[simp] theorem State.setPool_mem (p : Nat) (x : Pool) : (s.setPool p x).mem = s.mem := rfl
@[simp] theorem State.setPool_wheels (p : Nat) (x : Pool) : (s.setPool p x).wheels = s.wheels := rfl
@[simp] theorem State.setPool_free (p : Nat) (x : Pool) : (s.setPool p x).free = s.free := rfl
@[simp] theorem State.setPool_pending (p : Nat) (x : Pool) : (s.setPool p x).pending = s.pending := rfl

@[simp] theorem State.setWare_mould (h : Nat) (x : Ware) : (s.setWare h x).mould = s.mould := rfl
@[simp] theorem State.setWare_update (h : Nat) (x : Ware) : (s.setWare h x).update = s.update := rfl
@[simp] theorem State.setWare_links (h : Nat) (x : Ware) : (s.setWare h x).links = s.links := rfl
@[simp] theorem State.setWare_host (h : Nat) (x : Ware) : (s.setWare h x).host = s.host := rfl
@[simp] theorem State.setWare_reg (h : Nat) (x : Ware) : (s.setWare h x).reg = s.reg := rfl
@[simp] theorem State.setWare_faults (h : Nat) (x : Ware) : (s.setWare h x).faults = s.faults := rfl
@[simp] theorem State.setWare_ledger (h : Nat) (x : Ware) : (s.setWare h x).ledger = s.ledger := rfl
@[simp] theorem State.setWare_islands (h : Nat) (x : Ware) : (s.setWare h x).islands = s.islands := rfl
@[simp] theorem State.setWare_power (h : Nat) (x : Ware) : (s.setWare h x).power = s.power := rfl
@[simp] theorem State.setWare_therm (h : Nat) (x : Ware) : (s.setWare h x).therm = s.therm := rfl
@[simp] theorem State.setWare_sec (h : Nat) (x : Ware) : (s.setWare h x).sec = s.sec := rfl
@[simp] theorem State.setWare_tiles (h : Nat) (x : Ware) : (s.setWare h x).tiles = s.tiles := rfl
@[simp] theorem State.setWare_mem (h : Nat) (x : Ware) : (s.setWare h x).mem = s.mem := rfl
@[simp] theorem State.setWare_wheels (h : Nat) (x : Ware) : (s.setWare h x).wheels = s.wheels := rfl
@[simp] theorem State.setWare_free (h : Nat) (x : Ware) : (s.setWare h x).free = s.free := rfl
@[simp] theorem State.setWare_pending (h : Nat) (x : Ware) : (s.setWare h x).pending = s.pending := rfl

@[simp] theorem State.setCtx_mould (c : Nat) (x : Ctx) : (s.setCtx c x).mould = s.mould := rfl
@[simp] theorem State.setCtx_update (c : Nat) (x : Ctx) : (s.setCtx c x).update = s.update := rfl
@[simp] theorem State.setCtx_links (c : Nat) (x : Ctx) : (s.setCtx c x).links = s.links := rfl
@[simp] theorem State.setCtx_host (c : Nat) (x : Ctx) : (s.setCtx c x).host = s.host := rfl
@[simp] theorem State.setCtx_reg (c : Nat) (x : Ctx) : (s.setCtx c x).reg = s.reg := rfl
@[simp] theorem State.setCtx_faults (c : Nat) (x : Ctx) : (s.setCtx c x).faults = s.faults := rfl
@[simp] theorem State.setCtx_ledger (c : Nat) (x : Ctx) : (s.setCtx c x).ledger = s.ledger := rfl
@[simp] theorem State.setCtx_islands (c : Nat) (x : Ctx) : (s.setCtx c x).islands = s.islands := rfl
@[simp] theorem State.setCtx_power (c : Nat) (x : Ctx) : (s.setCtx c x).power = s.power := rfl
@[simp] theorem State.setCtx_therm (c : Nat) (x : Ctx) : (s.setCtx c x).therm = s.therm := rfl
@[simp] theorem State.setCtx_sec (c : Nat) (x : Ctx) : (s.setCtx c x).sec = s.sec := rfl
@[simp] theorem State.setCtx_tiles (c : Nat) (x : Ctx) : (s.setCtx c x).tiles = s.tiles := rfl
@[simp] theorem State.setCtx_mem (c : Nat) (x : Ctx) : (s.setCtx c x).mem = s.mem := rfl
@[simp] theorem State.setCtx_teller (c : Nat) (x : Ctx) : (s.setCtx c x).teller = s.teller := rfl
@[simp] theorem State.setCtx_free (c : Nat) (x : Ctx) : (s.setCtx c x).free = s.free := rfl
@[simp] theorem State.setCtx_pending (c : Nat) (x : Ctx) : (s.setCtx c x).pending = s.pending := rfl

@[simp] theorem State.setWheel_mould (w : Nat) (x : WheelUnit) : (s.setWheel w x).mould = s.mould := rfl
@[simp] theorem State.setWheel_update (w : Nat) (x : WheelUnit) : (s.setWheel w x).update = s.update := rfl
@[simp] theorem State.setWheel_links (w : Nat) (x : WheelUnit) : (s.setWheel w x).links = s.links := rfl
@[simp] theorem State.setWheel_host (w : Nat) (x : WheelUnit) : (s.setWheel w x).host = s.host := rfl
@[simp] theorem State.setWheel_reg (w : Nat) (x : WheelUnit) : (s.setWheel w x).reg = s.reg := rfl
@[simp] theorem State.setWheel_faults (w : Nat) (x : WheelUnit) : (s.setWheel w x).faults = s.faults := rfl
@[simp] theorem State.setWheel_ledger (w : Nat) (x : WheelUnit) : (s.setWheel w x).ledger = s.ledger := rfl
@[simp] theorem State.setWheel_islands (w : Nat) (x : WheelUnit) : (s.setWheel w x).islands = s.islands := rfl
@[simp] theorem State.setWheel_power (w : Nat) (x : WheelUnit) : (s.setWheel w x).power = s.power := rfl
@[simp] theorem State.setWheel_therm (w : Nat) (x : WheelUnit) : (s.setWheel w x).therm = s.therm := rfl
@[simp] theorem State.setWheel_sec (w : Nat) (x : WheelUnit) : (s.setWheel w x).sec = s.sec := rfl
@[simp] theorem State.setWheel_tiles (w : Nat) (x : WheelUnit) : (s.setWheel w x).tiles = s.tiles := rfl
@[simp] theorem State.setWheel_mem (w : Nat) (x : WheelUnit) : (s.setWheel w x).mem = s.mem := rfl
@[simp] theorem State.setWheel_teller (w : Nat) (x : WheelUnit) : (s.setWheel w x).teller = s.teller := rfl
@[simp] theorem State.setWheel_free (w : Nat) (x : WheelUnit) : (s.setWheel w x).free = s.free := rfl
@[simp] theorem State.setWheel_pending (w : Nat) (x : WheelUnit) : (s.setWheel w x).pending = s.pending := rfl

@[simp] theorem State.setInst_mould (i : Nat) (x : RegInst) : (s.setInst i x).mould = s.mould := rfl
@[simp] theorem State.setInst_update (i : Nat) (x : RegInst) : (s.setInst i x).update = s.update := rfl
@[simp] theorem State.setInst_links (i : Nat) (x : RegInst) : (s.setInst i x).links = s.links := rfl
@[simp] theorem State.setInst_host (i : Nat) (x : RegInst) : (s.setInst i x).host = s.host := rfl
@[simp] theorem State.setInst_faults (i : Nat) (x : RegInst) : (s.setInst i x).faults = s.faults := rfl
@[simp] theorem State.setInst_ledger (i : Nat) (x : RegInst) : (s.setInst i x).ledger = s.ledger := rfl
@[simp] theorem State.setInst_islands (i : Nat) (x : RegInst) : (s.setInst i x).islands = s.islands := rfl
@[simp] theorem State.setInst_power (i : Nat) (x : RegInst) : (s.setInst i x).power = s.power := rfl
@[simp] theorem State.setInst_therm (i : Nat) (x : RegInst) : (s.setInst i x).therm = s.therm := rfl
@[simp] theorem State.setInst_sec (i : Nat) (x : RegInst) : (s.setInst i x).sec = s.sec := rfl
@[simp] theorem State.setInst_tiles (i : Nat) (x : RegInst) : (s.setInst i x).tiles = s.tiles := rfl
@[simp] theorem State.setInst_mem (i : Nat) (x : RegInst) : (s.setInst i x).mem = s.mem := rfl
@[simp] theorem State.setInst_teller (i : Nat) (x : RegInst) : (s.setInst i x).teller = s.teller := rfl
@[simp] theorem State.setInst_wheels (i : Nat) (x : RegInst) : (s.setInst i x).wheels = s.wheels := rfl
@[simp] theorem State.setInst_free (i : Nat) (x : RegInst) : (s.setInst i x).free = s.free := rfl
@[simp] theorem State.setInst_pending (i : Nat) (x : RegInst) : (s.setInst i x).pending = s.pending := rfl

@[simp] theorem State.occur_mould (n : Nat) : (s.occur n).mould = s.mould := rfl
@[simp] theorem State.occur_update (n : Nat) : (s.occur n).update = s.update := rfl
@[simp] theorem State.occur_links (n : Nat) : (s.occur n).links = s.links := rfl
@[simp] theorem State.occur_host (n : Nat) : (s.occur n).host = s.host := rfl
@[simp] theorem State.occur_faults (n : Nat) : (s.occur n).faults = s.faults := rfl
@[simp] theorem State.occur_ledger (n : Nat) : (s.occur n).ledger = s.ledger := rfl
@[simp] theorem State.occur_islands (n : Nat) : (s.occur n).islands = s.islands := rfl
@[simp] theorem State.occur_power (n : Nat) : (s.occur n).power = s.power := rfl
@[simp] theorem State.occur_therm (n : Nat) : (s.occur n).therm = s.therm := rfl
@[simp] theorem State.occur_sec (n : Nat) : (s.occur n).sec = s.sec := rfl
@[simp] theorem State.occur_tiles (n : Nat) : (s.occur n).tiles = s.tiles := rfl
@[simp] theorem State.occur_mem (n : Nat) : (s.occur n).mem = s.mem := rfl
@[simp] theorem State.occur_teller (n : Nat) : (s.occur n).teller = s.teller := rfl
@[simp] theorem State.occur_wheels (n : Nat) : (s.occur n).wheels = s.wheels := rfl
@[simp] theorem State.occur_free (n : Nat) : (s.occur n).free = s.free := rfl
@[simp] theorem State.occur_pending (n : Nat) : (s.occur n).pending = s.pending := rfl

@[simp] theorem State.setSession_mould (p k : Nat) (x : Session) : (s.setSession p k x).mould = s.mould := rfl
@[simp] theorem State.setSession_update (p k : Nat) (x : Session) : (s.setSession p k x).update = s.update := rfl
@[simp] theorem State.setSession_links (p k : Nat) (x : Session) : (s.setSession p k x).links = s.links := rfl
@[simp] theorem State.setSession_host (p k : Nat) (x : Session) : (s.setSession p k x).host = s.host := rfl
@[simp] theorem State.setSession_reg (p k : Nat) (x : Session) : (s.setSession p k x).reg = s.reg := rfl
@[simp] theorem State.setSession_faults (p k : Nat) (x : Session) : (s.setSession p k x).faults = s.faults := rfl
@[simp] theorem State.setSession_ledger (p k : Nat) (x : Session) : (s.setSession p k x).ledger = s.ledger := rfl
@[simp] theorem State.setSession_islands (p k : Nat) (x : Session) : (s.setSession p k x).islands = s.islands := rfl
@[simp] theorem State.setSession_power (p k : Nat) (x : Session) : (s.setSession p k x).power = s.power := rfl
@[simp] theorem State.setSession_therm (p k : Nat) (x : Session) : (s.setSession p k x).therm = s.therm := rfl
@[simp] theorem State.setSession_tiles (p k : Nat) (x : Session) : (s.setSession p k x).tiles = s.tiles := rfl
@[simp] theorem State.setSession_mem (p k : Nat) (x : Session) : (s.setSession p k x).mem = s.mem := rfl
@[simp] theorem State.setSession_teller (p k : Nat) (x : Session) : (s.setSession p k x).teller = s.teller := rfl
@[simp] theorem State.setSession_wheels (p k : Nat) (x : Session) : (s.setSession p k x).wheels = s.wheels := rfl
@[simp] theorem State.setSession_free (p k : Nat) (x : Session) : (s.setSession p k x).free = s.free := rfl
@[simp] theorem State.setSession_pending (p k : Nat) (x : Session) : (s.setSession p k x).pending = s.pending := rfl

@[simp] theorem State.setMgmt_mould (n : Nat) (x : MgmtSession) : (s.setMgmt n x).mould = s.mould := rfl
@[simp] theorem State.setMgmt_update (n : Nat) (x : MgmtSession) : (s.setMgmt n x).update = s.update := rfl
@[simp] theorem State.setMgmt_links (n : Nat) (x : MgmtSession) : (s.setMgmt n x).links = s.links := rfl
@[simp] theorem State.setMgmt_host (n : Nat) (x : MgmtSession) : (s.setMgmt n x).host = s.host := rfl
@[simp] theorem State.setMgmt_reg (n : Nat) (x : MgmtSession) : (s.setMgmt n x).reg = s.reg := rfl
@[simp] theorem State.setMgmt_faults (n : Nat) (x : MgmtSession) : (s.setMgmt n x).faults = s.faults := rfl
@[simp] theorem State.setMgmt_ledger (n : Nat) (x : MgmtSession) : (s.setMgmt n x).ledger = s.ledger := rfl
@[simp] theorem State.setMgmt_islands (n : Nat) (x : MgmtSession) : (s.setMgmt n x).islands = s.islands := rfl
@[simp] theorem State.setMgmt_power (n : Nat) (x : MgmtSession) : (s.setMgmt n x).power = s.power := rfl
@[simp] theorem State.setMgmt_therm (n : Nat) (x : MgmtSession) : (s.setMgmt n x).therm = s.therm := rfl
@[simp] theorem State.setMgmt_tiles (n : Nat) (x : MgmtSession) : (s.setMgmt n x).tiles = s.tiles := rfl
@[simp] theorem State.setMgmt_mem (n : Nat) (x : MgmtSession) : (s.setMgmt n x).mem = s.mem := rfl
@[simp] theorem State.setMgmt_teller (n : Nat) (x : MgmtSession) : (s.setMgmt n x).teller = s.teller := rfl
@[simp] theorem State.setMgmt_wheels (n : Nat) (x : MgmtSession) : (s.setMgmt n x).wheels = s.wheels := rfl
@[simp] theorem State.setMgmt_free (n : Nat) (x : MgmtSession) : (s.setMgmt n x).free = s.free := rfl
@[simp] theorem State.setMgmt_pending (n : Nat) (x : MgmtSession) : (s.setMgmt n x).pending = s.pending := rfl

@[simp] theorem State.setTilePower_mould (t : Nat) (x : TilePower) : (s.setTilePower t x).mould = s.mould := rfl
@[simp] theorem State.setTilePower_update (t : Nat) (x : TilePower) : (s.setTilePower t x).update = s.update := rfl
@[simp] theorem State.setTilePower_links (t : Nat) (x : TilePower) : (s.setTilePower t x).links = s.links := rfl
@[simp] theorem State.setTilePower_host (t : Nat) (x : TilePower) : (s.setTilePower t x).host = s.host := rfl
@[simp] theorem State.setTilePower_reg (t : Nat) (x : TilePower) : (s.setTilePower t x).reg = s.reg := rfl
@[simp] theorem State.setTilePower_faults (t : Nat) (x : TilePower) : (s.setTilePower t x).faults = s.faults := rfl
@[simp] theorem State.setTilePower_ledger (t : Nat) (x : TilePower) : (s.setTilePower t x).ledger = s.ledger := rfl
@[simp] theorem State.setTilePower_islands (t : Nat) (x : TilePower) : (s.setTilePower t x).islands = s.islands := rfl
@[simp] theorem State.setTilePower_therm (t : Nat) (x : TilePower) : (s.setTilePower t x).therm = s.therm := rfl
@[simp] theorem State.setTilePower_sec (t : Nat) (x : TilePower) : (s.setTilePower t x).sec = s.sec := rfl
@[simp] theorem State.setTilePower_tiles (t : Nat) (x : TilePower) : (s.setTilePower t x).tiles = s.tiles := rfl
@[simp] theorem State.setTilePower_mem (t : Nat) (x : TilePower) : (s.setTilePower t x).mem = s.mem := rfl
@[simp] theorem State.setTilePower_teller (t : Nat) (x : TilePower) : (s.setTilePower t x).teller = s.teller := rfl
@[simp] theorem State.setTilePower_wheels (t : Nat) (x : TilePower) : (s.setTilePower t x).wheels = s.wheels := rfl
@[simp] theorem State.setTilePower_free (t : Nat) (x : TilePower) : (s.setTilePower t x).free = s.free := rfl
@[simp] theorem State.setTilePower_pending (t : Nat) (x : TilePower) : (s.setTilePower t x).pending = s.pending := rfl

@[simp] theorem State.setTileTherm_mould (t : Nat) (x : TileTherm) : (s.setTileTherm t x).mould = s.mould := rfl
@[simp] theorem State.setTileTherm_update (t : Nat) (x : TileTherm) : (s.setTileTherm t x).update = s.update := rfl
@[simp] theorem State.setTileTherm_links (t : Nat) (x : TileTherm) : (s.setTileTherm t x).links = s.links := rfl
@[simp] theorem State.setTileTherm_host (t : Nat) (x : TileTherm) : (s.setTileTherm t x).host = s.host := rfl
@[simp] theorem State.setTileTherm_reg (t : Nat) (x : TileTherm) : (s.setTileTherm t x).reg = s.reg := rfl
@[simp] theorem State.setTileTherm_faults (t : Nat) (x : TileTherm) : (s.setTileTherm t x).faults = s.faults := rfl
@[simp] theorem State.setTileTherm_ledger (t : Nat) (x : TileTherm) : (s.setTileTherm t x).ledger = s.ledger := rfl
@[simp] theorem State.setTileTherm_islands (t : Nat) (x : TileTherm) : (s.setTileTherm t x).islands = s.islands := rfl
@[simp] theorem State.setTileTherm_power (t : Nat) (x : TileTherm) : (s.setTileTherm t x).power = s.power := rfl
@[simp] theorem State.setTileTherm_sec (t : Nat) (x : TileTherm) : (s.setTileTherm t x).sec = s.sec := rfl
@[simp] theorem State.setTileTherm_tiles (t : Nat) (x : TileTherm) : (s.setTileTherm t x).tiles = s.tiles := rfl
@[simp] theorem State.setTileTherm_mem (t : Nat) (x : TileTherm) : (s.setTileTherm t x).mem = s.mem := rfl
@[simp] theorem State.setTileTherm_teller (t : Nat) (x : TileTherm) : (s.setTileTherm t x).teller = s.teller := rfl
@[simp] theorem State.setTileTherm_wheels (t : Nat) (x : TileTherm) : (s.setTileTherm t x).wheels = s.wheels := rfl
@[simp] theorem State.setTileTherm_free (t : Nat) (x : TileTherm) : (s.setTileTherm t x).free = s.free := rfl
@[simp] theorem State.setTileTherm_pending (t : Nat) (x : TileTherm) : (s.setTileTherm t x).pending = s.pending := rfl

@[simp] theorem State.setCyc_mould (d : Nat) (x : CycleState) : (s.setCyc d x).mould = s.mould := rfl
@[simp] theorem State.setCyc_update (d : Nat) (x : CycleState) : (s.setCyc d x).update = s.update := rfl
@[simp] theorem State.setCyc_links (d : Nat) (x : CycleState) : (s.setCyc d x).links = s.links := rfl
@[simp] theorem State.setCyc_host (d : Nat) (x : CycleState) : (s.setCyc d x).host = s.host := rfl
@[simp] theorem State.setCyc_reg (d : Nat) (x : CycleState) : (s.setCyc d x).reg = s.reg := rfl
@[simp] theorem State.setCyc_faults (d : Nat) (x : CycleState) : (s.setCyc d x).faults = s.faults := rfl
@[simp] theorem State.setCyc_ledger (d : Nat) (x : CycleState) : (s.setCyc d x).ledger = s.ledger := rfl
@[simp] theorem State.setCyc_islands (d : Nat) (x : CycleState) : (s.setCyc d x).islands = s.islands := rfl
@[simp] theorem State.setCyc_power (d : Nat) (x : CycleState) : (s.setCyc d x).power = s.power := rfl
@[simp] theorem State.setCyc_sec (d : Nat) (x : CycleState) : (s.setCyc d x).sec = s.sec := rfl
@[simp] theorem State.setCyc_tiles (d : Nat) (x : CycleState) : (s.setCyc d x).tiles = s.tiles := rfl
@[simp] theorem State.setCyc_mem (d : Nat) (x : CycleState) : (s.setCyc d x).mem = s.mem := rfl
@[simp] theorem State.setCyc_teller (d : Nat) (x : CycleState) : (s.setCyc d x).teller = s.teller := rfl
@[simp] theorem State.setCyc_wheels (d : Nat) (x : CycleState) : (s.setCyc d x).wheels = s.wheels := rfl
@[simp] theorem State.setCyc_free (d : Nat) (x : CycleState) : (s.setCyc d x).free = s.free := rfl
@[simp] theorem State.setCyc_pending (d : Nat) (x : CycleState) : (s.setCyc d x).pending = s.pending := rfl

@[simp] theorem State.raise_mould (f : FaultReq) : (s.raise f).mould = s.mould := rfl
@[simp] theorem State.raise_update (f : FaultReq) : (s.raise f).update = s.update := rfl
@[simp] theorem State.raise_links (f : FaultReq) : (s.raise f).links = s.links := rfl
@[simp] theorem State.raise_host (f : FaultReq) : (s.raise f).host = s.host := rfl
@[simp] theorem State.raise_reg (f : FaultReq) : (s.raise f).reg = s.reg := rfl
@[simp] theorem State.raise_ledger (f : FaultReq) : (s.raise f).ledger = s.ledger := rfl
@[simp] theorem State.raise_islands (f : FaultReq) : (s.raise f).islands = s.islands := rfl
@[simp] theorem State.raise_power (f : FaultReq) : (s.raise f).power = s.power := rfl
@[simp] theorem State.raise_therm (f : FaultReq) : (s.raise f).therm = s.therm := rfl
@[simp] theorem State.raise_sec (f : FaultReq) : (s.raise f).sec = s.sec := rfl
@[simp] theorem State.raise_tiles (f : FaultReq) : (s.raise f).tiles = s.tiles := rfl
@[simp] theorem State.raise_mem (f : FaultReq) : (s.raise f).mem = s.mem := rfl
@[simp] theorem State.raise_teller (f : FaultReq) : (s.raise f).teller = s.teller := rfl
@[simp] theorem State.raise_wheels (f : FaultReq) : (s.raise f).wheels = s.wheels := rfl
@[simp] theorem State.raise_free (f : FaultReq) : (s.raise f).free = s.free := rfl
@[simp] theorem State.raise_pending (f : FaultReq) : (s.raise f).pending = s.pending := rfl

@[simp] theorem State.setSlot_mould (b : Bool) (x : Slot) : (s.setSlot b x).mould = s.mould := rfl
@[simp] theorem State.setSlot_links (b : Bool) (x : Slot) : (s.setSlot b x).links = s.links := rfl
@[simp] theorem State.setSlot_host (b : Bool) (x : Slot) : (s.setSlot b x).host = s.host := rfl
@[simp] theorem State.setSlot_reg (b : Bool) (x : Slot) : (s.setSlot b x).reg = s.reg := rfl
@[simp] theorem State.setSlot_faults (b : Bool) (x : Slot) : (s.setSlot b x).faults = s.faults := rfl
@[simp] theorem State.setSlot_ledger (b : Bool) (x : Slot) : (s.setSlot b x).ledger = s.ledger := rfl
@[simp] theorem State.setSlot_islands (b : Bool) (x : Slot) : (s.setSlot b x).islands = s.islands := rfl
@[simp] theorem State.setSlot_power (b : Bool) (x : Slot) : (s.setSlot b x).power = s.power := rfl
@[simp] theorem State.setSlot_therm (b : Bool) (x : Slot) : (s.setSlot b x).therm = s.therm := rfl
@[simp] theorem State.setSlot_sec (b : Bool) (x : Slot) : (s.setSlot b x).sec = s.sec := rfl
@[simp] theorem State.setSlot_tiles (b : Bool) (x : Slot) : (s.setSlot b x).tiles = s.tiles := rfl
@[simp] theorem State.setSlot_mem (b : Bool) (x : Slot) : (s.setSlot b x).mem = s.mem := rfl
@[simp] theorem State.setSlot_teller (b : Bool) (x : Slot) : (s.setSlot b x).teller = s.teller := rfl
@[simp] theorem State.setSlot_wheels (b : Bool) (x : Slot) : (s.setSlot b x).wheels = s.wheels := rfl
@[simp] theorem State.setSlot_free (b : Bool) (x : Slot) : (s.setSlot b x).free = s.free := rfl
@[simp] theorem State.setSlot_pending (b : Bool) (x : Slot) : (s.setSlot b x).pending = s.pending := rfl

@[simp] theorem State.setTile_tile (t j : Nat) (x : Tile) : (s.setTile t x).tile j = if j = t then x else s.tile j := sget_sset _ _ _ _ _
@[simp] theorem State.setHearth_hearth (h j : Nat) (x : Hearth) : (s.setHearth h x).hearth j = if j = h then x else s.hearth j := sget_sset _ _ _ _ _
@[simp] theorem State.setVault_vault (v j : Nat) (x : Vault) : (s.setVault v x).vault j = if j = v then x else s.vault j := sget_sset _ _ _ _ _
@[simp] theorem State.setPortEnd_portEnd (e j : Nat) (x : PortEnd) : (s.setPortEnd e x).portEnd j = if j = e then x else s.portEnd j := sget_sset _ _ _ _ _
@[simp] theorem State.setDie_die (d j : Nat) (x : DieState) : (s.setDie d x).die j = if j = d then x else s.die j := sget_sset _ _ _ _ _
@[simp] theorem State.setSq_sq (q j : Nat) (x : HostQueue) : (s.setSq q x).sq j = if j = q then x else s.sq j := sget_sset _ _ _ _ _
@[simp] theorem State.setCq_cq (q j : Nat) (x : HostQueue) : (s.setCq q x).cq j = if j = q then x else s.cq j := sget_sset _ _ _ _ _
@[simp] theorem State.setFunc_func (f j : Nat) (x : PcieFunc) : (s.setFunc f x).func j = if j = f then x else s.func j := sget_sset _ _ _ _ _
@[simp] theorem State.setRequest_request (i j : Nat) (x : Request) : (s.setRequest i x).request j = if j = i then x else s.request j := sget_sset _ _ _ _ _
@[simp] theorem State.setRing_ring (i j : Nat) (x : Ring) : (s.setRing i x).ring j = if j = i then x else s.ring j := sget_sset _ _ _ _ _
@[simp] theorem State.setPool_pool (p j : Nat) (x : Pool) : (s.setPool p x).pool j = if j = p then x else s.pool j := sget_sset _ _ _ _ _
@[simp] theorem State.setCtx_ctx (c j : Nat) (x : Ctx) : (s.setCtx c x).ctx j = if j = c then x else s.ctx j := sget_sset _ _ _ _ _
@[simp] theorem State.setWheel_wheel (w j : Nat) (x : WheelUnit) : (s.setWheel w x).wheel j = if j = w then x else s.wheel j := sget_sset _ _ _ _ _
@[simp] theorem State.setInst_inst (i j : Nat) (x : RegInst) : (s.setInst i x).inst j = if j = i then x else s.inst j := sget_sset _ _ _ _ _
@[simp] theorem State.setMgmt_mgmt (n j : Nat) (x : MgmtSession) : (s.setMgmt n x).mgmt j = if j = n then x else s.mgmt j := sget_sset _ _ _ _ _
@[simp] theorem State.setTilePower_tilePower (t j : Nat) (x : TilePower) : (s.setTilePower t x).tilePower j = if j = t then x else s.tilePower j := sget_sset _ _ _ _ _
@[simp] theorem State.setTileTherm_tileTherm (t j : Nat) (x : TileTherm) : (s.setTileTherm t x).tileTherm j = if j = t then x else s.tileTherm j := sget_sset _ _ _ _ _
@[simp] theorem State.setCyc_cyc (d j : Nat) (x : CycleState) : (s.setCyc d x).cyc j = if j = d then x else s.cyc j := sget_sset _ _ _ _ _

@[simp] theorem State.setSlot_slot (b c : Bool) (x : Slot) : (s.setSlot b x).slot c = if c = b then x else s.slot c := by
  cases b <;> cases c <;> rfl
@[simp] theorem Tile.setQ_q (x : Tile) (q j : Nat) (v : TileQueue) : (x.setQ q v).q j = if j = q then v else x.q j := sget_sset _ _ _ _ _
@[simp] theorem PortEnd.setGroup_group (x : PortEnd) (g j : Nat) (v : LaneGroup) : (x.setGroup g v).group j = if j = g then v else x.group j :=
  sget_sset _ _ _ _ _
@[simp] theorem State.raise_raised (f : FaultReq) : (s.raise f).faults.raised = s.faults.raised ++ [f] := rfl
@[simp] theorem State.occur_occurrences (n : Nat) : (s.occur n).reg.occurrences = s.reg.occurrences ++ [n] := rfl
@[simp] theorem State.due_due (c : Completion) : (s.due c).host.due = s.host.due ++ [c] := rfl

end Sys2Proof.Machine
end

