-- ==== Sys2Proof/Tests/Slice0.lean ====
section
/-! SUPPORT.  Tests of one command each on small states, ill-formed commands that `Instr.wf` refuses, and for every statement
with hypotheses a state and operands that meet them.  Expected values come from the spec's rules and tables. -/
namespace Sys2Proof.Tests
open Sys2Proof Sys2Proof.Machine
set_option Elab.async false

/-! ## Ill-formed commands: one for each check -/

theorem test_wf_lane_end : (Instr.firing { lanes := [(30, {})] }).wf = false ∧ (Instr.firing { lanes := [(29, {})] }).wf = true := by decide
theorem test_wf_measured : (Instr.firing { measured := [0, 0, 0, 0, 0, 0] }).wf = false ∧ (Instr.firing { measured := [0, 0, 0, 0, 0] }).wf = true := by decide
theorem test_wf_queue : (Instr.cancel 1024).wf = false ∧ (Instr.cancel 1023).wf = true := by decide
theorem test_wf_message : (Instr.close { session := 2 ^ 32 } []).wf = false ∧ (Instr.close { seq := 2 ^ 64 } []).wf = false ∧
    (Instr.fwPut {} (List.replicate 1369 0)).wf = false ∧ (Instr.fwPut {} (List.replicate 1368 0)).wf = true := by decide +kernel
theorem test_wf_tile : (Instr.slabLoad 32).wf = false ∧ (Instr.slabLoad 31).wf = true ∧ (Instr.cedeExpiry 0 4).wf = false ∧
    (Instr.klnTqTail .mint 0 4 0).wf = false ∧ (Instr.abandonActed 0 (2 ^ 32)).wf = false ∧ (Instr.dmaTransferDone 0 2).wf = false := by decide
theorem test_wf_master : (Instr.flush (.func 9) 0 0).wf = false ∧ (Instr.flush (.peer 4) 0 0).wf = false ∧ (Instr.flush .ohmis 0 0).wf = true := by decide
theorem test_wf_tally : (Instr.tallyBroken ⟨16384, .corrected⟩).wf = false ∧ (Instr.hrtTallyValWrite .mint 16384 0).wf = false := by decide
theorem test_wf_hearth : (Instr.hrtTallyStatClear .mint 4 0).wf = false ∧ (Instr.ownershipRequest 4 ⟨0, true, .clean⟩).wf = false ∧
    (Instr.ownershipRequest 3 ⟨2 ^ 48, true, .clean⟩).wf = false ∧ (Instr.homeSideAccess (2 ^ 48) true).wf = false := by decide
theorem test_wf_vault : (Instr.patrolRead 2 .clean).wf = false ∧ (Instr.accountingWindowEnd 48 [] 0).wf = false ∧
    (Instr.accountingWindowEnd 47 (List.replicate 9 0) 0).wf = false := by decide
theorem test_wf_request : (Instr.deadline 65536).wf = false ∧ (Instr.longOperationDone (2 ^ 32) []).wf = false ∧ (Instr.stepBoundary 65536).wf = false ∧
    (Instr.pagesFreed 8).wf = false ∧ (Instr.ringReadIndex 9 0 0).wf = false := by decide
theorem test_wf_stream : (Instr.streamClosed 256).wf = false ∧ (Instr.frameReceive { port := 4 }).wf = false ∧
    (Instr.frameReceive { port := 0, bytes := List.replicate 9237 0 }).wf = false := by decide +kernel
theorem test_wf_link : (Instr.laneFail 30 0).wf = false ∧ (Instr.laneFail 29 68).wf = false ∧ (Instr.nakReplay 0 8 0).wf = false ∧
    (Instr.nakReplay 0 0 4096).wf = false ∧ (Instr.portTrained 15 {} {}).wf = false := by decide
theorem test_wf_flit : ({ cls := 8 } : Flit).wf = false ∧ ({ part := 16 } : Flit).wf = false ∧ ({ payload := List.replicate 65 0 } : Flit).wf = false ∧
    ({ got := some (List.replicate 71 0) } : Flit).wf = false ∧ ({ cls := 7, part := 15, payload := List.replicate 64 0, got := some (List.replicate 72 0) } : Flit).wf = true := by decide
theorem test_wf_access : (⟨.func 0, .bar0 (2 ^ 24), false, 0, false⟩ : RegAccess).wf = false ∧ (⟨.func 0, .bar2 (2 ^ 26), false, 0, false⟩ : RegAccess).wf = false ∧
    (⟨.func 0, .window 0, false, 0, false⟩ : RegAccess).wf = false ∧ (⟨.mint, .bar0 0, false, 0, false⟩ : RegAccess).wf = false ∧
    (⟨.mint, .window (2 ^ 48), false, 0, false⟩ : RegAccess).wf = false ∧ (⟨.mint, .window (2 ^ 48 - 1), false, 0, false⟩ : RegAccess).wf = true := by decide
theorem test_wf_die : (Instr.forwardedClockLoss 10).wf = false ∧ (Instr.idcode 11).wf = false ∧ (Instr.bypass 10 256).wf = false := by decide
theorem test_wf_bar4 : (Instr.bar4Read 9 0 0).wf = false ∧ (Instr.bar4Read 8 (2 ^ 40) 0).wf = false ∧ (Instr.bar4Read 8 0 4097).wf = false ∧
    (Instr.bar4Read 8 0 4096).wf = true := by decide
theorem test_wf_function : (Instr.flr 9).wf = false ∧ (Instr.msixUnmask 8 256).wf = false ∧ (Instr.linkDown (.d3hot 9)).wf = false := by decide
theorem test_wf_frame : (Instr.mgmtFrameForward 2 false true []).wf = false ∧ (Instr.mgmtFrameForward 1 false true (List.replicate 1523 0)).wf = false := by decide +kernel
theorem test_wf_inputs : (Instr.tachWindow (2 ^ 17)).wf = false ∧ (Instr.coolingStepChange 4).wf = false ∧ (Instr.sidebandLongHold 4).wf = false ∧
    (Instr.chatter 6).wf = false ∧ (Instr.railOutOfRange 13 true).wf = false := by decide
theorem test_wf_events : (Instr.evcPend .mint 64 0).wf = false ∧ (Instr.evcRoute .mint 2048 0).wf = false ∧ (Instr.evcCoal .mint 256 0).wf = false ∧
    (Instr.coalesceTimer 9 0).wf = false := by decide
theorem test_wf_faults : (Instr.faultRecord (some { source := 512 })).wf = false ∧ (Instr.faultRecord (some { source := 511, owner := 9 })).wf = false ∧
    (Instr.fltSrcStatClear .mint 16 0).wf = false ∧ (Instr.switchOver 415).wf = false ∧ (Instr.switchOver 0xFFFF).wf = true := by decide
theorem test_wf_power : (Instr.dvfsStep (.slower 32 [])).wf = false ∧ (Instr.dvfsStep (.railUp 4)).wf = false ∧ (Instr.throttleStep 32).wf = false ∧
    (Instr.shutdownRecovery 11).wf = false := by decide
theorem test_wf_update : (Instr.fwApplyDone true true [0, 0, 0]).wf = false ∧ (Instr.openingTimeout 8 0).wf = false ∧ (Instr.mgmtSessionIdle 4).wf = false ∧
    (Instr.configSpaceWrite 0 (.bar4Size 64)).wf = false ∧ (Instr.mcGroupResumed 6).wf = false := by decide

/-! ## A live module -/

/-- Partition 0 belongs to the PF, partition 1 is CONFIDENTIAL and belongs to function 1. -/
def part0 : PartRec :=
  { tiles := 0xFF00, func := 0, wheels := 2, dram := [⟨4, 4⟩], sq := ⟨8, 8⟩, cq := ⟨8, 8⟩, req := ⟨2, 2⟩, tally := ⟨1, 1⟩, ctx := ⟨4, 4⟩ }
def part1 : PartRec :=
  { tiles := 0xFF, func := 1, confidential := true, wheels := 1, dram := [⟨0, 4⟩], sq := ⟨0, 8⟩, cq := ⟨0, 8⟩, req := ⟨0, 2⟩, tally := ⟨0, 1⟩, ctx := ⟨0, 4⟩ }
/-- A module that has fired, with its link up, every die ready, both functions enabled, the standby synchronised and one ADMIN session. -/
def live : State := { State.reset with
  mould := { fired := true, parts := [(0, part0), (1, part1)], totalVfs := 1
             wins := [(0, { bar4Log2 := 30, hosts := [⟨0, 0x40000⟩] }), (1, { bar4Log2 := 30, hosts := [⟨0x40000, 0x40000⟩] })] }
  links := { rootLock := true, dies := (List.range 10).map (fun d => (d, .ready)), ends := (List.range 30).map (fun e => (e, { up := true, width := 3, trainedOnce := true })), fwdOk := 0x3FF }
  host := { linkUp := true, vfEnable := true, funcs := [(0, { mse := true, bme := true }), (1, { mse := true, bme := true })] }
  islands := { stB := .sync, selfCycles := 64 }
  sec := { identityOk := true, trngOk := true, enginesOk := true, mgmt := [(0, { opened := true, session := 7, admin := true })] }
  mem := { ecc := true } }
/-- `live` with tile 0 as given. -/
def onTile (x : Tile) : State := { live with tiles := [(0, x)] }
/-- A descriptor: OPCODE in byte 0, FLAGS in byte 1, and fields as byte offset, length, value. -/
def desc (op flags : Nat) (fs : List (Nat × Nat × Nat)) : BitVec 512 :=
  BitVec.ofNat 512 (op + 256 * flags + (fs.map (fun f => f.2.2 * 256 ^ f.1)).sum)
/-- A forwarded command of queue q: its bytes from 16 on as fields. -/
def cmd (fn q op : Nat) (fs : List (Nat × Nat × Nat)) : Forwarded :=
  { fn := fn, sq := q, cid := 5, opcode := op, body := toLE 48 (fs.map (fun f => f.2.2 * 256 ^ (f.1 - 16))).sum }
/-- `live` with one forwarded command. -/
def told (f : Forwarded) : State := { live with host := { live.host with forwarded := [f] } }
/-- A message of the ADMIN session. -/
def hdr : MsgHdr := { session := 7, seq := 0 }

theorem awaits_of {s : State} {q op : Nat} {f : Forwarded} (h : s.teller.held = false ∧ s.forwardedAt q op = some f ∧ (tellerOp op = true → s.turn (s.sqPart q) = some q)) :
    s.Awaits q op f := ⟨h.1, h.2.1, h.2.2⟩
theorem speaks_of {s : State} {h : MsgHdr} {n : Nat} {a : Bool}
    (w : s.mgmtUp = true ∧ s.peerOf h.session = some n ∧ h.tagOk = true ∧ (s.mgmt n).seqIn ≤ h.seq ∧ (a = true → (s.mgmt n).admin = true)) : Speaks s h n a :=
  ⟨w.1, w.2.1, w.2.2.1, w.2.2.2.1, w.2.2.2.2⟩
theorem reaches_of {s : State} {x : RegAccess} {r : Reg} (a : Nat) (h : locAddr x.loc = some a) (ha : s.reg.armed = []) (hd : s.reg.dual = [])
    (w : accReg? x = some r ∧ locFits x.loc x.master = true ∧ s.masterOpen x.master = true ∧ x.poisoned = false ∧ s.regUp x.master a = true ∧ s.canWrite x.master r = true) :
    Reaches s x r where
  reg := w.1
  fits := w.2.1
  path := w.2.2.1
  clean := w.2.2.2.1
  up b hb := by rw [h, Option.some.injEq] at hb; rw [← hb]; exact w.2.2.2.2.1
  may := w.2.2.2.2.2
  noPair b := by simp [State.armedIn, ha]
  noDual b hb := by simp [hd] at hb
theorem passes_of {s : State} {x : RegAccess} {r : Reg} (h : Reaches s x r) (w : (r.group.all (fun g => !s.pairMode g)) = true ∧ s.privileged x.master = true) : Passes s x r where
  toReaches := h
  mode g hg := by
    have := w.1
    rw [hg] at this
    simpa using this
  priv := w.2

theorem owners_of {s : State} (h : s.mem.dir = []) : s.OwnersHold := by
  intro line
  simp [State.ownerGone, State.dirOf, h, owned]

/-- The outcome is a next state of which p holds. -/
def gives (o : Host.Outcome State Fault Refusal) (p : State → Bool) : Bool := match o with | .next t => p t | _ => false

/-! ## Witnesses: the machine and the event collector -/

theorem witness_StepKeepsInvariant : ∃ s t : State, s.Inv ∧ step s = .next t :=
  ⟨State.reset, State.reset, ⟨by decide, (fun _ h => nomatch h), (fun _ h => nomatch h)⟩, rfl⟩
theorem witness_EmptyQueueIdles : live.pending = [] ∧ ∀ e < 30, (live.portEnd e).rearm = false := by decide
/-- Source 1024 (tile 0's completion) of function 1 has occurred, routed to vector 3. -/
def occurred : State := { live with reg := { occurrences := [1024], routes := [(1024, { vector := 3, en := true })] } }
theorem witness_OccurrencesCoalesce_counted : ∃ (s : State) (x k : Nat) (rest : List Nat), s.reg.sleeping = false ∧ s.reg.occurrences = x :: rest ∧ s.srcVec x = some k :=
  ⟨occurred, 1024, 259, [], by decide⟩
theorem witness_OccurrencesCoalesce_unrouted : ∃ (s : State) (x : Nat) (rest : List Nat), s.reg.sleeping = false ∧ s.reg.occurrences = x :: rest ∧ s.srcVec x = none :=
  ⟨{ occurred with reg := { occurred.reg with routes := [] } }, 1024, [], by decide⟩
/-- Vector 3 of function 1 counts, its timer at TIME exactly. -/
def timing (o : Bool) : State := { live with reg := { coal := [(259, { count := 9, time := 2 })], vecs := [(259, { timing := true, since := 0, occurred := 1, outstanding := o, sent := o })] }
                                             links := { live.links with aoCount := 128 } }
theorem witness_OccurrencesCoalesce_timer (o : Bool) : ∃ (s : State) (f e : Nat), s.reg.sleeping = false ∧ (s.vec (vecKey f e)).timing = true ∧
    (s.coal (vecKey f e)).time * 64 ≤ s.links.aoCount.toNat - (s.vec (vecKey f e)).since ∧ (s.vec (vecKey f e)).outstanding = o :=
  ⟨timing o, 1, 3, by cases o <;> decide⟩
theorem witness_CollectorSleepAndWake_sleep : ∃ s : State, s.receivable = false ∧ s.reg.sleeping = false ∧ s.reg.occurrences = [] := ⟨State.reset, by decide⟩
theorem witness_CollectorSleepAndWake_wake : ∃ s : State, s.receivable = true ∧ s.reg.sleeping = true :=
  ⟨{ live with reg := { sleeping := true } }, by decide⟩
theorem witness_EventRegistersAndUnmask_view : ∃ (s : State) (f : Nat) (v : Word), s.barOpen f = true ∧ s.funcLive f = true ∧ s.reg.sleeping = false ∧
    (s.vec (vecKey f (v.toNat % 256))).outstanding = true ∧ (s.vec (vecKey f (v.toNat % 256))).sent = true ∧
    (s.vec (vecKey f (v.toNat % 256))).reached (s.coal (vecKey f (v.toNat % 256))) s.links.aoCount.toNat = false := ⟨{ timing true with links := live.links }, 1, 3, by decide⟩
theorem witness_EventRegistersAndUnmask_unsent : ∃ (s : State) (f : Nat) (v : Word), s.barOpen f = true ∧ s.funcLive f = true ∧ s.reg.sleeping = false ∧
    (s.vec (vecKey f (v.toNat % 256))).outstanding = true ∧ (s.vec (vecKey f (v.toNat % 256))).sent = false :=
  ⟨{ live with reg := { vecs := [(259, { outstanding := true })] } }, 1, 3, by decide⟩
theorem witness_EventRegistersAndUnmask_route : ∃ (s : State) (f x : Nat), s.barOpen f = true ∧ s.funcLive f = true ∧ s.reg.sleeping = false ∧
    1024 ≤ x ∧ x < 2048 ∧ s.srcFunc x = f := ⟨live, 1, 1024, by decide⟩
theorem witness_EventRegistersAndUnmask_coal : ∃ (s : State) (f e : Nat), s.barOpen f = true ∧ s.funcLive f = true ∧ s.reg.sleeping = false ∧
    e < tableSize f ∧ (s.vec (vecKey f e)).occurred = 0 ∧ (s.vec (vecKey f e)).timing = false := ⟨live, 1, 223, by decide⟩
theorem witness_EventRegistersAndUnmask_unmask : ∃ (s : State) (f e : Nat), f ≤ 8 ∧ e < tableSize f ∧ e ∈ (s.func f).pba ∧ (s.func f).funcMask = false ∧ s.funcQuiet f = false :=
  ⟨{ live with host := { live.host with funcs := [(1, { mse := true, bme := true, pba := [223] })] } }, 1, 223, by decide⟩

/-! ## Witnesses: faults, the Ledger and the islands -/

theorem witness_LedgerTailWindowAndRead_read : ∃ (s : State) (p : Posted), s.reg.posted.find? (fun p => p.block = faultBlock) = some p :=
  ⟨{ live with reg := { posted := [⟨faultBlock, 0, 1, .ohmis⟩] } }, _, rfl⟩
/-- Source 307 raised, with the given records in the system queue. -/
def raised (l : List LedgerRec) : State := { live with faults := { raised := [{ source := 307 }], queues := if l = [] then [] else [(8, l)] } }
set_option maxRecDepth 4000 in
/-- A new source meets an empty queue, one with a record of its class, and a full one. -/
theorem witness_FaultRecords_new (l : List LedgerRec) (hl : l ∈ [[], [{ source := 300, cls := 0 }], List.replicate 64 { source := 300, cls := 2 }]) :
    ∃ (s : State) (f : FaultReq) (rest : List FaultReq), s.links.rootLock = true ∧ s.faults.raised = f :: rest ∧ srcReserved f.source = false ∧
    (s.faultQueue (s.srcOwner f)).find? (fun r => r.source = f.source) = none ∧
    (escalate (s.faultQueue (s.srcOwner f)) (s.srcOwner f) (f.cls.getD (srcClass f.source))
      (stronger ((s.mould.reactions[f.source]?).getD 0) (factoryReaction f.source))).2.2 = 0 ∧
    32 ≤ f.source ∧ within f.source 181 228 = false ∧ within f.source 279 282 = false ∧ s.faultQueue (s.srcOwner f) = l := by
  refine ⟨raised l, { source := 307 }, [], ?_⟩
  simp only [List.mem_cons, List.not_mem_nil, or_false] at hl
  rcases hl with rfl | rfl | rfl <;> decide +kernel
theorem witness_FaultRecords_again : ∃ (s : State) (f : FaultReq) (r : LedgerRec) (rest : List FaultReq), s.links.rootLock = true ∧ s.faults.raised = f :: rest ∧
    srcReserved f.source = false ∧ (s.faultQueue (s.srcOwner f)).find? (fun x => x.source = f.source) = some r ∧ r.reaction = 0 ∧
    32 ≤ f.source ∧ within f.source 181 228 = false ∧ within f.source 279 282 = false :=
  ⟨raised [{ source := 307 }], { source := 307 }, { source := 307 }, [], by decide⟩
theorem witness_FaultRecords_detected : ∃ (s : State) (f : FaultReq), s.links.rootLock = true ∧ (s.detect f).links.rootLock = true ∧ srcReserved f.source = false :=
  ⟨live, { source := 307 }, by decide⟩
theorem witness_AcknowledgeAndClear_ack : ∃ (s : State) (f : Nat) (v : Word) (r : LedgerRec) (rest : List LedgerRec), s.barOpen f = true ∧ s.funcLive f = true ∧
    s.funcPart f < 8 ∧ s.faultQueue (s.funcPart f) = r :: rest ∧ r.seq = v.toNat :=
  ⟨{ live with faults := { queues := [(1, [{ seq := 9 }])] } }, 1, 9, { seq := 9 }, [], by decide⟩
theorem witness_AcknowledgeAndClear_auto : ∃ (s : State) (n : Nat), s.islands.noneActive = false ∧ s.islands.gap = none ∧
    (s.ledger.tail ++ s.ledger.ring).any (fun r => r.seq == n) = true := ⟨{ live with ledger := { tail := [{ seq := 4 }] } }, 4, by decide⟩
/-- Source 308 persists while the module runs on the other slot's mould; source 307 does not. -/
def statBits : State := { live with mould := { live.mould with fallback := true }, faults := { srcStat := (3 : BitVec 512) <<< 307 } }
theorem witness_AcknowledgeAndClear_clear : ∃ (s : State) (w b : Nat), s.barOpen 0 = true ∧ w < 16 ∧ b < 32 ∧ s.faults.srcStat.getLsbD (32 * w + b) = true ∧
    s.persists (32 * w + b) = false := ⟨statBits, 9, 19, by decide +kernel⟩
theorem witness_AcknowledgeAndClear_persists : ∃ (s : State) (w b : Nat), s.barOpen 0 = true ∧ w < 16 ∧ b < 32 ∧ s.faults.srcStat.getLsbD (32 * w + b) = true ∧
    s.persists (32 * w + b) = true := ⟨statBits, 9, 20, by decide +kernel⟩
theorem witness_HeartbeatAndFaultPin_toggles : ∃ s : State, s.links.rootLock = true ∧ s.power.holdup = false ∧
    s.faults.strobed = true ∧ s.safetyFault = false ∧ s.islands.noneActive = false ∧ s.power.coolShutdown = false :=
  ⟨{ live with faults := { strobed := true } }, by decide +kernel⟩
theorem witness_HeartbeatAndFaultPin_stays : ∃ s : State, s.links.rootLock = true ∧ s.power.holdup = false ∧ s.faults.strobed = false := ⟨live, by decide⟩
theorem witness_HeartbeatAndFaultPin_strobe : ∃ s : State, s.islands.noneActive = false ∧ s.islands.gap = none ∧ s.mould.fired = true := ⟨live, by decide⟩
theorem witness_HeartbeatAndFaultPin_group : (5 : Nat) < 6 := by decide
theorem witness_ControlCycles_copy : ∃ s : State, s.islands.noneActive = false ∧ s.islands.copySent = true ∧ s.islands.st s.islands.standby = .sync :=
  ⟨{ live with islands := { live.islands with copySent := true } }, by decide⟩
theorem witness_ControlCycles_reset : ∃ (s : State) (b : Bool), s.islands.gap = none ∧ s.mould.fired = true ∧ s.islands.noneActive = false ∧ b ≠ s.islands.activeB :=
  ⟨live, true, by decide⟩
theorem witness_SwitchOver_opens : ∃ (s : State) (src : Nat), s.islands.noneActive = false ∧ s.mould.fired = true ∧ s.islands.gap = none ∧ 416 ≤ src ∧ src ≤ 423 ∧
    (src % 2 == 1) = s.islands.activeB ∧ s.islands.st s.islands.standby = .sync := ⟨live, 416, by decide⟩
theorem witness_SwitchOver_done : ∃ (s : State) (src : Nat), s.islands.gap = some src ∧ s.islands.planned = false ∧ s.islands.swap = false :=
  ⟨{ live with islands := { live.islands with gap := some 416 } }, 416, by decide⟩
theorem witness_SwitchOver_handBack : ∃ s : State, s.islands.noneActive = false ∧ s.islands.activeB = true ∧ s.islands.gap = none ∧ s.islands.pinned = false ∧
    s.islands.stA = .sync ∧ 64 ≤ s.islands.selfCycles ∧ s.update.holding = false :=
  ⟨{ live with islands := { activeB := true, stA := .sync, selfCycles := 64 } }, by decide⟩
theorem witness_SwitchOver_none : ∃ s : State, s.islands.noneActive = true := ⟨{ live with islands := { noneActive := true } }, rfl⟩
theorem witness_SidebandInputs_hold : ∃ (s : State) (n : Nat), n < 4 ∧ s.host.sbActive.getLsbD (longInput n) = true :=
  ⟨{ live with host := { live.host with sbActive := 0x7F } }, 3, by decide⟩
theorem witness_SidebandInputs_chatter : ∃ s t : State, s.host.sbChattering.getLsbD 5 = false ∧ t.host.sbChattering.getLsbD 5 = true :=
  ⟨live, { live with host := { live.host with sbChattering := 0x20 } }, by decide⟩
theorem witness_SidebandInputs_smbus : ∃ s t : State, s.host.smbusBusy = true ∧ s.host.smbusAborts < 2 ∧ t.host.smbusBusy = true ∧ 2 ≤ t.host.smbusAborts :=
  ⟨{ live with host := { live.host with smbusBusy := true, smbusAborts := 1 } }, { live with host := { live.host with smbusBusy := true, smbusAborts := 2 } }, by decide⟩

/-! ## Witnesses: the Efrok links -/

/-- Port 0 is up at full width at both ends, with the given marks. -/
def linked (x : PortEnd) : State := { live with links := { live.links with ends := [(0, x), (1, x)] } }
/-- Both ends of port 0, each its own. -/
def ends (x y : PortEnd) : State := { live with links := { live.links with ends := [(0, x), (1, y)] } }
/-- An end that is up at full width with one group as given. -/
def grouped (g : Nat) (y : LaneGroup) : PortEnd := { up := true, width := 3, groups := [(g, y)] }
def flit : Flit := { cls := 4, payload := List.replicate 64 7, waiting := [(4, 0)] }
theorem witness_FlitsAndReplay_bad : ∃ (s : State) (e g : Nat) (f : Flit), e < 30 ∧ (s.portEnd e).groupUp g = true ∧ (s.portEnd (farEnd e)).groupUp g = true ∧
    ((s.portEnd e).group g).bad.length < 15 ∧ ((s.portEnd (farEnd e)).group g).again = none ∧ (s.portEnd (farEnd e)).maySend (s.firstClass (farEnd e) f) g f = true ∧ f.got = none ∧ f.cls < 5 ∧
    ((s.portEnd (farEnd e)).group g).sendSeq ≠ ((s.portEnd e).group g).expectSeq :=
  ⟨ends (grouped 7 {}) (grouped 7 { expectSeq := 4095 }), 1, 7, flit, by decide⟩
theorem witness_FlitsAndReplay_good : ∃ (s : State) (e g : Nat) (f : Flit), e < 30 ∧ (s.portEnd e).groupUp g = true ∧ (s.portEnd (farEnd e)).groupUp g = true ∧
    ((s.portEnd e).group g).bad.length < 15 ∧ ((s.portEnd (farEnd e)).group g).again = none ∧ (s.portEnd (farEnd e)).maySend (s.firstClass (farEnd e) f) g f = true ∧ f.got = none ∧ f.cls < 5 ∧
    ((s.portEnd (farEnd e)).group g).nakOwed = false ∧ ((s.portEnd (farEnd e)).group g).sendSeq = ((s.portEnd e).group g).expectSeq :=
  ⟨ends (grouped 7 { acked := 4095 }) (grouped 7 { expectSeq := 4095 }), 1, 7, flit, by decide⟩
theorem witness_FlitsAndReplay_again : ∃ (s : State) (e g q : Nat), e < 30 ∧ q < 4096 ∧ (s.portEnd e).groupUp g = true ∧ (s.portEnd e).nakFits g q = true ∧
    ¬ (((s.portEnd e).group g).nakSeq = q ∧ 7 ≤ ((s.portEnd e).group g).nakRun) :=
  ⟨ends (grouped 0 { acked := 4095, sent := [⟨4, 0, []⟩, ⟨0, 1, []⟩] }) {}, 0, 0, 0, by decide⟩
theorem witness_FlitsAndReplay_eighth : ∃ (s : State) (e g q : Nat), e < 30 ∧ q < 4096 ∧ (s.portEnd e).groupUp g = true ∧ (s.portEnd e).nakFits g q = true ∧
    ((s.portEnd e).group g).nakSeq = q ∧ 7 ≤ ((s.portEnd e).group g).nakRun ∧ (s.portEnd e).repairing = false ∧ ((s.portEnd (farEnd e)).group g).bad = [] :=
  ⟨ends (grouped 0 { acked := 4095, nakSeq := 4095, nakRun := 7 }) {}, 0, 0, 4095, by decide⟩
theorem witness_FlitsAndReplay_stopped : ∃ (s : State) (e g : Nat), e < 30 ∧ ((s.portEnd e).group g).stopped = true := ⟨ends (grouped 0 { stopped := true }) {}, 0, 0, by decide⟩
theorem witness_PortsTrainRepairAndFence_down : ∃ (s : State) (e lane : Nat), e < 30 ∧ lane < portLanes (e / 2) + 4 ∧ (s.portEnd e).up = false := ⟨linked {}, 1, 67, by decide⟩
theorem witness_PortsTrainRepairAndFence_lane : ∃ (s : State) (e lane g : Nat), e < 30 ∧ lane < portLanes (e / 2) + 4 ∧ (s.portEnd e).up = true ∧
    propose (portLanes (e / 2)) (((s.portEnd e).mark (portLanes (e / 2)) lane).working (portLanes (e / 2))) ≠ 0 ∧ (s.portEnd e).groupOf (portLanes (e / 2)) lane = some g :=
  ⟨linked { up := true, width := 3 }, 1, 63, 7, by decide⟩
theorem witness_PortsTrainRepairAndFence_below : ∃ (s : State) (e lane : Nat), e < 30 ∧ lane < portLanes (e / 2) + 4 ∧ (s.portEnd e).up = true ∧
    propose (portLanes (e / 2)) (((s.portEnd e).mark (portLanes (e / 2)) lane).working (portLanes (e / 2))) = 0 :=
  ⟨linked { up := true, width := 1, spareFail := 15, laneFail := 0xFFFFFFFFFFFF0000 }, 1, 0, by decide⟩
theorem witness_PortsTrainRepairAndFence_fence : ∃ (s : State) (j : Nat), j < 8 ∧ ∀ shut, (s.closePort j shut).Routed :=
  ⟨live, 7, by decide, by unfold State.Routed; decide⟩
theorem witness_PortsTrainRepairAndFence_repair : ∃ (s : State) (e : Nat), e < 30 ∧ (s.portEnd e).up = true ∧ (s.portEnd e).repairing = true ∧ (s.portEnd e).narrowTo = 0 :=
  ⟨linked { up := true, width := 3, repairing := true }, 0, by decide⟩
theorem witness_PortsTrainRepairAndFence_narrow : ∃ (s : State) (e : Nat), e < 30 ∧ (s.portEnd e).up = true ∧ (s.portEnd e).repairing = true ∧ (s.portEnd e).narrowTo ≠ 0 :=
  ⟨linked { up := true, width := 3, repairing := true, narrowTo := 2 }, 0, by decide⟩
theorem witness_PortsTrainRepairAndFence_trained : ∃ (s : State) (j : Nat), j < 8 ∧ s.links.rootLock = true ∧ (∀ e ∈ [2 * j, 2 * j + 1], (s.portEnd e).en = true ∧
    (s.portEnd e).training = true ∧ (s.portEnd e).fromReset = true ∧ (s.portEnd e).disagree = false ∧ (s.portEnd e).laneFail = 0 ∧ (s.portEnd e).spareFail = 0) :=
  ⟨linked { training := true, fromReset := true }, 0, by decide⟩

/-! ## Witnesses: clocks, die resets, test access -/

theorem witness_ClockLossAndReturn_lost : ∃ s t : State, s.links.rootLock = true ∧ t.links.rootLost = true := ⟨live, { live with links := { rootLost := true } }, by decide⟩
theorem witness_ClockLossAndReturn_die : ∃ (s : State) (d : Nat), d < 10 ∧ s.links.rootLock = true ∧ s.die d ≠ .fenced := ⟨live, 9, by decide⟩
theorem witness_ClockLossAndReturn_back : ∃ (s : State) (d : Nat), d < 10 ∧ s.links.rootLock = true ∧ s.die d = .noClock := ⟨live.setDie 9 .noClock, 9, by decide⟩
/-- A write of the mint's own hardware at an offset of its window. -/
def mintWrite (ofs v : Nat) : RegAccess := { master := .mint, loc := .window (dieWindow 10 + ofs), value := BitVec.ofNat 64 v }
theorem reaches_DieReset (n : Nat) : Reaches live (mintWrite 0x2100010 n) (.clk 2) := reaches_of _ rfl rfl rfl ⟨rfl, rfl, rfl, rfl, rfl, rfl⟩
theorem witness_DieResets_write : ∃ (s : State) (x : RegAccess) (d : Nat), d < 10 ∧ Passes s x (.clk 2) ∧ (accVal x).toNat % 2 ^ 32 = 2 ^ d ∧ s.die d ≠ .fenced :=
  ⟨live, mintWrite 0x2100010 512, 9, by decide, passes_of (reaches_DieReset 512) (by decide), by decide, by decide⟩
/-- The write meets a die that resets, and one without its clock. -/
theorem witness_DieResets_latch : ∀ d ∈ [DieState.training, .noClock], ∃ (s : State) (x : RegAccess), Passes s x (.clk 2) ∧ (accVal x).toNat % 2 ^ 32 = 2 ^ 9 ∧ s.die 9 = d := by
  intro d h
  refine ⟨live.setDie 9 d, mintWrite 0x2100010 512, passes_of (reaches_of _ rfl rfl rfl ?_) ?_, ?_, ?_⟩ <;> (revert d; decide)
theorem witness_DieResets_begin : ∃ (s : State) (d : Nat) (rest : List Nat), s.links.resetDue = d :: rest ∧ d < 10 ∧ 4 ≤ d ∧ s.die d = .ready :=
  ⟨{ live with links := { live.links with resetDue := [8] } }, 8, [], by decide⟩
theorem witness_DieResets_ready : ∃ (s : State) (d : Nat), 8 ≤ d ∧ d < 10 ∧ (s.die d).resetting = true ∧ d ∉ s.links.resetDue ∧ s.links.rootLock = true ∧ s.links.fwdOk.getLsbD d = true ∧
    (s.cyc d).shutdown = false ∧ (s.portEnd (2 * mintPort d)).up = true ∧ s.links.rearm.getLsbD d = false :=
  ⟨(live.setDie 8 .training).setPortEnd (2 * mintPort 8) { up := true, width := 3 }, 8, by decide⟩
theorem witness_DieResets_kiln : ∃ (s : State) (d : Nat), d < 4 ∧ (s.die d).resetting = true ∧ d ∉ s.links.resetDue ∧ s.links.rootLock = true ∧ s.links.fwdOk.getLsbD d = true ∧ (s.cyc d).shutdown = false ∧
    (s.cyc (d + 4)).shutdown = false ∧ ((s.die (d + 4)).resetting = true ∨ s.die (d + 4) = .ready) ∧ s.links.rearm.getLsbD d = false ∧ s.teller.wares = [] :=
  ⟨live.setDie 3 .training, 3, by decide⟩
theorem witness_DieResets_hearth : ∃ (s : State) (d : Nat), 4 ≤ d ∧ d < 8 ∧ (s.die d).resetting = true ∧ d ∉ s.links.resetDue ∧ s.links.rootLock = true ∧ s.links.fwdOk.getLsbD d = true ∧ (s.cyc d).shutdown = false ∧
    (s.portEnd (2 * mintPort d)).up = true ∧ s.links.rearm.getLsbD d = false ∧ s.teller.wares = [] := ⟨live.setDie 7 .training, 7, by decide⟩
theorem reaches_Port (x : PortEnd) (n : Nat) : Reaches (live.setPortEnd 16 x) (mintWrite 0x2000000 n) (.efk 16 0) :=
  reaches_of _ rfl rfl rfl ⟨rfl, rfl, rfl, rfl, rfl, rfl⟩
theorem witness_PortControl_retrain (b : Bool) : ∃ (s : State) (x : RegAccess) (e : Nat), Passes s x (.efk e 0) ∧ (accVal x).toNat % 2 ^ 32 = 3 ∧
    (s.portEnd e).en = true ∧ (s.portEnd e).up = true ∧ (s.portEnd e).repairing = false ∧ (s.portEnd e).fenced = false ∧ (s.portEnd e).shutting = false ∧
    e < 30 ∧ (s.portEnd e).training = b ∧ (s.restartPort (e / 2)).Routed :=
  ⟨live.setPortEnd 16 { up := true, width := 3, training := b }, mintWrite 0x2000000 3, 16, passes_of (reaches_Port _ 3) (by cases b <;> decide), by unfold State.Routed; cases b <;> decide⟩
theorem witness_PortControl_off : ∃ (s : State) (x : RegAccess) (e : Nat), Passes s x (.efk e 0) ∧ (accVal x).toNat % 2 ^ 32 = 0 ∧ e < 30 :=
  ⟨live.setPortEnd 16 { up := true }, mintWrite 0x2000000 0, 16, passes_of (reaches_Port _ 0) (by decide), by decide, by decide⟩
theorem witness_TestAccessPorts_tap : (10 : Nat) < 11 ∧ (0xFE : Nat) ≠ 0xFF ∧ sget 1 live.links.tapIr 0 = 0x01 := by decide
theorem witness_TestAccessPorts_instrument : ∃ s t : State, s.faults.testMode = true ∧ (s.links.tapIr.any (fun e => e.2 = 0x10)) = true ∧ t.faults.testMode = false :=
  ⟨{ live with faults := { testMode := true }, links := { live.links with tapIr := [(3, 0x10)] } }, live, by decide⟩

/-! ## Witnesses: register access -/

/-- `live` with every guard group in PRIV (1) or in PAIR (2). -/
def guardedBy (n : Nat) : State := { live with mould := { live.mould with guardModes := List.replicate 64 n } }
/-- A write of FLT_HOLD by function 0 or 1 through BAR0. -/
def holdWrite (f v : Nat) : RegAccess := { master := .func f, loc := .bar0 0x40008, value := BitVec.ofNat 64 v }
/-- A write of FLT_HOLD by peer 1, whose session is not ADMIN. -/
def monitor : State := { live with sec := { live.sec with mgmt := [(1, { opened := true, session := 8 })] } }
def peerHold : RegAccess := { master := .peer 1, loc := .window (dieWindow 10 + 0x310008), value := 1 }
theorem witness_GuardLogic_priv : ∃ (s : State) (x : RegAccess) (r : Reg) (g a : Nat), Reaches s x r ∧ locAddr x.loc = some a ∧ r.group = some g ∧
    s.pairMode g = false ∧ s.privileged x.master = false :=
  ⟨monitor, peerHold, .flt 1, 4, _, reaches_of _ rfl rfl rfl (by decide), rfl, rfl, by decide, by decide⟩
theorem witness_GuardLogic_hold : ∃ (s : State) (x : RegAccess), Passes s x (.flt 1) := ⟨live, holdWrite 0 1, passes_of (reaches_of _ rfl rfl rfl (by decide)) (by decide)⟩
theorem witness_GuardLogic_scrub : ∃ (s : State) (x : RegAccess), Passes s x (.mld 3) :=
  ⟨live, mintWrite 0x400018 0x80, passes_of (reaches_of _ rfl rfl rfl (by decide)) (by decide)⟩
theorem witness_GuardLogic_arm : ∃ (s : State) (x : RegAccess) (r : Reg) (g a : Nat), Reaches s x r ∧ locAddr x.loc = some a ∧ r.group = some g ∧ s.pairMode g = true :=
  ⟨guardedBy 2, holdWrite 0 1, .flt 1, 4, _, reaches_of _ rfl rfl rfl (by decide), rfl, rfl, by decide⟩
/-- FLT_HOLD armed by the PF. -/
def holdArmed : Armed := ⟨.func 0, addrBlock (dieWindow 10 + 0x310008), dieWindow 10 + 0x310008, 1, false, 100⟩
/-- `guardedBy 2` after the PF's first write. -/
def armed : State := { guardedBy 2 with reg := { armed := [holdArmed] }, links := { live.links with aoCount := 116 } }
/-- The second write of the pair at A + 8 with the given value. -/
def second (v : DWord) : RegAccess := { master := .func 0, loc := .bar0 0x40010, value := v }
/-- The complement at the window's last cycle, another value, and the complement too late. -/
theorem witness_GuardLogic_complement : ∃ (s : State) (x : RegAccess) (p : Armed) (a : Nat), locAddr x.loc = some a ∧ locFits x.loc x.master = true ∧
    s.masterOpen x.master = true ∧ x.poisoned = false ∧ s.armedIn x.master (addrBlock a) = some p ∧ p.addr + 8 = a ∧ s.late p = false ∧ x.wide = p.wide ∧
    accVal x = complement p.value p.wide ∧ locate p.addr p.wide = some (.flt 1, false) :=
  ⟨armed, second 0xFFFFFFFE, holdArmed, dieWindow 10 + 0x310010, rfl, rfl, rfl, rfl, by decide, by decide, by decide, rfl, by decide, by decide⟩
theorem witness_GuardLogic_otherValue : ∃ (s : State) (x : RegAccess) (p : Armed) (a : Nat), locAddr x.loc = some a ∧ locFits x.loc x.master = true ∧
    s.masterOpen x.master = true ∧ x.poisoned = false ∧ s.armedIn x.master (addrBlock a) = some p ∧ p.addr + 8 = a ∧
    ¬ (s.late p = false ∧ x.wide = p.wide ∧ accVal x = complement p.value p.wide) :=
  ⟨armed, second 1, holdArmed, dieWindow 10 + 0x310010, rfl, rfl, rfl, rfl, by decide, by decide, by decide⟩
theorem witness_GuardLogic_late : ∃ (s : State) (p : Armed), s.armedIn (second 0xFFFFFFFE).master p.block = some p ∧ s.late p = true :=
  ⟨{ armed with links := { armed.links with aoCount := 117 } }, holdArmed, by decide⟩
theorem witness_GuardLogic_timeout : ∃ (s u : State) (m : Master) (b : Nat) (p : Armed), s.armedIn m b = some p ∧ u.armedIn m b = none :=
  ⟨armed, live, .func 0, holdArmed.block, holdArmed, by decide, by decide⟩
theorem witness_DualAndPostedWrites_first : ∃ (s : State) (x : RegAccess) (r : Reg) (a : Nat), Reaches s x r ∧ locAddr x.loc = some a ∧ s.guardPasses x = true :=
  ⟨live, holdWrite 0 1, .flt 1, _, reaches_of _ rfl rfl rfl (by decide), rfl, by decide⟩
theorem witness_DualAndPostedWrites_guarded : ∃ (s : State) (x : RegAccess) (r : Reg) (a : Nat), Reaches s x r ∧ locAddr x.loc = some a ∧ s.guardPasses x = false :=
  ⟨monitor, peerHold, .flt 1, _, reaches_of _ rfl rfl rfl (by decide), rfl, by decide⟩
/-- A write of KLN_WAIT_LIMIT of tile 31 that waits for its second since count k. -/
def dualWait (k : Nat) : State := { live with reg := { dual := [⟨.mint, addrBlock (tqAddr 31 0x50), tqAddr 31 0x50, 9, false, k⟩] }, links := { live.links with aoCount := 16 } }
theorem witness_DualAndPostedWrites_second : ∃ (s : State) (v : DWord) (i k : Nat), i < 32 ∧ s.regUp .mint (tqAddr i 0x50) = true ∧ (∀ b, s.armedIn .mint b = none) ∧ s.links.aoCount.toNat ≤ k + 16 ∧
    s.reg.dual = [{ master := .mint, block := addrBlock (tqAddr i 0x50), addr := tqAddr i 0x50, value := BitVec.ofNat 64 (v.toNat % 2 ^ 32), wide := false, since := k }] :=
  ⟨dualWait 0, 9, 31, 0, by decide, by decide, fun _ => rfl, by decide, by decide⟩
theorem witness_DualAndPostedWrites_other : ∃ (s : State) (x : RegAccess) (r : Reg) (a : Nat) (p : Armed), Reaches { s with reg := { s.reg with dual := [] } } x r ∧ locAddr x.loc = some a ∧ s.guardPasses x = true ∧
    s.reg.dual = [p] ∧ p.master = x.master ∧ p.block = addrBlock a ∧ (p.addr ≠ a ∨ p.value ≠ accVal x ∨ p.wide ≠ x.wide ∨ s.late p = true) :=
  ⟨dualWait 0, { master := .mint, loc := .window (tqAddr 31 0x50), value := 8 }, .tq 31 10, _, _, reaches_of _ rfl rfl rfl (by decide), rfl, by decide, rfl, by decide, by decide, by decide⟩
theorem witness_DualAndPostedWrites_flush : ∃ (s : State) (h : Nat), h < 4 ∧ s.dieReady (4 + h) = true ∧ (∀ p ∈ s.reg.posted, p.block ≠ hearthBlock h) := ⟨live, 3, by decide⟩
theorem witness_DualAndPostedWrites_busy : ∃ (s : State) (h : Nat) (p : Posted), h < 4 ∧ s.dieReady (4 + h) = true ∧
    s.reg.posted.find? (fun p => p.block = 40 + h) = some p ∧ (∃ p ∈ s.reg.posted, p.block = hearthBlock h) :=
  ⟨{ live with reg := { posted := [⟨43, hearthAddr 3 0x18, 9, .mint⟩] } }, 3, _, by decide, by decide, rfl, _, List.mem_singleton.2 rfl, rfl⟩
theorem witness_DualAndPostedWrites_ledger : ∃ s : State, (∀ p ∈ s.reg.posted, p.block ≠ faultBlock) := ⟨live, by decide⟩
theorem witness_UnimplementedAndIndirectAccess_function : ∃ (s : State) (f : Nat) (l : RegLoc) (w : Bool), locFits l (.func f) = true ∧ s.barOpen f = true ∧
    s.funcLive f = true ∧ s.unimplemented (.func f) l w false = true ∧ s.unimplemented (.func f) l w true = true ∧ (∀ b, s.armedIn (.func f) b = none) ∧
    (∀ d ∈ s.reg.dual, d.master ≠ .func f) := ⟨live, 1, .bar0 0x900000, false, by decide, by decide, by decide, by decide, by decide, fun _ => rfl, by decide⟩
theorem witness_UnimplementedAndIndirectAccess_peer : ∃ (s : State) (n a : Nat) (w : Bool), (s.mgmt n).opened = true ∧ a < 2 ^ 48 ∧
    s.unimplemented (.peer n) (.window a) w false = true := ⟨live, 0, 2 ^ 48 - 1, false, by decide⟩
theorem witness_UnimplementedAndIndirectAccess_indirect : ∃ (s : State) (m : Master), s.masterOpen m = true ∧ (s.inst (instOf m)).heldLo = none ∧
    (s.inst (instOf m)).inc = true := ⟨live, .func 1, by decide⟩
/-- TLR_RING of entry 128 (the PF's first): its low half through MNT_DAT. -/
theorem witness_UnimplementedAndIndirectAccess_low : ∃ (s : State) (f a : Nat) (r : Reg), s.barOpen f = true ∧ s.funcLive f = true ∧ (s.inst f).heldLo = none ∧
    (s.inst f).inc = false ∧ bar0Addr (s.inst f).offset = some a ∧ locate a false = some (r, false) ∧ r.wide = true ∧
    s.unimplemented (.func f) (.bar0 (s.inst f).offset) false true = false ∧ addrBlock a ≠ addrBlock (accAddr 0) ∧
    (∀ p, s.armedIn (.func f) (addrBlock a) = some p → p.addr + 8 ≠ a) := by
  refine ⟨{ live with reg := { insts := [(0, { offset := 0x800800, inc := false })] } }, 0, dieWindow 10 + 0x1000800, .tlrRing 128 0, ?_, ?_, ?_, ?_, ?_, ?_, ?_, ?_, ?_, fun _ h => nomatch h⟩ <;>
    decide +kernel
theorem witness_Mailbox_idle : ∃ (s : State) (m : Master), s.masterOpen m = true ∧ (s.inst (instOf m)).mbxOpen = false := ⟨live, .func 1, by decide⟩
/-- Every selector of an open request, its index in range or one beyond. -/
theorem witness_Mailbox_open : ∀ c ∈ [(0x0001, 32), (0x0002, 2), (0x0003, 1), (0x0004, 4), (0x0100, 1), (0x0101, 1), (0x0102, 1)],
    ∃ (s : State) (m : Master), s.masterOpen m = true ∧ (s.inst (instOf m)).mbxOpen = true ∧ (s.inst (instOf m)).mbxValid = false ∧
      (s.inst (instOf m)).mbxSampled = none ∧ (s.inst (instOf m)).mbxSel = c.1 ∧ c.2 ≤ (s.inst (instOf m)).mbxIndex :=
  fun c _ => ⟨{ live with reg := { insts := [(1, { mbxOpen := true, mbxSel := c.1, mbxIndex := c.2 })] } }, .func 1, rfl, rfl, rfl, rfl, rfl, Nat.le_refl _⟩
theorem witness_Mailbox_valid : ∃ (s : State) (m : Master) (e : Nat) (ws : List DWord), s.masterOpen m = true ∧ (s.inst (instOf m)).mbxSampled = some (e, ws) ∧
    s.mbxLost (s.inst (instOf m)) = false :=
  ⟨{ live with reg := { insts := [(1, { mbxOpen := true, mbxSel := 3, mbxSampled := some (0, [1]) })] } }, .func 1, 0, [1], by decide⟩
/-- A field that goes back to its reset value, and one that is reloaded. -/
theorem witness_Voting_reset : ∃ (s : State) (f : VotedField) (r : Reg), regAt f.addr = some r ∧ s.dieReady (addrDie f.addr) = true ∧ r.voted = some .reset :=
  ⟨live, { addr := dieWindow 10 + 0x400018 }, .mld 3, by decide⟩
theorem witness_Voting_reload : ∃ (s : State) (f : VotedField) (r : Reg), regAt f.addr = some r ∧ s.dieReady (addrDie f.addr) = true ∧ r.voted = some .reload :=
  ⟨live, { addr := dieWindow 10 + 0x400000 }, .mld 0, by decide⟩
theorem witness_Voting_copies : ∃ a b c d : DWord, (a = b ∨ b = c ∨ a = c) ∧ ¬ (a = b ∧ b = c) ∧ a ≠ d ∧ d ≠ c ∧ a ≠ c := ⟨1, 1, 2, 3, by decide⟩
theorem passes_Fence (n : Nat) : Passes live (mintWrite 0x310200 n) (.fence 0) := passes_of (reaches_of _ rfl rfl rfl ⟨rfl, rfl, rfl, rfl, rfl, rfl⟩) ⟨rfl, rfl⟩
theorem witness_FenceUnfenceInject_channel : ∃ (s : State) (x : RegAccess) (i : Nat), Passes s x (.fence 0) ∧ i < 48 ∧ (accVal x).toNat % 2 ^ 32 = 1 + 8 * i + 512 :=
  ⟨live, _, 47, passes_Fence (1 + 8 * 47 + 512), by decide, by decide⟩
theorem witness_FenceUnfenceInject_tile : ∃ (s : State) (x y : RegAccess) (i : Nat), Passes s x (.fence 0) ∧ Passes s y (.fence 0) ∧ i < 32 ∧
    (accVal x).toNat % 2 ^ 32 = 8 * i + 512 ∧ (accVal y).toNat % 2 ^ 32 = 4 + 8 * i + 512 :=
  ⟨live, _, _, 31, passes_Fence (8 * 31 + 512), passes_Fence (4 + 8 * 31 + 512), by decide⟩
theorem witness_FenceUnfenceInject_back : ∃ (s : State) (x : RegAccess) (i : Nat), Passes s x (.fence 0) ∧ i < 32 ∧ (accVal x).toNat % 2 ^ 32 = 4 + 8 * i + 512 ∧
    s.faults.fenceTiles.getLsbD i = true :=
  ⟨{ live with faults := { fenceTiles := 0x80000000 } }, mintWrite 0x310200 (4 + 8 * 31 + 512), 31, passes_of (reaches_of _ rfl rfl rfl (by decide)) (by decide), by decide⟩
/-- In factory test mode and outside it. -/
theorem witness_FenceUnfenceInject_inject (b : Bool) : ∃ (s : State) (x : RegAccess), Passes s x .inject ∧ bit (accVal x).toNat 11 = true ∧ s.faults.testMode = b ∧
    srcReserved (bits (accVal x).toNat 0 9) = false :=
  ⟨{ live with faults := { testMode := b } }, mintWrite 0x310240 (2048 + 307), passes_of (reaches_of _ rfl rfl rfl (by cases b <;> decide)) (by cases b <;> decide), by cases b <;> decide⟩
theorem passes_Asy (n : Nat) : Passes live (mintWrite 0x318000 n) (.asy 0) := passes_of (reaches_of _ rfl rfl rfl ⟨rfl, rfl, rfl, rfl, rfl, rfl⟩) ⟨rfl, rfl⟩
theorem witness_ControlRegisters_islands : ∃ (s : State) (x y z : RegAccess), Passes s x (.asy 0) ∧ Passes s y (.asy 0) ∧ Passes s z (.asy 0) ∧
    (accVal x).toNat % 2 ^ 32 = 1 ∧ (accVal y).toNat % 2 ^ 32 = 2 ∧ (accVal z).toNat % 2 ^ 32 = 4 ∧ s.islands.gap = none ∧ s.islands.noneActive = false ∧
    s.islands.st s.islands.standby = .sync := ⟨live, _, _, _, passes_Asy 1, passes_Asy 2, passes_Asy 4, by decide⟩
theorem witness_ControlRegisters_cap : ∃ (s : State) (x : RegAccess), Passes s x (.pwr 1) ∧ s.power.holdup = false ∧ s.power.coolShutdown = false ∧
    s.throttleHeld = false ∧ 0 < (accVal x).toNat % 4096 ∧ (accVal x).toNat % 4096 < 150 :=
  ⟨live, mintWrite 0x320008 149, passes_of (reaches_of _ rfl rfl rfl (by decide)) (by decide), by decide⟩
theorem passes_Ohm (n : Nat) : Passes live (mintWrite 0x330008 n) (.ohm 1) := passes_of (reaches_of _ rfl rfl rfl ⟨rfl, rfl, rfl, rfl, rfl, rfl⟩) ⟨rfl, rfl⟩
theorem witness_ControlRegisters_close : ∃ (s : State) (x y : RegAccess) (p : Nat), Passes s x (.ohm 1) ∧ Passes s y (.ohm 1) ∧ p < 8 ∧
    (accVal x).toNat % 2 ^ 32 = 2 ^ p ∧ (accVal y).toNat % 2 ^ 32 = 256 := ⟨live, _, _, 7, passes_Ohm 128, passes_Ohm 256, by decide⟩

/-! ## Witnesses: power and thermal -/

theorem witness_PowerSampling_over : ∃ (s : State) (r : PowerReads), s.power.holdup = false ∧ ((38000 ≤ r.inMv ∧ r.inMv ≤ 62000) ∨ s.power.deepRun = 0) ∧ s.limit * 50 < r.nowDw * 4 ∧
    1 ≤ s.power.overRun := ⟨{ live with power := { overRun := 1, deepRun := 1 } }, { nowDw := 65535, inMv := 38000 }, by decide⟩
theorem witness_PowerSampling_under : ∃ (s : State) (r : PowerReads), s.power.holdup = false ∧ ((38000 ≤ r.inMv ∧ r.inMv ≤ 62000) ∨ s.power.deepRun = 0) ∧ r.nowDw * 4 ≤ s.limit * 50 ∧
    r.avg100us < s.limit * 10 := ⟨live, { inMv := 37999 }, by decide⟩
theorem witness_PowerSampling_deep : ∃ (s : State) (r : PowerReads), s.power.holdup = false ∧ (r.inMv < 38000 ∨ 62000 < r.inMv) ∧ 1 ≤ s.power.deepRun :=
  ⟨{ live with power := { deepRun := 1 } }, { inMv := 62001 }, by decide⟩
theorem witness_PowerSampling_rail : ∃ (s : State) (d : Nat), d < 13 ∧ s.power.holdup = false := ⟨live, 12, by decide⟩
/-- Partition 1's tiles draw beyond their share: tile 7 may be lowered, tile 8 of partition 0 not. -/
def drawing : State := { live with power := { shares := [(0, 1), (1, 1)] } }
theorem witness_DividersAndBrake_slower : ∃ (s : State) (i k : Nat) (draws : List Nat), s.throttleHeld = false ∧ s.power.holdup = false ∧ s.power.coolShutdown = false ∧
    i < 32 ∧ s.mayLower i draws = true ∧ k < 32 ∧ s.mayLower k draws = false := ⟨drawing, 7, 8, [0, 2 ^ 20], by decide +kernel⟩
/-- Kiln 3's rail has moved by m steps of 10 mV. -/
def railed (m : Int) : State := { live with power := { rails := [(3, { moved := m })] } }
theorem witness_DividersAndBrake_faster : ∃ (s : State) (i : Nat), s.throttleHeld = false ∧ s.power.holdup = false ∧ s.power.coolShutdown = false ∧ i < 32 ∧
    railSteps (i / 8) (min (max s.lowestD ((s.tilePower i).powerD - 1)) (s.kilnD (i / 8))) ≤ (sget {} s.power.rails (i / 8)).moved :=
  ⟨railed (railSteps 3 (min (max live.lowestD ((live.tilePower 31).powerD - 1)) (live.kilnD 3))), 31, rfl, rfl, rfl, by decide, Int.le_refl _⟩
/-- The rail stands one step below, at, and one step above the voltage that it needs. -/
theorem witness_DividersAndBrake_rail : ∃ (s u w : State) (k : Nat), k < 4 ∧ (∀ x ∈ [s, u, w], x.throttleHeld = false ∧ x.power.holdup = false ∧ x.power.coolShutdown = false) ∧
    (sget {} s.power.rails k).moved < railSteps k (s.kilnD k) ∧ (sget {} u.power.rails k).moved = railSteps k (u.kilnD k) ∧
    railSteps k (w.kilnD k) < (sget {} w.power.rails k).moved := by
  refine ⟨railed (railSteps 3 (live.kilnD 3) - 1), railed (railSteps 3 (live.kilnD 3)), railed (railSteps 3 (live.kilnD 3) + 1), 3, by decide, ?_,
    Int.sub_one_lt_of_le (Int.le_refl _), rfl, Int.lt_add_one_of_le (Int.le_refl _)⟩
  intro x hx
  simp only [List.mem_cons, List.not_mem_nil, or_false] at hx
  rcases hx with rfl | rfl | rfl <;> exact ⟨rfl, rfl, rfl⟩
theorem witness_DividersAndBrake_relax : ∃ s : State, s.throttleHeld = false ∧ s.power.holdup = false ∧ s.power.coolShutdown = false ∧ s.power.capClamp < 16 ∧
    s.power.avg100us * 100 ≤ s.power.capW * 950 := ⟨{ live with power := { capW := 200, capClamp := 15, avg100us := 1900 } }, by decide⟩
/-- `live` with the given use of PWR_BRAKE_N, its clamp taken, and the given chatter. -/
def braking (u : Nat) (c : BitVec 6) : State := { live with mould := { live.mould with pins := { brakeUse := u } }, power := { brake := true }, host := { live.host with sbChattering := c } }
/-- The input is released outside chatter, unused and used, and in it. -/
theorem witness_DividersAndBrake_input : ∃ s u w : State, s.host.sbChattering.getLsbD 2 = false ∧ s.mould.pins.brakeUse ≠ 1 ∧ u.host.sbChattering.getLsbD 2 = false ∧
    u.mould.pins.brakeUse = 1 ∧ u.power.brake = true ∧ w.host.sbChattering.getLsbD 2 = true := ⟨braking 0 0, braking 1 0, braking 1 4, by decide⟩
theorem witness_DividersAndBrake_ramp : ∃ s : State, s.power.brake = false := ⟨live, rfl⟩
/-- `live` with COOL_OK in use and the given power state. -/
def cooled (p : PowerState) : State := { live with mould := { live.mould with pins := { coolOkUse := 1 } }, power := p }
theorem witness_CoolingAndInputLoss_lost : ∃ s : State, s.mould.pins.coolOkUse = 1 ∧ s.power.holdup = false ∧ s.power.coolClamp = false := ⟨cooled {}, by decide⟩
theorem witness_CoolingAndInputLoss_timeouts : ∃ s : State, s.power.coolWait = true ∧ s.power.flowLost = true ∧ s.power.coolShutdown = false ∧ s.power.holdup = false :=
  ⟨cooled { coolWait := true, flowLost := true }, by decide⟩
theorem witness_CoolingAndInputLoss_chatter : ∃ s : State, s.host.sbChattering.getLsbD 3 = true := ⟨{ live with host := { live.host with sbChattering := 8 } }, rfl⟩
theorem witness_CoolingAndInputLoss_return : ∃ s t : State, s.host.sbChattering.getLsbD 3 = false ∧ t.host.sbChattering.getLsbD 3 = false ∧ s.power.coolClamp = true ∧ s.power.coolShutdown = true ∧ s.power.coolCause = 1 ∧
    t.power.coolClamp = true ∧ t.power.coolShutdown = false := ⟨cooled { coolClamp := true, coolShutdown := true, coolCause := 1 }, cooled { coolClamp := true }, by decide⟩
/-- Tile 31 with the given sensor marks and power settings. -/
def warm (x : TileTherm) (p : TilePower) : State := { live with therm := { tiles := [(31, x)] }, power := { tiles := [(31, p)] } }
theorem witness_ThrottleAndFlow_slows : ∃ (s : State) (i : Nat), i < 32 ∧ (s.tileTherm i).kilnHot = true ∧ (s.tilePower i).thermD < 8 :=
  ⟨warm { kilnHot := true } { thermD := 7 }, 31, by decide⟩
theorem witness_ThrottleAndFlow_clamps : ∃ (s : State) (i : Nat), i < 32 ∧ (s.tileTherm i).storeHot = true ∧ 8 ≤ (s.tilePower i).thermD :=
  ⟨warm { storeHot := true } { thermD := 8, thermDuty := 4 }, 31, by decide⟩
theorem witness_ThrottleAndFlow_holds : ∃ (s : State) (i : Nat), i < 32 ∧ (s.tileTherm i).kilnHot = false ∧ (s.tileTherm i).storeHot = false ∧ (s.tileTherm i).near = true :=
  ⟨warm { near := true } {}, 31, by decide⟩
theorem witness_ThrottleAndFlow_recovers : ∃ (s t : State) (i : Nat), i < 32 ∧ (s.tileTherm i).kilnHot = false ∧ (s.tileTherm i).storeHot = false ∧
    (s.tileTherm i).near = false ∧ (s.tilePower i).thermDuty < 16 ∧ (t.tileTherm i).kilnHot = false ∧ (t.tileTherm i).storeHot = false ∧
    (t.tileTherm i).near = false ∧ 16 ≤ (t.tilePower i).thermDuty := ⟨warm {} { thermDuty := 15 }, warm {} { thermD := 8, thermDuty := 16 }, 31, by decide⟩
theorem witness_ThrottleAndFlow_restart : ∃ (s t : State) (d : Nat), d < 10 ∧ s.cooled d = true ∧ (s.cyc d).shutdown = true ∧ t.cooled 10 = true ∧ t.power.coolShutdown = true ∧ t.power.coolCause = 3 :=
  ⟨{ live with therm := { dies := [(9, { shutdown := true })] } }, cooled { coolShutdown := true, coolCause := 3 }, 9, by decide⟩
theorem witness_ThrottleAndFlow_hot : ∃ s : State, s.cooled 9 = false := ⟨{ live with therm := { junctions := [(1, BitVec.ofNat 12 (8 * 101))] } }, by decide⟩
theorem witness_ThrottleAndFlow_flow : ∃ (s : State) (hz : Nat), hz < 2 ^ 17 ∧ hz < s.mould.pins.tachMin ∧ s.power.flowLost = false :=
  ⟨{ live with mould := { live.mould with pins := { tachMin := 50 } } }, 49, by decide⟩
theorem witness_ThrottleAndFlow_cooling : ∃ (s t : State) (k l : Nat), s.power.step < k ∧ k = s.coolingStep false ∧ l < t.power.step ∧ t.coolingStep true ≤ l :=
  ⟨{ live with therm := { inlet := 8 * 60 } }, { live with power := { step := 3 } }, _, 2, by decide, rfl, by decide, by decide⟩
theorem witness_TemperaturesAndCycles_sample : ∃ (s : State) (r : TempReads) (v : Int), s.power.holdup = false ∧ (∀ d < 10, s.die d = .inReset) ∧ r.inlet = none ∧
    s.therm.inletFail = false ∧ r.board = some 200 ∧ r.junctions[2]? = some v ∧ 8 * 115 ≤ v ∧ v < 2048 ∧ s.power.coolShutdown = false :=
  ⟨State.reset, { board := some 200, junctions := [0, 0, 920] }, 920, by decide⟩
theorem witness_TemperaturesAndCycles_none : ∃ s : State, (∀ d < 11, s.cycleTemp d = none) := ⟨{ State.reset with therm := { dies := [(10, { shutdown := true })] } }, by decide⟩
theorem witness_TemperaturesAndCycles_swing : ∃ (x : CycleState) (u p : Int), x.turning = some p ∧ p ≤ x.extreme ∧ u ≤ x.extreme - 80 :=
  ⟨{ turning := some 200, extreme := 600 }, 520, 200, by decide⟩
/-- The mint's die swings by 10 K. -/
theorem witness_TemperaturesAndCycles_count : ∃ (s : State) (d b : Nat) (u : Int), d < 11 ∧ s.cycleTemp d = some u ∧ (∀ e < 11, e ≠ d → s.cycleTemp e = none) ∧
    ((s.cyc d).sample u).2 = some b :=
  ⟨{ State.reset with therm := { junctions := [(2, 520)], dies := [(10, { turning := some 200, extreme := 600 })] } }, 10, 2, 520, by decide⟩

/-! ## Witnesses: tiles and their commands -/

/-- Tile 0 with `n` tags in its abandon list and queue 3 halted. -/
def tagged (n : Nat) : State := onTile { abandonList := List.range n, queues := [(3, { halted := true, head := 63 })] }
theorem witness_TileQueueRegisters (n : Nat) (h : n ∈ [15, 16]) : ∃ (s : State) (m : Master) (t q : Nat) (v tag : Word), s.isStandby m = false ∧ s.isMint m = true ∧
    t < 32 ∧ s.dieReady (t / 8) = true ∧ (s.tile t).quiet = true ∧ q < 4 ∧ (∀ k < 8, v.getLsbD (4 + k) = false) ∧ tag ≠ 0 ∧ (s.tile t).abandonList.length = n := by
  refine ⟨tagged n, .mint, 0, 3, 15, 1, ?_⟩
  simp only [List.mem_cons, List.not_mem_nil, or_false] at h
  rcases h with rfl | rfl <;> decide
theorem witness_TileQueueRegisters_flush : ∃ (v w : Word), (∀ k < 4, v.getLsbD (8 + k) = false) ∧ (∀ k < 4, w.getLsbD (4 + k) = false) := ⟨0x8F, 0x80F, by decide⟩
theorem witness_TileQueueRegisters_slot (n : Nat) (h : n ∈ [0, 7]) : ∃ (s : State) (x : RegAccess) (t q k : Nat), t < 32 ∧ q < 4 ∧ k < 64 ∧ n < 8 ∧ x.wide = true ∧
    x.loc = .window (dieWindow (t / 8) + 0x1000000 + t % 8 * 0x4000 + q * 0x1000 + k * 0x40 + n * 8) ∧ Reaches s x (.slot t q k n) := by
  simp only [List.mem_cons, List.not_mem_nil, or_false] at h
  rcases h with rfl | rfl
  · exact ⟨live, { master := .mint, wide := true, loc := .window 0xF021000000, value := 5 }, 16, 0, 0, by decide, by decide, by decide, by decide, rfl, rfl,
      reaches_of 0xF021000000 rfl rfl rfl (by decide)⟩
  · exact ⟨live, { master := .mint, wide := true, loc := .window 0xF03101FFF8, value := 5 }, 31, 3, 63, by decide, by decide, by decide, by decide, rfl, rfl,
      reaches_of 0xF03101FFF8 rfl rfl rfl (by decide)⟩
theorem witness_TileQueueRegisters_refused : ∃ (s : State) (m : Master) (q : Nat), s.isStandby m = false ∧ s.isMint m = false ∧ q < 4 := ⟨live, .func 0, 3, by decide⟩
theorem witness_TileQueueRegisters_notReady : ∃ (s : State) (m : Master) (t q : Nat), s.isStandby m = false ∧ s.isMint m = true ∧ s.dieReady (t / 8) = false ∧ q < 4 :=
  ⟨live.setDie 3 .training, .mint, 31, 3, by decide⟩
/-- Tile 0 whose queue 1 holds one descriptor at slot 63 and is enabled. -/
def queued (d : BitVec 512) : Tile := { queues := [(1, { en := true, head := 63, tail := 0, slots := [(63, d)] })] }
def yieldDesc : BitVec 512 := desc 0x0B 0 []
theorem witness_TileScheduling_runs : ∃ (s : State) (t q : Nat), t < 32 ∧ (s.tile t).quiet = true ∧ s.tileOut t = false ∧ s.tileUp t = true ∧
    (s.tile t).best = some q ∧ ¬ ((s.tile t).q q).head ∈ ((s.tile t).q q).marked ∧
    (descVerdict (sget 0 ((s.tile t).q q).slots ((s.tile t).q q).head) t (s.tilePart t) (s.settlePower t)).1 = stOk := ⟨onTile (queued yieldDesc), 0, 1, by decide +kernel⟩
theorem witness_TileScheduling_refused : ∃ (s : State) (t q : Nat), t < 32 ∧ (s.tile t).quiet = true ∧ s.tileOut t = false ∧ s.tileUp t = true ∧
    (s.tile t).best = some q ∧ ¬ ((s.tile t).q q).head ∈ ((s.tile t).q q).marked ∧
    (descVerdict (sget 0 ((s.tile t).q q).slots ((s.tile t).q q).head) t (s.tilePart t) (s.settlePower t)).1 ≠ stOk ∧
    (descVerdict (sget 0 ((s.tile t).q q).slots ((s.tile t).q q).head) t (s.tilePart t) (s.settlePower t)).1 ≠ stAbandoned := ⟨onTile (queued 0), 0, 1, by decide +kernel⟩
theorem witness_TileScheduling_idle : ∃ (s u w y : State) (t : Nat), (s.tile t).best = none ∧ (u.tile t).running.isSome = true ∧ w.tileUp t = false ∧ y.tileOut t = true :=
  ⟨live, { live with tiles := [(31, { running := some { desc := yieldDesc, queue := 2, slot := 0 } })] }, live.setDie 7 .training, { live with faults := { fenceBack := 0x80000000 } }, 31, by decide⟩
/-- A command of queue 2 runs on tile 0. -/
def busy (d : BitVec 512) : RunCmd := { desc := d, queue := 2, slot := 63 }
/-- MOVE of two rows of 64 bytes from tile 0's store to partition 1's DRAM; FLAGS as given. -/
def moveDesc (flags rows : Nat) : BitVec 512 :=
  desc 0x06 flags [(16, 6, 0xD000000000), (22, 6, 0x1000), (28, 4, 64), (32, 4, rows), (36, 4, 128), (40, 4, 256)]
/-- A MOVE with rows ahead, or one that waits for an engine, where a command of queue 1 is ready. -/
def yielding (c : RunCmd) : State := onTile { queued yieldDesc with running := some c }
def waiting : RunCmd := { busy (moveDesc 4 2) with wait := .engine }
theorem witness_TileScheduling_yield : ∀ c ∈ [busy (moveDesc 0 2), waiting], ∃ (s r : State) (t q f : Nat), (s.tile t).spilling = none ∧ (s.tile t).restoring = none ∧
    s.tileWorks t = true ∧ (s.tile t).running = some c ∧ c.abandoned = false ∧ c.flushed = false ∧ unitOf s t c = some r ∧ (r.tile t).best = some q ∧ q < c.queue ∧
    (r.tile t).takeFrame q = some f := by
  have w : ∀ c ∈ [busy (moveDesc 0 2), waiting], ((yielding c).tile 0).spilling = none ∧ ((yielding c).tile 0).restoring = none ∧ (yielding c).tileWorks 0 = true ∧
      ((yielding c).tile 0).running = some c ∧ c.abandoned = false ∧ c.flushed = false ∧ (unitOf (yielding c) 0 c).any
        (fun r => (r.tile 0).best == some 1 && (r.tile 0).takeFrame 1 == some 0) = true ∧ 1 < c.queue := by decide +kernel
  intro c h
  obtain ⟨a, b, d, e, f, g, u, q⟩ := w c h
  obtain ⟨r, hr, v⟩ := (Option.any_eq_true ..).1 u
  simp only [Bool.and_eq_true, beq_iff_eq] at v
  exact ⟨yielding c, r, 0, 1, 0, a, b, d, e, f, g, hr, v.1, q, v.2⟩
theorem witness_TileScheduling_ends (b : Bool) : ∀ c ∈ [busy (moveDesc 0 2), waiting], ∃ (s : State) (t : Nat) (x : RunCmd), x.desc = c.desc ∧ (s.tile t).spilling = none ∧
    (s.tile t).restoring = none ∧ s.tileWorks t = true ∧ (s.tile t).running = some x ∧ x.abandoned = b ∧ x.flushed = !b ∧ stopsFirst s t x = true ∧
    (dOp x.desc ≠ 0x05 ∨ x.work.vec = none) :=
  fun c h => ⟨onTile { running := some { c with abandoned := b, flushed := !b } }, 0, { c with abandoned := b, flushed := !b }, by revert c; cases b <;> decide +kernel⟩
/-- The last unit of a MOVE has no yield point. -/
theorem witness_TileScheduling_last : ∃ (s : State) (t : Nat) (c : RunCmd), (s.tile t).running = some c ∧ unitOf s t c = none :=
  ⟨yielding (busy (moveDesc 0 1)), 0, busy (moveDesc 0 1), by decide +kernel⟩
theorem witness_TileScheduling_spill : ∃ (s : State) (t q f : Nat) (c : RunCmd), (s.tile t).spilling = some (f, q) ∧ f < 2 ∧ (s.tile t).running = some c ∧
    c.wait = .none ∧ c.abandoned = false ∧ c.flushed = false := ⟨onTile { running := some (busy yieldDesc), spilling := some (0, 1) }, 0, 1, 0, busy yieldDesc, by decide +kernel⟩
theorem witness_TileScheduling_restore : ∃ (s : State) (t f : Nat) (fr : Frame), f < 2 ∧ (s.tile t).restoring = some f ∧ (s.tile t).frame f = some fr :=
  ⟨onTile { restoring := some 1, frame1 := some ⟨busy yieldDesc, {}⟩ }, 0, 1, ⟨busy yieldDesc, {}⟩, by decide +kernel⟩
theorem witness_TileScheduling_cede : ∃ (s : State) (t q : Nat), ((s.tile t).q q).ceding = true := ⟨onTile { queues := [(3, { ceding := true })] }, 0, 3, rfl⟩
theorem witness_TileScheduling_abandon : ∃ (s : State) (t tag : Nat), (s.tile t).quiet = true ∧ (s.tile t).engine0 = none ∧ (s.tile t).engine1 = none ∧
    tag ∈ (s.tile t).abandonList ∧ s.teller.abandons = [] := ⟨tagged 16, 0, 15, by decide⟩
/-- The command with descriptor `d` runs on tile 0. -/
def running (d : BitVec 512) : State := onTile { running := some (busy d) }
theorem witness_CommandsRunAndEnd : ∀ op ∈ [0x02, 0x03, 0x04, 0x05, 0x0B, 0x0C, 0x0D, 0x0E, 0x0F, 0x10], ∃ (s : State) (t : Nat) (c : RunCmd),
    s.runnable t op = some c ∧ dDoneEn c.desc = false ∧ (s.tile t).streaming c.queue = false ∧ stopsFirst s t c = false :=
  fun op h => ⟨running (desc op 0 []), 0, busy (desc op 0 []), by revert op; decide +kernel⟩
/-- SLAB_MATMUL of 2 rows of A by 3 rows of W, K = 32, all I8, into I32. -/
def matDesc : BitVec 512 := desc 0x02 0 [(16, 6, 0xD000000000), (22, 6, 0xD000001000), (28, 6, 0xD000002000), (42, 2, 2), (44, 2, 32), (46, 2, 3), (48, 1, 0x11), (49, 1, 0x0D),
  (52, 2, 2), (54, 1, 1)]
/-- An abandoned MOVE with a row ahead of its last. -/
theorem witness_CommandsRunAndEnd_stops : ∃ (s : State) (t : Nat) (c : RunCmd), stopsFirst s t c = true ∧ s.runnable t 0x06 = some c :=
  ⟨onTile { running := some { busy (moveDesc 0 2) with abandoned := true } }, 0, { busy (moveDesc 0 2) with abandoned := true }, by decide +kernel⟩
theorem witness_CommandsRunAndEnd_streaming : ∃ (s : State) (t : Nat) (c : RunCmd), s.runnable t 0x10 = some c ∧ (s.tile t).streaming c.queue = true :=
  ⟨onTile { running := some (busy (desc 0x10 0 [])), engine1 := some { desc := desc 0x06 4 [], queue := 2 } }, 0, busy (desc 0x10 0 []), by decide +kernel⟩
theorem witness_CommandsRunAndEnd_signal : ∃ (s : State) (t : Nat) (c : RunCmd), s.runnable t 0x10 = some c ∧ dDoneEn c.desc = true ∧
    ({ s := s, result := dfld c.desc 16 2 } : Done).status = stOk := ⟨running (desc 0x10 0 [(9, 1, 0x80)]), 0, busy (desc 0x10 0 [(9, 1, 0x80)]), by decide +kernel⟩
theorem witness_CommandsRunAndEnd_cede : ∃ (s : State) (t : Nat) (c : RunCmd), s.runnable t 0x0B = some c ∧ dDoneEn c.desc = false ∧ dfld c.desc 16 1 = 1 ∧ c.flushed = false :=
  ⟨running (desc 0x0B 0 [(16, 1, 1), (18, 2, 5)]), 0, busy (desc 0x0B 0 [(16, 1, 1), (18, 2, 5)]), by decide +kernel⟩
theorem witness_MovesAndTransfers_move : ∃ (s : State) (t : Nat) (c : RunCmd), s.runnable t 0x06 = some c ∧ stopsFirst s t c = false ∧ dAsync c.desc = false ∧ dDoneEn c.desc = false ∧
    (descVerdict c.desc t (s.tilePart t) s).1 = stOk ∧ c.work = {} ∧ s.OwnersHold ∧ (∀ r ∈ (moveChecks c.desc).ins ++ (moveChecks c.desc).outs, s.meetsPoison (.tile t) r.1 r.2 = false) :=
  by
  refine ⟨running (moveDesc 0 2), 0, busy (moveDesc 0 2), ?_, ?_, ?_, ?_, ?_, rfl, owners_of rfl, ?_⟩ <;> decide +kernel
theorem witness_MovesAndTransfers_gather : ∃ (s : State) (t : Nat) (c : RunCmd), s.runnable t 0x07 = some c ∧ stopsFirst s t c = false ∧ dAsync c.desc = false ∧ (gatherFields c.desc).expand = false :=
  ⟨running (desc 0x07 0 []), 0, busy (desc 0x07 0 []), by decide +kernel⟩
/-- GATHER_PAGES of 64 bytes of a stream: its table is at 0x2000 of tile 0's store, with one page in partition 1's DRAM. -/
def gatherDesc : BitVec 512 := desc 0x07 0 [(16, 6, 0xD000002000), (22, 6, 0xD000004000), (28, 4, 64), (32, 4, 64)]
def gathering : State := { running gatherDesc with mem := { ecc := true, bytes := [(0xD000002000, 12), (0xD000002001, 12), (0xD000002002, 2), (0xD000002004, 64), (0xD000002008, 1),
  (0xD00000200C, 1), (0xD000002040, 1)] } }
def gatherList : PageList := { addr := 0xD000002000, firstK := 12, capK := 12, fmt := 2, dim := 64, seqLen := 1, entries := 1 }
theorem witness_MovesAndTransfers_page : ∃ (s : State) (t : Nat) (c : RunCmd) (l : PageList) (a left : Nat), s.runnable t 0x07 = some c ∧ stopsFirst s t c = false ∧ dAsync c.desc = false ∧
    (gatherFields c.desc).expand = false ∧ c.work = {} ∧ dDoneEn c.desc = false ∧ s.OwnersHold ∧
    (∀ r ∈ ((gatherFields c.desc).dst, (gatherFields c.desc).len) :: gatherReads s (.tile t) (s.tilePart t) c.desc, s.meetsPoison (.tile t) r.1 r.2 = false) ∧
    readList s (.tile t) (s.tilePart t) (gatherFields c.desc).list = .ok l ∧ 0 < (gatherFields c.desc).len ∧ (gatherFields c.desc).len % 64 = 0 ∧
    (gatherFields c.desc).ofs + (gatherFields c.desc).len ≤ l.cached ∧ pageAt s (.tile t) (s.tilePart t) l (gatherFields c.desc).ofs = .ok (a, left) ∧
    (gatherFields c.desc).len ≤ left ∧ s.bound (s.tilePart t) (gatherFields c.desc).dst (gatherFields c.desc).len = .ok ∧ s.meetsPoison (.tile t) a (gatherFields c.desc).len = false := by
  refine ⟨gathering, 0, busy gatherDesc, gatherList, 0x1040, 4032, ?_, ?_, ?_, ?_, rfl, ?_, owners_of rfl, ?_, ?_, ?_, ?_, ?_, ?_, ?_, ?_, ?_⟩ <;> decide +kernel
def loadDesc : BitVec 512 := desc 0x01 0 [(16, 6, 0xD000000000), (26, 2, 32), (28, 2, 8), (30, 1, 0x22)]
theorem witness_MovesAndTransfers_load : ∃ (s : State) (t : Nat) (c : RunCmd), s.runnable t 0x01 = some c ∧ stopsFirst s t c = false ∧ dDoneEn c.desc = false ∧
    s.OwnersHold ∧ (∀ r ∈ (slabLoadChecks c.desc).ins, s.meetsPoison (.tile t) r.1 r.2 = false) :=
  ⟨running loadDesc, 0, busy loadDesc, by decide +kernel, by decide +kernel, by decide +kernel, owners_of rfl, by decide +kernel⟩
theorem witness_MovesAndTransfers_async : ∀ op ∈ [0x06, 0x07], ∃ (s : State) (t : Nat) (c : RunCmd), c.flushed = false ∧ dAsync c.desc = true ∧
    (s.tile t).engine0 = none ∧ s.runnable t op = some c := fun op h => ⟨running (desc op 4 []), 0, busy (desc op 4 []), by revert op; decide +kernel⟩
theorem witness_MovesAndTransfers_done : ∃ (s : State) (t : Nat) (tr : Transfer), s.dieReady (4 + t / 8) = true ∧ s.dramOpen = true ∧ (s.tile t).engine0 = some tr ∧ tr.stop = false ∧ dOp tr.desc = 0x06 ∧
    dDoneEn tr.desc = false ∧ dEvt tr.desc = false ∧ (moveFields tr.desc).rows = 1 ∧ (descVerdict tr.desc t (s.tilePart t) s).1 = stOk ∧ s.OwnersHold ∧
    (∀ r ∈ (moveChecks tr.desc).ins ++ (moveChecks tr.desc).outs, s.meetsPoison (.engine t) r.1 r.2 = false) := by
  refine ⟨onTile { engine0 := some { desc := moveDesc 5 1, queue := 2 } }, 0, { desc := moveDesc 5 1, queue := 2 }, ?_, ?_, ?_, rfl, ?_, ?_, ?_, ?_, ?_, owners_of rfl, ?_⟩ <;> decide +kernel
theorem witness_MovesAndTransfers_handover : ∃ (s : State) (t : Nat) (c : RunCmd), (s.tile t).running = some c ∧ c.queue < 4 ∧ c.wait = .engine ∧ c.abandoned = false ∧
    c.flushed = false ∧ (s.tile t).frame0 = none ∧ (s.tile t).frame1 = none ∧ (s.tile t).spilling = none ∧ (s.tile t).engine0 = none :=
  ⟨onTile { running := some { busy (moveDesc 4 1) with wait := .engine } }, 0, { busy (moveDesc 4 1) with wait := .engine }, by decide +kernel⟩
theorem witness_MatmulOfIntegers : ∃ (s : State) (t : Nat) (c : RunCmd) (x : Mat), s.runnable t 0x02 = some c ∧ stopsFirst s t c = false ∧ dDoneEn c.desc = false ∧ matFields c.desc = some x ∧
    (descVerdict c.desc t (s.tilePart t) s).1 = stOk ∧ x.oa.blk = false ∧ x.outFmt = 0xD ∧ x.accum = false ∧ x.k * x.oa.w ≤ 1024 ∧
    anyOverlap x.inSpans [x.outSpan] = false ∧ c.work = {} ∧ s.OwnersHold ∧ (∀ r ∈ x.outSpan :: x.inSpans, s.meetsPoison (.tile t) r.1 r.2 = false) := by
  refine ⟨running matDesc, 0, busy matDesc, (matFields matDesc).get (by decide +kernel), ?_, ?_, ?_, ?_, ?_, ?_, ?_, ?_, ?_, ?_, rfl, owners_of rfl, ?_⟩ <;> decide +kernel

/-! ## Witnesses: reductions, waits, tallies -/

/-- REDUCE over tiles 0 and 1, 4 FP32 elements, root 1, reduction 9, the operation as given. -/
def redDesc (op : Nat) : BitVec 512 := desc 0x08 0 [(16, 6, 0xD000000000), (22, 6, 0xD001000000), (28, 4, 3), (32, 4, 4), (36, 1, 0xC), (37, 1, op), (38, 1, 1), (40, 2, 9)]
/-- Tile 1's partial. -/
def partial1 (op : Nat) : Contribution := { tile := 1, desc := redDesc op, data := List.replicate 16 0 }
/-- Tile 0 runs the REDUCE; with the given contributions waiting. -/
def reducing (l : List Contribution) : State := { running (redDesc 0) with mem := { live.mem with reductions := l } }
/-- The contributions that a REDUCE meets. -/
def peersOf (s : State) (t : Nat) (c : RunCmd) : List Contribution :=
  s.mem.reductions.filter (fun k => k.outcome.isNone && s.tilePart k.tile == s.tilePart t && (redFields k.desc).id == (redFields c.desc).id)
theorem witness_ReductionsAndWaits_first : ∃ (s : State) (t : Nat) (c : RunCmd), s.runnable t 0x08 = some c ∧ dDoneEn c.desc = false ∧ s.OwnersHold ∧
    s.meetsPoison (.tile t) (redFields c.desc).src ((redFields c.desc).count * (redFields c.desc).esz) = false ∧ peersOf s t c = [] ∧
    (∃ v ∈ (redFields c.desc).tiles, v ≠ t) := ⟨reducing [], 0, busy (redDesc 0), by decide +kernel, by decide +kernel, owners_of rfl, by decide +kernel⟩
theorem witness_ReductionsAndWaits_last : ∃ (s : State) (t : Nat) (c : RunCmd), s.runnable t 0x08 = some c ∧ dDoneEn c.desc = false ∧ s.OwnersHold ∧
    s.meetsPoison (.tile t) (redFields c.desc).src ((redFields c.desc).count * (redFields c.desc).esz) = false ∧
    (∀ k ∈ peersOf s t c, (redFields k.desc).key = (redFields c.desc).key) ∧ peersOf s t c ≠ [] ∧
    (∀ v ∈ (redFields c.desc).tiles, v ∈ (peersOf s t c).map (·.tile) ++ [t]) :=
  ⟨reducing [partial1 0], 0, busy (redDesc 0), by decide +kernel, by decide +kernel, owners_of rfl, by decide +kernel, by decide +kernel, by decide +kernel, by decide +kernel⟩
theorem witness_ReductionsAndWaits_mismatch : ∃ (s : State) (t : Nat) (c : RunCmd) (k : Contribution), s.runnable t 0x08 = some c ∧ dDoneEn c.desc = false ∧ s.OwnersHold ∧
    s.meetsPoison (.tile t) (redFields c.desc).src ((redFields c.desc).count * (redFields c.desc).esz) = false ∧ k ∈ peersOf s t c ∧ k.tile ≠ t ∧
    (redFields k.desc).key ≠ (redFields c.desc).key :=
  ⟨reducing [partial1 1], 0, busy (redDesc 0), partial1 1, by decide +kernel, by decide +kernel, owners_of rfl, by decide +kernel, by decide +kernel, by decide +kernel, by decide +kernel⟩
/-- Tile `t` runs a command in the given waiting state. -/
def waits (t : Nat) (d : BitVec 512) (w : Waiting) (m : MemState) : State := { live with tiles := [(t, { running := some { busy d with wait := w } })], mem := m }
/-- The result at the root, which writes it, and at the other tile. -/
theorem witness_ReductionsAndWaits_result (b : Bool) : ∃ (s : State) (t : Nat) (c : RunCmd) (k : Contribution) (num : Nat) (bytes : List Byte), (s.tile t).running = some c ∧
    c.wait = .reduce ∧ (s.tile t).spilling = none ∧ dDoneEn c.desc = false ∧ s.mem.reductions.find? (fun k => k.tile = t) = some k ∧ k.outcome = some (stOk, num, bytes) ∧
    s.OwnersHold ∧ s.meetsPoison (.tile t) (redFields c.desc).dst bytes.length = false ∧ (redFields c.desc).writes t = b :=
  ⟨waits b.toNat (redDesc 0) .reduce { reductions := [⟨b.toNat, redDesc 0, [], some (stOk, 0, [1])⟩] }, b.toNat, { busy (redDesc 0) with wait := .reduce },
    ⟨b.toNat, redDesc 0, [], some (stOk, 0, [1])⟩, 0, [1], by cases b <;> decide +kernel, rfl, by cases b <;> decide +kernel, by cases b <;> decide +kernel, by cases b <;> decide +kernel, rfl, owners_of rfl,
    by cases b <;> decide +kernel⟩
/-- TALLY_WAIT for tally 4095 to reach 5. -/
def waitDesc : BitVec 512 := desc 0x09 0 [(16, 2, 4095), (18, 4, 5)]
theorem witness_ReductionsAndWaits_wait : ∃ (s u : State) (t : Nat) (c e : RunCmd), s.runnable t 0x09 = some c ∧ u.runnable t 0x0A = some e :=
  ⟨running waitDesc, running (desc 0x0A 0 []), 0, busy waitDesc, busy (desc 0x0A 0 []), by decide +kernel⟩
/-- At the home: broken, met exactly, one short. -/
theorem witness_ReductionsAndWaits_home : ∀ x ∈ [(true, (0 : Word)), (false, 5), (false, 4)], ∃ (s : State) (t : Nat) (c : RunCmd), (s.tile t).running = some c ∧
    (s.tile t).spilling = none ∧ c.wait = .tallySent ∧ c.abandoned = false ∧ c.flushed = false ∧ dDoneEn c.desc = false ∧ s.homeUp (4 + t / 8) (dfld c.desc 16 2) = true ∧
    s.tallyBad (dfld c.desc 16 2) = x.1 ∧ s.tally (dfld c.desc 16 2) = x.2 ∧ dfld c.desc 18 4 = 5 :=
  fun x h => ⟨waits 0 waitDesc .tallySent { tallies := sset 0 [] 4095 x.2, talliesBroken := sset false [] 4095 x.1 }, 0, { busy waitDesc with wait := .tallySent }, by
    simp only [List.mem_cons, List.not_mem_nil, or_false] at h
    rcases h with rfl | rfl | rfl <;> decide +kernel⟩
/-- Tile 0 waits at hearth 0. -/
def held (w : Bool) : State := waits 0 waitDesc .tallyHeld { hearths := [(0, { waiters := [(0, some { tally := 4095, threshold := 5, woken := w })] })] }
theorem witness_ReductionsAndWaits_wake : ∃ (s : State) (t : Nat) (c : RunCmd) (w : Waiter), (s.tile t).running = some c ∧ (s.tile t).spilling = none ∧
    c.wait = .tallyHeld ∧ dDoneEn c.desc = false ∧ (s.hearth (tallyHome (dfld c.desc 16 2))).waiter t = some w ∧ w.woken = true :=
  ⟨held true, 0, { busy waitDesc with wait := .tallyHeld }, { tally := 4095, threshold := 5, woken := true }, by decide +kernel⟩
theorem witness_ReductionsAndWaits_timeout : ∃ (s u : State) (t : Nat) (c e : RunCmd), (s.tile t).running = some c ∧ (s.tile t).spilling = none ∧ c.wait = .tallyHeld ∧
    (s.tile t).waitLimit ≠ 0 ∧ (u.tile t).running = some e ∧ (u.tile t).spilling = none ∧ e.wait = .reduce ∧ (u.tile t).waitLimit ≠ 0 :=
  ⟨held false, waits 0 (redDesc 0) .reduce {}, 0, { busy waitDesc with wait := .tallyHeld }, { busy (redDesc 0) with wait := .reduce }, by decide +kernel⟩
theorem witness_ReductionsAndWaits_noLimit : ∃ (s : State) (t : Nat) (c : RunCmd), (s.tile t).running = some c ∧ (s.tile t).spilling = none ∧ dfld c.desc 22 4 = 0 ∧
    (s.tile t).waitLimit = 0 := ⟨onTile { running := some (busy waitDesc), waitLimit := 0 }, 0, busy waitDesc, by decide +kernel⟩
/-- A tally operation behind one of the other kind, on tally 4095 with the given value and BROKEN. -/
def atHome (g : Signal) (v : Word) (b : Bool) : State :=
  { live with mem := { signals := [{ src := 9, tally := 5, value := 1, reset := !g.reset }, g], tallies := sset 0 [] 4095 v, talliesBroken := sset false [] 4095 b,
                       hearths := [(0, { waiters := [(0, some { tally := 4095, threshold := 5 })] })] } }
def plus1 : Signal := { src := 7, tally := 4095, value := 1 }
theorem witness_TalliesAtTheirHomes_signal : ∃ (s : State) (g : Signal) (pre post : List Signal), s.mem.signals = pre ++ g :: post ∧ (∀ k ∈ pre, k.reset = true) ∧ g.reset = false ∧ g.after = .nothing ∧
    s.homeUp g.src g.tally = true ∧ s.tallyBad g.tally = false ∧ 2 ^ 32 ≤ (s.tally g.tally).toNat + g.value :=
  ⟨atHome plus1 0xFFFFFFFF false, plus1, [{ src := 9, tally := 5, value := 1, reset := true }], [], by decide⟩
/-- R202: an overflow of tally 127, the last of partition 0, makes that partition's tally event pending. -/
def overflow : State := { live with mem := { signals := [{ src := 4, tally := 127, value := 1 }], tallies := [(127, 0xFFFFFFFF)] } }
theorem witness_TalliesAtTheirHomes_overflow : 2 ^ 32 ≤ (overflow.tally 127).toNat + 1 ∧ overflow.tallyPart 127 = 0 := by decide
theorem test_signalOverflow : gives (exec .signalAtHome overflow) (fun u => u.srcPending 1088 && u.tally 127 == 0xFFFFFFFF && u.faults.raised.isEmpty) = true := by decide +kernel
theorem witness_TalliesAtTheirHomes_wakes : ∃ (s : State) (t : Nat) (w : Waiter), (s.hearth (tallyHome 4095)).waiter t = some w := ⟨atHome plus1 4 false, 0, _, rfl⟩
/-- At a broken tally, and with the home in reset. -/
theorem witness_TalliesAtTheirHomes_dropped : ∃ (s u : State) (g : Signal) (pre post : List Signal), s.mem.signals = pre ++ g :: post ∧ (∀ k ∈ pre, k.reset = true) ∧ g.reset = false ∧
    g.after = .nothing ∧ s.tallyBad g.tally = true ∧ u.mem.signals = pre ++ g :: post ∧ u.homeUp g.src g.tally = false :=
  ⟨atHome plus1 0 true, (atHome plus1 0 false).setDie 4 .inReset, plus1, [{ src := 9, tally := 5, value := 1, reset := true }], [], by decide⟩
/-- The issuing command waits: a TALLY_SIGNAL, and a RESET. -/
def signalled (r : Bool) : State := waits 0 (desc 0x0A 0 []) .signal { signals := [⟨4, 4095, 1, r, .command 0⟩] }
theorem witness_TalliesAtTheirHomes_command (r : Bool) : ∃ (s : State) (g : Signal) (pre post : List Signal) (t : Nat) (c : RunCmd), s.mem.signals = pre ++ g :: post ∧ pre = [] ∧
    g.after = .command t ∧ (s.tile t).running = some c ∧ c.wait = .signal ∧ dDoneEn c.desc = false ∧ g.reset = r :=
  ⟨signalled r, ⟨4, 4095, 1, r, .command 0⟩, [], [], 0, { busy (desc 0x0A 0 []) with wait := .signal }, by cases r <;> decide +kernel⟩
def zeroed : Signal := { src := 7, tally := 4095, value := 1, reset := true }
theorem witness_TalliesAtTheirHomes_reset : ∃ (s u : State) (g : Signal) (pre post : List Signal), s.mem.signals = pre ++ g :: post ∧ (∀ k ∈ pre, k.reset = false) ∧ g.reset = true ∧
    g.after = .nothing ∧ s.homeUp g.src g.tally = true ∧ u.mem.signals = pre ++ g :: post ∧ u.homeUp g.src g.tally = false :=
  ⟨atHome zeroed 9 true, (atHome zeroed 9 true).setDie 4 .inReset, zeroed, [{ src := 9, tally := 5, value := 1 }], [], by decide⟩
/-- Tally 4095 breaks under tile 0's wait. -/
theorem witness_TalliesAtTheirHomes_broken : ∃ (s : State) (n t : Nat) (c : RunCmd) (w : Waiter), n < 16384 ∧ s.dieReady (4 + tallyHome n) = true ∧ t < 32 ∧
    (s.hearth (tallyHome n)).waiter t = some w ∧ w.tally = n ∧ (s.tile t).running = some c :=
  ⟨held false, 4095, 0, { busy waitDesc with wait := .tallyHeld }, { tally := 4095, threshold := 5 }, by decide +kernel⟩
theorem witness_TalliesAtTheirHomes_write : ∃ (s : State) (m u : Master) (n h : Nat), s.isStandby m = false ∧ s.isMint m = true ∧ n < 16384 ∧ s.homeUp 10 n = true ∧ h < 4 ∧
    s.dieReady (4 + h) = true ∧ s.isStandby u = false ∧ s.isMint u = false := ⟨live, .mint, .func 0, 16383, 3, by decide⟩

/-! ## Witnesses: memory -/

/-- Line 64 of partition 1's DRAM (address 4096, channel 1): its directory state, hearth copies, and two ways for partition 1 at every hearth. -/
def cached (d : Nat) (l : List (Nat × RcLine)) : State :=
  { live with mem := { ecc := true, dir := sset 0 [] 64 d,
                       hearths := (List.range 4).map (fun h => (h, { ways := [(1, 1)], rc := (l.filter (fun e => e.1 = h)).map (fun e => (64, some e.2)) })) } }
theorem witness_DirectoryCoherence_miss : ∃ (s : State) (h a : Nat) (hm : Home), s.mayCache h a = true ∧
    s.home (a / 64 * 64) = some hm ∧ s.homeUpFor (4 + h) hm = true ∧ s.directory hm = true ∧
    (s.hearth h).line (a / 64) = none ∧ dirValid (s.dirOf (a / 64)) = true ∧ owned (s.dirOf (a / 64)) = false :=
  ⟨cached 1 [(0, { way := 0 })], 3, 4159, .vault 0 1, by decide +kernel⟩
theorem witness_DirectoryCoherence_recall : ∃ (s : State) (h a : Nat) (hm : Home) (k : Nat) (c : RcLine), s.mayCache h a = true ∧
    s.home (a / 64 * 64) = some hm ∧ s.homeUpFor (4 + h) hm = true ∧ s.directory hm = true ∧
    k < 4 ∧ k ≠ h ∧ (s.hearth h).line (a / 64) = none ∧ s.hearthUp hm k = true ∧ s.dirOf (a / 64) = 16 + k ∧ (s.hearth k).line (a / 64) = some c :=
  ⟨cached 17 [(1, { way := 0, dirty := true })], 3, 4096, .vault 0 1, 1, { way := 0, dirty := true }, by decide +kernel⟩
/-- Hearth 2 is in reset and holds nothing; the others answer. -/
theorem witness_DirectoryCoherence_answers : ∃ (s : State) (h a : Nat) (hm : Home), s.mayCache h a = true ∧ s.home (a / 64 * 64) = some hm ∧ s.homeUpFor (4 + h) hm = true ∧ s.directory hm = true ∧
    s.hearthUp hm 2 = false ∧ (∀ k < 4, s.hearthUp hm k = true ∨ (s.hearth k).line (a / 64) = none) ∧ (s.hearth 1).line (a / 64) ≠ none :=
  ⟨(cached 17 [(1, { way := 0, dirty := true })]).setDie 6 .inReset, 3, 4096, .vault 0 1, by decide +kernel⟩
/-- The home, vault 0, is in reset. -/
theorem witness_DirectoryCoherence_lost : ∃ (s : State) (h a : Nat) (hm : Home), s.mayCache h a = true ∧ s.home (a / 64 * 64) = some hm ∧ s.homeUpFor (4 + h) hm = false ∧
    (s.hearth h).line (a / 64) = none := ⟨(cached 0 []).setDie 8 .inReset, 3, 4159, .vault 0 1, by decide +kernel⟩
/-- A copy meets an error of its own, with inline ECC on and off. -/
theorem witness_DirectoryCoherence_copy (b : Bool) : ∃ (s : State) (h a : Nat) (c : RcLine), s.mayCache h a = true ∧ (s.hearth h).line (a / 64) = some c ∧ c.dirty = true ∧
    s.poisonable (a / 64) = b :=
  ⟨{ cached 19 [(3, { way := 0, dirty := true })] with mem := { (cached 19 [(3, { way := 0, dirty := true })]).mem with ecc := b } }, 3, 4159, { way := 0, dirty := true },
    by cases b <;> decide +kernel⟩
theorem witness_DirectoryCoherence_leaves (d : Bool) : ∃ (s : State) (h a : Nat) (c : RcLine), h < 4 ∧ (s.hearth h).line (a / 64) = some c ∧ c.dirty = d ∧
    (d = false → owned (s.dirOf (a / 64)) = false) := ⟨cached (if d then 19 else 8) [(3, { way := 0, dirty := d })], 3, 4159, { way := 0, dirty := d }, by cases d <;> decide +kernel⟩
theorem witness_DirectoryCoherence_corrected : ∃ (s : State) (h a v ch : Nat), s.mayCache h a = true ∧ s.homeUpFor (4 + h) (.vault v ch) = true ∧ (s.hearth h).line (a / 64) = none ∧
    s.home (a / 64 * 64) = some (.vault v ch) ∧ s.directory (.vault v ch) = true := ⟨cached 0 [], 3, 47 * 4096, 1, 47, by decide +kernel⟩
theorem witness_PatrolWindowsAndZeroWriters_patrol : ∃ (s t : State) (v : Nat), v < 2 ∧ (s.vault v).patrolOff = false ∧ s.mem.ecc = true ∧ s.dieReady (8 + v) = true ∧
    s.vaultLines v ≠ 0 ∧ s.chanPaused (s.patrolLine v (s.vault v).patrolLine * 64) = false ∧
    s.vaultLines v ≤ (s.vault v).patrolLine + 1 ∧ (t.vault v).patrolOff = true :=
  ⟨live.setVault 1 { patrolLine := live.vaultLines 1 - 1 }, live.setVault 1 { patrolOff := true }, 1, by decide +kernel⟩
/-- In a window that no channel has reported, in one in which another channel has, and in the next window of the same channel. -/
theorem witness_PatrolWindowsAndZeroWriters_window : ∀ x ∈ [(([] : List Nat), false), ([40], true), ([47], true)],
    ∃ (s : State) (chan p : Nat) (r : PartRec) (queued : BitVec 8) (served : List Nat), chan < 48 ∧ p < 8 ∧
    s.part? p = some r ∧ queued.getLsbD p = true ∧ served.getD p 0 * 48 < r.bwMin * 80000 ∧ (s.vault (chan / 24)).windowDone = x.1 ∧ sget false (s.vault (chan / 24)).counted p = x.2 :=
  fun x h => ⟨{ live with mould := { live.mould with parts := [(1, { part1 with bwMin := 1 })] }, mem := { live.mem with vaults := [(1, { windowDone := x.1, counted := [(1, x.2)] })] } },
    47, 1, { part1 with bwMin := 1 }, 2, [], by
    simp only [List.mem_cons, List.not_mem_nil, or_false] at h
    rcases h with rfl | rfl | rfl <;> decide⟩
theorem witness_PatrolWindowsAndZeroWriters_zero : ∃ (s : State) (j : ZeroJob) (rest : List ZeroJob) (b : Block), s.mem.zeroJobs = j :: rest ∧ j.handle = 0 ∧ j.purpose = 2 ∧
    (s.pool j.part).zeroing.find? (fun b => b.addr = j.base) = some b :=
  ⟨{ live with mem := { zeroJobs := [⟨0x1000, 4096, 2, 1, 0⟩] }, teller := { pools := [(1, { zeroing := [⟨0x1000, 12⟩] })] } }, ⟨0x1000, 4096, 2, 1, 0⟩, [], ⟨0x1000, 12⟩, by decide⟩
theorem witness_PatrolWindowsAndZeroWriters_scrub : ∃ (s : State) (j : ZeroJob) (rest : List ZeroJob), s.mem.zeroJobs = j :: rest ∧ j.handle = 9 ∧ (s.op? j.handle).map (·.state) = some OpState.running :=
  ⟨{ live with mem := { zeroJobs := [⟨0x1000, 4096, 1, 1, 9⟩] }, host := { live.host with handles := [(9, { origin := .host 1 0 5, kind := .scrub, part := 1 })] } }, ⟨0x1000, 4096, 1, 1, 9⟩, [], by decide⟩

/-! ## Witnesses: request serving -/

/-- The PF's queue 8 has forwarded a command; `live` has the given Teller state. -/
def teller (f : Forwarded) (x : TellerState) : State := { told f with teller := x }
/-- Body with REQ 128, the PF's first entry. -/
def reqCmd (op i : Nat) : Forwarded := cmd 0 8 op [(16, 2, i)]
theorem witness_RequestCommands_codes : ∀ op ∈ [0x21, 0x22, 0x23, 0x24], ∃ (s t u : State) (q : Nat) (f g h : Forwarded), s.Awaits q op f ∧ bodyReserved f 18 = true ∧
    t.Awaits q op g ∧ bodyReserved g 18 = false ∧ t.ownsEntry (t.funcPart g.fn) (g.fld 16 2) = false ∧
    u.Awaits q op h ∧ bodyReserved h 18 = false ∧ u.ownsEntry (u.funcPart h.fn) (h.fld 16 2) = true ∧ (u.request (h.fld 16 2)).state.active = false :=
  fun op hop => ⟨told (cmd 0 8 op [(18, 1, 1)]), told (reqCmd op 127), told (reqCmd op 255), 8, cmd 0 8 op [(18, 1, 1)], reqCmd op 127, reqCmd op 255,
    awaits_of (by revert op; decide +kernel), by revert op; decide +kernel, awaits_of (by revert op; decide +kernel), by revert op; decide +kernel, by revert op; decide +kernel,
    awaits_of (by revert op; decide +kernel), by revert op; decide +kernel, by revert op; decide +kernel, by revert op; decide +kernel⟩
/-- Entry 128 as given, with a command for it. -/
def serving (op : Nat) (r : Request) : State := teller (reqCmd op 128) { requests := [(128, r)] }
/-- CANCEL with no step in flight and with one; CANCEL_NOW; REQ_SUSPEND; REQ_RESUME of a suspended and of another request. -/
theorem witness_RequestCommands_acts : ∀ x ∈ [((0x21 : Nat), ({ state := .decode } : Request)), (0x21, { state := .decode, inStep := some 1 }), (0x22, { state := .draining, endReason := 4, cancelled := true }),
      (0x22, { state := .decode, inStep := some 1 }), (0x23, { state := .decode }), (0x23, { state := .decode, inStep := some 1 }), (0x24, { state := .suspended, resumeTo := .decode }), (0x24, { state := .decode })],
    ∃ (s : State) (q : Nat) (f : Forwarded) (i : Nat), f.fld 16 2 = i ∧ bodyReserved f 18 = false ∧ s.ownsEntry (s.funcPart f.fn) i = true ∧
      (s.request i).state.active = true ∧ s.Awaits q x.1 f ∧ s.request i = x.2 ∧ s.tagBusy i = false := by
  intro x h
  refine ⟨serving x.1 x.2, 8, reqCmd x.1 128, 128, ?_, ?_, ?_, ?_, awaits_of ?_, ?_⟩ <;> revert x <;> decide +kernel
/-- CANCEL between steps, while an engine of tile 15 still holds a transfer of the request. -/
theorem witness_RequestCommands_busy : ∃ (s : State) (q : Nat) (f : Forwarded) (i : Nat), f.fld 16 2 = i ∧ bodyReserved f 18 = false ∧ s.ownsEntry (s.funcPart f.fn) i = true ∧
    (s.request i).state.active = true ∧ s.Awaits q 0x21 f ∧ (s.request i).state ≠ .draining ∧ (s.request i).inStep = none ∧ s.tagBusy i = true :=
  ⟨{ serving 0x21 { state := .decode } with tiles := [(15, { engine1 := some { queue := 0, desc := desc 0x01 0 [(4, 4, reqTag 128)] } })] },
    8, reqCmd 0x21 128, 128, by decide +kernel, by decide +kernel, by decide +kernel, by decide +kernel, awaits_of (by decide +kernel), by decide +kernel⟩
/-- CANCEL_NOW waits for the tiles of the PF's partition: all have acted, and tile 15 has not. -/
def cancelling (l : List Nat) : State :=
  { live with teller := { requests := [(128, { state := .draining, cancelNow := true, cancelSrc := some (0, 8, 5) })] }, tiles := if l = [] then [] else [(15, { abandonList := l })] }
theorem witness_RequestCommands_complete : ∃ (s : State) (i fn sq cid : Nat), i < 65536 ∧ (s.request i).state = .draining ∧ (s.request i).cancelNow = true ∧
    (s.request i).cancelSrc = some (fn, sq, cid) ∧ (s.ware? (s.request i).ware).bind (·.chunk) = none ∧
    s.tagBusy i = false := ⟨cancelling [], 128, 0, 8, 5, by decide +kernel⟩
theorem witness_RequestCommands_waits : ∃ (s : State) (i t : Nat), t < 32 ∧ s.tilePart t = s.reqPart i ∧ s.actedOn t (reqTag i) = false ∧ s.tagBusy i = true :=
  ⟨cancelling [reqTag 128], 128, 15, by decide +kernel⟩

/-- ADMIT of entry 128: ware 1, a prompt of 3 tokens in partition 0's DRAM, at most 2 tokens; OPTIONS as given. -/
def admitBody (opts : Nat) : Forwarded :=
  cmd 0 8 0x20 [(16, 2, 128), (18, 2, 1), (20, 2, 0xFFFF), (22, 2, 0xFFFF), (25, 1, opts), (28, 2, 2), (38, 2, 0x3C00), (44, 6, 0x10000000), (50, 3, 3)]
def plan1 : Plan := { maxRows := 4, chunkTokens := 2, ctxLimit := 100, eos := 99 }
/-- Ware 1 is loaded for partition 0, entry 128 has its ring, and the page pool of partition 0 is as given. -/
def admitting (opts : Nat) (x : Pool) : State :=
  teller (admitBody opts) { wares := [(1, { part := 0, plan := plan1 })], rings := [(128, { set := true })], pools := if x = {} then [] else [(0, x)] }
def pool1 (k : Nat) : Pool := { units := [130], freeBlocks := [⟨130 * 2 ^ 21, k⟩] }
theorem witness_Admission_refused : ∃ (s : State) (q : Nat) (f : Forwarded), s.Awaits q 0x20 f ∧ s.ringLags q 0x20 = false ∧ s.admitCode (s.funcPart f.fn) f (admitCmd f) ≠ 0 :=
  ⟨told (admitBody 0), 8, admitBody 0, awaits_of (by decide +kernel), by decide +kernel, by decide +kernel⟩
/-- A record of entry 128 is still on its way to the ring. -/
theorem witness_Admission_lags : ∀ f ∈ [(0x20, admitBody 0), (0x25, reqCmd 0x25 128)], ∃ (s : State) (q : Nat), s.Awaits q f.1 f.2 ∧ s.ringLags q f.1 = true :=
  fun f h => ⟨teller f.2 { ringRecs := [{ req := 128, stepSeq := 0, token := 0, position := 0 }] }, 8, awaits_of (by revert f; decide +kernel), by revert f; decide +kernel⟩
/-- What an accepted ADMIT outside a CONFIDENTIAL partition is tested for. -/
def admitOk (s : State) (f : Forwarded) : Bool :=
  !s.ringLags 8 0x20 && s.admitCode (s.funcPart f.fn) f (admitCmd f) == 0 && !s.confidential (s.funcPart f.fn) && s.tenantOk (s.funcPart f.fn) (admitCmd f).r
/-- The state and the list region that ADMIT allocates in. -/
def admitRegion (s : State) (f : Forwarded) : Option State :=
  (s.taken 8 0x20).admitAlloc (s.funcPart f.fn) (admitCmd f).i { (admitCmd f).r with admitStamp := s.teller.usec.toNat, state := .admitted } []
/-- The pages of the first chunk, after the region. -/
def admitPages (s : State) (f : Forwarded) : Option State :=
  (admitRegion s f).bind (fun a => a.reserveFor (admitCmd f).i false (min (admitCmd f).plen (max 1 (s.planOf (admitCmd f).r.ware).chunkTokens) - 1))
theorem witness_Admission_admitted : ∃ (s : State) (f : Forwarded), s.Awaits 8 0x20 f ∧ admitOk s f = true ∧ (admitPages s f).isSome = true :=
  ⟨admitting 0 (pool1 21), admitBody 0, awaits_of (by decide +kernel), by decide +kernel, by decide +kernel⟩
/-- The region takes the pool's last block, with NO_WAIT and without. -/
theorem witness_Admission_noPages (b : Bool) : ∃ (s : State) (f : Forwarded), s.Awaits 8 0x20 f ∧ admitOk s f = true ∧ (admitRegion s f).isSome = true ∧
    (admitPages s f).isSome = false ∧ (admitCmd f).r.noWait = b := by
  refine ⟨admitting b.toNat (pool1 13), admitBody b.toNat, awaits_of ?_, ?_, ?_, ?_, ?_⟩ <;> cases b <;> decide +kernel
theorem witness_Admission_noRegion : ∃ (s : State) (f : Forwarded), s.Awaits 8 0x20 f ∧ admitOk s f = true ∧ (admitRegion s f).isSome = false :=
  ⟨admitting 0 {}, admitBody 0, awaits_of (by decide +kernel), by decide +kernel, by decide +kernel⟩
/-- A sealed ADMIT of function 1's entry 0, its block in the host window. -/
def sealedBody : Forwarded := cmd 1 0 0x20 [(16, 2, 0), (18, 2, 1), (20, 2, 0xFFFF), (22, 2, 0xFFFF), (28, 2, 2), (44, 6, 0x800000040000), (50, 3, 1)]
def sealedState : State :=
  { teller sealedBody { wares := [(1, { part := 1, plan := plan1 })], rings := [(0, { set := true })], pools := [(1, { units := [1], freeBlocks := [⟨2 ^ 21, 21⟩] })] } with
      sec := { live.sec with sessions := [(16, { use := .opened })] } }
theorem witness_Admission_sealed : ∃ (s : State) (q : Nat) (f : Forwarded), s.Awaits q 0x20 f ∧ s.ringLags q 0x20 = false ∧ s.admitCode (s.funcPart f.fn) f (admitCmd f) = 0 ∧
    s.confidential (s.funcPart f.fn) = true ∧ s.faults.testMode = false ∧ s.readNat ((admitCmd f).addr + 8) 1 ≤ 15 ∧
    (s.session (s.funcPart f.fn) (s.readNat ((admitCmd f).addr + 8) 1)).use = .opened ∧ (s.session (s.funcPart f.fn) (s.readNat ((admitCmd f).addr + 8) 1)).closing = false ∧
    s.readBytes ((admitCmd f).addr + 96 + 4 * (admitCmd f).plen) 16 ≠ gcmTag (kdf (s.session (s.funcPart f.fn) (s.readNat ((admitCmd f).addr + 8) 1)).kSess (s.readNat (admitCmd f).addr 8) 1)
      (toLE 8 (s.readNat (admitCmd f).addr 8) ++ [0, 0, 0, 0]) (s.readBytes (admitCmd f).addr 64 ++ f.body) (s.readBytes ((admitCmd f).addr + 64) (32 + 4 * (admitCmd f).plen)) ∧
    (admitCmd f).r.noWait = false ∧ ((s.taken q 0x20).admitAlloc (s.funcPart f.fn) (admitCmd f).i
      { (admitCmd f).r with admitStamp := s.teller.usec.toNat, state := .admitted } (List.replicate (4 * (admitCmd f).plen) 0)).isSome = true := by
  refine ⟨sealedState, 0, sealedBody, awaits_of ?_, ?_, ?_, ?_, ?_, ?_, ?_, ?_, ?_, ?_, ?_⟩ <;> decide +kernel

/-- RING_SET of entry 128: 16 records in the PF's host window. -/
def ringCmd : Forwarded := cmd 0 8 0x25 [(16, 2, 128), (18, 6, 0x800000000000), (24, 1, 4), (25, 1, 1)]
theorem witness_RingsPoolsAndAdapters_ring (b : Bool) : ∃ (s : State) (q : Nat) (f : Forwarded), s.Awaits q 0x25 f ∧ s.ringLags q 0x25 = false ∧ f.fld 25 1 < 2 ∧ bodyReserved f 26 = false ∧
    s.ownsEntry (s.funcPart f.fn) (f.fld 16 2) = true ∧ 4 ≤ f.fld 24 1 ∧ f.fld 24 1 ≤ 16 ∧ 0xC000000000 ≤ f.fld 18 6 ∧ f.fld 18 6 % 64 = 0 ∧
    f.fld 18 6 % min (16 * 2 ^ f.fld 24 1) 4096 = 0 ∧ s.inHost (s.funcPart f.fn) (f.fld 18 6) (s.ringBytes (s.funcPart f.fn) (f.fld 24 1)) = true ∧
    (s.request (f.fld 16 2)).state.active = b := by
  refine ⟨teller ringCmd { requests := if b then [(128, { state := .decode })] else [] }, 8, ringCmd, awaits_of ?_, ?_⟩ <;> cases b <;> decide +kernel
theorem witness_RingsPoolsAndAdapters_notOwned : ∃ (s : State) (q : Nat) (f : Forwarded), s.Awaits q 0x25 f ∧ s.ringLags q 0x25 = false ∧ f.fld 25 1 < 2 ∧ bodyReserved f 26 = false ∧
    s.ownsEntry (s.funcPart f.fn) (f.fld 16 2) = false := ⟨told (reqCmd 0x25 127), 8, reqCmd 0x25 127, awaits_of (by decide +kernel), by decide +kernel⟩
/-- POOL_ADD and POOL_SHRINK of one unit of partition 0, and of one outside it. -/
def poolCmd (op base : Nat) : Forwarded := cmd 0 8 op [(16, 6, base), (22, 4, 1)]
theorem witness_RingsPoolsAndAdapters_add : ∃ (s t : State) (q : Nat) (f g : Forwarded), s.Awaits q 0x26 f ∧ s.poolCode (s.funcPart f.fn) f = 0 ∧
    (∀ e ∈ s.teller.requests, e.2.state ≠ .stalled) ∧ t.Awaits q 0x26 g ∧ t.poolCode (t.funcPart g.fn) g ≠ 0 :=
  ⟨told (poolCmd 0x26 (4 * 0x4000000)), told (poolCmd 0x26 (8 * 0x4000000)), 8, poolCmd 0x26 (4 * 0x4000000), poolCmd 0x26 (8 * 0x4000000), awaits_of (by decide +kernel),
    by decide +kernel, by decide +kernel, awaits_of (by decide +kernel), by decide +kernel⟩
/-- POOL_SHRINK of a unit whose block is free, and of one whose block is held. -/
theorem witness_RingsPoolsAndAdapters_shrink (b : Bool) : ∃ (s : State) (q : Nat) (f : Forwarded), s.Awaits q 0x27 f ∧ s.poolCode (s.funcPart f.fn) f = 0 ∧
    s.openHandles (.host f.fn f.sq f.cid) < 16 ∧ (s.pool (s.funcPart f.fn)).shrinking = [] ∧ s.op? s.host.nextHandle = none ∧
    (s.pool (s.funcPart f.fn)).rangeFree (f.fld 16 6 / 2 ^ 21) (f.fld 22 4) = b := by
  refine ⟨teller (poolCmd 0x27 (130 * 2 ^ 21)) { pools := [(0, pool1 (if b then 21 else 13))] }, 8, poolCmd 0x27 (130 * 2 ^ 21), awaits_of ?_, ?_⟩ <;> cases b <;> decide +kernel
def shrinkOp : OpRec := { origin := .host 0 8 5, kind := .poolShrink }
theorem witness_RingsPoolsAndAdapters_done : ∃ (s : State) (h k n : Nat) (o : OpRec), s.op? h = some o ∧ o.kind = .poolShrink ∧ o.state = .running ∧ o.forgotten = false ∧ s.islands.noneActive = false ∧
    (s.pool o.part).shrinking = [(k, n, h)] ∧ (s.pool o.part).rangeFree k n = true :=
  ⟨{ live with host := { live.host with handles := [(1, shrinkOp)], nextHandle := 2 }, teller := { pools := [(0, { pool1 21 with shrinking := [(130, 1, 1)] })] } }, 1, 130, 1, shrinkOp, by decide +kernel⟩
def publishCmd : Forwarded := cmd 0 8 0x28 [(16, 2, 1), (18, 2, 255), (20, 4, 2)]
/-- Ware 1 with adapter 255 as given, and the image 2 that joins it. -/
def adapted (l : Store Adapter) : Ware := { part := 0, plan := plan1, adapters := l }
def image2 : Ware := { part := 0, isImage := true, joins := 1 }
theorem witness_RingsPoolsAndAdapters_publish : ∃ (s : State) (q : Nat) (f : Forwarded) (x y : Ware), s.Awaits q 0x28 f ∧ bodyReserved f 24 = false ∧
    s.openHandles (.host f.fn f.sq f.cid) < 16 ∧ f.fld 18 2 ≤ 255 ∧ s.ware? (f.fld 16 2) = some x ∧ s.ware? (f.fld 20 4) = some y ∧ x.part = s.funcPart f.fn ∧
    x.isImage = false ∧ y.part = s.funcPart f.fn ∧ y.isImage = true ∧ y.joins = f.fld 16 2 ∧ sget {} x.adapters (f.fld 18 2) = {} ∧ s.op? s.host.nextHandle = none := by
  refine ⟨teller publishCmd { wares := [(1, adapted []), (2, image2)] }, 8, publishCmd, adapted [], image2, awaits_of ?_, ?_⟩ <;> decide +kernel
/-- Version 1 superseded by 2: without pins, and pinned once. -/
theorem witness_RingsPoolsAndAdapters_unpin : ∃ (s t : State) (h a v img pins : Nat) (x y : Ware), s.ware? h = some x ∧
    (sget {} x.adapters a).versions.find? (fun e => e.1 = v) = some (v, img, 0) ∧ (sget {} x.adapters a).newest ≠ some v ∧ (sget {} x.adapters a).publish = none ∧ s.islands.noneActive = false ∧ img ≠ h ∧
    t.ware? h = some y ∧ (sget {} y.adapters a).versions.find? (fun e => e.1 = v) = some (v, img, pins + 1) :=
  ⟨{ live with teller := { wares := [(1, adapted [(255, { newest := some 2, versions := [(1, 2, 0), (2, 3, 0)] })])] } },
    { live with teller := { wares := [(1, adapted [(255, { newest := some 2, versions := [(1, 2, 1), (2, 3, 0)] })])] } }, 1, 255, 1, 2, 0,
    adapted [(255, { newest := some 2, versions := [(1, 2, 0), (2, 3, 0)] })], adapted [(255, { newest := some 2, versions := [(1, 2, 1), (2, 3, 0)] })], by decide +kernel⟩

/-- One request of ware 1 with its page 0, and room in its ring. -/
def page0 : PageRef := { draft := false, layer := 0, index := 0, block := ⟨130 * 2 ^ 21, 12⟩ }
/-- Ware 1 stands on tiles 8 and 9, its decode and its prefill streams. -/
def ware1 : Ware := { part := 0, plan := plan1, streams := [{ tile := 8, role := .decode, cmds := [] }, { tile := 9, role := .prefill, cmds := [] }] }
def stepping (r : Request) : State := { live with teller := { wares := [(1, ware1)], requests := [(128, r)], rings := [(128, { set := true })] } }
def decoding : Request := { state := .decode, ware := 1, seqLen := 3, promptLen := 3, prefilled := 3, pages := [page0] }
def admitted3 : Request := { state := .admitted, ware := 1, promptLen := 3, pages := [page0] }
theorem witness_StepsAndDeadlines_step : ∃ (s : State) (h i : Nat) (w : Ware) (r : Request), s.teller.held = false ∧ s.update.holdBegun = false ∧ s.ware? h = some w ∧ w.step = none ∧
    w.chunk = none ∧ w.rerun = false ∧ w.vision = none ∧ w.house = none ∧ w.isImage = false ∧ s.tilesUp w = true ∧ s.composeBar w = false ∧
    (∀ y ∈ w.streams, y.role = .decode ∨ y.role = .prefill) ∧ s.teller.requests = [(i, r)] ∧ r.ware = h ∧ r.draft = 0xFFFF ∧ r.inStep = none ∧ s.reqPart i = w.part ∧
    s.ringRoom i 1 = true ∧ r.state = .decode ∧ r.specK = 0 ∧ s.missing r false r.seqLen = [] :=
  ⟨stepping decoding, 1, 128, ware1, decoding, by decide +kernel⟩
theorem witness_StepsAndDeadlines_chunk : ∃ (s : State) (h i : Nat) (w : Ware) (r : Request), s.teller.held = false ∧ s.update.holdBegun = false ∧ s.ware? h = some w ∧ w.step = none ∧
    w.chunk = none ∧ w.rerun = false ∧ w.vision = none ∧ w.house = none ∧ w.isImage = false ∧ s.tilesUp w = true ∧ s.composeBar w = false ∧
    (∀ y ∈ w.streams, y.role = .decode ∨ y.role = .prefill) ∧ s.teller.requests = [(i, r)] ∧ r.ware = h ∧ r.draft = 0xFFFF ∧ r.inStep = none ∧ s.reqPart i = w.part ∧
    s.ringRoom i 1 = true ∧ r.state = .admitted ∧ s.missing r false (r.prefilled + min (max 1 w.plan.chunkTokens) (r.promptLen - r.prefilled) - 1) = [] :=
  ⟨stepping admitted3, 1, 128, ware1, admitted3, by decide +kernel⟩
def endRec : TileDone := { opcode := 0x10, status := 0, queue := 1, tile := 9, tag := 5 }
def runStep : StepRun := { tag := 5, rows := [⟨128, 3, 1⟩], waiting := [8, 9] }
theorem witness_StepsAndDeadlines_record : ∃ (s : State) (d : TileDone) (rest : List TileDone) (h : Nat) (w : Ware) (role : Role) (x : StepRun), s.teller.held = false ∧
    s.teller.records = d :: rest ∧ s.teller.feeds = [] ∧ d.opcode = 0x10 ∧ d.status = stOk ∧ d.tag / 2 ^ 31 = 0 ∧ s.runOf d.tag = some (h, role, x) ∧ s.ware? h = some w :=
  ⟨{ live with teller := { records := [endRec], wares := [(1, { part := 0, step := some runStep })] } }, endRec, [], 1, { part := 0, step := some runStep }, .decode, runStep, by decide +kernel⟩
def stalled1 : Request := { decoding with state := .stalled, resumeTo := .decode, stallCause := 1 }
theorem witness_StepsAndDeadlines_resumes : ∃ (s : State) (i : Nat) (r : Request), s.teller.held = false ∧ s.teller.requests = [(i, r)] ∧ r.state = .stalled ∧
    r.resumeTo = .decode ∧ r.specK = 0 ∧ r.draft = 0xFFFF ∧ s.reqPart i < 8 ∧ s.missing r false r.seqLen = [] ∧ s.ringRoom i 1 = true :=
  ⟨stepping stalled1, 128, stalled1, by decide +kernel⟩
/-- At the deadline exactly, one before it; LATE_STOP in a step and outside one, HARD_ABORT before the prompt, and neither. -/
theorem witness_StepsAndDeadlines_deadline : ∀ x ∈ [((99 : Nat), decoding), (100, { decoding with lateStop := true, inStep := some 5 }), (100, { decoding with lateStop := true }),
      (100, { admitted3 with hardAbort := true }), (100, decoding)],
    ∃ (s : State) (i : Nat), s.teller.held = false ∧ (s.request i).budget ≠ 0 ∧ (s.request i).late = false ∧ (s.request i).state.active = true ∧
      s.tagBusy i = false ∧ s.teller.usec.toNat = x.1 ∧ (s.request i).admitStamp + (s.request i).budget = 100 ∧ s.request i = { x.2 with budget := 100 } ∧ x.2.endReason = 0 := by
  intro x h
  refine ⟨{ stepping { x.2 with budget := 100 } with teller := { (stepping { x.2 with budget := 100 }).teller with usec := BitVec.ofNat 64 x.1 } }, 128, ?_⟩
  revert x
  decide +kernel
theorem witness_StepsAndDeadlines_held : ∃ s : State, s.teller.held = true := ⟨{ live with teller := { held := true } }, rfl⟩

/-- The token record at position 4 of entry `i`, with entry `i`'s ring as given. -/
def tokenRec (i : Nat) : RingRec := { req := i, stepSeq := 7, token := 42, position := 4 }
def ringing (i : Nat) (x : Ring) : State := { live with teller := { ringRecs := [tokenRec i], rings := [(i, x)], requests := [(i, { state := .decode, maxNew := 9, session := some 0 })] } }
theorem witness_TokenRings_drops : ∃ (s : State) (g : RingRec) (rest : List RingRec), s.teller.ringRecs = g :: rest ∧ s.ringDrops g = true :=
  ⟨ringing 128 { set := true, lastPos := some 4 }, tokenRec 128, [], by decide +kernel⟩
theorem witness_TokenRings_writes : ∃ (s : State) (g : RingRec) (rest : List RingRec), s.teller.ringRecs = g :: rest ∧ s.ringDrops g = false ∧ s.dieReady 8 = true ∧
    s.confidential (s.reqPart g.req) = false ∧ s.stageRing g.req = false ∧ (s.dramOpen = true ∨ hostWindow ≤ (s.ring g.req).base) ∧ s.bound (s.reqPart g.req) ((s.ring g.req).base + (s.ring g.req).wr % 2 ^ (s.ring g.req).log2 * 16) 16 = .ok ∧ s.OwnersHold ∧
    s.meetsPoison (.vault 0) ((s.ring g.req).base + (s.ring g.req).wr % 2 ^ (s.ring g.req).log2 * 16) 16 = false ∧ (s.ring g.req).evt = true ∧ (s.ring g.req).wr / 2 ^ (s.ring g.req).log2 % 2 = 1 := by
  refine ⟨ringing 128 { base := 0x800000000000, set := true, wr := 31, rd := 31, evt := true, lastPos := some 3 }, tokenRec 128, [], ?_, ?_, ?_, ?_, ?_, ?_, ?_, owners_of rfl, ?_, ?_, ?_⟩ <;> decide +kernel
/-- A retired request with no record left; one that is not retired; a retired one with a record on its way. -/
theorem witness_TokenRings_erase : ∃ (s u w : State) (i : Nat), (s.request i).state = .retired ∧ (∀ g ∈ s.teller.ringRecs, g.req ≠ i) ∧ (u.request i).state ≠ .retired ∧
    (w.request i).state = .retired ∧ (∃ g ∈ w.teller.ringRecs, g.req = i) :=
  ⟨{ live with teller := { requests := [(128, { state := .retired, kOut := 7 })] } }, live,
    { live with teller := { requests := [(128, { state := .retired, kOut := 7 })], ringRecs := [tokenRec 128] } }, 128, by decide +kernel⟩
theorem witness_TokenRings_key : ∃ (s : State) (g : RingRec) (rest : List RingRec), s.teller.ringRecs = g :: rest ∧ s.ringDrops g = false ∧
    s.confidential (s.reqPart g.req) = true ∧ sget none s.sec.keyCache g.req = none ∧ (s.request g.req).session.isSome = true ∧ s.teller.ringRecs.any (fun x => x.req = g.req) = true :=
  ⟨ringing 0 { set := true }, tokenRec 0, [], by decide +kernel⟩
/-- The read index equal to WR, and one beyond it. -/
theorem witness_TokenRings_index : ∃ (s : State) (f i : Nat) (v w : Word), s.barOpen f = true ∧ i < 65536 ∧ s.ownsEntry (s.funcPart f) i = true ∧ s.dieReady 8 = true ∧
    (s.ring i).set = true ∧ (v.toNat + 2 ^ 32 - (s.ring i).rd) % 2 ^ 32 ≤ ((s.ring i).wr + 2 ^ 32 - (s.ring i).rd) % 2 ^ 32 ∧
    ((s.ring i).wr + 2 ^ 32 - (s.ring i).rd) % 2 ^ 32 < (w.toNat + 2 ^ 32 - (s.ring i).rd) % 2 ^ 32 :=
  ⟨ringing 128 { set := true, wr := 31, rd := 30 }, 0, 128, 31, 32, by decide +kernel⟩
theorem witness_TokenRings_closed : ∃ (s : State) (f : Nat), s.barOpen f = false := ⟨State.reset, 0, rfl⟩

/-! ## Witnesses: streams and wheels -/

/-- A command for context `c` of the PF, with further body fields. -/
def ctxCmd (op c : Nat) (fs : List (Nat × Nat × Nat)) : Forwarded := cmd 0 8 op ((16, 2, c) :: fs)
/-- The command is forwarded and context 4 is as given. -/
def streaming (f : Forwarded) (x : Ctx) : State := { told f with wheels := { ctxs := if x = {} then [] else [(4, x)] } }
theorem witness_StreamCommands_codes : ∀ x ∈ [((0x31 : Nat), (19 : Nat)), (0x32, 27), (0x33, 18), (0x34, 19)], ∃ (s t u : State) (q : Nat) (f g h : Forwarded),
    s.Awaits q x.1 f ∧ bodyReserved f x.2 = true ∧
    t.Awaits q x.1 g ∧ bodyReserved g x.2 = false ∧ g.fld 18 1 ≤ 1 ∧ g.fld 26 1 ≤ 1 ∧ t.ctxPart (g.fld 16 2) ≠ t.funcPart g.fn ∧
    u.Awaits q x.1 h ∧ bodyReserved h x.2 = false ∧ h.fld 18 1 ≤ 1 ∧ h.fld 26 1 ≤ 1 ∧ u.funcPart h.fn < 8 ∧ u.ctxPart (h.fld 16 2) = u.funcPart h.fn ∧ (u.ctx (h.fld 16 2)).state = .closed := by
  intro x h
  refine ⟨told (ctxCmd x.1 4 [(27, 1, 1)]), told (ctxCmd x.1 3 []), told (ctxCmd x.1 7 []), 8, ctxCmd x.1 4 [(27, 1, 1)], ctxCmd x.1 3 [], ctxCmd x.1 7 [],
    awaits_of ?_, ?_, awaits_of ?_, ?_, ?_, ?_, ?_, awaits_of ?_, ?_, ?_, ?_, ?_, ?_, ?_⟩ <;> revert x <;> decide +kernel
/-- Context records at 0x13000000 in partition 0's DRAM: encode, host-fed decode, RTP decode. -/
def openRec (k : Nat) : List (Nat × Nat × Nat) :=
  [(2, 1, 1), (80, 1, 1), (16, 6, 0x10000000), (22, 2, 64), (81, 1, 1), (82, 1, 2), (84, 2, 8), (86, 2, 8)] ++
  (if k = 0 then [(0, 1, 1), (176, 6, 0x11000000), (182, 1, 16), (183, 1, 4), (184, 6, 0x12000000), (193, 1, 51), (202, 2, 65)]
   else if k = 1 then [(4, 1, 1), (8, 6, 0x14000000), (122, 6, 0x11000000), (128, 1, 16)]
   else [(8, 6, 0x14000000), (122, 6, 0x11000000), (128, 1, 16), (129, 1, 1), (130, 2, 0xFFFF), (132, 1, 4), (133, 1, 96), (134, 2, 5004), (136, 4, 0x0A000001),
         (160, 6, 0x15000000), (166, 4, 65536)])
def openCmd : Forwarded := ctxCmd 0x30 4 [(18, 6, 0x13000000)]
def opening (k : Nat) (x : Ctx) : State := (streaming openCmd x).put (.vault 0) 0x13000000 (toLE 256 ((openRec k).map (fun f => f.2.2 * 256 ^ f.1)).sum)
theorem witness_StreamCommands_open : ∀ k < 3, ∃ (s : State) (q : Nat) (f : Forwarded), s.Awaits q 0x30 f ∧ bodyReserved f 24 = false ∧ f.fld 18 6 % 64 = 0 ∧
    s.inDram (s.funcPart f.fn) (f.fld 18 6) 256 = true ∧ recordBad (s.readBytes (f.fld 18 6) 256) (ctxRecOf (s.readBytes (f.fld 18 6) 256)) = false ∧
    s.confidential (s.funcPart f.fn) = false ∧ s.funcPart f.fn < 8 ∧ s.ctxPart (f.fld 16 2) = s.funcPart f.fn ∧ (s.ctx (f.fld 16 2)).state = .closed ∧
    (s.part? (s.funcPart f.fn)).all (fun r => r.wheels.getLsbD (ctxRecOf (s.readBytes (f.fld 18 6) 256)).wheel) = true ∧ (s.part? (s.funcPart f.fn)).isSome = true ∧
    targetBad s (s.funcPart f.fn) (ctxRecOf (s.readBytes (f.fld 18 6) 256)) = false ∧
    s.faults.fenceWheels.getLsbD (ctxRecOf (s.readBytes (f.fld 18 6) 256)).wheel = false ∧ (ctxRecOf (s.readBytes (f.fld 18 6) 256)).rtp = decide (k = 2) ∧
    (∀ e ∈ s.wheels.ctxs, e.2.state = .closed) := by
  intro k hk
  refine ⟨opening k {}, 8, openCmd, awaits_of ?_, ?_⟩ <;> revert k <;> decide +kernel
/-- Wheel 1, the partition's, is fenced. -/
theorem witness_StreamCommands_openFenced : ∃ (s : State) (q : Nat) (f : Forwarded), s.Awaits q 0x30 f ∧ bodyReserved f 24 = false ∧ f.fld 18 6 % 64 = 0 ∧
    s.inDram (s.funcPart f.fn) (f.fld 18 6) 256 = true ∧ recordBad (s.readBytes (f.fld 18 6) 256) (ctxRecOf (s.readBytes (f.fld 18 6) 256)) = false ∧
    s.confidential (s.funcPart f.fn) = false ∧ s.funcPart f.fn < 8 ∧ s.ctxPart (f.fld 16 2) = s.funcPart f.fn ∧ (s.ctx (f.fld 16 2)).state = .closed ∧
    (s.part? (s.funcPart f.fn)).all (fun r => r.wheels.getLsbD (ctxRecOf (s.readBytes (f.fld 18 6) 256)).wheel) = true ∧ (s.part? (s.funcPart f.fn)).isSome = true ∧
    s.faults.fenceWheels.getLsbD (ctxRecOf (s.readBytes (f.fld 18 6) 256)).wheel = true := by
  refine ⟨{ opening 1 {} with faults := { fenceWheels := 0xF } }, 8, openCmd, awaits_of ?_, ?_⟩ <;> decide +kernel
theorem witness_StreamCommands_openBusy : ∃ (s : State) (q : Nat) (f : Forwarded), s.Awaits q 0x30 f ∧ bodyReserved f 24 = false ∧ f.fld 18 6 % 64 = 0 ∧
    s.inDram (s.funcPart f.fn) (f.fld 18 6) 256 = true ∧ recordBad (s.readBytes (f.fld 18 6) 256) (ctxRecOf (s.readBytes (f.fld 18 6) 256)) = false ∧
    s.confidential (s.funcPart f.fn) = false ∧ s.funcPart f.fn < 8 ∧ s.ctxPart (f.fld 16 2) = s.funcPart f.fn ∧ (s.ctx (f.fld 16 2)).state ≠ .closed := by
  refine ⟨opening 1 { state := .running }, 8, openCmd, awaits_of ?_, ?_⟩ <;> decide +kernel
theorem witness_StreamCommands_openReserved : ∃ (s : State) (q : Nat) (f : Forwarded), s.Awaits q 0x30 f ∧ bodyReserved f 24 = true :=
  ⟨told (ctxCmd 0x30 4 [(24, 1, 1)]), 8, ctxCmd 0x30 4 [(24, 1, 1)], awaits_of (by decide +kernel), by decide +kernel⟩
def decodes : Ctx := { state := .running, cfg := { hostFed := true } }
def encodes : Ctx := { state := .running, cfg := { encode := true }, bsWr := 9, descWr := 9, bsRd := 1 }
/-- CLOSE, FEED of an encoder and of a host-fed decoder (the whole ring), KEY, CLASS. -/
theorem witness_StreamCommands_acts : ∀ x ∈ [(ctxCmd 0x31 4 [(18, 1, 1)], decodes), (ctxCmd 0x32 4 [(18, 4, 9), (22, 4, 9)], encodes), (ctxCmd 0x32 4 [(18, 4, 65536), (26, 1, 1)], decodes),
      (ctxCmd 0x33 4 [], encodes), (ctxCmd 0x34 4 [(18, 1, 2)], decodes)], ∃ (s : State) (q c : Nat) (f : Forwarded), f.fld 16 2 = c ∧ s.funcPart f.fn < 8 ∧
    s.ctxPart c = s.funcPart f.fn ∧ (s.ctx c).state ≠ .closed ∧ s.Awaits q f.opcode f ∧ (s.ctx c) = x.2 ∧ f = x.1 ∧ bodyReserved f (if f.opcode = 0x32 then 27 else if f.opcode = 0x33 then 18 else 19) = false ∧
    (f.opcode = 0x31 → f.fld 18 1 ≤ 1 ∧ (s.ctx c).state ≠ .closing) ∧ (f.opcode = 0x34 → f.fld 18 1 ≤ 2) ∧ (f.opcode = 0x33 → (s.ctx c).cfg.encode = true) ∧
    (f.opcode = 0x32 → f.fld 26 1 ≤ 1 ∧ ((s.ctx c).cfg.encode = true → (f.fld 18 4 + 2 ^ 32 - (s.ctx c).bsRd) % 2 ^ 32 ≤ ((s.ctx c).bsWr + 2 ^ 32 - (s.ctx c).bsRd) % 2 ^ 32 ∧
        (f.fld 22 4 + 2 ^ 32 - (s.ctx c).descRd) % 2 ^ 32 ≤ ((s.ctx c).descWr + 2 ^ 32 - (s.ctx c).descRd) % 2 ^ 32) ∧ ((s.ctx c).cfg.encode = false → (s.ctx c).cfg.hostFed = true ∧ (f.fld 18 4 + 2 ^ 32 - (s.ctx c).rd) % 2 ^ 32 ≤ 2 ^ (s.ctx c).cfg.nalLog2 ∧
      ((s.ctx c).nalTotal + 2 ^ 32 - (s.ctx c).rd) % 2 ^ 32 ≤ (f.fld 18 4 + 2 ^ 32 - (s.ctx c).rd) % 2 ^ 32)) := by
  intro x h
  refine ⟨streaming x.1 x.2, 8, 4, x.1, ?_, ?_, ?_, ?_, awaits_of ?_, ?_⟩ <;> revert x <;> decide +kernel
/-- A read index behind the last one, and one past what has been written. -/
theorem witness_StreamCommands_back : ∀ v ∈ [((0 : Nat), (9 : Nat)), (9, 10)], ∃ (s : State) (q c : Nat) (f : Forwarded), f.fld 16 2 = c ∧ s.funcPart f.fn < 8 ∧ s.ctxPart c = s.funcPart f.fn ∧
    (s.ctx c).state ≠ .closed ∧ s.Awaits q 0x32 f ∧ bodyReserved f 27 = false ∧ f.fld 26 1 ≤ 1 ∧ (s.ctx c).cfg.encode = true ∧
    ¬ ((f.fld 18 4 + 2 ^ 32 - (s.ctx c).bsRd) % 2 ^ 32 ≤ ((s.ctx c).bsWr + 2 ^ 32 - (s.ctx c).bsRd) % 2 ^ 32 ∧
      (f.fld 22 4 + 2 ^ 32 - (s.ctx c).descRd) % 2 ^ 32 ≤ ((s.ctx c).descWr + 2 ^ 32 - (s.ctx c).descRd) % 2 ^ 32) := by
  intro v h
  refine ⟨streaming (ctxCmd 0x32 4 [(18, 4, v.1), (22, 4, v.2)]) encodes, 8, 4, ctxCmd 0x32 4 [(18, 4, v.1), (22, 4, v.2)], ?_, ?_, ?_, ?_, awaits_of ?_, ?_⟩ <;> revert v <;> decide +kernel
theorem witness_StreamCommands_closed : ∃ (s t u : State) (c : Nat), (s.ctx c).state = .closing ∧ ¬ ((s.wheel (s.ctx c).cfg.wheel).active = true ∧ (s.wheel (s.ctx c).cfg.wheel).ctx = c) ∧ (s.ctx c).closeMode = 1 ∧
    (t.ctx c).state = .closing ∧ ¬ ((t.wheel (t.ctx c).cfg.wheel).active = true ∧ (t.wheel (t.ctx c).cfg.wheel).ctx = c) ∧ (t.ctx c).picOpen = false ∧ (t.ctx c).encNals = [] ∧ (u.ctx c).state ≠ .closing :=
  ⟨live.setCtx 4 { state := .closing, closeMode := 1, picOpen := true }, live.setCtx 4 { state := .closing }, live, 4, by decide +kernel⟩

/-- A range within one DRAM unit of partition p is in bounds. -/
theorem bound_unit {s : State} {p u b n : Nat} (hp : p ≠ 8) (hu : s.unitPart u = p) (ht : (u + 1) * 0x4000000 ≤ s.dramTop) (hb : u * 0x4000000 ≤ b)
    (he : b + n ≤ (u + 1) * 0x4000000) : s.bound p b n = .ok := by
  rcases Nat.eq_zero_or_pos n with rfl | hn
  · rfl
  · have hr : s.region b = .dram := by rw [State.region, if_pos (by omega)]
    have h1 : b / 0x4000000 = u := by omega
    have h2 : (b + n - 1) / 0x4000000 = u := by omega
    have hd : s.inDram p b n = true := by
      simp only [State.inDram, h1, h2]
      simp [hn, hu]
      omega
    simp [State.bound, hr, hp, hd, Nat.ne_of_gt hn]

/-- Context 4 takes RTP from port 3 to 10.0.0.1:5004; its jitter buffer is at 0x15000000, its NAL ring at 0x18000000. -/
def rtpCtx : Ctx := { state := .running, nextSeq := some 65540, cfg := { codec := 1, portMask := 8, vlan := 0xFFFF, udpPort := 5004, ipDst := 0x0A000001, jitAddr := 0x15000000,
                                                                         jitBytes := 65536, nalAddr := 0x18000000 } }
/-- The frame of RTP packet 4 with payload type `pt` (RFC 791, RFC 768, RFC 3550), from port `k`. -/
def rtpFrame (k pt : Nat) : EthFrame :=
  { port := k
    bytes := toBE 14 0x0800 ++ toBE 20 0x4500002C000000004011_70C1000000000A000001 ++ toBE 8 0x0000138C00180000 ++ toBE 2 (0x8000 + pt) ++ toBE 10 (4 * 2 ^ 64) ++ [0x65, 1, 2, 3] }
/-- An ARP request for 10.0.0.1 (RFC 826). -/
def arpFrame : EthFrame := { port := 3, bytes := toBE 14 0x0806 ++ toBE 8 0x0001080006040001 ++ toBE 10 7 ++ toBE 6 0 ++ toBE 4 0x0A000001 }
def receiving (x : Ctx) : State := live.setCtx 4 x
/-- Frames whose FCS and whose FEC fail. -/
theorem witness_IngestAndWheels_bad : ∃ (s : State) (f g : EthFrame), s.dieReady 9 = true ∧ f.port < 4 ∧ f.fecOk = true ∧ f.fcsOk = false ∧ g.port < 4 ∧ g.fecOk = false :=
  ⟨live, { port := 3, fcsOk := false }, { port := 3, fecOk := false }, by decide⟩
theorem witness_IngestAndWheels_frames : ∃ (s : State) (h k : EthFrame), s.dieReady 9 = true ∧
    h.port < 4 ∧ h.fecOk = true ∧ h.fcsOk = true ∧ s.classify h.port (parseFrame h.bytes) = none ∧
    k.port < 4 ∧ k.fecOk = true ∧ k.fcsOk = true ∧ s.classify k.port (parseFrame k.bytes) = some 4 ∧ frameBad (s.ctx 4).cfg (parseFrame k.bytes) = true :=
  ⟨receiving rtpCtx, rtpFrame 2 96, rtpFrame 3 97, by decide +kernel⟩
theorem witness_IngestAndWheels_arp : ∃ (s : State) (f : EthFrame), s.dieReady 9 = true ∧ f.port < 4 ∧ f.fecOk = true ∧ f.fcsOk = true ∧ s.classify f.port (parseFrame f.bytes) = none ∧
    (s.neighbourReply f.port f.bytes).isSome = true ∧ (sget {} s.host.eth f.port).link = true :=
  ⟨{ receiving rtpCtx with host := { live.host with eth := [(3, { link := true })] } }, arpFrame, by decide +kernel⟩
theorem witness_IngestAndWheels_inOrder : ∃ (s : State) (f : EthFrame) (c n : Nat), f.port < 4 ∧ s.dieReady 9 = true ∧ f.fecOk = true ∧ f.fcsOk = true ∧ s.classify f.port (parseFrame f.bytes) = some c ∧
    frameBad (s.ctx c).cfg (parseFrame f.bytes) = false ∧ (s.ctx c).packets = [] ∧ (s.ctx c).nextSeq = some n ∧ n % 65536 = (parseFrame f.bytes).seq % 65536 ∧
    (parseFrame f.bytes).payload = [0x65, 1, 2, 3] ∧ Packet.room 4 ≤ (s.ctx c).cfg.jitBytes ∧ s.bound (s.ctxPart c) (s.ctx c).cfg.jitAddr 4 = .ok ∧ s.OwnersHold ∧
    s.meetsPoison (.vault 1) (s.ctx c).cfg.jitAddr 4 = false := by
  refine ⟨receiving rtpCtx, rtpFrame 3 96, 4, 65540, ?_, ?_, ?_, ?_, ?_, ?_, ?_, ?_, ?_, ?_, ?_, ?_, owners_of rfl, ?_⟩ <;> decide +kernel
/-- Packet 65540 waits in the jitter buffer, with the next one expected as given. -/
def packet : Packet := { seq := 65540, ts := 9, ofs := 64, len := 2 }
def waitingNal (n : Nat) : State := (receiving { rtpCtx with packets := [packet], nextSeq := some n }).put (.vault 1) 0x15000040 [0x65, 1]
theorem witness_IngestAndWheels_jitter : ∀ n ∈ [65539, 65540], ∃ (s : State) (c : Nat) (p : Packet) (rest : List Packet), (s.ctx c).state = .running ∧
    (s.ctx c).packets = p :: rest ∧ (s.ctx c).nextSeq = some n ∧ (n = 65539 → n < p.seq) ∧ (n = 65540 → n = p.seq) :=
  fun n h => ⟨waitingNal n, 4, packet, [], by revert n; decide +kernel⟩
theorem witness_IngestAndWheels_unit : ∃ (s : State) (c n : Nat) (p : Packet) (rest : List Packet) (b : Byte) (d : List Byte), s.dramOpen = true ∧ (s.ctx c).state = .running ∧
    (s.ctx c).packets = p :: rest ∧ (s.ctx c).nextSeq = some n ∧ n = p.seq ∧ (s.ctx c).cfg.codec = 1 ∧ s.readBytes ((s.ctx c).cfg.jitAddr + p.ofs) p.len = b :: d ∧
    1 ≤ b.toNat % 32 ∧ b.toNat % 32 ≤ 23 ∧ (s.ctx c).fu = none ∧ s.bound (s.ctxPart c) ((s.ctx c).cfg.jitAddr + p.ofs) p.len = .ok ∧
    s.meetsPoison (.vault 1) ((s.ctx c).cfg.jitAddr + p.ofs) p.len = false ∧
    ((s.ctx c).nalTotal + 2 ^ 32 - (s.ctx c).rd) % 2 ^ 32 + (4 + p.len) ≤ 2 ^ (s.ctx c).cfg.nalLog2 ∧
    (∀ b n, (s.ctx c).cfg.nalAddr ≤ b → b + n ≤ (s.ctx c).cfg.nalAddr + 2 ^ (s.ctx c).cfg.nalLog2 → s.bound (s.ctxPart c) b n = .ok) ∧ s.OwnersHold ∧
    s.meetsPoison (.vault 1) (s.ctx c).cfg.nalAddr (2 ^ (s.ctx c).cfg.nalLog2) = false :=
  ⟨waitingNal 65540, 4, 65540, packet, [], 0x65, [1], rfl, rfl, by decide +kernel, rfl, rfl, rfl, by decide +kernel, by decide, by decide, rfl, by decide +kernel, by decide +kernel, by decide +kernel,
    fun b n h1 h2 => bound_unit (u := 6) (by decide +kernel) (by decide +kernel) (by decide +kernel) (Nat.le_trans (by decide +kernel) h1) (Nat.le_trans h2 (by decide +kernel)),
    owners_of (by decide +kernel), by decide +kernel⟩
/-- Wheel 1 idle with a ready encoder; running an encoder's picture; running a decoder's, whose buffer's tally 64 is not 0. -/
def wheelRun (a : Bool) (x : Ctx) (v : Word) : State :=
  { live with wheels := { ctxs := [(4, x)], wheels := if a then [(1, { ctx := 4, active := true, encode := x.cfg.encode })] else [] }, mem := { live.mem with tallies := sset 0 [] 64 v } }
def encoder : Ctx := { state := .running, cfg := { encode := true, wheel := 1, bufs := [(0x10000000, 64)], outH := 8, outW := 8, dpbAddr := 0x12000000, dpbBytes := 4096 } }
/-- A picture of 4 by 4 samples whose first three rows are final, into a tensor of the same size. -/
def decoder : Ctx :=
  { state := .running, picOpen := true, picSet := { w := 4, h := 4, winW := 4, winH := 4 }, picUnit := 1, picRows := [(0, []), (1, []), (2, []), (3, [])]
    cfg := { wheel := 1, bufs := [(0x10000000, 64)], outH := 4, outW := 4, elemFmt := 2, hostFed := true, infoAddr := 0x11000000
             nalAddr := 0x18000000, nalLog2 := 16, dpbAddr := 0x12000000, dpbBytes := 65536 } }
theorem witness_IngestAndWheels_take : ∃ (s : State) (w c : Nat), s.wheelUp w = true ∧ (s.wheel w).active = false ∧ s.pickCtx w = some c :=
  ⟨wheelRun false encoder 8, 1, 4, by decide +kernel⟩
theorem witness_IngestAndWheels_none : ∃ (s : State) (w : Nat), s.wheelUp w = true ∧ (s.wheel w).active = false ∧ s.pickCtx w = none := ⟨live, 1, by decide +kernel⟩
/-- The last row of a picture in one slice, whose bitstream ring holds the slice whatever its length. -/
theorem witness_IngestAndWheels_picture : ∃ (s : State) (w c : Nat), let x := s.ctx c
    let b := (x.cfg.bufs[x.bufIndex]?).getD (0, 0)
    s.wheelUp w = true ∧ (s.wheel w).active = true ∧ (s.wheel w).ctx = c ∧ x.state = .running ∧ x.cfg.encode = true ∧ x.picOpen = true ∧ x.cfg.outH ≤ 32 * (x.row + 1) ∧
    let m := min (picBytes x.cfg.outW x.cfg.outH 8) x.cfg.dpbBytes
    s.bound (s.ctxPart c) b.1 x.cfg.bufBytes = .ok ∧ s.bound (s.ctxPart c) x.cfg.dpbAddr m = .ok ∧
    (∀ e ∈ x.cfg.encSpans b.1 x.row, s.meetsPoison (.vault (w / 2)) e.1 e.2 = false) ∧ x.idr = false ∧ s.meetsPoison (.vault (w / 2)) x.cfg.dpbAddr m = false ∧
    (∀ n ∈ ({ x with row := x.row + 1, encRows := x.encRows ++ [s.encInput x.cfg b.1 x.row], cls := x.nextClass.getD x.cls, nextClass := none } : Ctx).nalsOf true (s.readBytes x.cfg.dpbAddr m),
      n.bytes.length ≤ 2 ^ x.cfg.bsLog2) := by
  let e (k : Nat) : Ctx := { encoder with picOpen := true, cfg := { encoder.cfg with bsLog2 := k } }
  let st (k : Nat) : State := wheelRun true (e k) 8
  let k : Nat := (({ e 0 with row := 1, encRows := [(st 0).encInput (e 0).cfg 0x10000000 0] } : Ctx).nalsOf true
    ((st 0).readBytes (e 0).cfg.dpbAddr (min (picBytes 8 8 8) (e 0).cfg.dpbBytes))).map (·.bytes.length) |>.sum
  refine ⟨st k, 1, 4, by decide +kernel, rfl, rfl, rfl, rfl, rfl, by decide +kernel, ?_, ?_, ?_, rfl, ?_, ?_⟩
  · exact bound_unit (u := 4) (by decide +kernel) (by decide +kernel) (by decide +kernel) (by decide +kernel) (by decide +kernel)
  · exact bound_unit (u := 4) (by decide +kernel) (by decide +kernel) (by decide +kernel) (by decide +kernel) (by decide +kernel)
  · decide +kernel
  · decide +kernel
  · intro n hn
    have hk : n.bytes.length ≤ k := List.le_sum_of_mem (List.mem_map.mpr ⟨n, hn, rfl⟩)
    exact Nat.le_trans hk (Nat.le_of_lt Nat.lt_two_pow_self)
theorem witness_IngestAndWheels_idr : ∃ x : Ctx, x.state = .running ∧ x.cfg.encode = true ∧ x.idr = true := ⟨{ encoder with idr := true }, rfl, rfl, rfl⟩
/-- The decoder's output is due and its buffer's tally is not 0. -/
theorem witness_IngestAndWheels_waits : ∃ (s : State) (w c : Nat) (r : RowReads), s.wheelUp w = true ∧ (s.wheel w).active = true ∧ (s.wheel w).ctx = c ∧ (s.ctx c).state = .running ∧
    (s.ctx c).cfg.encode = false ∧ r.start = none ∧ r.sets = [] ∧
    (let u := (s.setCtx c { s.ctx c with cls := (s.ctx c).nextClass.getD (s.ctx c).cls, nextClass := none }).takeRow w c r
     u.output w c (u.ctx c).inputOver).isNone = true :=
  ⟨wheelRun true decoder 1, 1, 4, {}, by decide +kernel⟩
theorem witness_IngestAndWheels_due : ∃ (s : State) (w c : Nat), (s.ctx c).picOpen = true ∧ (s.ctx c).picSkip = false ∧ (s.ctx c).granted = false ∧ (s.ctx c).cfg.bufSkip = false ∧
    (s.ctx c).outRows < picRowsDue (s.picView (s.ctx c)) (s.ctx c).cfg ((s.ctx c).finalRows false) ∧ s.targetState w c = none ∧
    s.tallySeen w (((s.ctx c).cfg.bufs[(s.ctx c).bufIndex]?).getD (0, 0)).2 ≠ 0 :=
  ⟨wheelRun true decoder 1, 1, 4, by decide +kernel⟩
theorem witness_IngestAndWheels_down : ∃ (s : State) (w : Nat), s.wheelUp w = false := ⟨live, 4, by decide⟩
theorem witness_IngestAndWheels_poll : ∀ v ∈ [(0 : Nat), 1], ∃ (s : State) (c : Nat), (s.ctx c).outWaiting = true ∧
    s.tallySeen (s.ctx c).cfg.wheel (((s.ctx c).cfg.bufs[(s.ctx c).bufIndex]?).getD (0, 0)).2 = v :=
  fun v h => ⟨wheelRun false { decoder with outWaiting := true } (BitVec.ofNat 32 v), 4, by revert v; decide +kernel⟩
/-- An encoded unit of 4 bytes fills the bitstream ring exactly, and is one byte too long. -/
def encoded (n : Nat) : Ctx :=
  { state := .running, bsWr := 65532, encNals := [⟨List.replicate n 1, 0, true, true, false, false, 19, 0⟩],
    cfg := { encode := true, bsAddr := 0x10000000, descAddr := 0x11000000, bsLog2 := 16, descLog2 := 4, evt := true } }
theorem witness_IngestAndWheels_post : ∃ (s : State) (c : Nat) (n : EncNal) (rest : List EncNal), let x := s.ctx c
    let slot := x.cfg.descAddr + x.descWr % 2 ^ x.cfg.descLog2 * 16
    x.encNals = n :: rest ∧ x.nalDue = true ∧ s.dramOpen = true ∧ (x.bsWr + 2 ^ 32 - x.bsRd) % 2 ^ 32 + n.bytes.length ≤ 2 ^ x.cfg.bsLog2 ∧ (x.descWr + 2 ^ 32 - x.descRd) % 2 ^ 32 < 2 ^ x.cfg.descLog2 ∧
    (∀ b n, x.cfg.bsAddr ≤ b → b + n ≤ x.cfg.bsAddr + 2 ^ x.cfg.bsLog2 → s.bound (s.ctxPart c) b n = .ok) ∧ s.bound (s.ctxPart c) slot 16 = .ok ∧ s.OwnersHold ∧
    s.meetsPoison (.vault (x.cfg.wheel / 2)) x.cfg.bsAddr (2 ^ x.cfg.bsLog2) = false ∧ s.meetsPoison (.vault (x.cfg.wheel / 2)) slot 16 = false ∧ x.cfg.evt = true :=
  ⟨receiving (encoded 4), 4, ⟨List.replicate 4 1, 0, true, true, false, false, 19, 0⟩, [], by decide +kernel, rfl, by decide +kernel, by decide +kernel, by decide +kernel,
    fun b n h1 h2 => bound_unit (u := 4) (by decide +kernel) (by decide +kernel) (by decide +kernel) (Nat.le_trans (by decide +kernel) h1) (Nat.le_trans h2 (by decide +kernel)),
    by decide +kernel, owners_of rfl, by decide +kernel, by decide +kernel, by decide +kernel⟩
theorem witness_IngestAndWheels_full : ∃ (t : State) (c : Nat) (m : EncNal) (rest : List EncNal), (t.ctx c).encNals = m :: rest ∧ (t.ctx c).nalDue = true ∧ t.dramOpen = true ∧
    2 ^ (t.ctx c).cfg.bsLog2 < ((t.ctx c).bsWr + 2 ^ 32 - (t.ctx c).bsRd) % 2 ^ 32 + m.bytes.length :=
  ⟨receiving (encoded 5), 4, ⟨List.replicate 5 1, 0, true, true, false, false, 19, 0⟩, [], by decide +kernel⟩

/-! ## Witnesses: the host link -/

theorem witness_BarFourAndQueueRegisters_mapped : ∃ (s : State) (f ofs a : Nat) (data : List Byte), s.barOpen f = true ∧ s.dieReady 8 = true ∧
    s.bar4Map f ofs data.length = .mapped ((List.range data.length).map (a + ·)) ∧ (∀ i < data.length, s.chanPaused (a + i) = false) ∧ s.OwnersHold ∧ s.meetsPoison (.vault 0) a data.length = false ∧
    (∀ b ∈ (List.range data.length).map (a + ·), s.meetsPoison (.vault 0) (b / 64 * 64) 64 = false) :=
  ⟨live, 0, 0xFFFFFFC, 0x1FFFFFFC, [1, 2, 3, 4], by decide +kernel, by decide +kernel, by decide +kernel, by decide +kernel, owners_of rfl, by decide +kernel, by decide +kernel⟩
/-- The memory-controller group of the address waits. -/
theorem witness_BarFourAndQueueRegisters_paused : ∃ (s : State) (f ofs : Nat) (data : List Byte) (l : List Nat), s.barOpen f = true ∧ s.dieReady 8 = true ∧
    s.bar4Map f ofs data.length = .mapped l ∧ (∃ a ∈ l, s.chanPaused a = true) :=
  ⟨{ live with faults := { mcPaused := 0x3F } }, 0, 0, [1], [0x10000000], by decide +kernel⟩
/-- The home, vault 1, is in reset. -/
theorem witness_BarFourAndQueueRegisters_lost : ∃ (s : State) (f ofs n a : Nat) (l : List Nat), s.barOpen f = true ∧ s.dieReady 8 = true ∧
    s.bar4Map f ofs n = .mapped l ∧ (∀ b ∈ l, s.chanPaused b = false) ∧ a ∈ l ∧ s.meetsLost 8 (a / 64 * 64) 64 = true :=
  ⟨live.setDie 9 .inReset, 0, 30 * 4096, 1, 0x1001E000, [0x1001E000], by decide +kernel⟩
theorem witness_BarFourAndQueueRegisters_outside : ∃ (s : State) (f ofs a : Nat) (data : List Byte), s.barOpen f = true ∧ s.dieReady 8 = true ∧
    s.bar4Map f ofs data.length = .outside ∧ s.bar4Map f 0x10000000 data.length = .refused a := ⟨live, 0, 2 ^ 30 - 3, 0, [1, 2, 3, 4], by decide +kernel⟩
/-- A VF that no partition names, and the VF of the CONFIDENTIAL partition. -/
theorem witness_BarFourAndQueueRegisters_absent : ∃ (s : State) (a : Nat), s.dieReady 8 = true ∧ s.barOpen 2 = true ∧ s.bar4Map 2 0 4 = .absent ∧ s.barOpen 1 = true ∧
    s.bar4Map 1 0 4 = .sealed_ a :=
  ⟨{ live with mould := { live.mould with totalVfs := 2, vfBar4Log2 := 30 }, host := { live.host with funcs := (2, { mse := true, bme := true }) :: live.host.funcs } }, 0, by decide +kernel⟩
/-- The PF's submission queue 8 of 16 entries holds 14, so that one slot is free; its completion queue 8 holds 3. -/
def rings8 : State :=
  { live with host := { live.host with sqs := [(8, { en := true, log2 := 4, loc := true, base := 0x10000000, bind := 8, head := 2, tail := 0 })],
                                       cqs := [(8, { en := true, log2 := 4, loc := true, base := 0x11000000, head := 14, tail := 1, lap := 1 })] } }
theorem witness_BarFourAndQueueRegisters_tail : ∃ (s : State) (f q : Nat) (v w : Word), s.barOpen f = true ∧ q < 1024 ∧ s.funcPart f < 8 ∧ s.dieReady 8 = true ∧ s.sqPart q = s.funcPart f ∧
    v.toNat % 4096 < (s.sq q).size ∧ (v.toNat % 4096 + (s.sq q).size - (s.sq q).tail) % (s.sq q).size ≤ (s.sq q).size - 1 - ((s.sq q).tail + (s.sq q).size - (s.sq q).head) % (s.sq q).size ∧
    (s.sq q).size ≤ w.toNat % 4096 := ⟨rings8, 0, 8, 1, 16, by decide +kernel⟩
theorem witness_BarFourAndQueueRegisters_head : ∃ (s : State) (f q : Nat) (v w : Word), s.barOpen f = true ∧ q < 1024 ∧ s.funcPart f < 8 ∧ s.dieReady 8 = true ∧ s.cqPart q = s.funcPart f ∧
    sget [] s.host.staging (s.funcPart f) = [] ∧ v.toNat % 4096 < (s.cq q).size ∧ (v.toNat % 4096 + (s.cq q).size - (s.cq q).head) % (s.cq q).size ≤ (s.cq q).held ∧
    (s.cq q).size ≤ w.toNat % 4096 := ⟨rings8, 0, 8, 1, 16, by decide +kernel⟩
/-- CFG of queue 9, disabled: without EN, with EN, with EN and a size of 2^3. -/
def base9 : State := { live with host := { live.host with sqs := [(9, { base := 0x10000000 })] } }
theorem witness_BarFourAndQueueRegisters_cfg : ∃ (s : State) (f q : Nat) (u v w : Word), s.barOpen f = true ∧ q < 1024 ∧ s.funcPart f < 8 ∧ s.dieReady 8 = true ∧ s.sqPart q = s.funcPart f ∧
    (s.sq q).shutting = false ∧ (s.sq q).en = false ∧ bit u.toNat 0 = false ∧ bit v.toNat 0 = true ∧ bit w.toNat 0 = true ∧
    s.queueOk false q { s.sq q with loc := bit v.toNat 1, log2 := bits v.toNat 2 4, bind := bits v.toNat 6 10, shutting := false, latchedEn := false } = true ∧
    s.queueOk false q { s.sq q with loc := bit w.toNat 1, log2 := bits w.toNat 2 4, bind := bits w.toNat 6 10, shutting := false, latchedEn := false } = false :=
  ⟨base9, 0, 9, 2 + 16 + 512, 3 + 16 + 512, 3 + 12 + 512, by decide +kernel⟩
theorem witness_BarFourAndQueueRegisters_base : ∃ (s : State) (f q k : Nat), s.barOpen f = true ∧ q < 1024 ∧ s.funcPart f < 8 ∧ s.dieReady 8 = true ∧ s.sqPart q = s.funcPart f ∧
    (s.sq q).en = true ∧ k < 1024 ∧ s.sqPart k ≠ s.funcPart f := ⟨rings8, 0, 8, 7, by decide +kernel⟩

/-- Queue 8 with one waiting entry in DRAM: the given bytes. -/
def fetching (l : List Byte) : State :=
  { live with host := { live.host with sqs := [(8, { en := true, log2 := 4, loc := true, base := 0x10000000, bind := 8, head := 15, tail := 0 })],
                                       cqs := [(8, { en := true, log2 := 4, loc := true, base := 0x11000000 })] } }.put (.vault 0) (0x10000000 + 15 * 64) l
theorem witness_FetchAndCompletion_fetch : ∀ x ∈ [(0x21, true), (0x07, false)], ∃ (s : State) (q : Nat), (s.sq q).en = true ∧ (s.sq q).halted = false ∧ (s.sq q).head ≠ (s.sq q).tail ∧ s.sqPart q < 8 ∧
    s.funcQuiet (s.partFunc (s.sqPart q)) = false ∧ s.dieReady 8 = true ∧ s.dramOpen = true ∧ s.cqRoom (s.sq q).bind = true ∧
    s.OwnersHold ∧ s.meetsPoison (.vault 0) ((s.sq q).addr + (s.sq q).head % (s.sq q).size * 64) 64 = false ∧ s.bound (s.sqPart q) ((s.sq q).addr + (s.sq q).head % (s.sq q).size * 64) 64 = .ok ∧
    knownOpcode (lfld (s.readBytes ((s.sq q).addr + (s.sq q).head % (s.sq q).size * 64) 64) 0 1) = x.2 ∧
    lzero (s.readBytes ((s.sq q).addr + (s.sq q).head % (s.sq q).size * 64) 64) 1 1 = true ∧ lzero (s.readBytes ((s.sq q).addr + (s.sq q).head % (s.sq q).size * 64) 64) 4 12 = true := by
  intro x h
  refine ⟨fetching [BitVec.ofNat 8 x.1, 0, 5, 0], 8, ?_, ?_, ?_, ?_, ?_, ?_, ?_, ?_, owners_of ?_, ?_⟩ <;> revert x <;> decide +kernel
/-- An entry on a poisoned line, one whose home is lost, and one outside the partition. -/
theorem witness_FetchAndCompletion_bad : ∃ (s t u : State) (q : Nat), (∀ x ∈ [s, t, u], (x.sq q).en = true ∧ (x.sq q).halted = false ∧ (x.sq q).head ≠ (x.sq q).tail ∧ x.sqPart q < 8 ∧
    x.funcQuiet (x.partFunc (x.sqPart q)) = false ∧ x.dieReady 8 = true ∧ x.dramOpen = true ∧ x.cqRoom (x.sq q).bind = true) ∧
    s.mem.poisoned (((s.sq q).addr + (s.sq q).head % (s.sq q).size * 64) / 64) = true ∧ s.goodOwner (((s.sq q).addr + (s.sq q).head % (s.sq q).size * 64) / 64) = false ∧ t.meetsLost 8 ((t.sq q).addr + (t.sq q).head % (t.sq q).size * 64) 64 = true ∧
    u.bound (u.sqPart q) ((u.sq q).addr + (u.sq q).head % (u.sq q).size * 64) 64 ≠ .ok :=
  let at_ (b : Nat) : State := { fetching [] with host := { (fetching []).host with sqs := [(8, { en := true, log2 := 4, loc := true, base := BitVec.ofNat 64 b, bind := 8, head := 15, tail := 0 })] } }
  ⟨{ at_ 0x10000000 with mem := { live.mem with poison := [(0x10000000 / 64 + 15, 1)] } }, (at_ 0x1001E000).setDie 9 .inReset, at_ 0x20000000, 8, by decide +kernel⟩
/-- Queue 8 is disabled; its entries stand in DRAM that has to wait. -/
theorem witness_FetchAndCompletion_idle : ∃ (s t : State) (q : Nat), (s.sq q).en = false ∧ (t.sq q).en = true ∧ (t.sq q).loc = true ∧ t.dramOpen = false :=
  ⟨live, { fetching [] with faults := { mcPaused := 1 } }, 8, by decide +kernel⟩
def doneCmd : Completion := { fn := 0, cid := 5, sq := 8, cq := 8 }
/-- A completion due on queue 8, whose completion queue is enabled or is not. -/
def completing (b : Bool) : State :=
  { live with host := { live.host with due := [doneCmd], cqs := [(8, { en := b, log2 := 4, loc := true, base := 0x11000000, tail := 15, lap := 1 })] } }
theorem witness_FetchAndCompletion_post (b : Bool) : ∃ (s : State) (k : Completion) (rest : List Completion), s.host.due = k :: rest ∧ k.final = false ∧ k.handle = 0 ∧
    (s.sq k.sq).shutting = false ∧ s.cqPart k.cq < 8 ∧ s.dramOpen = true ∧ s.cqWritable k.cq = b ∧ s.stagedFor (s.cqPart k.cq) k.cq = 0 ∧
    s.stagingFull (s.cqPart k.cq) = false ∧ (s.reg.sleeping = false ∨ (s.cq k.cq).held = 0) ∧
    s.OwnersHold ∧ s.meetsPoison (.vault 0) ((s.cq k.cq).addr + (s.cq k.cq).tail % (s.cq k.cq).size * 16) 16 = false ∧
    s.bound (s.cqPart k.cq) ((s.cq k.cq).addr + (s.cq k.cq).tail % (s.cq k.cq).size * 16) 16 = .ok := by
  refine ⟨completing b, doneCmd, [], ?_, ?_, ?_, ?_, ?_, ?_, ?_, ?_, ?_, ?_, owners_of ?_, ?_⟩ <;> cases b <;> decide +kernel
/-- The partition's share of staging is full. -/
theorem witness_FetchAndCompletion_full : ∃ (s : State) (k : Completion) (rest : List Completion), s.host.due = k :: rest ∧ k.final = false ∧ k.handle = 0 ∧
    (s.sq k.sq).shutting = false ∧ s.cqPart k.cq < 8 ∧ s.dramOpen = true ∧ s.cqWritable k.cq = false ∧ s.stagingFull (s.cqPart k.cq) = true :=
  ⟨{ completing false with host := { (completing false).host with staging := [(0, List.replicate 8192 (.completion doneCmd))] } }, doneCmd, [], rfl, rfl, rfl, rfl, by decide +kernel,
    by decide +kernel, by decide +kernel, by
      show decide (8192 ≤ (List.replicate 8192 (Staged.completion doneCmd)).length) = true
      rw [List.length_replicate]
      rfl⟩
/-- The completion queue stands in DRAM that the partition no longer has. -/
theorem witness_FetchAndCompletion_refused : ∃ (s : State) (k : Completion) (rest : List Completion), s.host.due = k :: rest ∧ k.final = false ∧ k.handle = 0 ∧
    (s.sq k.sq).shutting = false ∧ s.cqPart k.cq < 8 ∧ s.dramOpen = true ∧ s.cqWritable k.cq = true ∧ s.stagedFor (s.cqPart k.cq) k.cq = 0 ∧
    s.bound (s.cqPart k.cq) ((s.cq k.cq).addr + (s.cq k.cq).tail % (s.cq k.cq).size * 16) 16 ≠ .ok :=
  ⟨{ live with host := { live.host with due := [doneCmd], cqs := [(8, { en := true, log2 := 4, loc := true, base := 0x20000000, tail := 15, lap := 1 })] } }, doneCmd, [], by decide +kernel⟩

/-- WARE_LOAD from the PF's host window, SCRUB and MEM_TEST of one unit of its DRAM. -/
def longCmd (op base n : Nat) : Forwarded := cmd 0 8 op [(16, 6, base), (22, 4, n)]
theorem witness_LongOperations_begin : ∃ (s t u v : State) (q : Nat) (f g h k : Forwarded),
    s.Awaits q 0x01 f ∧ bodyReserved f 26 = false ∧ s.openHandles (.host f.fn f.sq f.cid) < 16 ∧ s.op? s.host.nextHandle = none ∧ 0 < f.fld 22 4 ∧ f.fld 22 4 ≤ 2 ^ 32 ∧
    s.inHost (s.funcPart f.fn) (f.fld 16 6) (f.fld 22 4) = true ∧ s.inDram (s.funcPart f.fn) (f.fld 16 6) (f.fld 22 4) = false ∧
    t.Awaits q 0x04 g ∧ bodyReserved g 26 = false ∧ t.openHandles (.host g.fn g.sq g.cid) < 16 ∧ t.op? t.host.nextHandle = none ∧ 0 < g.fld 22 4 ∧
    t.inDram (t.funcPart g.fn) (g.fld 16 6) (g.fld 22 4 * 0x4000000) = true ∧ g.fld 16 6 % 0x4000000 = 0 ∧
    u.Awaits q 0x05 h ∧ bodyReserved h 26 = false ∧ h.fld 16 6 = g.fld 16 6 ∧ h.fld 22 4 = g.fld 22 4 ∧ v.Awaits q 0x04 k ∧ k.fld 22 4 = 0 := by
  refine ⟨told (longCmd 1 0x800000000000 0x40000), told (longCmd 4 0x10000000 4), told (longCmd 5 0x10000000 4), told (longCmd 4 0x10000000 0), 8,
    longCmd 1 0x800000000000 0x40000, longCmd 4 0x10000000 4, longCmd 5 0x10000000 4, longCmd 4 0x10000000 0,
    awaits_of ?_, ?_, ?_, ?_, ?_, ?_, ?_, ?_, awaits_of ?_, ?_, ?_, ?_, ?_, ?_, ?_, awaits_of ?_, ?_, ?_, ?_, awaits_of ?_, ?_⟩ <;> decide +kernel
def plan2 : Plan := { groups := [(1, .any)] }
def placed2 : List (List Nat) × Nat × List (Nat × Nat) := ([[8]], 64, [(0x10000000, 4096)])
def unloadCmd : Forwarded := cmd 0 8 0x02 [(16, 2, 1)]
/-- WARE_UNLOAD of ware 1, named by a request and by none. -/
theorem witness_LongOperations_unload (b : Bool) : ∃ (s : State) (q : Nat) (f : Forwarded) (w : Ware), s.Awaits q 0x02 f ∧ bodyReserved f 18 = false ∧ s.ware? (f.fld 16 2) = some w ∧
    w.part = s.funcPart f.fn ∧ s.wareNamed (f.fld 16 2) = b := by
  refine ⟨teller unloadCmd { wares := [(1, { part := 0, image := [(0x10000000, 64)] })], requests := if b then [(128, decoding)] else [] }, 8, unloadCmd,
    { part := 0, image := [(0x10000000, 64)] }, awaits_of ?_, ?_⟩ <;> cases b <;> decide +kernel
/-- A SCRUB of one unit, its last unit done or not. -/
def scrubOp (st : OpState) (n : Nat) : OpRec := { origin := .host 0 8 5, kind := .scrub, state := st, units := 1, doneUnits := n }
theorem witness_LongOperations_scrubbed : ∀ n ∈ [0, 1], ∃ (s : State) (h : Nat) (o : OpRec), s.op? h = some o ∧ o.kind = .scrub ∧ o.state = .running ∧ s.islands.noneActive = false ∧
    o.forgotten = false ∧ o.units = 1 ∧ o.doneUnits = n :=
  fun n h => ⟨{ live with host := { live.host with handles := [(1, scrubOp .running n)] } }, 1, scrubOp .running n, by revert n; decide +kernel⟩
/-- OP_QUERY, OP_SUSPEND, OP_RESUME, OP_CANCEL of handle 1 in a state that each acts on. -/
def opCmd (op : Nat) : Forwarded := cmd 0 8 op [(16, 4, 1)]
theorem witness_LongOperations_handles : ∀ x ∈ [((0x08 : Nat), OpState.running), (0x09, .running), (0x0A, .suspended), (0x0B, .running), (0x0B, .done), (0x0B, .cancelled)],
    ∃ (s : State) (q : Nat) (f : Forwarded) (o : OpRec), bodyReserved f 20 = false ∧ s.op? (f.fld 16 4) = some o ∧ o.origin = .host f.fn 8 5 ∧ o.forgotten = false ∧ o.kind = .scrub ∧
      s.Awaits q x.1 f ∧ o.state = x.2 := by
  intro x h
  refine ⟨{ told (opCmd x.1) with host := { (told (opCmd x.1)).host with handles := [(1, scrubOp x.2 0)] } }, 8, opCmd x.1, scrubOp x.2 0, ?_, ?_, ?_, ?_, ?_, awaits_of ?_, ?_⟩ <;>
    revert x <;> decide +kernel
theorem witness_LongOperations_unknown : ∀ op ∈ [0x08, 0x09], ∃ (s : State) (q : Nat) (f : Forwarded), bodyReserved f 20 = false ∧ s.ownOp f.fn (f.fld 16 4) = false ∧ s.Awaits q op f :=
  fun op h => ⟨told (opCmd op), 8, opCmd op, by revert op; decide +kernel, by revert op; decide +kernel, awaits_of (by revert op; decide +kernel)⟩
theorem witness_ResetsAndLinks_flr : ∃ (s : State) (f i j q : Nat), f ≠ 0 ∧ s.funcLive f = true ∧ s.host.linkUp = true ∧ s.sqPart q = s.funcPart f ∧ s.reqPart i = s.funcPart f ∧
    (s.request i).state.active = true ∧ (s.request i).cancelNow = false ∧ s.reqPart j ≠ s.funcPart f :=
  ⟨{ live with teller := { requests := [(127, { state := .decode })] } }, 1, 127, 128, 7, by decide⟩
theorem witness_ResetsAndLinks_release : ∃ s t : State, s.host.sbChattering.getLsbD 0 = false ∧ t.host.sbChattering.getLsbD 0 = true :=
  ⟨live, { live with host := { live.host with sbChattering := 1 } }, by decide⟩
theorem witness_ResetsAndLinks_perst : ∃ s : State, s.host.perstAsserted = false ∧ s.host.linkUp = true ∧ s.funcLive 8 = false ∧ s.funcLive 1 = true := ⟨live, by decide⟩
/-- The link has been down for its time with a host ring in use. -/
theorem witness_ResetsAndLinks_timeout : ∃ (s : State) (i : Nat), s.host.linkUp = false ∧ s.reqPart i < 8 ∧ s.hostRing i = true ∧ (s.request i).state.active = true ∧ (s.request i).cancelNow = false :=
  ⟨{ live with host := {}, teller := { requests := [(128, { state := .decode })], rings := [(128, { set := true, base := 0x800000000000 })] } }, 128, by decide⟩
theorem witness_ResetsAndLinks_clock : ∃ s t : State, s.host.linkUp = true ∧ s.host.refclkUsed = true ∧ t.host.linkUp = false ∧ t.host.perstAsserted = false ∧ t.dieReady 8 = true ∧
    t.host.linkTraining = true := ⟨{ live with host := { live.host with refclkUsed := true } }, { live with host := { linkTraining := true } }, by decide⟩
/-- With memory space on and off, of the PF and of a VF. -/
theorem witness_ResetsAndLinks_config : ∀ f ∈ [0, 1], ∃ (s t : State) (n e : Nat), f ≤ 8 ∧ s.host.linkUp = true ∧ (f ≠ 0 → s.host.vfEnable = true ∧ f ≤ s.mould.totalVfs) ∧ s.barFixed f = true ∧
    t.barFixed f = false ∧ t.host.linkUp = true ∧ (f ≠ 0 → t.host.vfEnable = true ∧ f ≤ t.mould.totalVfs) ∧ 20 ≤ n ∧ n ≤ t.bar4Offer f ∧ e < tableSize f :=
  fun f h => ⟨live, { live.setFunc f {} with mould := { live.mould with vfBar4Log2 := 30 } }, 30, 223, by revert f; decide⟩
theorem witness_ResetsAndLinks_ports : ∃ (s : State) (p : Nat) (frame : List Byte), p < 2 ∧ s.dieReady 9 = true ∧ s.links.rootLock = true ∧ s.host.mgmtLinkUp = 3 ∧ frame.length ≤ 1522 :=
  ⟨{ live with host := { live.host with mgmtLinkUp := 3 } }, 1, [1], by decide⟩

/-! ## Witnesses: security and management -/

theorem toLE_length (n v : Nat) : (toLE n v).length = n := by
  induction n generalizing v with
  | zero => rfl
  | succ n ih => simp [toLE, ih]
theorem leNat_toLE (n v : Nat) (h : v < 256 ^ n) : leNat (toLE n v) = v := by
  induction n generalizing v with
  | zero => simp at h; simp [toLE, leNat, h]
  | succ n ih =>
    rw [toLE, leNat, ih (v / 256) (by rw [Nat.div_lt_iff_lt_mul (by decide)]; rw [Nat.pow_succ] at h; exact h)]
    simp only [BitVec.toNat_ofNat]
    omega
theorem entry_length (k i v : Nat) (d : BitVec 256) : (hallEntry k i v d).length = 48 := by simp [hallEntry, digestBytes, toLE_length]
theorem sm2Sign_length (d k : Nat) (id m : List Byte) : (sm2Sign d k id m).length = 64 := by simp [sm2Sign, toBE, toLE_length]
/-- A report of a partition without wares: a header of 128 bytes, 7 entries of 48 and a signature of 64 (R488). -/
theorem test_hallmark_length (s : State) (h : s.teller.wares = []) (n : List Byte) (p : Nat) : (s.hallmark n p).length = 528 := by
  simp [State.hallmark, State.hallEntries, State.scopeWares, State.idKeyBytes, h, sortBy, toLE_length, sm2Sign_length, entry_length, Function.comp_def]
/-- HALLMARK into 1,024 bytes of the PF's DRAM, and into 512. -/
def hallCmd (n : Nat) : Forwarded := cmd 0 8 0x53 [(16, 6, 0x10000000), (22, 2, n)]
theorem witness_HallmarkAndSessions_report (f : Forwarded) (hf : f ∈ [hallCmd 528, hallCmd 527]) : ∃ (s : State) (q : Nat) (r : List Byte), s.Awaits q 0x53 f ∧ s.hallWaits = false ∧
    bodyReserved f 57 = false ∧ f.fld 56 1 = 0 ∧ r = (s.taken q 0x53).hallmark ((f.body.drop 8).take 32) (s.funcPart f.fn) ∧ f.fld 16 6 % 64 = 0 ∧
    s.inDram (s.funcPart f.fn) (f.fld 16 6) r.length = true ∧ s.sec.identityOk = true ∧ s.OwnersHold ∧ s.meetsPoison .mint (f.fld 16 6) r.length = false ∧
    (f = hallCmd 528 → r.length ≤ f.fld 22 2) ∧ (f = hallCmd 527 → f.fld 22 2 < r.length) := by
  refine ⟨told f, 8, _, awaits_of ?_, ?_, ?_, ?_, rfl, ?_, ?_, ?_, owners_of rfl, ?_, ?_, ?_⟩ <;> (try rw [test_hallmark_length _ rfl]) <;>
    (simp only [List.mem_cons, List.not_mem_nil, or_false] at hf; rcases hf with rfl | rfl <;> decide +kernel)
theorem witness_HallmarkAndSessions_waits : ∃ s : State, s.hallWaits = true :=
  ⟨{ live with mould := { live.mould with amend := some { handle := 1, image := {}, step := .scrub } } }, rfl⟩
/-- The 64 bytes of the curve's base point, as a number. -/
def baseKey : Nat := leNat (pointBytes sm2G)
/-- SESSION_OPEN of slot 15 of partition 1 from its host window; of partition 0. -/
def sessOpen (fn q : Nat) : Forwarded := cmd fn q 0x50 [(16, 6, 0x800000040000), (22, 1, 15)]
theorem witness_HallmarkAndSessions_open (b : Bool) : ∃ (s t : State) (q r : Nat) (f g : Forwarded), s.Awaits q 0x50 f ∧ bodyReserved f 23 = false ∧ s.confidential (s.funcPart f.fn) = true ∧
    f.fld 22 1 ≤ 15 ∧ f.fld 16 6 % 64 = 0 ∧ s.inHost (s.funcPart f.fn) (f.fld 16 6) 224 = true ∧ (s.session (s.funcPart f.fn) (f.fld 22 1)).use = .free ∧ s.faults.testMode = b ∧
    s.sec.trngOk = true ∧ s.sec.identityOk = true ∧ t.Awaits r 0x50 g ∧ bodyReserved g 23 = false ∧ t.confidential (t.funcPart g.fn) = false := by
  refine ⟨{ told (sessOpen 1 0) with faults := { testMode := b } }, told (sessOpen 0 8), 0, 8, sessOpen 1 0, sessOpen 0 8, awaits_of ?_, ?_, ?_, ?_, ?_, ?_, ?_, ?_, ?_, ?_, awaits_of ?_, ?_⟩ <;>
    cases b <;> decide +kernel
/-- The tenant's key and R_A are the base point, and are no point. -/
theorem witness_HallmarkAndSessions_points (b : Bool) : ∃ (s : State) (q : Nat) (f : Forwarded), s.Awaits q 0x50 f ∧ bodyReserved f 23 = false ∧ s.confidential (s.funcPart f.fn) = true ∧
    f.fld 22 1 ≤ 15 ∧ f.fld 16 6 % 64 = 0 ∧ s.inHost (s.funcPart f.fn) (f.fld 16 6) 224 = true ∧ (s.session (s.funcPart f.fn) (f.fld 22 1)).use = .free ∧ s.faults.testMode = false ∧
    s.sec.trngOk = true ∧ s.sec.identityOk = true ∧ s.OwnersHold ∧ s.meetsPoison .mint (f.fld 16 6 + 128) 96 = false ∧
    (kexPoint ((s.readBytes (f.fld 16 6) 128).take 64) ((s.readBytes (f.fld 16 6) 128).drop 64)).isSome = b := by
  refine ⟨(told (sessOpen 1 0)).put (.vault 0) 0x800000040000 (toLE 128 (if b then baseKey + baseKey * 2 ^ 512 else 0)), 0, sessOpen 1 0, awaits_of ?_, ?_, ?_, ?_, ?_, ?_, ?_, ?_, ?_, ?_,
    owners_of ?_, ?_, ?_⟩ <;> cases b <;> decide +kernel
/-- Slot 15 of partition 1 in the given use. -/
def slot15 (f : Forwarded) (u : SlotUse) : State := { told f with sec := { live.sec with sessions := [(31, { use := u })] } }
def sessConfirm : Forwarded := cmd 1 0 0x51 [(16, 1, 15)]
def sessClose : Forwarded := cmd 1 0 0x52 [(16, 1, 15)]
theorem witness_HallmarkAndSessions_slot : ∃ (s t : State) (q : Nat) (f g : Forwarded), s.confidential (s.funcPart f.fn) = true ∧ f.fld 16 1 ≤ 15 ∧ s.Awaits q 0x51 f ∧ bodyReserved f 49 = false ∧
    (s.session (s.funcPart f.fn) (f.fld 16 1)).use = .opening ∧ t.confidential (t.funcPart g.fn) = true ∧ g.fld 16 1 ≤ 15 ∧ t.Awaits q 0x52 g ∧ bodyReserved g 17 = false ∧
    (t.session (t.funcPart g.fn) (g.fld 16 1)).use = .opened ∧ (∀ e ∈ t.teller.requests, e.2.session ≠ some (g.fld 16 1)) := by
  refine ⟨slot15 sessConfirm .opening, slot15 sessClose .opened, 0, sessConfirm, sessClose, ?_, ?_, awaits_of ?_, ?_, ?_, ?_, ?_, awaits_of ?_, ?_⟩ <;> decide +kernel
/-- The S_A that the exchange gave, and another. -/
theorem witness_HallmarkAndSessions_confirm : ∃ (s : State) (f g : Forwarded), s.Awaits 0 0x51 f ∧ f.fld 17 32 = (s.session (s.funcPart f.fn) (f.fld 16 1)).confirm.toNat ∧
    bodyReserved g 49 = false ∧ g.fld 16 1 ≤ 15 ∧ g.fld 17 32 ≠ (s.session (s.funcPart g.fn) (g.fld 16 1)).confirm.toNat :=
  ⟨slot15 sessConfirm .opening, sessConfirm, cmd 1 0 0x51 [(16, 1, 15), (17, 1, 1)], awaits_of (by decide +kernel), by decide +kernel⟩
theorem witness_HallmarkAndSessions_timeout : ∃ (s : State) (p k : Nat), p < 8 ∧ k < 16 ∧ (s.session p k).use = .opening ∧ (s.session p (k - 1)).use ≠ .opening :=
  ⟨slot15 sessConfirm .opening, 1, 15, by decide⟩
/-- Session 7's message passes the tag and is fresh; is stale; has a bad tag; names no session; comes from a peer without the role. -/
theorem witness_ManagementAdmission : ∃ (s t : State) (h g k m : MsgHdr) (n : Nat), s.mgmtUp = true ∧ s.peerOf k.session = none ∧ s.peerOf h.session = some n ∧ h.tagOk = false ∧
    s.peerOf g.session = some n ∧ g.tagOk = true ∧ g.seq < (s.mgmt n).seqIn ∧ t.peerOf m.session = some 1 ∧ m.tagOk = true ∧ (t.mgmt 1).seqIn ≤ m.seq ∧ (t.mgmt 1).admin = false ∧
    t.mgmtUp = true ∧ k.excess = true :=
  ⟨{ live with sec := { live.sec with mgmt := [(0, { opened := true, session := 7, admin := true, seqIn := 5 })] } }, monitor, { session := 7, tagOk := false }, { session := 7, seq := 4 },
    { session := 6, excess := true }, { session := 8 }, 0, by decide⟩
theorem witness_ManagementAdmission_down : ∃ s : State, s.mgmtLive = false ∧ s.update.recovery = false := ⟨State.reset, by decide⟩
theorem speaks_live (b : Bool) : Speaks live hdr 0 b := speaks_of (by cases b <;> decide)
/-- A body of `n` bytes with fields. -/
def body (n : Nat) (fs : List (Nat × Nat × Nat)) : List Byte := toLE n (fs.map (fun f => f.2.2 * 256 ^ f.1)).sum
theorem witness_ManagementMessages_open : ∃ (s t : State) (h g : MsgHdr) (b c d : List Byte) (n k : Nat), s.mgmtUp = true ∧ h.excess = false ∧ b.length = 2 ∧ c.length = 344 ∧ lfld c 208 1 = 2 ∧
    lzero c 209 7 = true ∧ (List.range 4).find? (fun n => !(s.mgmt n).opened && !(s.mgmt n).opening) = some n ∧ s.sec.trngOk = true ∧ s.sec.identityOk = true ∧
    ¬ credentialId c ∈ (s.slot s.update.runningB).revoked ∧ t.mgmtUp = true ∧ g.excess = false ∧ d.length = 32 ∧
    (List.range 4).find? (fun n => (t.mgmt n).opening && (t.mgmt n).session == g.session) = some k :=
  ⟨live, { live with sec := { live.sec with mgmt := [(3, { opening := true, session := 9 })] } }, {}, { session := 9 }, body 2 [], body 344 [(208, 1, 2)], body 32 [], 1, 3, by decide +kernel⟩
/-- KEX_INIT with the base point for key and R_A, and with no points; the right S_A and another. -/
theorem witness_ManagementMessages_points : ∃ (s : State) (h : MsgHdr) (b c d : List Byte) (n : Nat), b.length = 344 ∧ lfld b 208 1 = 1 ∧ lzero b 209 7 = true ∧
    ¬ credentialId b ∈ (live.slot live.update.runningB).revoked ∧ (kexPoint ((b.drop 144).take 64) (b.drop 280)).isSome = true ∧
    (kexPoint (((body 344 [(208, 1, 2)]).drop 144).take 64) ((body 344 [(208, 1, 2)]).drop 280)) = none ∧
    (List.range 4).find? (fun n => (s.mgmt n).opening && (s.mgmt n).session == h.session) = some n ∧ c.length = 32 ∧ lfld c 0 32 = (s.mgmt n).confirm.toNat ∧
    d.length = 32 ∧ lfld d 0 32 ≠ (s.mgmt n).confirm.toNat :=
  ⟨{ live with sec := { live.sec with mgmt := [(3, { opening := true, session := 9 })] } }, { session := 9 }, body 344 [(144, 64, baseKey), (208, 1, 1), (280, 64, baseKey)], body 32 [],
    body 32 [(31, 1, 1)], 3, by decide +kernel⟩
theorem witness_ManagementMessages_admin : ∃ (s : State) (h : MsgHdr) (n : Nat) (cap put ack addr rev : List Byte), Speaks s h n true ∧ (s.mgmt n).opened = true ∧
    cap.length = 2 ∧ lfld cap 0 2 < 4096 ∧ put.length ≤ 1026 ∧ 2 < put.length ∧ lfld put 0 2 < 64 ∧ ack.length = 4 ∧ addr.length = 18 ∧ lfld addr 0 1 = 4 ∧ lfld addr 17 1 ≤ 32 ∧
    rev.length = 8 ∧ (s.slot s.update.runningB).revoked.length < 64 :=
  ⟨live, hdr, 0, body 2 [(0, 2, 4095)], body 3 [(0, 2, 63), (2, 1, 9)], body 4 [(0, 4, 1)], body 18 [(0, 1, 4), (1, 4, 0x0A000001), (17, 1, 32)], body 8 [(0, 1, 7)], speaks_live true, by decide +kernel⟩
/-- A token for this module and this firing. -/
def token (s : State) : List Byte := toLE 32 s.boundId.toNat ++ (toLE 4 s.ledger.firingCount ++ List.replicate 92 0)
theorem witness_ManagementMessages_token : ∃ (s : State) (h : MsgHdr) (n : Nat) (b : List Byte), Speaks s h n true ∧ b.length = 128 ∧ lfld b 0 32 = s.boundId.toNat ∧
    lfld b 32 4 = s.ledger.firingCount ∧ lzero b 36 28 = true ∧ s.testEn = true := by
  let s : State := { live with host := { live.host with sbActive := 0x20 } }
  have h0 : (toLE 32 s.boundId.toNat).length = 32 := toLE_length ..
  have h1 : ∀ k n, 32 ≤ k → lfld (token s) k n = lfld (toLE 4 s.ledger.firingCount ++ List.replicate 92 0) (k - 32) n := by
    intro k n hk
    simp only [lfld, token]
    rw [List.drop_append, List.drop_eq_nil_of_le (by omega), h0, List.nil_append]
  refine ⟨s, hdr, 0, token s, speaks_of (by decide), ?_, ?_, ?_, ?_, by decide⟩
  · simp [token, toLE_length]
  · simp only [lfld, token, List.drop_zero]
    rw [List.take_append, h0, Nat.sub_self, List.take_zero, List.append_nil, List.take_of_length_le (by omega)]
    exact leNat_toLE 32 _ (s.boundId.isLt)
  · rw [h1 32 4 (by decide)]
    decide +kernel
  · simp only [lzero, token]
    rw [List.drop_append, List.drop_eq_nil_of_le (by omega), h0, List.nil_append]
    decide +kernel
/-- REG_WRITE of FLT_HOLD, and of an address that no register has. -/
theorem witness_ManagementMessages_regWrite : ∃ (s : State) (h : MsgHdr) (n : Nat) (b c : List Byte), Speaks s h n true ∧ b.length = 25 ∧ regForm b = true ∧ lfld b 24 1 = 0 ∧
    ((s.heard n h).busWrite { master := .peer n, loc := .window (lfld b 0 8), wide := lfld b 8 1 == 64, value := BitVec.ofNat 64 (lfld b 16 8) }).reg.reply ≠ .errorReply ∧
    c.length = 25 ∧ regForm c = true ∧ lfld c 24 1 = 0 ∧
    ((s.heard n h).busWrite { master := .peer n, loc := .window (lfld c 0 8), wide := lfld c 8 1 == 64, value := BitVec.ofNat 64 (lfld c 16 8) }).reg.reply = .errorReply :=
  ⟨live, hdr, 0, body 25 [(0, 8, dieWindow 10 + 0x310008), (8, 1, 32), (16, 8, 1)], body 25 [(8, 1, 32)], speaks_live true, by decide +kernel⟩
theorem witness_ManagementMessages_regRead : ∃ (s : State) (h : MsgHdr) (n : Nat) (b c : List Byte), Speaks s h n false ∧ b.length = 9 ∧ regForm b = true ∧
    ((s.heard n h).busRead (.peer n) (.window (lfld b 0 8)) (lfld b 8 1 == 64)).reg.reply = .value 0 ∧ c.length = 9 ∧ regForm c = true ∧
    ((s.heard n h).busRead (.peer n) (.window (lfld c 0 8)) (lfld c 8 1 == 64)).reg.reply = .errorReply :=
  ⟨live, hdr, 0, body 9 [(0, 8, dieWindow 10 + 0x310008), (8, 1, 32)], body 9 [(8, 1, 32)], speaks_live false, by decide +kernel⟩
def peerOp : OpRec := { origin := .peer 0, kind := .amend, state := .done, progress := 65536 }
theorem witness_ManagementMessages_others : ∃ (s : State) (h : MsgHdr) (n : Nat) (b c : List Byte) (o : OpRec), Speaks s h n false ∧ n < 4 ∧ (s.mgmt n).opened = true ∧ b.length = 35 ∧ lfld b 32 1 ≤ 8 ∧
    s.hallWaits = false ∧ s.sec.identityOk = true ∧ sget none s.sec.hallmarks n = none ∧ c.length = 5 ∧ lfld c 4 1 = 0 ∧ s.op? (lfld c 0 4) = some o ∧ o.origin = s.peerOrigin n ∧ o.state = .done :=
  ⟨{ live with host := { live.host with handles := [(1, peerOp)] } }, hdr, 0, body 35 [(32, 1, 8)], body 5 [(0, 4, 1)], peerOp, speaks_of (by decide), by decide +kernel⟩

/-! ## Witnesses: field update, moulds, firing -/

theorem ok_of {ε α : Type} (e : Except ε α) (p : α → Bool) (h : (match e with | .ok x => p x | .error _ => false) = true) : ∃ x, e = .ok x ∧ p x = true := by
  cases e with
  | ok x => exact ⟨x, rfl, h⟩
  | error _ => simp at h

/-- A listed table reads as the bytes it lists; bytes put where nothing is poisoned read back. -/
theorem sget_listed (b : List Byte) (k j : Nat) : sget 0 (((b.zipIdx k).filter (fun e => e.1 ≠ 0)).map (fun e => (e.2, e.1))) j = if k ≤ j then b.getD (j - k) 0 else 0 := by
  induction b generalizing k with
  | nil => simp
  | cons a r ih =>
    rw [List.zipIdx_cons, List.filter_cons]
    have hs : k + 1 ≤ j → j - k = j - (k + 1) + 1 := by omega
    split
    · rw [List.map_cons, sget_cons, ih]
      split
      · next h => subst h; simp
      · split
        · next h => rw [if_pos (by omega), hs h, List.getD_cons_succ]
        · rw [if_neg (by simp at *; omega)]
    · next h =>
      have h : a = 0 := by simpa using h
      rw [ih]
      split
      · next h => rw [if_pos (by omega), hs h, List.getD_cons_succ]
      · split
        · have : j - k = 0 := by omega
          rw [this, h]; rfl
        · rfl
theorem staged_listed (s : State) (b : List Byte) : ({ s with sec := { s.sec with blockStage := (b.zipIdx.filter (fun e => e.1 ≠ 0)).map (fun e => (e.2, e.1)) } } : State).staged b.length = b := by
  apply List.ext_getElem (by simp [State.staged])
  intro i h1 h2
  simp only [State.staged, List.getElem_map, List.getElem_range]
  exact (sget_listed b 0 i).trans (by simp [h2])
theorem readBytes_put (s : State) (a : Nat) (b : List Byte) (h : s.mem.poison = []) (hl : s.listed a b.length = []) (hm : s.meetsLost 8 a b.length = false) :
    (s.put (.vault 0) a b).readBytes a b.length = b := by
  have hc : s.claim (.vault 0) a b.length = s := by simp [State.claim, State.cacheOf, State.homeRange, hl]
  apply List.ext_getElem (by simp [State.readBytes])
  intro i h1 h2
  simp only [State.readBytes, List.getElem_map, List.getElem_range]
  rw [State.readByte_put _ _ _ _ _ (by intro l _ _; rw [hc]; simp [State.seesPoison, State.copyFor, State.cacheOf, MemState.poisoned, h]) (by rw [hc]; exact hm)]
  simp [h2]
/-- `live` with slot A VALID at version 1, slot B as given, and the given update state. -/
def updating (b : Slot) (u : UpdateState) : State := { live with update := { u with slotA := factorySlot, slotB := b } }
theorem speaks_update (b : Slot) (u : UpdateState) (h : u.holding = false) (a : Bool) : Speaks (updating b u) hdr 0 a :=
  speaks_of ⟨by simp [State.mgmtUp, State.mgmtLive, updating, h, live], by rfl, rfl, (by decide : (live.mgmt 0).seqIn ≤ hdr.seq), fun _ => rfl⟩
theorem witness_FieldUpdate_begin (b : Bool) : ∃ (s : State) (h : MsgHdr) (n : Nat) (m : List Byte), Speaks s h n true ∧ s.update.recovery = false ∧ h.upstream = true ∧ h.session ≠ 0 ∧
    m.length = 16 ∧ lfld m 5 1 = 0 ∧ lfld m 4 1 = 0 ∧ lzero m 6 10 = true ∧ lfld m 0 4 ≤ 0x2000000 ∧ s.fwBusy = b :=
  ⟨updating {} { phase := if b then .receiving else .idle }, hdr, 0, body 16 [(0, 4, 0x2000000)], speaks_update _ _ (by cases b <;> rfl) _, by cases b <;> decide +kernel⟩
theorem witness_FieldUpdate_put : ∃ (s t : State) (h : MsgHdr) (n : Nat) (m : List Byte), Speaks s h n true ∧ s.update.recovery = false ∧ h.upstream = true ∧ h.session ≠ 0 ∧
    4 < m.length ∧ m.length ≤ 1028 ∧ lfld m 0 4 + (m.length - 4) ≤ s.update.deltaLen ∧ s.update.phase = .receiving ∧ Speaks t h n true ∧ t.update.phase ≠ .receiving ∧
    lfld m 0 4 + (m.length - 4) ≤ t.update.deltaLen :=
  ⟨updating {} { phase := .receiving, deltaLen := 240 }, updating {} { phase := .staged, deltaLen := 240 }, hdr, 0, body 8 [(0, 4, 236), (4, 4, 0x01020304)], speaks_update _ _ rfl _,
    by decide +kernel, by decide +kernel, by decide +kernel, by decide +kernel, by decide +kernel, by decide +kernel, by decide +kernel, speaks_update _ _ rfl _, by decide +kernel, by decide +kernel⟩
/-- What stands before the trailer, and a trailer with a digest; the digests below come from another SM3 than the model's. -/
def withTrailer (digest : Nat) (b : List Byte) : List Byte := b ++ toLE 32 digest ++ List.replicate 64 0
/-- SM3 of the 8 bytes that the delta inserts. -/
def targetSm3 : Nat := 0xDA201A0458A15318A1073C9057C306800DCA9009F002EF2EFB664DD45F740272
/-- A delta of 240 bytes for version 2 that inserts 8 bytes. -/
def deltaBytes : List Byte := withTrailer 0x8495DBABDD00F73A47571AD49C0E0CF314DF2DB8B1460E420AE673AE3024829C
  (body 144 [(0, 4, 0x544C4446), (4, 2, 1), (8, 4, 2), (48, 32, targetSm3), (80, 4, 8), (84, 4, 1),
  (128, 1, 2), (132, 4, 8), (136, 8, 0x0807060504030201)])
/-- n bytes of a delta received. -/
def deltaIn (b : List Byte) (n : Nat) : State :=
  updating {} { phase := .receiving, deltaLen := n, staging := (b.zipIdx.filter (fun e => e.1 ≠ 0)).map (fun e => (e.2, e.1)) }
def received (n : Nat) : State := deltaIn deltaBytes n
theorem witness_FieldUpdate_end : ∃ (s : State) (h : MsgHdr) (n : Nat) (d : Delta), Speaks s h n true ∧ s.update.recovery = false ∧ h.upstream = true ∧ h.session ≠ 0 ∧ s.update.phase = .receiving ∧
    s.openHandles (s.peerOrigin n) < 4 ∧ s.op? s.host.nextHandle = none ∧ s.checkDelta true = .ok d ∧ d.version = 2 := by
  obtain ⟨d, h1, h2⟩ := ok_of ((received 240).checkDelta true) (fun d => d.version == 2) (by decide +kernel)
  exact ⟨received 240, hdr, 0, d, speaks_update _ _ rfl _, by decide +kernel, by decide +kernel, by decide +kernel, by decide +kernel, by decide +kernel, by decide +kernel, h1, by simpa using h2⟩
/-- Code of the check of a delta, 0 for none. -/
def deltaCode (s : State) (sigOk : Bool) : Nat := match s.checkDelta sigOk with | .error c => c | .ok _ => 0
/-- The codes 1 to 3 of R517: a header that says more than was received, a wrong digest, a wrong signature. -/
theorem witness_FieldUpdate_endBad : deltaCode (received 239) true = 1 ∧ deltaCode (deltaIn (deltaBytes.set 138 9) 240) true = 2 ∧ deltaCode (received 240) false = 3 := by
  decide +kernel
def slotOf (st : SlotState) (w : Nat) : Slot := { state := st, version := 2, confirmWindow := w }
theorem witness_FieldUpdate_activate : ∃ (s : State) (h : MsgHdr) (n : Nat) (m : List Byte), Speaks s h n true ∧ s.update.recovery = false ∧ h.upstream = true ∧ h.session ≠ 0 ∧ m.length = 6 ∧
    (s.slot s.update.otherB).state = .staged ∧ (s.slot s.update.otherB).version = lfld m 0 4 ∧ s.fwBusy = false ∧ s.mould.amend = none ∧ s.unsettled = false ∧ s.islands.noneActive = false ∧
    s.islands.gap = none ∧ s.islands.st s.islands.standby = .sync :=
  ⟨updating (slotOf .staged 0) { phase := .staged }, hdr, 0, body 6 [(0, 4, 2), (4, 2, 5)], speaks_update _ _ rfl _, by decide +kernel⟩
/-- The module runs slot B as TRIAL. -/
def trial (w : Nat) : State := updating (slotOf .trial w) { phase := .trial, runningB := true }
theorem witness_FieldUpdate_confirm : ∃ (s t : State) (h : MsgHdr) (n : Nat) (m : List Byte), Speaks s h n true ∧ s.update.recovery = false ∧ h.upstream = true ∧ h.session ≠ 0 ∧ m.length = 4 ∧
    s.update.phase = .trial ∧ (s.slot s.update.runningB).state = .trial ∧ (s.slot s.update.runningB).version = lfld m 0 4 ∧ Speaks t h n true ∧ t.update.phase ≠ .trial :=
  ⟨trial 0, updating {} {}, hdr, 0, body 4 [(0, 4, 2)], speaks_update _ _ rfl _, by decide, by decide, by decide, by decide, by decide, by decide, by decide +kernel, speaks_update _ _ rfl _, by decide⟩
theorem witness_FieldUpdate_reception : ∃ s : State, s.update.phase = .receiving := ⟨received 240, rfl⟩
def applyOp : OpRec := { origin := .peer 0, kind := .fwApply }
/-- The delta is being applied. -/
def applying (d : Delta) : State :=
  { received 240 with update := { (received 240).update with phase := .applying, applyHandle := 1, applyDelta := some d }, host := { live.host with handles := [(1, applyOp)] } }
def delta2 (b : Bool) : Delta := { version := 2, targetDigest := if b then BitVec.ofNat 256 targetSm3 else 0 }
theorem witness_FieldUpdate_apply (b : Bool) : ∃ (s : State) (d : Delta) (o : OpRec), s.update.applyDelta = some d ∧ s.op? s.update.applyHandle = some o ∧ s.update.phase = .applying ∧ o.state = .running ∧
    o.forgotten = false ∧ s.islands.noneActive = false ∧ (sm3 s.targetImage == d.targetDigest) = b :=
  ⟨applying (delta2 b), delta2 b, applyOp, by cases b <;> decide +kernel⟩
/-- Holding: every ware at its boundary; one in a step, at attempts 9 and 10. -/
def holding (busyWare : Bool) (n : Nat) : State :=
  { updating (slotOf .trial 0) { phase := .holding, holdBegun := true, attempts := n, targetB := true } with teller := { wares := [(1, { part := 0, step := if busyWare then some runStep else none })] } }
theorem witness_FieldUpdate_hold : ∃ s t u : State, s.update.phase = .holding ∧ s.update.holding = false ∧ s.update.holdBegun = true ∧ s.allHeld = true ∧ s.teller.held = false ∧
    t.update.phase = .holding ∧ t.update.holding = false ∧ t.update.holdBegun = true ∧ t.allHeld = false ∧ t.update.attempts < 10 ∧
    u.update.phase = .holding ∧ u.update.holding = false ∧ u.update.holdBegun = true ∧ u.allHeld = false ∧ 10 ≤ u.update.attempts ∧ u.update.reverting = false :=
  ⟨holding false 1, holding true 9, holding true 10, by decide⟩
theorem witness_FieldUpdate_prepared : ∃ s : State, s.update.phase = .preparing := ⟨updating (slotOf .trial 0) { phase := .preparing, targetB := true }, rfl⟩
theorem witness_FieldUpdate_switch : ∃ s : State, s.update.phase = .holding ∧ s.update.holding = true ∧ s.update.reverting = false ∧ s.islands.gap = none ∧ s.islands.noneActive = false ∧
    s.links.rootLock = true ∧ (∀ e ∈ s.teller.wares, e.2.isImage = false → e.2.held = true) :=
  ⟨{ updating (slotOf .trial 0) { phase := .holding, holding := true, targetB := true } with teller := { held := true, wares := [(1, { part := 0, held := true })] } }, by decide⟩
/-- A window of one minute, at its end and one count before. -/
theorem witness_FieldUpdate_window : ∀ c ∈ [4125000000, 4124999999], ∃ s : State, s.update.phase = .trial ∧ (s.slot s.update.runningB).confirmWindow ≠ 0 ∧
    (s.slot s.update.runningB).confirmWindow * 60 * 68750000 = 4125000000 ∧ s.links.aoCount.toNat - s.update.trialSince = c :=
  fun c h => ⟨{ trial 1 with links := { live.links with aoCount := BitVec.ofNat 64 c } }, by revert c; decide +kernel⟩
theorem witness_FieldUpdate_recovery : ∃ s : State, s.update.recovery = true ∧ s.update.phase = .staged := ⟨updating {} { recovery := true, phase := .staged }, by decide⟩

/-- A record of an image (R54). -/
def record (ty inst len : Nat) (fs : List (Nat × Nat × Nat)) : List Byte := toLE 2 ty ++ toLE 2 len ++ toLE 1 inst ++ [0, 0, 0] ++ body len fs
/-- An image (R52): header, records, trailer. -/
def imageOf (digest kind serial base : Nat) (rs : List (List Byte)) : List Byte :=
  withTrailer digest (body 64 [(0, 4, 0x444C4F4D), (4, 2, 1), (6, 1, kind), (8, 4, serial), (12, 4, base), (16, 4, 160 + (rs.map List.length).sum), (20, 2, rs.length)] ++ rs.flatten)
/-- Fields of the PARTITION record of `part1`, with the given tiles. -/
def part1Rec (tiles : Nat) : List Byte := record 6 1 96 [(0, 4, tiles), (4, 1, 1), (5, 1, 1), (6, 1, 1), (7, 1, 1), (10, 2, 8), (14, 2, 8), (18, 2, 2), (22, 2, 1), (26, 2, 4), (34, 2, 4)]
def amendImage : List Byte := imageOf 0x10618FDABBA10F9548499BA7FA9B174624DCE29C12A82D4D9D17D8D4244069C0 1 2 0 [part1Rec 0x7F]
/-- A full mould of one partition (R55-R63): the values that `factoryMould` has. -/
def fullImage : List Byte := imageOf 0xEBA57B3CDC9C17FB2C48A5EFABFE4C63BCC71C278C86742828C402B59EA1E2EE 0 2 0
  [record 1 0 8 [(0, 1, 1), (3, 1, 1)],
   record 2 0 16 ((List.range 15).map (fun i => (i, 1, if i < 8 then 0x7F else if i < 14 then 1 else 7))),
   record 3 0 16 ((List.range 16).map (fun i => (i, 1, 0x55))),
   record 4 0 256 ((List.range 256).map (fun i => (i, 1, factoryReaction (2 * i) + 16 * factoryReaction (2 * i + 1)))),
   record 5 0 8 [(0, 1, 10), (1, 1, 2), (2, 2, 50), (4, 1, 1), (5, 1, 1)],
   record 6 0 96 [(0, 4, 0xFFFFFFFF), (6, 1, 15), (7, 1, 1), (10, 2, 1024), (14, 2, 1024), (18, 2, 1024), (22, 2, 256), (26, 2, 256), (34, 2, 11904)],
   record 0xF 0 136 [(0, 8, 1)]]
/-- An image whose digest holds passes R53 where the codes of its steps 2 to 6 are 0. -/
theorem checkImage_of {s : State} {b : List Byte} {amend : Bool} {x : Image} (h : trailerHolds b = true) (hp : parseImage b = some x)
    (hc : (amend || x.kind == 0) && s.imageCode x {} amend == 0) : s.checkImage b false {} amend = .ok x := by
  simp only [Bool.and_eq_true, Bool.or_eq_true, beq_iff_eq] at hc
  cases amend <;> simp_all [State.checkImage]
theorem some_of {α : Type} (o : Option α) (p : α → Bool) (h : (match o with | some x => p x | none => false) = true) : ∃ x, o = some x ∧ p x = true := by
  cases o with
  | none => cases h
  | some x => exact ⟨x, rfl, h⟩
theorem test_fullImage_digest : trailerHolds fullImage = true := by decide +kernel
/-- R52-R63: the parsed image holds the records' values. -/
theorem test_parse_full : (parseImage fullImage).map (fun x => (x.serial, x.device, x.laneRoles, x.guardModes)) =
    some (2, factoryMould.device, factoryMould.laneRoles, factoryMould.guardModes) := by decide +kernel
theorem test_parse_full_rest : (parseImage fullImage).map (fun x => (x.reactions, x.pins, x.parts, x.signer)) = some (factoryMould.reactions, factoryMould.pins, factoryMould.parts.map (fun e => (e.1, { e.2 with dramRest := List.replicate 7 ⟨0, 0⟩ })), some 1) := by
  decide +kernel
theorem test_parse_amend : (parseImage amendImage).map (fun x => (x.kind, x.serial, x.parts)) = some (1, 2, [(1, { part1 with tiles := 0x7F, dramRest := List.replicate 7 ⟨0, 0⟩ })]) := by decide +kernel
/-- The image stands at 0x10000000 and queue 8 names it. -/
def imageCmd (op n : Nat) : Forwarded := cmd 0 8 op [(16, 6, 0x10000000), (22, 4, n)]
def imaged (op : Nat) (b : List Byte) : State := (told (imageCmd op b.length)).put (.vault 0) 0x10000000 b
/-- What reading an image back gives: the image is where it was put, on lines without poison. -/
theorem image_read (op : Nat) (b : List Byte) (k : List Byte → Bool → Prop) (h1 : (imageCmd op b.length).fld 16 6 = 0x10000000) (h2 : (imageCmd op b.length).fld 22 4 = b.length)
    (h3 : (told (imageCmd op b.length)).listed 0x10000000 b.length = []) (h4 : (told (imageCmd op b.length)).meetsLost 8 0x10000000 b.length = false)
    (h5 : (imaged op b).meetsPoison .mint 0x10000000 b.length = false) (hk : k b false) :
    k ((imaged op b).readBytes ((imageCmd op b.length).fld 16 6) ((imageCmd op b.length).fld 22 4))
      ((imaged op b).meetsPoison .mint ((imageCmd op b.length).fld 16 6) ((imageCmd op b.length).fld 22 4)) := by
  rw [h1, h2, h5, imaged, readBytes_put _ _ _ rfl h3 h4]
  exact hk
/-- A record of a ware, and a ware (R496). -/
def wareRecord (ty : Nat) (b : List Byte) : List Byte := toLE 8 ty ++ toLE 8 b.length ++ b ++ List.replicate ((64 - b.length % 64) % 64) 0
def wareOf (digest flags : Nat) (rs : List (List Byte)) : List Byte :=
  withTrailer digest (body 64 [(0, 4, 0x45524157), (4, 2, 1), (6, 2, rs.length), (8, 8, 160 + (rs.map List.length).sum), (16, 4, 7), (20, 4, flags)] ++ rs.flatten)
/-- A SEALED ware of version 7 and signer 5 for this module and one tenant. -/
def wareBytes (digest bound : Nat) : List Byte :=
  wareOf digest 1 [wareRecord 1 (body 136 [(0, 8, 5)]), wareRecord 2 (body 144 [(0, 32, bound)]), wareRecord 3 (body 32 []), wareRecord 4 (body 64 [(0, 8, 9)])]
theorem test_parse_ware : (parseWare (wareBytes 0 3)).map (fun f => (f.version, f.sealedWare, f.confOnly, f.signer)) = some (7, true, false, 5) ∧
    (parseWare (wareBytes 0 3)).map (fun f => (f.members, f.tenants, f.adapterImage)) = some ([3], [9], false) := by decide +kernel
/-- A byte too many, and a ware of one record alone. -/
theorem test_parse_ware_bad : (parseWare (wareBytes 0 3 ++ [0])).isSome = false ∧ (parseWare (wareOf 0 0 [wareRecord 1 (body 136 [])])).isSome = false := by decide +kernel
/-- A WARE_LOAD of the bytes at 0x10000000 runs. -/
def wareOp (b : List Byte) : OpRec := { origin := .host 0 8 5, kind := .wareLoad, part := 0, base := 0x10000000, units := b.length }
def wareLoading (b : List Byte) : State := { imaged 1 b with host := { live.host with handles := [(1, wareOp b)], nextHandle := 2 } }
theorem checkWare_none {s : State} {p : Nat} {b : List Byte} {poison : Bool} {w : WareReads} (h : parseWare b = none) : s.checkWare p b poison w = .error 1 := by
  simp only [State.checkWare, h]
theorem checkWare_placed (s : State) (p : Nat) (b : List Byte) (poison : Bool) (pl : Plan) (x) : s.checkWare p b poison { plan := pl, placed := x } = s.checkWare p b poison {} := rfl
def goodWare : List Byte := wareBytes 0x9F6B53670D3FDEDC1C2F88CB6A22C396F1E0CE9AA13827B36AE41A4FD2B5BED
  0x1E231CC95BC89E4E6DF253B7C6C89C652BF8C70ED29431255C6841BE7185B546
def goodForm : WareForm := (parseWare goodWare).getD {}
theorem test_goodWare : trailerHolds goodWare = true := by decide +kernel
theorem checkWare_good {s : State} {w : WareReads} (hc : s.wareCode 0 true goodForm w = 0) : s.checkWare 0 goodWare false w = .ok goodForm := by
  have hp : parseWare goodWare = some goodForm := by
    obtain ⟨f, hf, -⟩ := some_of (parseWare goodWare) (fun _ => true) (by decide +kernel)
    simp only [goodForm, hf, Option.getD_some]
  simp only [State.checkWare, hp, test_goodWare, Bool.not_false, Bool.and_true, hc, ne_eq, not_true_eq_false, if_false]
theorem ware_read (s : State) (hr : ∀ a n, s.readBytes a n = (imaged 1 goodWare).readBytes a n)
    (hp : s.meetsPoison .mint 0x10000000 goodWare.length = (imaged 1 goodWare).meetsPoison .mint 0x10000000 goodWare.length)
    (h : s.wareCode 0 true goodForm {} = 0) :
    s.checkWare 0 (s.readBytes 0x10000000 goodWare.length) (s.meetsPoison .mint 0x10000000 goodWare.length) {} = .ok goodForm := by
  have hk := image_read 1 goodWare (fun l p => s.checkWare 0 l p {} = .ok goodForm) (by decide +kernel) (by decide +kernel) (by decide +kernel) (by decide +kernel) (by decide +kernel) (checkWare_good h)
  rw [show (imageCmd 1 goodWare.length).fld 16 6 = 0x10000000 by decide +kernel, show (imageCmd 1 goodWare.length).fld 22 4 = goodWare.length by decide +kernel] at hk
  rw [hr, hp]; exact hk
/-- The load with kiln 1, which its place needs, ready or in reset. -/
def wareWaiting (b : Bool) (l : List Byte) : State := { wareLoading l with links := { live.links with dies := sset .inReset live.links.dies 1 (if b then .ready else .inReset) } }
theorem wareWaiting_reads (b : Bool) (l : List Byte) (a n : Nat) : (wareWaiting b l).readBytes a n = (imaged 1 l).readBytes a n := rfl
/-- A good ware with a place whose dies run, or not; x has no place. -/
theorem witness_LongOperations_loaded (b : Bool) : ∃ (s : State) (h : Nat) (w x : WareReads) (f : WareForm) (o : OpRec), s.op? h = some o ∧ o.kind = .wareLoad ∧ o.state = .running ∧ o.forgotten = false ∧
    s.islands.noneActive = false ∧ s.checkWare o.part (s.readBytes o.base o.units) (s.meetsPoison .mint o.base o.units) w = .ok f ∧ f.confOnly = false ∧ w.placed = some placed2 ∧
    s.placeOk o.part w.plan f.adapterImage placed2 = true ∧ s.placeUp w.plan placed2 = b ∧ s.ware? s.teller.nextWare = none ∧
    s.checkWare o.part (s.readBytes o.base o.units) (s.meetsPoison .mint o.base o.units) x = .ok f ∧ x.placed = none := by
  have hw := ware_read (wareWaiting b goodWare) (wareWaiting_reads b goodWare) (by cases b <;> decide +kernel) (by cases b <;> decide +kernel)
  exact ⟨wareWaiting b goodWare, 1, { plan := plan2, placed := some placed2 }, {}, goodForm, wareOp goodWare, by cases b <;> decide +kernel, rfl, rfl, rfl, by cases b <;> decide +kernel,
    (checkWare_placed ..).trans hw, by decide +kernel, rfl, by cases b <;> decide +kernel, by cases b <;> decide +kernel, by cases b <;> decide +kernel, hw, rfl⟩
/-- Codes of R497 on the good ware: a wrong digest, an unverified signature, another module's ware, a wrong WRAP or section tag. -/
theorem witness_LongOperations_wareBad : ∀ e ∈ [(false, goodForm, ({} : WareReads), 2), (true, goodForm, { sigOk := false }, 3), (true, { goodForm with members := [3] }, {}, 4), (true, goodForm, { unwrapOk := false }, 5),
    (true, goodForm, { tagsOk := false }, 6)], live.wareCode 0 e.1 e.2.1 e.2.2.1 = e.2.2.2 := by decide +kernel
/-- FORMAT, met by a running WARE_LOAD of no bytes. -/
theorem witness_LongOperations_refused : ∃ (s : State) (h : Nat) (w : WareReads) (o : OpRec), s.op? h = some o ∧ o.kind = .wareLoad ∧ o.state = .running ∧ o.forgotten = false ∧
    s.islands.noneActive = false ∧ s.checkWare o.part (s.readBytes o.base o.units) (s.meetsPoison .mint o.base o.units) w = .error 1 :=
  ⟨wareLoading [], 1, {}, wareOp [], by decide +kernel, rfl, rfl, rfl, by decide +kernel, checkWare_none rfl⟩
/-- The amendment with nothing in use, and with a ware on the tile that it releases. -/
def amends (b : Bool) : State :=
  { imaged 3 amendImage with teller := { wares := if b then [(1, { part := 1, tiles := [7] })] else [] } }
theorem teller_reads (s : State) (t : TellerState) (a n : Nat) : ({ s with teller := t } : State).readBytes a n = s.readBytes a n := rfl
theorem amends_reads (b : Bool) (a n : Nat) : (amends b).readBytes a n = (imaged 3 amendImage).readBytes a n := teller_reads ..
theorem amends_poison (b : Bool) : (amends b).meetsPoison .mint ((imageCmd 3 amendImage.length).fld 16 6) ((imageCmd 3 amendImage.length).fld 22 4) =
    (imaged 3 amendImage).meetsPoison .mint ((imageCmd 3 amendImage.length).fld 16 6) ((imageCmd 3 amendImage.length).fld 22 4) := by cases b <;> decide +kernel
theorem witness_MouldChanges_amend (b : Bool) : ∃ (s : State) (q : Nat) (f : Forwarded) (v : Verdict) (x : Image), f.fn = 0 ∧ bodyReserved f 26 = false ∧ s.openHandles (.host f.fn f.sq f.cid) < 16 ∧
    s.op? s.host.nextHandle = none ∧ s.srcOk (s.funcPart f.fn) (f.fld 16 6) (f.fld 22 4) 65536 = true ∧ s.Awaits q 0x03 f ∧ s.amendBusy = false ∧
    s.checkImage (s.readBytes (f.fld 16 6) (f.fld 22 4)) (s.meetsPoison .mint (f.fld 16 6) (f.fld 22 4)) v true = .ok x ∧ (s.amendBar x != 0) = b := by
  obtain ⟨x, h1, h2⟩ := ok_of ((amends b).checkImage amendImage false {} true) (fun x => ((amends b).amendBar x != 0) == b) (by cases b <;> decide +kernel)
  have hr := image_read 3 amendImage (fun l p => (amends b).checkImage l p {} true = .ok x) (by decide +kernel) (by decide +kernel) (by decide +kernel) (by decide +kernel) (by decide +kernel) h1
  exact ⟨amends b, 8, imageCmd 3 amendImage.length, {}, x, by decide +kernel, by decide +kernel, by cases b <;> decide +kernel, by cases b <;> decide +kernel, by cases b <;> decide +kernel,
    awaits_of (by cases b <;> decide +kernel), by cases b <;> decide +kernel, by rw [amends_reads, amends_poison]; exact hr, by simpa using h2⟩
/-- Bytes that are no image, and an amendment already under way. -/
theorem witness_MouldChanges_refused (b : Bool) : ∃ (s : State) (q : Nat) (f : Forwarded), f.fn = 0 ∧ bodyReserved f 26 = false ∧ s.openHandles (.host f.fn f.sq f.cid) < 16 ∧
    s.op? s.host.nextHandle = none ∧ s.srcOk (s.funcPart f.fn) (f.fld 16 6) (f.fld 22 4) 65536 = true ∧ s.Awaits q 0x03 f ∧ s.amendBusy = b ∧
    (match s.checkImage (s.readBytes (f.fld 16 6) (f.fld 22 4)) (s.meetsPoison .mint (f.fld 16 6) (f.fld 22 4)) {} true with | .error c => c | .ok _ => 0) = 1 := by
  refine ⟨{ told (imageCmd 3 160) with mould := { live.mould with amend := if b then some { handle := 1, image := {} } else none } }, 8, imageCmd 3 160, ?_, ?_, ?_, ?_, ?_, awaits_of ?_, ?_, ?_⟩ <;>
    cases b <;> decide +kernel
theorem witness_MouldChanges_install : ∃ (s : State) (q : Nat) (f : Forwarded) (v : Verdict) (x : Image), f.fn = 0 ∧ bodyReserved f 26 = false ∧ s.openHandles (.host f.fn f.sq f.cid) < 16 ∧
    s.op? s.host.nextHandle = none ∧ s.srcOk (s.funcPart f.fn) (f.fld 16 6) (f.fld 22 4) 65536 = true ∧ s.Awaits q 0x06 f ∧ s.installBusy = false ∧
    s.checkImage (s.readBytes (f.fld 16 6) (f.fld 22 4)) (s.meetsPoison .mint (f.fld 16 6) (f.fld 22 4)) v false = .ok x := by
  obtain ⟨x, hx, hc⟩ := some_of (parseImage fullImage) (fun x => (false || x.kind == 0) && (imaged 6 fullImage).imageCode x {} false == 0) (by decide +kernel)
  have h1 := checkImage_of test_fullImage_digest hx hc
  have hr := image_read 6 fullImage (fun l p => (imaged 6 fullImage).checkImage l p {} false = .ok x) (by decide +kernel) (by decide +kernel) (by decide +kernel) (by decide +kernel) (by decide +kernel) h1
  exact ⟨imaged 6 fullImage, 8, imageCmd 6 fullImage.length, {}, x, by decide +kernel, by decide +kernel, by decide +kernel, by decide +kernel, by decide +kernel, awaits_of (by decide +kernel),
    by decide +kernel, hr⟩
def amendOp : OpRec := { origin := .host 0 8 5, kind := .amend }
/-- Partition 1 gives up tile 7, DRAM unit 3, requests 64-127 and its tallies. -/
def less1 : PartRec := { part1 with tiles := 0x7F, dram := [⟨0, 3⟩], req := ⟨0, 1⟩, tally := ⟨0, 0⟩ }
def amending (st : AmendStep) (before : List (Nat × PartRec)) : State :=
  { live with host := { live.host with handles := [(1, amendOp)] }
              mould := { live.mould with parts := [(0, part0), (1, if before = [] then part1 else less1)]
                                         amend := some { handle := 1, image := { kind := 1, serial := 2, parts := [(1, less1)] }, step := st, before := before } } }
theorem witness_MouldChanges_steps : ∃ (s t u v : State) (a b c d : Amend) (o : OpRec),
    s.mould.amend = some a ∧ a.suspended = false ∧ a.step = .drain ∧ s.teller.held = false ∧ s.inFlight a.waits = [] ∧ s.resInUse a.image = false ∧
    t.mould.amend = some b ∧ b.suspended = false ∧ b.step = .scrub ∧ t.islands.noneActive = false ∧ b.before = [] ∧
    u.mould.amend = some c ∧ c.suspended = false ∧ c.step = .scrub ∧ u.islands.noneActive = false ∧ (∀ d < 8, (u.die d).resetting = false) ∧ c.before = [(1, part1)] ∧ u.part? 1 = some less1 ∧
    lostUnit part1.tally less1.tally (63 / 64) = true ∧ lostUnit part1.req less1.req (127 / 64) = true ∧ 3 ∈ dramUnits part1 ∧ less1.dram.any (·.has 3) = false ∧
    v.mould.amend = some d ∧ d.suspended = false ∧ d.step = .grant ∧ v.teller.held = false ∧ v.inFlight d.waits = [] ∧ v.op? d.handle = some o ∧ o.state = .running ∧ o.forgotten = false ∧
    (v.slot v.mould.firedSlotB).amendLog.length < 256 := by
  refine ⟨amending .drain [], amending .scrub [], amending .scrub [(1, part1)], amending .grant [(1, part1)], _, _, _, _, amendOp, rfl, rfl, rfl, rfl, ?_, ?_, rfl, rfl, rfl, rfl, rfl,
    rfl, rfl, rfl, rfl, ?_, rfl, ?_, ?_, ?_, ?_, ?_, rfl, rfl, rfl, rfl, ?_, ?_, ?_, ?_, ?_⟩ <;> decide +kernel
/-- A ware has come to stand on the tile that the drained amendment releases. -/
theorem witness_MouldChanges_inUse : ∃ (s : State) (a : Amend), s.mould.amend = some a ∧ a.suspended = false ∧ a.step = .drain ∧ s.teller.held = false ∧ s.inFlight a.waits = [] ∧
    s.resInUse a.image = true :=
  ⟨{ amending .drain [] with teller := { wares := [(1, { part := 1, tiles := [7] })] } }, { handle := 1, image := { kind := 1, serial := 2, parts := [(1, less1)] }, step := .drain, before := [] },
    by decide +kernel⟩
/-- The step of ware 1 that was in flight in partition 1 when the drain began, and again in partition 0, which gains tile 7, when the scrub was done; kiln 0 resets before the scrub is done. -/
def amendBusyIn (p : Nat) (x : Amend) : State :=
  { amending .drain [] with mould := { (amending .drain []).mould with amend := some x }, teller := { wares := [(1, { part := p, step := some runStep })] } }
def drainWait : Amend := { handle := 1, image := { kind := 1, serial := 2, parts := [(1, less1)] }, step := .drain, waits := [(1, 5)] }
def grantWait : Amend :=
  { handle := 1, image := { kind := 1, serial := 2, parts := [(0, { part0 with tiles := 0xFF80 }), (1, less1)] }, step := .grant, before := [(1, part1)], waits := [(0, 5)] }
theorem witness_MouldChanges_waits : ∃ (s t u : State) (a b c : Amend) (r : Nat × Nat) (o n : PartRec),
    s.mould.amend = some a ∧ a.suspended = false ∧ a.step = .drain ∧ s.teller.held = false ∧ s.inFlight a.waits ≠ [] ∧
    t.mould.amend = some b ∧ b.suspended = false ∧ b.step = .grant ∧ t.teller.held = false ∧ r ∈ t.inFlight b.waits ∧ r.1 < 8 ∧ r.1 ∉ b.granted ∧ t.gaining b.image r.1 = true ∧
    u.mould.amend = some c ∧ c.suspended = false ∧ c.step = .scrub ∧ u.islands.noneActive = false ∧ c.before = [(1, o)] ∧ u.part? 1 = some n ∧ (u.die 0).resetting = true ∧ o.releasesAt n 0 false = true := by
  refine ⟨amendBusyIn 1 drainWait, amendBusyIn 0 grantWait, (amending .scrub [(1, part1)]).setDie 0 .inReset, _, _, _, (0, 5), part1, less1, rfl, rfl, rfl, rfl, ?_, rfl, rfl, rfl, rfl, ?_, ?_, ?_, ?_,
    rfl, rfl, rfl, rfl, rfl, rfl, ?_, ?_⟩ <;> decide +kernel
theorem witness_MouldChanges_none : ∃ s : State, s.mould.amend = none := ⟨live, rfl⟩
/-- A MOULD_INSTALL that is suspended, one that runs, and one whose write has begun. -/
def installing (st : OpState) (w : Bool) : State :=
  { live with mould := { live.mould with install := some { handle := 1, image := {}, writing := w } }, host := { live.host with handles := [(1, { amendOp with kind := .mouldInstall, state := st })] } }
theorem witness_MouldChanges_written : ∃ (s t u w : State) (i j k : Install), s.mould.install = some i ∧ i.writing = false ∧ s.opSuspended i.handle = true ∧
    t.mould.install = some j ∧ j.writing = false ∧ t.opSuspended j.handle = false ∧ t.islands.noneActive = false ∧ u.mould.install = some k ∧ k.writing = true ∧ u.islands.noneActive = false ∧
    w.mould.install = some j ∧ w.islands.noneActive = true :=
  ⟨installing .suspended false, installing .running false, installing .running true, { installing .running false with islands := { live.islands with noneActive := true } }, { handle := 1, image := {} }, { handle := 1, image := {} }, { handle := 1, image := {}, writing := true },
    by decide +kernel⟩
/-- The image stands in the peer's staging area. -/
def peerImage (b : List Byte) : State := { live with sec := { live.sec with blockStage := (b.zipIdx.filter (fun e => e.1 ≠ 0)).map (fun e => (e.2, e.1)) } }
theorem witness_MouldChanges_messages : ∃ (s t u : State) (h : MsgHdr) (n : Nat) (b c : List Byte) (x y : Image), Speaks s h n true ∧ b.length = 4 ∧ lfld b 0 4 ≤ 65536 ∧
    s.openHandles (s.peerOrigin n) < 4 ∧ s.op? s.host.nextHandle = none ∧ s.amendBusy = false ∧ s.checkImage (s.staged (lfld b 0 4)) false {} true = .ok x ∧
    s.amendBar x = 0 ∧
    Speaks t h n true ∧ c.length = 4 ∧ lfld c 0 4 ≤ 65536 ∧ t.openHandles (t.peerOrigin n) < 4 ∧ t.op? t.host.nextHandle = none ∧ t.installBusy = false ∧
    t.checkImage (t.staged (lfld c 0 4)) false {} false = .ok y ∧ Speaks u h n true ∧ u.mould.amend.isSome = true := by
  obtain ⟨x, h1, h2⟩ := ok_of ((peerImage amendImage).checkImage amendImage false {} true) (fun x => (peerImage amendImage).amendBar x == 0) (by decide +kernel)
  obtain ⟨y, hy, hc⟩ := some_of (parseImage fullImage) (fun x => (false || x.kind == 0) && (peerImage fullImage).imageCode x {} false == 0) (by decide +kernel)
  have h3 := checkImage_of test_fullImage_digest hy hc
  have ha : (peerImage amendImage).staged (lfld (body 4 [(0, 4, amendImage.length)]) 0 4) = amendImage := by
    rw [show lfld (body 4 [(0, 4, amendImage.length)]) 0 4 = amendImage.length by decide +kernel]; exact staged_listed live amendImage
  have hf : (peerImage fullImage).staged (lfld (body 4 [(0, 4, fullImage.length)]) 0 4) = fullImage := by
    rw [show lfld (body 4 [(0, 4, fullImage.length)]) 0 4 = fullImage.length by decide +kernel]; exact staged_listed live fullImage
  exact ⟨peerImage amendImage, peerImage fullImage, amending .drain [], hdr, 0, body 4 [(0, 4, amendImage.length)], body 4 [(0, 4, fullImage.length)], x, y, speaks_of (by decide +kernel),
    by decide +kernel, by decide +kernel, by decide +kernel, by decide +kernel, by decide +kernel, by rw [ha]; exact h1, by simpa using h2, speaks_of (by decide +kernel), by decide +kernel, by decide +kernel,
    by decide +kernel, by decide +kernel, by decide +kernel, by rw [hf]; exact h3, speaks_of (by decide +kernel), rfl⟩
theorem witness_FiringSequence_none : ∃ s : State, s.firingCause = none := ⟨live, rfl⟩
/-- From State.reset every premise of the fired clause holds, with reads that find nothing wrong. -/
theorem witness_FiringSequence_fired : ∃ (s : State) (r : FiringReads) (c : FiringCause) (m : Image), s.firingCause = some c ∧ s.faults.testMode = false ∧ r.islandAOk = true ∧ r.islandBOk = true ∧
    r.pufFailed = false ∧ s.update.slotA.state = .valid ∧ s.update.slotB.state = .empty ∧ r.slotA.imageOk = true ∧ s.update.slotA.mould = some m ∧ s.update.slotA.checkA = none ∧
    s.update.slotA.checkB = none ∧ s.update.slotA.amendLog = [] ∧ s.mould.install = none ∧
    s.update.slotA.mouldCode ({ s with sec := { s.sec with idKey := identityKey } } : State).boundId s.ledger.highestSerial r.slotA.mould = 0 ∧ r.badTiles = 0 ∧ r.badChannels = 0 ∧ r.lanes = [] ∧
    (∀ k < 4, ∃ i < 8, s.ledger.fenceTiles.getLsbD (8 * k + i) = false) :=
  ⟨State.reset, {}, .powerOn, factoryMould, by decide +kernel, by decide, by decide, by decide, by decide, by decide, by decide, by decide, by decide +kernel, by decide, by decide, by decide, by decide,
    by decide +kernel, by decide, by decide, by decide, by decide⟩
theorem witness_FiringSequence_recovery : ∃ (s : State) (r : FiringReads), s.firingCause.isSome = true ∧ s.faults.testMode = false ∧ r.slotA.imageOk = false ∧ r.slotB.imageOk = false :=
  ⟨State.reset, { slotA := { imageOk := false }, slotB := { imageOk := false } }, by decide⟩
theorem witness_FiringSequence_noMould : ∃ (s : State) (r : FiringReads), s.firingCause.isSome = true ∧ s.faults.testMode = false ∧ r.pufFailed = false ∧ s.update.slotA.state = .valid ∧
    s.update.slotB.state = .empty ∧ r.slotA.imageOk = true ∧ s.update.slotA.mould = none ∧ s.update.slotB.mould = none :=
  ⟨{ State.reset with update := { slotA := { factorySlot with mould := none } } }, {}, by decide⟩

/-! ## The spec's worked examples -/

/-- R293: entry 291 at STEP_SEQ 7 receives token 20,113 at position 65,536 with log-probability 0xBE75 on an even lap. -/
theorem test_ring_record : (({ live with teller := { rings := [(131, { set := true, base := 0x10000000, log2 := 2 })] } } : State).ringWrite 131
      (ringBytes { req := 291, stepSeq := 7, token := 20113, logprob := 0xBE75, accept := 1, position := 65536 } false 0) 0).readBytes 0x10000000 16 =
    [0x23, 1, 7, 0, 0x91, 0x4E, 0, 0, 0x75, 0xBE, 1, 1, 0, 0, 1, 0] := by decide +kernel
/-- R39: tile 19's store; R372: tally 8,232 at BAR0 0x019_0140; R395: MNT_DIE_RESET at 0x002_0010; R406: KLN_TAKE_COUNT of tile 20. -/
theorem test_addresses : live.region 0xD013000000 = .store 19 false ∧ live.region 0xD013FFFFFF = .store 19 true ∧ bar0Addr 0x190140 = some (hearthAddr 2 (0x10000 + 40 * 8)) ∧
    (locate (dieWindow 10 + 0x2100010) false).map (·.1) = some (.clk 2) ∧ bar0Addr 0x20010 = some (dieWindow 10 + 0x2100010) ∧ bar0Addr 0xCC060 = some (tqAddr 20 0x60) := by decide
/-- R407: a walk over the two halves of KLN_TAKE_COUNT leaves OFFSET at 0x0C_C068. -/
theorem test_walk : nextOffset (nextOffset 0xCC060 true) false = 0xCC068 := by decide
/-- R182: the granule at 0x0012_3400_0000 lies on channel 16. -/
theorem test_channel : live.channelOf 0x001234000000 = 16 := by decide +kernel
/-- R485: counters through a VF. -/
theorem test_coarsen : coarsen 1000 = 512 ∧ coarsen 1023 = 512 ∧ coarsen 1024 = 1024 ∧ coarsen 0 = 0 := by decide
/-- R243, R244: B8 records of LATENT_DIM 448 take 512 bytes; position 40,960 is byte 4,096 of page 18; 65,536 tokens need 25 entries. -/
theorem test_pages : recBytes 0x6 448 = 512 ∧ pageIndex ⟨0, 12, 21, 0x6, 448, 65536, 25⟩ (40960 * 512) = (18, 21, 4096) ∧
    (pageIndex ⟨0, 12, 21, 0x6, 448, 65536, 25⟩ (65536 * 512 - 1)).1 = 24 := by decide
/-- R84: the BF16 block of 6.5, 0.046875 and 0.0079956 converted to B16. -/
theorem test_ingest : (ingest bf16 14 ([0x40D0, 0x3D40, 0x3C03] ++ List.replicate 29 0)) = ({ e := 129, sig := [26624, 192, 32] ++ List.replicate 29 0 }, nIngestLoss) := by decide
/-- R346: 60 working lanes propose 32. -/
theorem test_propose : propose 64 60 = 2 ∧ widthLanes 2 = 32 := by decide
/-- R432: with an unacknowledged U, a U record becomes F with NMI; with an unacknowledged F as well, a partition reset. -/
def uRec (c : Nat) : LedgerRec := { firing := 0, stamp := 0, typ := 1, cls := c, source := 20, owner := 3 }
theorem test_escalate : escalate [uRec 1] 3 1 0 = (2, true, 1) ∧ escalate [uRec 1, uRec 2] 3 1 0 = (2, true, 2) ∧ escalate [] 3 1 0 = (1, false, 0) := by decide
/-- R465: 540 W drawn, 380 W of it on the kiln rails, and a cap of 300 W: k = 5. -/
theorem test_cap : (({ live with power := { nowDw := 5400, avg100us := 5400, rails := [(0, { dw := 3800 })] } } : State).setCap 300 0).power.capClamp = 5 := by decide
/-- R237: three candidates at IOU_THR 0.5; with MAX_OUT = 1 the walk is truncated. -/
def box (a b : Word) : List Word := [a, a, b, b]
def cands : List Cand := [⟨0, 0x3F666666, box 0x41200000 0x42480000, 0⟩, ⟨1, 0x3F666666, box 0x41400000 0x42500000, 0⟩, ⟨2, 0x3F4CCCCD, box 0x42C80000 0x430C0000, 0⟩]
theorem test_nms : ((nmsWalk halfF false 16 cands []).1.map (·.i), (nmsWalk halfF false 16 cands []).2) = ([2, 0], false) ∧
    ((nmsWalk halfF false 1 cands []).1.map (·.i), (nmsWalk halfF false 1 cands []).2) = ([0], true) := by decide +kernel
/-- R510-R512: from State.reset a firing whose reads find nothing wrong fires slot A. -/
theorem test_fires : gives (exec (.firing {}) State.reset) (fun t => t.mould.fired && !t.mould.firedSlotB && t.ledger.firingCount == 1) = true := by decide +kernel
/-- R482: the examples of GB/T 32905 (SM3 of "abc") and of GB/T 32907 (SM4, the key as its own block), which the spec names. -/
theorem test_sm3 : beNat (sm3Bytes [0x61, 0x62, 0x63]) = 0x66C7F0F462EEEDD9D1F2D46BDC10E4E24167C4875CF2F7A2297DA02B8F4BA8E0 := by decide +kernel
theorem test_sm4 : sm4Enc (sm4Keys 0x0123456789ABCDEFFEDCBA9876543210) 0x0123456789ABCDEFFEDCBA9876543210 = 0x681EDF34D206965E86B3E94F536E4246 := by decide +kernel
/-- No row of the table has bits. -/
theorem test_noBits (nbits w : Nat) : decodeTableWord nbits w = none ∧ State.reset.withFetchWord nbits w = State.reset := ⟨rfl, rfl⟩
end Sys2Proof.Tests
end

section
/-! PROOF.  The waiting commands are frame: what every function of the machine leaves of them, in the order of the model's
files, up to `exec`; then O2.  A function that may fail to answer (an `Option`) has its lemma over its members; one that takes
a continuation asks the same of it. -/
namespace Sys2Proof.Machine
open Sys2Proof

/-- The commands that wait in `t` are those that wait in `s`. A structure, and not the bare equation: hypotheses about every
round of a loop or every continuation are stated by it, and its one field is the rule they are used by. -/
structure SameQueue (s t : State) : Prop where
  pending : t.pending = s.pending

@[simp] theorem sameQueue_iff {s t : State} : SameQueue s t ↔ t.pending = s.pending := ⟨SameQueue.pending, SameQueue.mk⟩

@[simp] theorem ite_pending (c : Prop) [Decidable c] (a b : State) :
    (if c then a else b).pending = if c then a.pending else b.pending := apply_ite State.pending c a b

/-- What every round of a loop keeps, the loop keeps. -/
theorem foldl_keeps {α β γ : Type} (g : β → γ) {f : β → α → β} (hf : ∀ b x, g (f b x) = g b) (l : List α) (b : β) :
    g (l.foldl f b) = g b := by
  induction l generalizing b with
  | nil => rfl
  | cons x l ih => rw [List.foldl_cons, ih, hf]

@[simp] theorem foldl_pending {α : Type} {f : State → α → State} (hf : ∀ s x, SameQueue s (f s x)) (l : List α) (s : State) :
    (l.foldl f s).pending = s.pending :=
  foldl_keeps State.pending (fun s x => (hf s x).pending) l s

@[simp] theorem foldl_fst_pending {α β : Type} {f : State × β → α → State × β}
    (hf : ∀ r x, SameQueue r.1 (f r x).1) (l : List α) (r : State × β) :
    (l.foldl f r).1.pending = r.1.pending :=
  foldl_keeps (fun r : State × β => r.1.pending) (fun r x => (hf r x).pending) l r

/-- The outcome is a next state, with the commands of `s` waiting (R11). -/
def KeepsQueue (s : State) (o : Host.Outcome State Fault Refusal) : Prop := ∃ t, o = .next t ∧ t.pending = s.pending

@[simp] theorem keepsQueue_next (s t : State) : KeepsQueue s (.next t) ↔ t.pending = s.pending := by
  simp [KeepsQueue]

@[simp] theorem keepsQueue_ite (s : State) (c : Prop) [Decidable c] (a b : Host.Outcome State Fault Refusal) :
    KeepsQueue s (if c then a else b) ↔ if c then KeepsQueue s a else KeepsQueue s b := by
  split <;> rfl

/-! ## Sys2Proof/Machine/Ops.lean -/

@[simp] theorem State.settlePower_pending (s : State) (t : Nat) : (s.settlePower t).pending = s.pending := by simp [State.settlePower]
@[simp] theorem State.zero_pending (s : State) (a n : Nat) : (s.zero a n).pending = s.pending := rfl
@[simp] theorem State.undefine_pending (s : State) (j : Junk) : (s.undefine j).pending = s.pending := by simp [State.undefine]
@[simp] theorem State.freeBytes_pending (s : State) (a n : Nat) : (s.freeBytes a n).pending = s.pending := by simp [State.freeBytes]
@[simp] theorem State.takeFree_pending (s : State) : s.takeFree.2.pending = s.pending := rfl
@[simp] theorem State.boundsFault_pending (s : State) (p addr : Nat) : (s.boundsFault p addr).pending = s.pending := by simp [State.boundsFault]
@[simp] theorem State.occurIf_pending (s : State) (was now : Bool) (src : Nat) : (s.occurIf was now src).pending = s.pending := by
  simp [State.occurIf]

@[simp] theorem State.occurFrom_pending (s : State) (was : Bool) (src : Nat) : (s.occurFrom was src).pending = s.pending := by simp [State.occurFrom]
@[simp] theorem State.setPevt_pending (s : State) (p : Nat) (b : BitVec 3) : (s.setPevt p b).pending = s.pending := by simp [State.setPevt]
@[simp] theorem State.answer_pending (s : State) (f : Forwarded) (status r0 r1 : Nat) : (s.answer f status r0 r1).pending = s.pending := rfl
@[simp] theorem State.dropForwarded_pending (s : State) (q : Nat) : (s.dropForwarded q).pending = s.pending := rfl
@[simp] theorem State.markServed_pending (s : State) (q : Nat) : (s.markServed q).pending = s.pending := rfl

@[simp] theorem onForwarded_pending (q op : Nat) (s : State) (k : Forwarded → State → State) (hk : ∀ a t, SameQueue t (k a t)) :
    (onForwarded q op s k).pending = s.pending := by
  fun_cases onForwarded q op s k <;> simp [(hk _ _).pending]

@[simp] theorem State.newHandle_pending (s : State) (o : OpRec) : (s.newHandle o).2.pending = s.pending := rfl
@[simp] theorem State.endHandle_pending (s : State) (h : Nat) (st : OpState) (status r1 : Nat) : (s.endHandle h st status r1).pending = s.pending := by
  fun_cases State.endHandle s h st status r1 <;> rfl

/-! ## Sys2Proof/Machine/Access.lean -/

@[simp] theorem State.logAccess_pending (s : State) (i addr cause : Nat) (write : Bool) : (s.logAccess i addr cause write).pending = s.pending := by
  simp [State.logAccess]

@[simp] theorem State.reply_pending (s : State) (r : AccessReply) : (s.reply r).pending = s.pending := rfl
@[simp] theorem State.refuse_pending (s : State) (m : Master) (addr : Nat) (write : Bool) : (s.refuse m addr write).pending = s.pending := by
  fun_cases State.refuse s m addr write <;> simp

@[simp] theorem State.guardFail_pending (s : State) (m : Master) (addr cause : Nat) : (s.guardFail m addr cause).pending = s.pending := by
  simp [State.guardFail]

@[simp] theorem State.failDual_pending (s : State) (m : Master) (block : Nat) : (s.failDual m block).pending = s.pending := by
  fun_cases State.failDual s m block <;> simp

@[simp] theorem State.tileEvent_pending (s : State) (t : Nat) : (s.tileEvent t).pending = s.pending := by simp [State.tileEvent]
@[simp] theorem State.setNumeric_pending (s : State) (t : Nat) (sticky mask : Word) : (s.setNumeric t sticky mask).pending = s.pending := by
  simp [State.setNumeric]

@[simp] theorem State.ohmErr_pending (s : State) (kind code part : Nat) : (s.ohmErr kind code part).pending = s.pending := rfl

/-! ## Sys2Proof/Machine/Coherence.lean -/

@[simp] theorem State.setDir_pending (s : State) (line d : Nat) : (s.setDir line d).pending = s.pending := rfl
@[simp] theorem State.poisonLine_pending (s : State) (line cause : Nat) : (s.poisonLine line cause).pending = s.pending := by
  fun_cases State.poisonLine s line cause <;> rfl

@[simp] theorem State.eccEvent_pending (s : State) (line : Nat) (e : EccEvent) : (s.eccEvent line e).pending = s.pending := by
  fun_cases State.eccEvent s line e <;> simp

@[simp] theorem State.wroteBack_pending (s : State) (line : Nat) (c : RcLine) : (s.wroteBack line c).pending = s.pending := by simp [State.wroteBack]
@[simp] theorem State.dropCopy_pending (s : State) (h line : Nat) : (s.dropCopy h line).pending = s.pending := by
  fun_cases State.dropCopy s h line <;> simp +zetaDelta

@[simp] theorem State.hit_pending (s : State) (h line : Nat) : (s.hit h line).pending = s.pending := by
  fun_cases State.hit s h line <;> rfl

@[simp] theorem State.fill_pending (s : State) (h line p : Nat) (dirty poisoned : Bool) : (s.fill h line p dirty poisoned).pending = s.pending := by
  fun_cases State.fill s h line p dirty poisoned <;> simp +zetaDelta

@[simp] theorem State.lostOwner_pending (s : State) (line o : Nat) : (s.lostOwner line o).pending = s.pending := by simp [State.lostOwner]
@[simp] theorem State.recall_pending (s : State) (hm : Home) (line o : Nat) (keep : Bool) : (s.recall hm line o keep).pending = s.pending := by
  fun_cases State.recall s hm line o keep <;> simp

@[simp] theorem State.dirRead_pending (s : State) (line : Nat) (h : Home) : (s.dirRead line h).2.pending = s.pending := by
  fun_cases State.dirRead s line h <;> rfl

@[simp] theorem State.invalidateOthers_pending (s : State) (hm : Home) (line h : Nat) : (s.invalidateOthers hm line h).pending = s.pending := by
  simp [State.invalidateOthers]

@[simp] theorem State.snoop_pending (s : State) (hm : Home) (line h : Nat) : (s.snoop hm line h).pending = s.pending := by
  refine foldl_pending (fun s k => ⟨?_⟩) _ _
  split
  · rfl
  · split
    · split <;> simp
    · rfl

@[simp] theorem readMiss_pending (s : State) (h line p : Nat) (e : EccEvent) : (readMiss s h line p e).pending = s.pending := by
  unfold readMiss
  split <;> simp

@[simp] theorem ownershipRequest_pending (s : State) (h line p : Nat) (whole : Bool) (e : EccEvent) :
    (ownershipRequest s h line p whole e).pending = s.pending := by
  fun_cases ownershipRequest s h line p whole e <;> simp +zetaDelta

@[simp] theorem homeSide_pending (s : State) (line : Nat) (write : Bool) : (homeSide s line write).pending = s.pending := by
  unfold homeSide
  split <;> simp

@[simp] theorem rcError_pending (s : State) (h line p : Nat) (e : EccEvent) : (rcError s h line p e).pending = s.pending := by
  fun_cases rcError s h line p e <;> simp +zetaDelta

@[simp] theorem State.homeRange_pending (s : State) (a n : Nat) (write : Bool) : (s.homeRange a n write).pending = s.pending := by
  simp [State.homeRange]

@[simp] theorem State.readLine_pending (s : State) (h p line : Nat) : (s.readLine h p line).pending = s.pending := by simp [State.readLine]
@[simp] theorem State.writeLine_pending (s : State) (h p line : Nat) (whole : Bool) : (s.writeLine h p line whole).pending = s.pending := by
  fun_cases State.writeLine s h p line whole <;> simp +zetaDelta

@[simp] theorem State.fetch_pending (s : State) (g : Agent) (a n : Nat) : (s.fetch g a n).pending = s.pending := by
  unfold State.fetch
  split <;> simp

@[simp] theorem State.fetchAll_pending (s : State) (g : Agent) (l : List (Nat × Nat)) : (s.fetchAll g l).pending = s.pending := by
  simp [State.fetchAll]

@[simp] theorem State.claim_pending (s : State) (g : Agent) (a n : Nat) : (s.claim g a n).pending = s.pending := by
  fun_cases State.claim s g a n <;> simp

@[simp] theorem State.store_pending (s : State) (g : Agent) (a : Nat) (bs : List Byte) : (s.store g a bs).1.pending = s.pending := by
  simp [State.store]

@[simp] theorem State.guardStore_pending (s : State) (g : Agent) (p a : Nat) (bs : List Byte) : (s.guardStore g p a bs).1.pending = s.pending := by
  fun_cases State.guardStore s g p a bs <;> simp

@[simp] theorem State.put_pending (s : State) (g : Agent) (a : Nat) (bs : List Byte) : (s.put g a bs).pending = s.pending := by simp [State.put]

/-! ## Sys2Proof/Machine/Check.lean -/

@[simp] theorem failed_pending (s : State) (outs : List (Nat × Nat)) (st : Nat) : (failed s outs st).s.pending = s.pending := by
  simp [failed]

@[simp] theorem reading_pending (s : State) (g : Agent) (c : Checks) (k : State → Done) (hk : ∀ s, SameQueue s (k s).s) :
    (reading s g c k).s.pending = s.pending := by
  simp only [reading]
  split
  · simp
  · rw [(hk _).pending, State.fetchAll_pending]

@[simp] theorem writeRows_pending (s : State) (g : Agent) (l : List (Nat × List Byte)) : (writeRows s g l).1.pending = s.pending := by
  induction l generalizing s with
  | nil => rfl
  | cons r l ih => simp [writeRows, ih]

@[simp] theorem finishRows_pending (s : State) (g : Agent) (c : Checks) (rows : List (Nat × List Byte)) (numeric opflags result : Nat) :
    (finishRows s g c rows numeric opflags result).s.pending = s.pending := by
  simp only [finishRows]
  split <;> simp

@[simp] theorem piecesWrite_pending (s : State) (g : Agent) (l : List (Nat × List Byte)) (n : Nat) : (piecesWrite s g l n).1.pending = s.pending := by
  induction l generalizing s n with
  | nil => rfl
  | cons r l ih =>
    simp only [piecesWrite]
    split <;> simp [ih]

@[simp] theorem Pieces.run_pending (z : Pieces) (s : State) (g : Agent) (p : Nat) (outs : List (Nat × Nat)) (done : Nat) :
    (z.run s g p outs done).s.pending = s.pending := by
  simp only [Pieces.run]
  split
  · simp
  · split <;> simp

theorem pieceUnit_pending (s : State) (g : Agent) (rows : List (Nat × List Byte)) (fails : Bool) (w : Work) :
    ∀ r ∈ pieceUnit s g rows fails w, r.1.pending = s.pending := by
  fun_cases pieceUnit s g rows fails w <;> simp +zetaDelta

@[simp] theorem State.vecUsed_pending (s : State) (t : Nat) (d : BitVec 512) : (s.vecUsed t d).pending = s.pending := rfl

/-! ## Sys2Proof/Machine/Slab.lean -/

@[simp] theorem slabLoadRun_pending (d : BitVec 512) (t : Nat) (s : State) : (slabLoadRun d t s).s.pending = s.pending :=
  reading_pending _ _ _ _ (fun _ => ⟨rfl⟩)

@[simp] theorem State.setWeights_pending (s : State) (t : Nat) (b : List Byte × List Byte) : (s.setWeights t b).pending = s.pending := rfl

@[simp] theorem matRun_pending (d : BitVec 512) (t : Nat) (w : Work) (s : State) : (matRun d t w s).s.pending = s.pending := by
  unfold matRun
  split
  · rfl
  · refine reading_pending _ _ _ _ (fun s => ⟨?_⟩)
    dsimp only
    split <;> simp

theorem matUnit_pending (d : BitVec 512) (t : Nat) (w : Work) (s : State) : ∀ r ∈ matUnit d t w s, r.1.pending = s.pending := by
  fun_cases matUnit d t w s <;> simp +zetaDelta

@[simp] theorem convRun_pending (d : BitVec 512) (t : Nat) (w : Work) (s : State) : (convRun d t w s).s.pending = s.pending :=
  reading_pending _ _ _ _ (fun s => by simp)

theorem convUnit_pending (d : BitVec 512) (t : Nat) (w : Work) (s : State) : ∀ r ∈ convUnit d t w s, r.1.pending = s.pending := by
  fun_cases convUnit d t w s <;> simp +zetaDelta

@[simp] theorem State.loadWeights_pending (s : State) (t : Nat) (preloaded : Bool) (d : BitVec 512) (w : Work) :
    (s.loadWeights t preloaded d w).pending = s.pending := rfl

/-! ## Sys2Proof/Machine/Vector.lean -/

@[simp] theorem Vm.setReg_pending (m : Vm) (v : Nat) (x : List Word) : (m.setReg v x).s.pending = m.s.pending := rfl

@[simp] theorem Vm.setSc_pending (m : Vm) (n : Nat) (x : Word) : (m.setSc n x).s.pending = m.s.pending := rfl

@[simp] theorem Vm.read_pending (m : Vm) (l : List (Nat × Nat)) : (m.read l).1.s.pending = m.s.pending := by
  unfold Vm.read
  split <;> simp

@[simp] theorem Vm.write_pending (m : Vm) (l : List (Nat × List Byte)) : (m.write l).1.s.pending = m.s.pending := by
  simp [Vm.write]

@[simp] theorem Vm.ld_pending (m : Vm) (v arg fmt idx : Nat) (ofs : Int) : (m.ld v arg fmt idx ofs).1.s.pending = m.s.pending := by
  unfold Vm.ld
  split
  · rfl
  · dsimp only
    split <;> simp

@[simp] theorem Vm.st_pending (m : Vm) (v arg fmt idx : Nat) (ofs : Int) : (m.st v arg fmt idx ofs).1.s.pending = m.s.pending := by
  fun_cases Vm.st m v arg fmt idx ofs <;> simp +zetaDelta

@[simp] theorem Vm.execR_pending (m : Vm) (i op : Nat) : (m.execR i op).1.s.pending = m.s.pending := by
  fun_cases Vm.execR m i op <;> simp +zetaDelta

@[simp] theorem Vm.execCvt_pending (m : Vm) (i : Nat) : (m.execCvt i).1.s.pending = m.s.pending := by
  fun_cases Vm.execCvt m i <;> simp +zetaDelta [apply_ite Vm.s]

@[simp] theorem Vm.execS_pending (m : Vm) (i op : Nat) : (m.execS i op).1.s.pending = m.s.pending := by
  fun_cases Vm.execS m i op <;> rfl

@[simp] theorem Vm.execSS_pending (m : Vm) (i op : Nat) : (m.execSS i op).1.s.pending = m.s.pending := by
  fun_cases Vm.execSS m i op <;> simp +zetaDelta

@[simp] theorem Vm.execTld_pending (m : Vm) (i : Nat) : (m.execTld i).1.s.pending = m.s.pending := by
  fun_cases Vm.execTld m i <;> simp +zetaDelta

@[simp] theorem Vm.execScratch_pending (m : Vm) (i : Nat) (store : Bool) : (m.execScratch i store).1.s.pending = m.s.pending := by
  fun_cases Vm.execScratch m i store <;> simp +zetaDelta

@[simp] theorem Vm.execSM_pending (m : Vm) (i : Nat) (store : Bool) : (m.execSM i store).1.s.pending = m.s.pending := by
  fun_cases Vm.execSM m i store <;> simp +zetaDelta

@[simp] theorem Vm.jump_pending (m : Vm) (ofs : Int) : (m.jump ofs).1.s.pending = m.s.pending := by
  fun_cases Vm.jump m ofs <;> simp +zetaDelta

@[simp] theorem Vm.exec1_pending (m : Vm) : m.exec1.1.s.pending = m.s.pending := by
  fun_cases Vm.exec1 m <;> simp +zetaDelta [apply_ite Prod.fst, apply_ite Vm.s]

@[simp] theorem Vm.step_pending (m : Vm) : m.step.1.s.pending = m.s.pending := by
  fun_cases Vm.step m <;> simp +zetaDelta

@[simp] theorem Vm.run_pending (n : Nat) (m : Vm) : (Vm.run n m).1.s.pending = m.s.pending := by
  induction n generalizing m with
  | zero => rfl
  | succ n ih =>
    simp only [Vm.run]
    split <;> simp [ih]

@[simp] theorem vecStart_pending (d : BitVec 512) (t p : Nat) (s : State) : (vecStart d t p s).s.pending = s.pending := rfl

@[simp] theorem vecResume_pending (d : BitVec 512) (t p : Nat) (w : VecWork) (s : State) : (vecResume d t p w s).s.pending = s.pending := rfl

@[simp] theorem Vm.spoil_pending (m : Vm) (keep : Bool) : (m.spoil keep).pending = m.s.pending := by
  simp [Vm.spoil]

@[simp] theorem vecEnd_pending (counted : Nat) (m : Vm) (e : VEnd) : (vecEnd counted m e).s.pending = m.s.pending := by
  fun_cases vecEnd counted m e <;> simp +zetaDelta

@[simp] theorem vecRun_pending (d : BitVec 512) (t p : Nat) (w : Option VecWork) (s : State) : (vecRun d t p w s).s.pending = s.pending := by
  cases w with
  | none => exact reading_pending _ _ _ _ (fun s => by simp)
  | some w => simp [vecRun]

theorem vecUnit_pending (d : BitVec 512) (t p : Nat) (w : Option VecWork) (s : State) :
    ∀ r ∈ vecUnit d t p w s, r.1.pending = s.pending := by
  cases w <;> simp only [vecUnit] <;> split <;> simp

/-! ## Sys2Proof/Machine/Sample.lean -/

@[simp] theorem sampleRun_pending (d : BitVec 512) (t p : Nat) (s : State) : (sampleRun d t p s).s.pending = s.pending := by
  refine (reading_pending _ _ _ _ (fun s => ⟨?_⟩)).trans (by simp)
  simp [apply_ite Done.s]

/-! ## Sys2Proof/Machine/Vision.lean -/

@[simp] theorem cropRun_pending (d : BitVec 512) (t : Nat) (w : Work) (s : State) : (cropRun d t w s).s.pending = s.pending := by
  simp [cropRun]

@[simp] theorem boxRun_pending (d : BitVec 512) (t : Nat) (s : State) : (boxRun d t s).s.pending = s.pending := by
  simp [boxRun]

@[simp] theorem nmsRun_pending (d : BitVec 512) (t : Nat) (w : Work) (s : State) : (nmsRun d t w s).s.pending = s.pending := by
  simp [nmsRun]

/-! ## Sys2Proof/Machine/Attend.lean -/

@[simp] theorem expandUsed_pending (s : State) (t : Nat) (e : Expand) (n : Nat) (nan : Bool) : (expandUsed s t e n nan).pending = s.pending := rfl
@[simp] theorem attCount_pending (s : State) (t : Nat) (e : Expand) (used : List (Nat × Nat × Bool)) (lo hi : Nat) :
    (attCount s t e used lo hi).pending = s.pending := by simp [attCount]

@[simp] theorem attRun_pending (d : BitVec 512) (t p : Nat) (w : Work) (s : State) : (attRun d t p w s).s.pending = s.pending := by
  simp [attRun]

/-! ## Sys2Proof/Machine/Move.lean -/

@[simp] theorem moveRun_pending (d : BitVec 512) (t : Nat) (w : Work) (s : State) : (moveRun d t w s).s.pending = s.pending := by
  simp [moveRun]

@[simp] theorem gatherUsed_pending (s : State) (t : Nat) (d : BitVec 512) (l : List (Nat × Bool)) : (gatherUsed s t d l).pending = s.pending := by
  simp [gatherUsed]

@[simp] theorem gatherBody_pending (d : BitVec 512) (g : Agent) (t p keep : Nat) (s : State) : (gatherBody d g t p keep s).s.pending = s.pending := by
  simp [gatherBody]

@[simp] theorem gatherRun_pending (d : BitVec 512) (t p : Nat) (w : Work) (s : State) : (gatherRun d t p w s).s.pending = s.pending := by
  simp [gatherRun]

@[simp] theorem dmaRun_pending (d : BitVec 512) (t p : Nat) (stop : Bool) (s : State) : (dmaRun d t p stop s).s.pending = s.pending := by
  fun_cases dmaRun d t p stop s <;> simp +zetaDelta

@[simp] theorem abandonedOuts_pending (c : RunCmd) (t p : Nat) (s : State) : (abandonedOuts c t p s).pending = s.pending := by
  fun_cases abandonedOuts c t p s <;> simp

/-- A unit of a command that writes piece by piece, after the agent has read. -/
theorem readThenPiece_pending (s : State) (g : Agent) (c : Prop) [Decidable c] (l : List (Nat × Nat)) (rows : List (Nat × List Byte)) (fails : Bool) (w : Work) :
    ∀ r ∈ (if c then none else pieceUnit (s.fetchAll g l) g rows fails w), r.1.pending = s.pending := by
  split
  · simp
  · intro r hr
    simpa using pieceUnit_pending _ _ _ _ _ r hr

theorem commandUnit_pending (d : BitVec 512) (t p : Nat) (w : Work) (s : State) : ∀ r ∈ commandUnit d t p w s, r.1.pending = s.pending := by
  simp only [commandUnit]
  split
  · split <;> simp
  · exact matUnit_pending d t w s
  · exact convUnit_pending d t w s
  · rw [Option.forall_mem_map]
    intro r hr
    simpa using readThenPiece_pending _ _ _ _ _ _ _ r hr
  · rw [Option.forall_mem_map]
    exact vecUnit_pending d t p w.vec s
  · split
    · simp
    · exact readThenPiece_pending _ _ _ _ _ _ _
  · split
    · simp
    · rw [Option.forall_mem_map]
      intro r hr
      simpa using readThenPiece_pending _ _ _ _ _ _ _ r hr
  · split <;> simp
  · rw [Option.forall_mem_map]
    intro r hr
    simpa using readThenPiece_pending _ _ _ _ _ _ _ r hr
  · split <;> simp
  · rw [Option.forall_mem_map]
    intro r hr
    simpa using readThenPiece_pending _ _ _ _ _ _ _ r hr
  · simp

/-! ## Sys2Proof/Machine/TileOps.lean -/

@[simp] theorem State.setTally_pending (s : State) (n : Nat) (v : Word) : (s.setTally n v).pending = s.pending := rfl
@[simp] theorem State.setTallyBad_pending (s : State) (n : Nat) (b : Bool) : (s.setTallyBad n b).pending = s.pending := rfl
@[simp] theorem State.pushSignal_pending (s : State) (g : Signal) : (s.pushSignal g).pending = s.pending := rfl
@[simp] theorem State.wakeWaiters_pending (s : State) (n : Nat) : (s.wakeWaiters n).pending = s.pending := rfl
@[simp] theorem State.dropWaiter_pending (s : State) (t : Nat) : (s.dropWaiter t).pending = s.pending := by simp [State.dropWaiter]
@[simp] theorem State.dropContribution_pending (s : State) (t : Nat) : (s.dropContribution t).pending = s.pending := rfl
@[simp] theorem State.tallyMark_pending (s : State) (h p : Nat) (f : Hearth → Hearth) : (s.tallyMark h p f).pending = s.pending := by
  simp [State.tallyMark]

@[simp] theorem State.signalTally_pending (s : State) (d n v : Nat) : (s.signalTally d n v).1.pending = s.pending := by
  fun_cases State.signalTally s d n v <;> simp +zetaDelta

@[simp] theorem State.resetTally_pending (s : State) (d n : Nat) (v : Word) : (s.resetTally d n v).1.pending = s.pending := by
  fun_cases State.resetTally s d n v <;> rfl

@[simp] theorem State.postRecord_pending (s : State) (r : TileDone) : (s.postRecord r).pending = s.pending := rfl
@[simp] theorem endCommand_pending (s : State) (t : Nat) (c : RunCmd) (st num opf res : Nat) :
    (endCommand s t c st num opf res).pending = s.pending := by simp [endCommand]

@[simp] theorem endRunning_pending (s : State) (t : Nat) (c : RunCmd) (st num opf res : Nat) :
    (endRunning s t c st num opf res).pending = s.pending := by simp [endRunning]

@[simp] theorem finishCommand_pending (s : State) (t : Nat) (c : RunCmd) (r : Done) : (finishCommand s t c r).pending = r.s.pending := by
  simp [finishCommand]

@[simp] theorem State.slabUsed_pending (s : State) (t : Nat) (d : BitVec 512) : (s.slabUsed t d).pending = s.pending := rfl

theorem unitOf_pending (s : State) (t : Nat) (c : RunCmd) : ∀ r ∈ unitOf s t c, r.pending = s.pending := by
  unfold unitOf
  split
  · simp
  · rw [Option.forall_mem_map]
    intro r hr
    simpa using commandUnit_pending _ _ _ _ _ r hr
  · simp

@[simp] theorem endAbandoned_pending (s : State) (t : Nat) (c : RunCmd) : (endAbandoned s t c).pending = s.pending := by simp [endAbandoned]
@[simp] theorem whenRunning_keeps (s : State) (t op : Nat) (k : RunCmd → State) (hk : ∀ c, SameQueue s (k c)) :
    KeepsQueue s (whenRunning s t op k) := by
  fun_cases whenRunning s t op k <;> simp_all

@[simp] theorem perform_keeps (s : State) (t op : Nat) (k : BitVec 512 → Nat → Work → State → Done)
    (hk : ∀ d p w, SameQueue s (k d p w s).s) : KeepsQueue s (perform s t op k) :=
  whenRunning_keeps _ _ _ _ (fun c => ⟨(finishCommand_pending ..).trans (hk c.desc _ c.work).pending⟩)

@[simp] theorem State.useArray_pending (s : State) (t q : Nat) (d : BitVec 512) (w : Option Work) : (s.useArray t q d w).pending = s.pending := by
  simp [State.useArray]

@[simp] theorem boundary_pending (s : State) (t : Nat) : (boundary s t).pending = s.pending := by
  fun_cases boundary s t <;> simp +zetaDelta

@[simp] theorem yieldPoint_pending (s : State) (t : Nat) : (yieldPoint s t).pending = s.pending := by
  simp only [yieldPoint]
  split
  · rfl
  · split
    · rfl
    · split
      · rfl
      next r hr =>
      have hr := unitOf_pending _ _ _ r hr
      split
      · simp
      · split
        · simp [hr]
        · split
          · split <;> simp [hr]
          · simp [hr]

@[simp] theorem spillDone_pending (s : State) (t : Nat) : (spillDone s t).pending = s.pending := by
  fun_cases spillDone s t <;> simp +zetaDelta

@[simp] theorem restoreDone_pending (s : State) (t : Nat) : (restoreDone s t).pending = s.pending := by
  fun_cases restoreDone s t <;> simp

@[simp] theorem flushQueue_pending (s : State) (t q : Nat) : (flushQueue s t q).pending = s.pending := by simp [flushQueue]
@[simp] theorem ctrlWrite_pending (s : State) (t : Nat) (v : Word) : (ctrlWrite s t v).pending = s.pending := by simp [ctrlWrite]
@[simp] theorem markAction_pending (s : State) (t q v : Nat) : (markAction s t q v).pending = s.pending := rfl
@[simp] theorem tailWrite_pending (s : State) (t q : Nat) (v : Word) : (tailWrite s t q v).pending = s.pending := rfl
@[simp] theorem abandonWrite_pending (s : State) (t : Nat) (tag : Word) : (abandonWrite s t tag).pending = s.pending := by simp [abandonWrite]
@[simp] theorem State.logAct_pending (s : State) (k : ActKind) (applied : Bool) : (s.logAct k applied).pending = s.pending := rfl

@[simp] theorem applyTails_pending (s : State) (t : Nat) : (applyTails s t).pending = s.pending := by
  refine foldl_pending (fun s a => ⟨?_⟩) _ _
  split <;> simp

@[simp] theorem State.dropFeeds_pending (s : State) (t : Nat) (gone : BitVec 512 → Bool) : (s.dropFeeds t gone).pending = s.pending := rfl
@[simp] theorem State.dropTails_pending (s : State) (t : Nat) : (s.dropTails t).pending = s.pending := rfl
@[simp] theorem sendAbandon_pending (s : State) (t tag : Nat) : (sendAbandon s t tag).pending = s.pending := by simp [sendAbandon]
@[simp] theorem retryAbandons_pending (s : State) : (retryAbandons s).pending = s.pending := by simp [retryAbandons]
@[simp] theorem freeAbandoned_pending (s : State) (t f tag : Nat) : (freeAbandoned s t f tag).pending = s.pending := by
  fun_cases freeAbandoned s t f tag <;> simp

@[simp] theorem abandonActed_pending (s : State) (t tag : Nat) : (abandonActed s t tag).pending = s.pending := by simp [abandonActed]
@[simp] theorem handover_pending (s : State) (t : Nat) : (handover s t).pending = s.pending := by
  fun_cases handover s t <;> rfl

@[simp] theorem startAsync_pending (s : State) (t : Nat) (c : RunCmd) : (startAsync s t c).pending = s.pending := by
  fun_cases startAsync s t c <;> rfl

@[simp] theorem transferRecord_pending (s : State) (d : TileDone) (cpl evt : Bool) : (transferRecord s d cpl evt).pending = s.pending := by
  simp [transferRecord]

@[simp] theorem transferDone_pending (s : State) (t e : Nat) : (transferDone s t e).pending = s.pending := by
  simp only [transferDone]
  split <;> simp

@[simp] theorem afterSignal_pending (s : State) (a : After) (ok : Bool) : (afterSignal s a ok).pending = s.pending := by
  unfold afterSignal
  split
  · rfl
  · simp [apply_ite]
  · split <;> simp

theorem State.popSignal_pending (s : State) (reset : Bool) : ∀ r ∈ s.popSignal reset, r.2.pending = s.pending := by
  unfold State.popSignal
  split <;> simp

@[simp] theorem breakTally_pending (s : State) (n : Nat) (e : EccEvent) : (breakTally s n e).pending = s.pending := by
  simp only [breakTally]
  split
  · rfl
  · simp
  · refine (foldl_pending (fun s t => ⟨?_⟩) _ _).trans (by simp)
    split <;> simp

/-! ## Sys2Proof/Machine/Memory.lean -/

@[simp] theorem execReadMiss_keeps (h addr : Nat) (e : EccEvent) (s : State) : KeepsQueue s (execReadMiss h addr e s) := by simp [execReadMiss]
@[simp] theorem execOwnershipRequest_keeps (h : Nat) (x : OwnerAsk) (s : State) : KeepsQueue s (execOwnershipRequest h x s) := by
  simp [execOwnershipRequest]

@[simp] theorem execWriteBack_keeps (h addr : Nat) (s : State) : KeepsQueue s (execWriteBack h addr s) := by
  fun_cases execWriteBack h addr s <;> simp

@[simp] theorem execEvictionNotice_keeps (h addr : Nat) (s : State) : KeepsQueue s (execEvictionNotice h addr s) := by
  fun_cases execEvictionNotice h addr s <;> simp

@[simp] theorem execHomeSideAccess_keeps (addr : Nat) (write : Bool) (s : State) : KeepsQueue s (execHomeSideAccess addr write s) := by
  simp [execHomeSideAccess]

@[simp] theorem execPatrolRead_keeps (v : Nat) (e : EccEvent) (s : State) : KeepsQueue s (execPatrolRead v e s) := by
  simp only [execPatrolRead]
  split
  · simp
  · rw [keepsQueue_next, State.setVault_pending, State.eccEvent_pending]

@[simp] theorem execAccountingWindowEnd_keeps (chan : Nat) (served : List Nat) (queued : BitVec 8) (s : State) :
    KeepsQueue s (execAccountingWindowEnd chan served queued s) := by
  simp only [execAccountingWindowEnd]
  split
  · simp
  · rw [keepsQueue_next]
    refine (foldl_pending (fun s p => ⟨?_⟩) _ _).trans (by simp)
    split <;> simp

@[simp] theorem State.zeroRange_pending (s : State) (base n : Nat) : (s.zeroRange base n).pending = s.pending := by simp [State.zeroRange]
@[simp] theorem State.post_pending (s : State) (m : Master) (block addr : Nat) (v : DWord) (busy : State → State)
    (hbusy : ∀ t, SameQueue t (busy t)) :
    (s.post m block addr v busy).pending = s.pending := by
  fun_cases State.post s m block addr v busy <;> simp_all

@[simp] theorem execHrtRcFlush_keeps (m : Master) (h : Nat) (v : Word) (s : State) : KeepsQueue s (execHrtRcFlush m h v s) := by simp [execHrtRcFlush]

@[simp] theorem applyFlush_pending (s : State) (h : Nat) (v : DWord) : (applyFlush s h v).pending = s.pending := by
  simp only [applyFlush, State.setHearth_pending]
  refine foldl_pending (fun s e => ⟨?_⟩) _ _
  split
  · split
    · split
      · simp
      · split
        · split <;> simp
        · rfl
    · rfl
  · rfl

@[simp] theorem execHrtTallyValWrite_keeps (m : Master) (n : Nat) (v : Word) (s : State) : KeepsQueue s (execHrtTallyValWrite m n v s) := by
  simp [execHrtTallyValWrite]

@[simp] theorem State.tallyStatClear_pending (s : State) (h : Nat) (v : Word) : (s.tallyStatClear h v).pending = s.pending := rfl
@[simp] theorem execHrtTallyStatClear_keeps (m : Master) (h : Nat) (v : Word) (s : State) : KeepsQueue s (execHrtTallyStatClear m h v s) := by
  simp [execHrtTallyStatClear]

/-! ## Sys2Proof/Machine/Pool.lean -/

@[simp] theorem State.returnBlocks_pending (s : State) (p : Nat) (bs : List Block) : (s.returnBlocks p bs).pending = s.pending := by
  simp [State.returnBlocks]

@[simp] theorem State.writeRegion_pending (s : State) (r : Request) : (s.writeRegion r).pending = s.pending := by
  simp only [State.writeRegion]
  exact (foldl_pending (fun _ _ => ⟨State.put_pending ..⟩) _ _).trans
    ((foldl_pending (fun _ _ => ⟨State.put_pending ..⟩) _ _).trans (State.put_pending ..))

@[simp] theorem State.writeSeqLen_pending (s : State) (r : Request) (n : Nat) : (s.writeSeqLen r n).pending = s.pending := by simp [State.writeSeqLen]
@[simp] theorem State.writeEntries_pending (s : State) (r : Request) (draft : Bool) (n : Nat) : (s.writeEntries r draft n).pending = s.pending := by
  simp [State.writeEntries]

theorem State.reserve_pending (s : State) (i : Nat) (draft : Bool) (last : Nat) : ∀ t ∈ s.reserve i draft last, t.pending = s.pending := by
  simp only [State.reserve]
  split
  · simp
  · simp
  · simp only [Option.mem_some_iff, forall_eq', State.writeEntries_pending]
    exact (foldl_pending (fun _ _ => by simp) _ _).trans (by simp)

@[simp] theorem State.rollBack_pending (s : State) (i n : Nat) : (s.rollBack i n).pending = s.pending := by simp [State.rollBack]

/-! ## Sys2Proof/Machine/Serve.lean -/

@[simp] theorem State.noteStalled_pending (s : State) (p : Nat) : (s.noteStalled p).pending = s.pending := by simp [State.noteStalled]
@[simp] theorem State.unpin_pending (s : State) (r : Request) : (s.unpin r).pending = s.pending := by
  fun_cases State.unpin s r <;> rfl

@[simp] theorem State.reapSession_pending (s : State) (p k : Nat) : (s.reapSession p k).pending = s.pending := by simp [State.reapSession]
@[simp] theorem State.pushRing_pending (s : State) (r : RingRec) : (s.pushRing r).pending = s.pending := rfl
@[simp] theorem State.retire_pending (s : State) (i : Nat) : (s.retire i).pending = s.pending := by
  fun_cases State.retire s i <;> simp +zetaDelta

@[simp] theorem State.drain_pending (s : State) (i reason : Nat) : (s.drain i reason).pending = s.pending := by simp [State.drain]
@[simp] theorem State.stall_pending (s : State) (i cause : Nat) : (s.stall i cause).pending = s.pending := by simp [State.stall]

theorem State.reserveFor_pending (s : State) (i : Nat) (draft : Bool) (last : Nat) :
    ∀ t ∈ s.reserveFor i draft last, t.pending = s.pending := by
  unfold State.reserveFor
  split
  · simp
  · split
    · simp
    · exact State.reserve_pending s i draft last

@[simp] theorem State.resumeStalled_pending (s : State) (p : Nat) : (s.resumeStalled p).pending = s.pending := by
  refine foldl_pending (fun s i => ⟨?_⟩) _ _
  dsimp only
  split
  · simp
  next t ht =>
    have ht := State.reserveFor_pending _ _ _ _ t ht
    split <;> simp [ht]

@[simp] theorem State.enter_pending (s : State) (i : Nat) (draft : Bool) (last records : Nat) : (s.enter i draft last records).1.pending = s.pending := by
  unfold State.enter
  split
  · simp
  next t ht =>
    have ht := State.reserveFor_pending _ _ _ _ t ht
    split <;> simp [ht]

@[simp] theorem State.feed_pending (s : State) (t q : Nat) (ds : List (BitVec 512)) : (s.feed t q ds).pending = s.pending := by simp [State.feed]
@[simp] theorem State.feedAll_pending (s : State) : s.feedAll.pending = s.pending := by simp [State.feedAll]
@[simp] theorem State.noteTagged_pending (s : State) (t : Nat) (ds : List (BitVec 512)) : (s.noteTagged t ds).pending = s.pending := by
  simp [State.noteTagged]

@[simp] theorem State.dispatch_pending (s : State) (h : Nat) (role : Role) (rows : List StepRow) (again : Bool) :
    (s.dispatch h role rows again).pending = s.pending := by
  fun_cases State.dispatch s h role rows again <;> simp +zetaDelta

@[simp] theorem State.composeStep_pending (s : State) (h : Nat) : (s.composeStep h).pending = s.pending := by
  simp only [State.composeStep]
  split
  · rfl
  · split
    · rfl
    · simp only [ite_pending, State.dispatch_pending, ite_self]
      refine foldl_fst_pending (fun r e => ⟨?_⟩) _ _
      split <;> simp

@[simp] theorem State.composeOther_pending (s : State) (h : Nat) : (s.composeOther h).pending = s.pending := by
  refine foldl_pending (fun s r => ⟨?_⟩) _ _
  split
  · rfl
  · split <;> simp

@[simp] theorem State.composeChunk_pending (s : State) (h : Nat) (limit : Option Nat) : (s.composeChunk h limit).pending = s.pending := by
  simp only [State.composeChunk]
  split
  · rfl
  · split
    · rfl
    · simp only [ite_pending, State.dispatch_pending, ite_self]
      refine foldl_fst_pending (fun r e => ⟨?_⟩) _ _
      split <;> simp

@[simp] theorem State.atBoundary_pending (s : State) (i : Nat) : (s.atBoundary i).pending = s.pending := by simp [State.atBoundary]
@[simp] theorem State.reapDrained_pending (s : State) (p : Nat) : (s.reapDrained p).pending = s.pending := by simp [State.reapDrained]
@[simp] theorem State.writeDraftLen_pending (s : State) (r : Request) (n : Nat) : (s.writeDraftLen r n).pending = s.pending := by
  simp [State.writeDraftLen]

@[simp] theorem State.finishRun_pending (s : State) (h : Nat) (role : Role) (x : StepRun) : (s.finishRun h role x).pending = s.pending := by
  fun_cases State.finishRun s h role x <;> simp +zetaDelta

@[simp] theorem State.settle_pending (s : State) (h : Nat) : (s.settle h).pending = s.pending := by
  unfold State.settle
  split
  · rfl
  · extract_lets s₁
    have h₁ : s₁.pending = s.pending := by
      refine foldl_pending (fun s r => ⟨?_⟩) _ _
      split
      · split <;> simp
      · rfl
    split <;> simp [h₁]

@[simp] theorem State.loadPrograms_pending (s : State) (pl : Plan) (t : Nat) : (s.loadPrograms pl t).pending = s.pending := rfl
@[simp] theorem State.initTallies_pending (s : State) (pl : Plan) (base : Nat) : (s.initTallies pl base).pending = s.pending := by
  simp [State.initTallies]

@[simp] theorem State.layWare_pending (s : State) (h : Nat) (groups : List (List Nat)) : (s.layWare h groups).pending = s.pending := by
  fun_cases State.layWare s h groups <;> simp +zetaDelta

@[simp] theorem State.failWare_pending (s : State) (h : Nat) : (s.failWare h).pending = s.pending := by
  fun_cases State.failWare s h <;> simp

@[simp] theorem State.readyWare_pending (s : State) (h : Nat) : (s.readyWare h).1.pending = s.pending := by
  fun_cases State.readyWare s h <;> simp

@[simp] theorem State.rerunWare_pending (s : State) (h : Nat) : (s.rerunWare h).pending = s.pending := by
  unfold State.rerunWare
  split
  · rfl
  · split
    · rfl
    · extract_lets rows clear y s₁ go
      have hclear (s : State) : (clear s).pending = s.pending := by
        simp only [clear]
        split <;> simp
      have hgo (s : State) (role : Role) (l : List StepRow) : (go s role l).pending = s.pending := by simp [go]
      have hy : y.1.pending = s.pending := State.readyWare_pending s h
      split
      · split <;> simp [hclear, hy]
      · simp [hgo, s₁, hclear, hy]

@[simp] theorem State.ringWrite_pending (s : State) (i : Nat) (bytes : List Byte) (k : BitVec 128) : (s.ringWrite i bytes k).pending = s.pending := by
  simp [State.ringWrite]

@[simp] theorem State.pushStaged_pending (s : State) (p : Nat) (x : Staged) : (s.pushStaged p x).pending = s.pending := rfl
@[simp] theorem State.eraseKey_pending (s : State) (i : Nat) : (s.eraseKey i).pending = s.pending := by simp [State.eraseKey]
@[simp] theorem State.ringTake_pending (s : State) (g : RingRec) : (s.ringTake g).pending = s.pending := by simp [State.ringTake]

/-! ## Sys2Proof/Machine/Teller.lean -/

theorem State.admitAlloc_pending (s : State) (p i : Nat) (r : Request) (prompt : List Byte) :
    ∀ t ∈ s.admitAlloc p i r prompt, t.pending = s.pending := by
  fun_cases State.admitAlloc s p i r prompt <;> simp +zetaDelta

@[simp] theorem State.beginRequest_pending (s : State) (p i : Nat) (r : Request) : (s.beginRequest p i r).pending = s.pending := by
  unfold State.beginRequest
  extract_lets ring s₁ s₂
  have h₂ : s₂.pending = s.pending := by
    simp only [s₂]
    split <;> simp [s₁]
  split
  · exact h₂
  · split <;> simp [h₂]

@[simp] theorem execAdmit_keeps (q : Nat) (ok : Bool) (s : State) : KeepsQueue s (execAdmit q ok s) := by
  rw [execAdmit, keepsQueue_next]
  split
  · rfl
  · refine onForwarded_pending _ _ _ _ (fun f s => ⟨?_⟩)
    extract_lets p c code u src r chunk bare a got
    have ha : ∀ t ∈ a, t.pending = s.pending := State.admitAlloc_pending _ _ _ _ _
    have hgot : ∀ t ∈ got, t.pending = s.pending := fun t ht => by
      obtain ⟨t', ht', ht⟩ := Option.mem_bind_iff.1 ht
      exact (State.reserveFor_pending _ _ _ _ t ht).trans (ha t' ht')
    clear_value a got
    split
    · rfl
    · split
      · simp +zetaDelta
      · split
        · simp [hgot _ rfl]
        · simp [ha _ rfl]
        · rfl

@[simp] theorem entryCommand_pending (q op : Nat) (s : State) (k : Forwarded → Nat → Nat → State → State)
    (hk : ∀ a b c t, SameQueue t (k a b c t)) :
    (entryCommand q op s k).pending = s.pending := by
  simp [entryCommand, (hk _ _ _ _).pending]

@[simp] theorem execCancel_keeps (q : Nat) (s : State) : KeepsQueue s (execCancel q s) := by simp [execCancel]
@[simp] theorem State.startCancelNow_pending (s : State) (i reason : Nat) (src : Option (Nat × Nat × Nat)) :
    (s.startCancelNow i reason src).pending = s.pending := by
  fun_cases State.startCancelNow s i reason src <;> simp +zetaDelta

@[simp] theorem execCancelNow_keeps (q : Nat) (s : State) : KeepsQueue s (execCancelNow q s) := by simp [execCancelNow]
@[simp] theorem State.samplePrefill_pending (s : State) (i : Nat) : (s.samplePrefill i).pending = s.pending := by simp [State.samplePrefill]
@[simp] theorem State.noteDone_pending (s : State) (d : TileDone) : (s.noteDone d).pending = s.pending := by simp [State.noteDone]
@[simp] theorem State.takeOk_pending (s : State) (i : Nat) : (s.takeOk i).pending = s.pending := by simp [State.takeOk]
@[simp] theorem execCancelNowComplete_keeps (i : Nat) (s : State) : KeepsQueue s (execCancelNowComplete i s) := by
  fun_cases execCancelNowComplete i s <;> simp +zetaDelta

@[simp] theorem execReqSuspend_keeps (q : Nat) (s : State) : KeepsQueue s (execReqSuspend q s) := by simp [execReqSuspend]
@[simp] theorem execReqResume_keeps (q : Nat) (s : State) : KeepsQueue s (execReqResume q s) := by simp [execReqResume]
@[simp] theorem execRingSet_keeps (q : Nat) (s : State) : KeepsQueue s (execRingSet q s) := by simp [execRingSet]
@[simp] theorem execPoolAdd_keeps (q : Nat) (s : State) : KeepsQueue s (execPoolAdd q s) := by simp [execPoolAdd]
@[simp] theorem State.endShrink_pending (s : State) (p : Nat) (r : Nat × Nat × Nat) : (s.endShrink p r).pending = s.pending := by
  simp [State.endShrink]

@[simp] theorem execPoolShrink_keeps (q : Nat) (s : State) : KeepsQueue s (execPoolShrink q s) := by simp [execPoolShrink]
@[simp] theorem execPoolShrinkDone_keeps (handle : Nat) (s : State) : KeepsQueue s (execPoolShrinkDone handle s) := by
  fun_cases execPoolShrinkDone handle s <;> simp

@[simp] theorem State.unloadVersion_pending (s : State) (w a v : Nat) : (s.unloadVersion w a v).pending = s.pending := by
  fun_cases State.unloadVersion s w a v <;> simp +zetaDelta

@[simp] theorem execAdapterPublish_keeps (q : Nat) (s : State) : KeepsQueue s (execAdapterPublish q s) := by
  rw [execAdapterPublish, keepsQueue_next]
  refine onForwarded_pending _ _ _ _ (fun f s => ⟨?_⟩)
  extract_lets
  split
  · rfl
  · split
    · rfl
    · extract_lets
      split
      · exact State.endHandle_pending ..
      · split
        · exact State.unloadVersion_pending ..
        · rfl

@[simp] theorem execAdapterUnpin_keeps (ware adapter version : Nat) (s : State) : KeepsQueue s (execAdapterUnpin ware adapter version s) := by
  fun_cases execAdapterUnpin ware adapter version s <;> simp

@[simp] theorem State.planError_pending (s : State) (h : Nat) (role : Role) (x : StepRun) (d : TileDone) :
    (s.planError h role x d).pending = s.pending := by
  fun_cases State.planError s h role x d <;> simp +zetaDelta

@[simp] theorem execCompletionRecord_keeps (s : State) : KeepsQueue s (execCompletionRecord s) := by
  unfold execCompletionRecord
  split
  · simp
  · split
    · simp
    · extract_lets teller s₁ s₂
      have h₁ : s₁.pending = s.pending := State.noteDone_pending ..
      have h₂ : s₂.pending = s.pending := by
        simp only [s₂]
        split
        · exact h₁
        · split
          · split <;> simp [h₁]
          · simp [h₁]
      simp [h₂]

@[simp] theorem execStepBoundary_keeps (ware : Nat) (s : State) : KeepsQueue s (execStepBoundary ware s) := by
  simp only [execStepBoundary]
  split
  · simp
  · split
    · simp
    · simp [apply_ite Prod.fst]

@[simp] theorem execChunkDispatch_keeps (ware : Nat) (s : State) : KeepsQueue s (execChunkDispatch ware s) := by
  fun_cases execChunkDispatch ware s <;> simp +zetaDelta

@[simp] theorem execPagesFreed_keeps (p : Nat) (s : State) : KeepsQueue s (execPagesFreed p s) := by simp [execPagesFreed]
@[simp] theorem execZeroWriterDone_keeps (s : State) : KeepsQueue s (execZeroWriterDone s) := by
  fun_cases execZeroWriterDone s <;> simp +zetaDelta

@[simp] theorem execDeadline_keeps (i : Nat) (s : State) : KeepsQueue s (execDeadline i s) := by
  fun_cases execDeadline i s <;> simp +zetaDelta

@[simp] theorem execRingRecord_keeps (s : State) : KeepsQueue s (execRingRecord s) := by
  fun_cases execRingRecord s <;> simp +zetaDelta

@[simp] theorem execKeyCacheFill_keeps (i : Nat) (s : State) : KeepsQueue s (execKeyCacheFill i s) := by simp [execKeyCacheFill]
@[simp] theorem State.badDoorbell_pending (s : State) (f p ofs : Nat) : (s.badDoorbell f p ofs).pending = s.pending := by simp [State.badDoorbell]
@[simp] theorem execRingReadIndex_keeps (f i : Nat) (v : Word) (s : State) : KeepsQueue s (execRingReadIndex f i v s) := by simp [execRingReadIndex]

/-! ## Sys2Proof/Machine/WheelOps.lean -/

@[simp] theorem State.setCtxEvt_pending (s : State) (c : Nat) (b : BitVec 5) : (s.setCtxEvt c b).pending = s.pending := by simp [State.setCtxEvt]
@[simp] theorem State.wheelErr_pending (s : State) (w c kind : Nat) : (s.wheelErr w c kind).pending = s.pending := rfl
@[simp] theorem State.ctxRefused_pending (s : State) (w c a : Nat) : (s.ctxRefused w c a).pending = s.pending := by simp [State.ctxRefused]
@[simp] theorem State.ctxStore_pending (s : State) (g : Agent) (w c a : Nat) (bs : List Byte) : (s.ctxStore g w c a bs).1.pending = s.pending := by
  fun_cases State.ctxStore s g w c a bs <;> simp +zetaDelta

@[simp] theorem State.loseGap_pending (s : State) (c : Nat) : (s.loseGap c).pending = s.pending := by
  fun_cases State.loseGap s c <;> simp

@[simp] theorem State.putRing_pending (s : State) (g : Agent) (w c base log2 ofs : Nat) (bs : List Byte) :
    (s.putRing g w c base log2 ofs bs).1.pending = s.pending := by
  fun_cases State.putRing s g w c base log2 ofs bs <;> simp +zetaDelta

@[simp] theorem State.nalWrite_pending (s : State) (c : Nat) (nal : List Byte) (ts : Word) (arrival : Nat) :
    (s.nalWrite c nal ts arrival).pending = s.pending := by simp [State.nalWrite]

theorem foldl_nalWrite_pending (s : State) (c : Nat) (l : List (List Byte)) (ts : Word) (arrival : Nat) :
    (l.foldl (fun s n => s.nalWrite c n ts arrival) s).pending = s.pending := by
  induction l generalizing s with
  | nil => rfl
  | cons n l ih => rw [List.foldl_cons, ih, State.nalWrite_pending]

@[simp] theorem State.releasePacket_pending (s : State) (c : Nat) (ts : Word) (payload : List Byte) (arrival : Nat) :
    (s.releasePacket c ts payload arrival).pending = s.pending := by
  unfold State.releasePacket
  extract_lets x whole
  have hwhole (s : State) (l : List (List Byte)) : (whole s l).pending = s.pending :=
    (foldl_nalWrite_pending ..).trans (State.setCtx_pending ..)
  split
  · exact State.setCtx_pending ..
  · exact hwhole s _
  · split
    · split
      · exact (hwhole _ _).trans (State.setCtx_pending ..)
      · exact State.setCtx_pending ..
    · split
      · split
        · exact (State.nalWrite_pending ..).trans (State.setCtx_pending ..)
        · exact State.setCtx_pending ..
      · split <;> exact State.setCtx_pending ..

@[simp] theorem State.releaseHead_pending (s : State) (c arrival : Nat) : (s.releaseHead c arrival).pending = s.pending := by
  fun_cases State.releaseHead s c arrival <;> simp

@[simp] theorem State.makeRoom_pending (s : State) (c n now k : Nat) : (s.makeRoom c n now k).pending = s.pending := by
  induction k generalizing s with
  | zero => rfl
  | succ k ih =>
    simp only [State.makeRoom]
    split <;> simp [ih]

@[simp] theorem State.substitute_pending (s : State) (w c : Nat) (o : Int) : (s.substitute w c o).pending = s.pending := by simp [State.substitute]
@[simp] theorem State.startPicture_pending (s : State) (w c : Nat) (p : PicStart) (unit : Nat) (ts : Word) (arrival : Nat) :
    (s.startPicture w c p unit ts arrival).pending = s.pending := by
  fun_cases State.startPicture s w c p unit ts arrival <;> simp +zetaDelta

@[simp] theorem State.paintUnits_pending (s : State) (w c u : Nat) (test : Nat → Bool) (new : Nat → Nat → List Byte) :
    (s.paintUnits w c u test new).pending = s.pending := by simp [State.paintUnits]

@[simp] theorem State.storeUnits_pending (s : State) (w c : Nat) (r : UnitRow) : (s.storeUnits w c r).pending = s.pending := by
  simp [State.storeUnits]

@[simp] theorem State.conceal_pending (s : State) (w c : Nat) : (s.conceal w c).pending = s.pending := by
  simp only [State.conceal, State.setCtx_pending]
  refine foldl_pending (fun s u => ⟨?_⟩) _ _
  split
  · rfl
  · rw [State.paintUnits_pending]
    split <;> simp

@[simp] theorem State.takeRow_pending (s : State) (w c : Nat) (r : RowReads) : (s.takeRow w c r).pending = s.pending := by
  unfold State.takeRow
  extract_lets x t n spans out poison bytes y noSet errs src y' s₁ s₂ s₃ s₄ first s₅ z lost clash s₆ s₇
  have h₄ : s₄.pending = s.pending := by
    have h₃ : s₃.pending = s.pending := by simp [s₃, s₂, s₁]
    cases hout : out <;> simp [s₄, hout, h₃]
  have h₅ : s₅.pending = s.pending := by
    simp only [s₅]
    split <;> simp [h₄]
  have h₇ : s₇.pending = s.pending := by
    have h₆ : s₆.pending = s.pending := h₅
    cases hlost : lost <;> simp [s₇, hlost, h₆]
  split
  · exact h₅
  · split
    · exact h₇
    · split
      · rw [State.setWheel_pending, State.storeUnits_pending, h₇]
      · exact h₇

@[simp] theorem State.writePicture_pending (s : State) (w c due : Nat) : (s.writePicture w c due).pending = s.pending := by simp [State.writePicture]
@[simp] theorem State.endPicture_pending (s : State) (w c : Nat) : (s.endPicture w c).pending = s.pending := by simp [State.endPicture]

theorem State.output_pending (s : State) (w c : Nat) (ended : Bool) : ∀ t ∈ s.output w c ended, t.pending = s.pending := by
  unfold State.output
  split
  · simp
  · extract_lets s₁ x b due work asks bad busy s₂ s₃ s₄ s₅
    have h₃ : s₃.pending = s.pending := by
      have h₂ : s₂.pending = s.pending := by simp [s₂, s₁]
      cases hbad : bad <;> simp [s₃, hbad, h₂]
    have h₅ : s₅.pending = s.pending := by simp [s₅, s₄, h₃]
    split <;> simp [h₅]

@[simp] theorem State.decodeRow_pending (s : State) (w c : Nat) (r : RowReads) : (s.decodeRow w c r).pending = s.pending := by
  unfold State.decodeRow
  extract_lets wait x s₁ first
  have hwait (s : State) : (wait s).pending = s.pending := State.setCtx_pending ..
  have h₁ : s₁.pending = s.pending := State.setCtx_pending ..
  have hfirst : ∀ t ∈ first, t.pending = s.pending := by
    simp only [first]
    split
    · exact fun t ht => (State.output_pending _ _ _ _ t ht).trans h₁
    · simp [h₁]
  clear_value first s₁
  split
  · exact (hwait _).trans h₁
  next t =>
    have ht := hfirst t rfl
    split
    · exact ht
    · split
      · exact (hwait _).trans ht
      next u hu => exact (State.output_pending _ _ _ _ u hu).trans ((State.takeRow_pending ..).trans ht)

@[simp] theorem State.turnWheel_pending (s : State) (w : Nat) : (s.turnWheel w).pending = s.pending := by
  fun_cases State.turnWheel s w <;> rfl

@[simp] theorem State.encodeRow_pending (s : State) (w c : Nat) : (s.encodeRow w c).pending = s.pending := by simp [State.encodeRow]
@[simp] theorem State.rowBoundary_pending (s : State) (w : Nat) (r : RowReads) : (s.rowBoundary w r).pending = s.pending := by
  simp [State.rowBoundary]

/-! ## Sys2Proof/Machine/Wheels.lean -/

@[simp] theorem ctxCommand_pending (q op b : Nat) (early : Forwarded → Nat) (s : State) (k : Forwarded → Nat → Nat → State → State)
    (hk : ∀ a b c t, SameQueue t (k a b c t)) :
    (ctxCommand q op b early s k).pending = s.pending := by
  simp [ctxCommand, (hk _ _ _ _).pending]

@[simp] theorem execStreamOpen_keeps (q : Nat) (s : State) : KeepsQueue s (execStreamOpen q s) := by simp [execStreamOpen]
@[simp] theorem execStreamClose_keeps (q : Nat) (s : State) : KeepsQueue s (execStreamClose q s) := by simp [execStreamClose]
@[simp] theorem execStreamClosed_keeps (c : Nat) (s : State) : KeepsQueue s (execStreamClosed c s) := by simp [execStreamClosed]
@[simp] theorem execStreamFeed_keeps (q : Nat) (s : State) : KeepsQueue s (execStreamFeed q s) := by simp [execStreamFeed]
@[simp] theorem execStreamKey_keeps (q : Nat) (s : State) : KeepsQueue s (execStreamKey q s) := by simp [execStreamKey]
@[simp] theorem execStreamClass_keeps (q : Nat) (s : State) : KeepsQueue s (execStreamClass q s) := by simp [execStreamClass]
@[simp] theorem State.jitStore_pending (s : State) (c n : Nat) (h : Parsed) (now : Nat) : (s.jitStore c n h now).pending = s.pending := by
  fun_cases State.jitStore s c n h now <;> simp +zetaDelta

@[simp] theorem execFrameReceive_keeps (f : EthFrame) (s : State) : KeepsQueue s (execFrameReceive f s) := by
  unfold execFrameReceive
  split
  · simp
  · extract_lets bad e e' src s₁ s₂ src' s₃ h
    have h₂ : s₂.pending = s.pending := by simp [s₂, s₁]
    have h₃ : s₃.pending = s.pending := by
      simp only [s₃]
      split
      · split <;> exact h₂
      · exact h₂
    clear_value s₃
    split
    · simp [h₂]
    · split
      · simp [h₃]
      · extract_lets x drop n next
        split
        · simp [drop, h₃]
        · split <;> simp [drop, h₃]

@[simp] theorem execJitterGapLost_keeps (c : Nat) (s : State) : KeepsQueue s (execJitterGapLost c s) := by simp [execJitterGapLost]
@[simp] theorem execNalRelease_keeps (c arrival : Nat) (s : State) : KeepsQueue s (execNalRelease c arrival s) := by simp [execNalRelease]
@[simp] theorem execWheelRowBoundary_keeps (w : Nat) (r : RowReads) (s : State) : KeepsQueue s (execWheelRowBoundary w r s) := by
  simp [execWheelRowBoundary]

@[simp] theorem execBufferTallyPoll_keeps (c : Nat) (s : State) : KeepsQueue s (execBufferTallyPoll c s) := by simp [execBufferTallyPoll]

@[simp] theorem execEncodeNalPost_keeps (c : Nat) (s : State) : KeepsQueue s (execEncodeNalPost c s) := by
  simp only [execEncodeNalPost]
  split
  · simp
  · simp [apply_ite Prod.fst]

/-! ## Sys2Proof/Machine/Structure.lean -/

@[simp] theorem State.beginDrain_pending (s : State) (a : Amend) : (s.beginDrain a).pending = s.pending := rfl
@[simp] theorem State.mouldErr_pending (s : State) (h code : Nat) : (s.mouldErr h code).pending = s.pending := by simp [State.mouldErr]
@[simp] theorem State.restartAmend_pending (s : State) : s.restartAmend.pending = s.pending := by
  fun_cases State.restartAmend s <;> simp

/-! ## Sys2Proof/Machine/Events.lean -/

@[simp] theorem State.gate_pending (s : State) (m : Master) (addr : Nat) (write : Bool) (k : State → State) (hk : ∀ t, SameQueue t (k t)) :
    (s.gate m addr write k).pending = s.pending := by
  unfold State.gate
  extract_lets go
  have hgo (s : State) : (go s).pending = s.pending := by simp [go, (hk _).pending]
  split <;> simp [hgo]

@[simp] theorem State.setVec_pending (s : State) (k : Nat) (v : Vec) : (s.setVec k v).pending = s.pending := rfl
@[simp] theorem State.setRoute_pending (s : State) (x : Nat) (v : Route) : (s.setRoute x v).pending = s.pending := rfl
@[simp] theorem State.sendMessage_pending (s : State) (k : Nat) : (s.sendMessage k).pending = s.pending := by simp [State.sendMessage]
@[simp] theorem State.compare_pending (s : State) (k : Nat) : (s.compare k).pending = s.pending := by simp [State.compare]
@[simp] theorem State.flushPba_pending (s : State) (f : Nat) : (s.flushPba f).pending = s.pending := by simp [State.flushPba]
@[simp] theorem State.wake_pending (s : State) : s.wake.pending = s.pending := by simp [State.wake]
@[simp] theorem execEventOccurrence_keeps (s : State) : KeepsQueue s (execEventOccurrence s) := by
  fun_cases execEventOccurrence s <;> simp +zetaDelta

@[simp] theorem execCoalesceTimer_keeps (f e : Nat) (s : State) : KeepsQueue s (execCoalesceTimer f e s) := by simp [execCoalesceTimer]
@[simp] theorem execCollectorSleep_keeps (s : State) : KeepsQueue s (execCollectorSleep s) := by simp [execCollectorSleep]
@[simp] theorem execCollectorWake_keeps (s : State) : KeepsQueue s (execCollectorWake s) := by simp [execCollectorWake]

@[simp] theorem evcWrite_pending (s : State) (m : Master) (ofs : Nat) (k : Nat → State → State) (hk : ∀ a t, SameQueue t (k a t)) :
    (evcWrite s m ofs k).pending = s.pending := by
  unfold evcWrite
  split
  · rfl
  · refine State.gate_pending _ _ _ _ _ (fun s => ⟨?_⟩)
    split <;> simp [(hk _ _).pending]

@[simp] theorem State.serveTally_pending (s : State) (p : Nat) : (s.serveTally p).pending = s.pending := by simp [State.serveTally]
@[simp] theorem State.serve_pending (s : State) (x : Nat) : (s.serve x).pending = s.pending := by simp [State.serve]

@[simp] theorem execEvcPend_keeps (m : Master) (w : Nat) (v : Word) (s : State) : KeepsQueue s (execEvcPend m w v s) := by
  unfold execEvcPend
  extract_lets go
  have hgo (s : State) (mine : Nat → Bool) : (go s mine).pending = s.pending := by simp [go]
  split
  · simp
  · split
    · simp
    · rw [keepsQueue_next]
      refine State.gate_pending _ _ _ _ _ (fun s => ⟨?_⟩)
      split <;> simp [hgo]

@[simp] theorem execEvcAck_keeps (m : Master) (v : Word) (s : State) : KeepsQueue s (execEvcAck m v s) := by simp [execEvcAck]
@[simp] theorem execEvcRoute_keeps (m : Master) (src : Nat) (v : Word) (s : State) : KeepsQueue s (execEvcRoute m src v s) := by simp [execEvcRoute]
@[simp] theorem execEvcCoal_keeps (m : Master) (e : Nat) (v : Word) (s : State) : KeepsQueue s (execEvcCoal m e v s) := by simp [execEvcCoal]
@[simp] theorem execMsixUnmask_keeps (f e : Nat) (s : State) : KeepsQueue s (execMsixUnmask f e s) := by simp [execMsixUnmask]

/-! ## Sys2Proof/Machine/HostOps.lean -/

@[simp] theorem State.setQueue_pending (s : State) (cq : Bool) (q : Nat) (x : HostQueue) : (s.setQueue cq q x).pending = s.pending := by
  simp [State.setQueue]

@[simp] theorem State.writeCompletion_pending (s : State) (k : Completion) : (s.writeCompletion k).1.pending = s.pending := by
  unfold State.writeCompletion
  extract_lets x slot r wrap s₁ s₂
  have hr : r.1.pending = s.pending := State.guardStore_pending ..
  have h₂ : s₂.pending = s.pending := by
    have h₁ : s₁.pending = s.pending := (State.setCq_pending ..).trans hr
    simp only [s₂]
    split
    · exact h₁
    · split <;> simp [h₁]
  split <;> simp [hr, h₂]

@[simp] theorem State.releaseStaged_pending (s : State) (p : Nat) : (s.releaseStaged p).pending = s.pending := by
  refine foldl_pending (fun s x => ⟨?_⟩) _ _
  split
  · split
    · dsimp only
      split <;> simp
    · simp
  · split <;> simp

@[simp] theorem State.startQueue_pending (s : State) (cq : Bool) (q : Nat) (x : HostQueue) (rearm : Bool) :
    (s.startQueue cq q x rearm).pending = s.pending := by simp [State.startQueue]

@[simp] theorem State.shutDone_pending (s : State) (cq : Bool) (q : Nat) : (s.shutDone cq q).pending = s.pending := by simp [State.shutDone]
@[simp] theorem State.cfgWrite_pending (s : State) (cq : Bool) (q v : Nat) : (s.cfgWrite cq q v).pending = s.pending := by simp [State.cfgWrite]
@[simp] theorem State.forgetFinals_pending (s : State) (c : Nat) : (s.forgetFinals c).pending = s.pending := rfl
@[simp] theorem State.baseWrite_pending (s : State) (cq : Bool) (q : Nat) (v : DWord) : (s.baseWrite cq q v).pending = s.pending := by
  simp [State.baseWrite]

@[simp] theorem State.dropApply_pending (s : State) : s.dropApply.pending = s.pending := rfl
@[simp] theorem State.beginWrite_pending (s : State) : s.beginWrite.pending = s.pending := by
  fun_cases State.beginWrite s <;> rfl

@[simp] theorem State.installMoved_pending (s : State) : s.installMoved.pending = s.pending := by
  fun_cases State.installMoved s <;> simp +zetaDelta

@[simp] theorem State.unpublish_pending (s : State) (w a h : Nat) : (s.unpublish w a h).pending = s.pending := by
  fun_cases State.unpublish s w a h <;> rfl

@[simp] theorem State.cancelOp_pending (s : State) (h : Nat) : (s.cancelOp h).2.pending = s.pending := by
  fun_cases State.cancelOp s h <;> simp +zetaDelta

@[simp] theorem State.pauseOp_pending (s : State) (h : Nat) (on : Bool) : (s.pauseOp h on).2.pending = s.pending := by
  unfold State.pauseOp
  split
  · rfl
  · split
    · rfl
    · extract_lets s₁ s₂
      have h₁ : s₁.pending = s.pending := by
        simp only [s₁]
        split <;> simp
      have h₂ : s₂.pending = s.pending := (State.setOp_pending ..).trans h₁
      split
      · exact h₁
      · dsimp only
        split
        · split
          · exact h₂
          · split <;> simp [h₂]
        · exact h₂

@[simp] theorem State.opProgress_pending (s : State) (o : OpRec) : (s.opProgress o).2.pending = s.pending := by
  fun_cases State.opProgress s o <;> rfl

@[simp] theorem opCommand_pending (q op : Nat) (s : State) (k : Nat → State → Nat × Nat × Nat × State)
    (hk : ∀ h s, SameQueue s (k h s).2.2.2) : (opCommand q op s k).pending = s.pending := by
  refine onForwarded_pending _ _ _ _ (fun f s => ⟨?_⟩)
  dsimp only
  split
  · simp
  · split
    · simp
    · exact (State.answer_pending ..).trans (hk _ s).pending

@[simp] theorem State.cancelOps_pending (s : State) (f : Nat) (amends : Bool) : (s.cancelOps f amends).pending = s.pending := by
  refine foldl_pending (fun s e => ⟨?_⟩) _ _
  extract_lets mine
  split
  · rfl
  · split
    · rfl
    · split
      · rfl
      · extract_lets s₁ r
        have hr : r.2.pending = s.pending := by simp [r, s₁, apply_ite Prod.snd]
        split <;> simp [hr]

@[simp] theorem State.killRequests_pending (s : State) (p reason : Nat) (which : Nat → Bool) : (s.killRequests p reason which).pending = s.pending := by
  simp [State.killRequests]

@[simp] theorem State.forgetCancels_pending (s : State) (p : Nat) : (s.forgetCancels p).pending = s.pending := by simp [State.forgetCancels]
@[simp] theorem State.closeContexts_pending (s : State) (which : Nat → Bool) (evt : BitVec 5) : (s.closeContexts which evt).pending = s.pending := by
  simp [State.closeContexts]

@[simp] theorem State.closeSession_pending (s : State) (p k : Nat) : (s.closeSession p k).pending = s.pending := by
  fun_cases State.closeSession s p k <;> simp +zetaDelta

@[simp] theorem State.closeSessions_pending (s : State) (p : Nat) : (s.closeSessions p).pending = s.pending := by simp [State.closeSessions]
@[simp] theorem State.trainPcie_pending (s : State) : s.trainPcie.pending = s.pending := rfl
@[simp] theorem State.resetQueues_pending (s : State) (p : Nat) (whole : Bool) : (s.resetQueues p whole).pending = s.pending := rfl
@[simp] theorem State.resetViews_pending (s : State) (f : Nat) : (s.resetViews f).pending = s.pending := rfl
@[simp] theorem State.flrOne_pending (s : State) (reason : Nat → Nat) (whole : Bool) (f : Nat) : (s.flrOne reason whole f).pending = s.pending := by
  simp [State.flrOne]

@[simp] theorem State.flr_pending (s : State) (f : Nat) : (s.flr f).pending = s.pending := by simp [State.flr]
@[simp] theorem State.dropHostRecords_pending (s : State) : s.dropHostRecords.pending = s.pending := rfl
@[simp] theorem State.endHostRings_pending (s : State) : s.endHostRings.pending = s.pending := by simp [State.endHostRings]
@[simp] theorem State.pcieReset_pending (s : State) : s.pcieReset.pending = s.pending := by simp [State.pcieReset]
@[simp] theorem State.funcReturns_pending (s : State) (f : Nat) : (s.funcReturns f).pending = s.pending := by simp [State.funcReturns]
@[simp] theorem State.plansLaid_pending (s : State) : s.plansLaid.pending = s.pending := by simp [State.plansLaid]
@[simp] theorem State.placeWare_pending (s : State) (p : Nat) (f : WareForm) (w : WareReads) (x : List (List Nat) × Nat × List (Nat × Nat)) :
    (s.placeWare p f w x).2.pending = s.pending := by simp [State.placeWare]

@[simp] theorem State.dropWare_pending (s : State) (h : Nat) : (s.dropWare h).pending = s.pending := by
  fun_cases State.dropWare s h <;> simp +zetaDelta

/-! ## Sys2Proof/Machine/Host.lean -/

@[simp] theorem queueAccess_keeps (s : State) (f : Nat) (cq : Bool) (q r : Nat) (k : Nat → State → State)
    (hk : ∀ a t, SameQueue t (k a t)) :
    KeepsQueue s (queueAccess s f cq q r k) := by
  fun_cases queueAccess s f cq q r k <;> simp_all

@[simp] theorem execSqTailDoorbell_keeps (f q : Nat) (v : Word) (s : State) : KeepsQueue s (execSqTailDoorbell f q v s) := by
  simp [execSqTailDoorbell]

@[simp] theorem execCqHeadDoorbell_keeps (f q : Nat) (v : Word) (s : State) : KeepsQueue s (execCqHeadDoorbell f q v s) := by
  simp [execCqHeadDoorbell]

@[simp] theorem execQueueCfgWrite_keeps (f : Nat) (cq : Bool) (q : Nat) (v : Word) (s : State) : KeepsQueue s (execQueueCfgWrite f cq q v s) := by
  simp [execQueueCfgWrite]

@[simp] theorem execQueueBaseWrite_keeps (f : Nat) (cq : Bool) (q : Nat) (v : DWord) (s : State) : KeepsQueue s (execQueueBaseWrite f cq q v s) := by
  simp [execQueueBaseWrite]

@[simp] theorem execSqFetch_keeps (q : Nat) (r : FetchReply) (s : State) : KeepsQueue s (execSqFetch q r s) := by simp [execSqFetch]
@[simp] theorem execCompletionPost_keeps (s : State) : KeepsQueue s (execCompletionPost s) := by
  fun_cases execCompletionPost s <;> simp +zetaDelta

@[simp] theorem State.refuseRange_pending (s : State) (f : Forwarded) (code p a : Nat) (outside : Bool) :
    (s.refuseRange f code p a outside).pending = s.pending := by simp [State.refuseRange]

@[simp] theorem execWareLoad_keeps (q : Nat) (s : State) : KeepsQueue s (execWareLoad q s) := by simp [execWareLoad]
@[simp] theorem execWareLoadDone_keeps (handle : Nat) (w : WareReads) (s : State) : KeepsQueue s (execWareLoadDone handle w s) := by
  fun_cases execWareLoadDone handle w s <;> simp +zetaDelta

@[simp] theorem execWareUnload_keeps (q : Nat) (s : State) : KeepsQueue s (execWareUnload q s) := by simp [execWareUnload]

@[simp] theorem unitCommand_pending (q op : Nat) (kind : OpKind) (s : State) (k : Nat → Nat → Nat → Nat → State → State)
    (hk : ∀ a b c d t, SameQueue t (k a b c d t)) :
    (unitCommand q op kind s k).pending = s.pending := by
  simp [unitCommand, (hk _ _ _ _ _).pending]

@[simp] theorem execScrub_keeps (q : Nat) (s : State) : KeepsQueue s (execScrub q s) := by simp [execScrub]
@[simp] theorem execMemTest_keeps (q : Nat) (s : State) : KeepsQueue s (execMemTest q s) := by simp [execMemTest]
@[simp] theorem execLongOperationDone_keeps (handle : Nat) (failing : List Nat) (s : State) :
    KeepsQueue s (execLongOperationDone handle failing s) := by
  unfold execLongOperationDone
  split <;> simp

@[simp] theorem execOpQuery_keeps (q : Nat) (s : State) : KeepsQueue s (execOpQuery q s) := by
  rw [execOpQuery, keepsQueue_next]
  refine opCommand_pending _ _ _ _ (fun h s => ⟨?_⟩)
  split <;> simp

@[simp] theorem execOpSuspend_keeps (q : Nat) (s : State) : KeepsQueue s (execOpSuspend q s) := by simp [execOpSuspend]
@[simp] theorem execOpResume_keeps (q : Nat) (s : State) : KeepsQueue s (execOpResume q s) := by simp [execOpResume]
@[simp] theorem execOpCancel_keeps (q : Nat) (s : State) : KeepsQueue s (execOpCancel q s) := by simp [execOpCancel]
@[simp] theorem execFlr_keeps (f : Nat) (s : State) : KeepsQueue s (execFlr f s) := by simp [execFlr]
@[simp] theorem State.setLevel_pending (s : State) (n : Nat) (on : Bool) : (s.setLevel n on).pending = s.pending := rfl
@[simp] theorem execPerstN_keeps (asserted refclk : Bool) (s : State) : KeepsQueue s (execPerstN asserted refclk s) := by simp [execPerstN]
@[simp] theorem execHotReset_keeps (s : State) : KeepsQueue s (execHotReset s) := by simp [execHotReset]
@[simp] theorem execLinkDown_keeps (d : LinkDown) (s : State) : KeepsQueue s (execLinkDown d s) := by
  fun_cases execLinkDown d s <;> simp

@[simp] theorem execLinkDownTimeout_keeps (s : State) : KeepsQueue s (execLinkDownTimeout s) := by simp [execLinkDownTimeout]
@[simp] theorem execRefclkLost_keeps (s : State) : KeepsQueue s (execRefclkLost s) := by simp [execRefclkLost]
@[simp] theorem execLinkRetry_keeps (refclk : Bool) (s : State) : KeepsQueue s (execLinkRetry refclk s) := by simp [execLinkRetry]
@[simp] theorem execPcieLinkUp_keeps (s : State) : KeepsQueue s (execPcieLinkUp s) := by simp [execPcieLinkUp]
@[simp] theorem State.logMse_pending (s : State) (f : Nat) : (s.logMse f).pending = s.pending := by simp [State.logMse]
@[simp] theorem execConfigSpaceWrite_keeps (f : Nat) (w : ConfigWrite) (s : State) : KeepsQueue s (execConfigSpaceWrite f w s) := by
  fun_cases execConfigSpaceWrite f w s <;> simp +zetaDelta

@[simp] theorem execStreamPortLink_keeps (port : Nat) (up : Bool) (s : State) : KeepsQueue s (execStreamPortLink port up s) := by
  simp [execStreamPortLink]

@[simp] theorem execMgmtPortLink_keeps (port : Nat) (up : Bool) (s : State) : KeepsQueue s (execMgmtPortLink port up s) := by simp [execMgmtPortLink]
@[simp] theorem execMgmtFrameForward_keeps (port : Nat) (forUs broadcast : Bool) (frame : List Byte) (s : State) :
    KeepsQueue s (execMgmtFrameForward port forUs broadcast frame s) := by simp [execMgmtFrameForward]

@[simp] theorem State.bar4Refused_pending (s : State) (f : Nat) (b : Bar4) (write : Bool) : (s.bar4Refused f b write).pending = s.pending := by
  fun_cases State.bar4Refused s f b write <;> simp

@[simp] theorem execBar4Write_keeps (f ofs : Nat) (data : List Byte) (ep : Bool) (s : State) : KeepsQueue s (execBar4Write f ofs data ep s) := by
  unfold execBar4Write
  split
  · simp
  · split
    next l =>
      extract_lets s₁ s₂
      have h₁ : s₁.pending = s.pending := State.reply_pending ..
      have h₂ : s₂.pending = s.pending := by
        simp only [s₂]
        split <;> simp [h₁]
      split
      · simp
      · split
        · simp [h₁]
        · rw [keepsQueue_next]
          split
          · exact h₂
          · split <;> simp [h₂]
    · simp

@[simp] theorem execBar4Read_keeps (f ofs len : Nat) (s : State) : KeepsQueue s (execBar4Read f ofs len s) := by
  fun_cases execBar4Read f ofs len s <;> simp +zetaDelta

/-! ## Sys2Proof/Machine/Ledger.lean -/

@[simp] theorem State.nextSeq_pending (s : State) : s.nextSeq.2.pending = s.pending := rfl
@[simp] theorem State.pushTail_pending (s : State) (r : LedgerRec) : (s.pushTail r).pending = s.pending := rfl
@[simp] theorem State.note_pending (s : State) (typ : Nat) (detail : List Byte) : (s.note typ detail).pending = s.pending := rfl
@[simp] theorem State.noteFault_pending (s : State) (r : LedgerRec) : (s.noteFault r).2.pending = s.pending := by
  fun_cases State.noteFault s r <;> rfl

@[simp] theorem State.writeTail_pending (s : State) : s.writeTail.pending = s.pending := rfl
@[simp] theorem State.readLedger_pending (s : State) (lostA lostB : Nat) : (s.readLedger lostA lostB).pending = s.pending := rfl
@[simp] theorem execLedgerTailWrite_keeps (s : State) : KeepsQueue s (execLedgerTailWrite s) := by simp [execLedgerTailWrite]
@[simp] theorem execLedgerWindowEnd_keeps (s : State) : KeepsQueue s (execLedgerWindowEnd s) := by simp [execLedgerWindowEnd]
@[simp] theorem execLedgerReadDone_keeps (s : State) : KeepsQueue s (execLedgerReadDone s) := by
  fun_cases execLedgerReadDone s <;> simp

/-! ## Sys2Proof/Machine/Resets.lean -/

@[simp] theorem State.dropRuns_pending (s : State) (p : Nat) : (s.dropRuns p).pending = s.pending := rfl
@[simp] theorem State.partitionReset_pending (s : State) (p : Nat) : (s.partitionReset p).pending = s.pending := by
  fun_cases State.partitionReset s p <;> simp +zetaDelta

@[simp] theorem State.loseTile_pending (s : State) (t : Nat) (engines : Bool) : (s.loseTile t engines).pending = s.pending := by simp [State.loseTile]

@[simp] theorem State.breakRun_pending (s : State) (h : Nat) (lost : Nat → Bool) : (s.breakRun h lost).pending = s.pending := by
  unfold State.breakRun
  extract_lets cut
  split
  · rfl
  · extract_lets runs w'
    split
    · rfl
    · exact (foldl_pending (fun s x => ⟨foldl_pending (fun s t => ⟨foldl_pending (fun s g => ⟨sendAbandon_pending s t g⟩) _ _⟩) _ _⟩) _ _).trans
        (State.setWare_pending ..)

@[simp] theorem State.breakRuns_pending (s : State) (lost : Nat → Bool) : (s.breakRuns lost).pending = s.pending := by
  refine foldl_pending (fun s e => ⟨?_⟩) _ _
  split
  · extract_lets s₁
    split <;> simp [s₁]
  · rfl

@[simp] theorem State.failWares_pending (s : State) (which : Ware → Bool) : (s.failWares which).pending = s.pending := by simp [State.failWares]
@[simp] theorem State.noteFence_pending (s : State) (kind i : Nat) (on : Bool) : (s.noteFence kind i on).pending = s.pending := rfl
@[simp] theorem State.fenceChan_pending (s : State) (c : Nat) : (s.fenceChan c).pending = s.pending := rfl
@[simp] theorem State.stopWheel_pending (s : State) (w : Nat) : (s.stopWheel w).pending = s.pending := by simp [State.stopWheel]
@[simp] theorem State.resetWheel_pending (s : State) (w : Nat) : (s.resetWheel w).pending = s.pending := by simp [State.resetWheel]
@[simp] theorem State.fenceWheel_pending (s : State) (w : Nat) : (s.fenceWheel w).pending = s.pending := by simp [State.fenceWheel]
@[simp] theorem State.downEnd_pending (s : State) (e : Nat) (fresh : Bool) : (s.downEnd e fresh).pending = s.pending := by simp [State.downEnd]
@[simp] theorem State.downPorts_pending (s : State) (d : Nat) : (s.downPorts d).pending = s.pending := by simp [State.downPorts]
@[simp] theorem State.dropHomed_pending (s : State) (d : Nat) : (s.dropHomed d).pending = s.pending := by simp [State.dropHomed]
@[simp] theorem State.loseCopies_pending (s : State) (h : Nat) : (s.loseCopies h).pending = s.pending := by simp [State.loseCopies]
@[simp] theorem State.losePosted_pending (s : State) (block : Nat) : (s.losePosted block).pending = s.pending := by simp [State.losePosted]
@[simp] theorem State.amendDie_pending (s : State) (k : Nat) (hearth : Bool) : (s.amendDie k hearth).pending = s.pending := by
  fun_cases State.amendDie s k hearth <;> simp

@[simp] theorem State.loseKiln_pending (s : State) (k : Nat) (hearth : Bool) : (s.loseKiln k hearth).pending = s.pending := by simp [State.loseKiln]

@[simp] theorem State.loseHearth_pending (s : State) (h : Nat) : (s.loseHearth h).pending = s.pending := by
  simp only [State.loseHearth, State.failWares_pending, State.zero_pending, State.setHearth_pending, State.losePosted_pending,
    State.dropHomed_pending, State.loseKiln_pending, State.loseCopies_pending]
  refine foldl_pending (fun s t => ⟨?_⟩) _ _
  split
  · split <;> simp
  · simp

@[simp] theorem State.loseContexts_pending (s : State) : s.loseContexts.pending = s.pending := by simp [State.loseContexts]
@[simp] theorem State.loseVault_pending (s : State) (v : Nat) : (s.loseVault v).pending = s.pending := by simp [State.loseVault]
@[simp] theorem State.loseDie_pending (s : State) (d : Nat) : (s.loseDie d).pending = s.pending := by simp [State.loseDie]
@[simp] theorem State.requestReset_pending (s : State) (d : Nat) : (s.requestReset d).pending = s.pending := by simp [State.requestReset]
@[simp] theorem State.countWithin_pending (s : State) (key span : Nat) : (s.countWithin key span).2.pending = s.pending := rfl
@[simp] theorem State.fenceDie_pending (s : State) (d : Nat) : (s.fenceDie d).pending = s.pending := by simp [State.fenceDie]
@[simp] theorem State.fenceTile_pending (s : State) (t : Nat) : (s.fenceTile t).pending = s.pending := by simp [State.fenceTile]
@[simp] theorem State.checkRoutes_pending (s : State) (j : Nat) : (s.checkRoutes j).pending = s.pending := by simp [State.checkRoutes]
@[simp] theorem State.stampReset_pending (s : State) (d : Nat) : (s.stampReset d).pending = s.pending := rfl
@[simp] theorem State.startReset_pending (s : State) (d : Nat) (st : DieState) : (s.startReset d st).pending = s.pending := by simp [State.startReset]
@[simp] theorem State.stopDies_pending (s : State) : s.stopDies.pending = s.pending := rfl

/-! ## Sys2Proof/Machine/Links.lean -/

@[simp] theorem State.bothEnds_pending (s : State) (j : Nat) (f : PortEnd → PortEnd) : (s.bothEnds j f).pending = s.pending := rfl
@[simp] theorem State.closePort_pending (s : State) (j : Nat) (shut : Bool) : (s.closePort j shut).pending = s.pending := rfl
@[simp] theorem State.fencePort_pending (s : State) (j : Nat) (shut : Bool) : (s.fencePort j shut).pending = s.pending := by simp [State.fencePort]
@[simp] theorem State.restartPort_pending (s : State) (j : Nat) : (s.restartPort j).pending = s.pending := rfl
@[simp] theorem State.retrainPort_pending (s : State) (j : Nat) : (s.retrainPort j).pending = s.pending := by simp [State.retrainPort]
@[simp] theorem State.writeRetrain_pending (s : State) (e : Nat) : (s.writeRetrain e).pending = s.pending := by simp [State.writeRetrain]
@[simp] theorem State.writeEn_pending (s : State) (e : Nat) (on : Bool) : (s.writeEn e on).pending = s.pending := by simp [State.writeEn]
@[simp] theorem State.endShutdowns_pending (s : State) : s.endShutdowns.pending = s.pending := by simp [State.endShutdowns]
@[simp] theorem State.failLane_pending (s : State) (e lane : Nat) : (s.failLane e lane).pending = s.pending := by
  fun_cases State.failLane s e lane <;> simp +zetaDelta

@[simp] theorem State.handToRepair_pending (s : State) (e g : Nat) : (s.handToRepair e g).pending = s.pending := by
  fun_cases State.handToRepair s e g <;> simp

@[simp] theorem execFlitReceive_keeps (e g : Nat) (f : Flit) (s : State) : KeepsQueue s (execFlitReceive e g f s) := by simp [execFlitReceive]
@[simp] theorem execNakReplay_keeps (e g seq : Nat) (s : State) : KeepsQueue s (execNakReplay e g seq s) := by simp [execNakReplay]
@[simp] theorem execLaneFail_keeps (e lane : Nat) (s : State) : KeepsQueue s (execLaneFail e lane s) := by simp [execLaneFail]
@[simp] theorem execRepairDone_keeps (e : Nat) (s : State) : KeepsQueue s (execRepairDone e s) := by simp [execRepairDone]
@[simp] theorem execNarrowingDone_keeps (e : Nat) (s : State) : KeepsQueue s (execNarrowingDone e s) := by simp [execNarrowingDone]
@[simp] theorem State.endTraining_pending (s : State) (j : Nat) (a b : LaneTest) : (s.endTraining j a b).pending = s.pending := by
  simp [State.endTraining]

@[simp] theorem execPortTrained_keeps (port : Nat) (a b : LaneTest) (s : State) : KeepsQueue s (execPortTrained port a b s) := by
  simp [execPortTrained]

@[simp] theorem execRootClockLost_keeps (crystal : Bool) (s : State) : KeepsQueue s (execRootClockLost crystal s) := by simp [execRootClockLost]
@[simp] theorem execRootClockReturn_keeps (s : State) : KeepsQueue s (execRootClockReturn s) := by simp [execRootClockReturn]
@[simp] theorem execForwardedClockLoss_keeps (d : Nat) (s : State) : KeepsQueue s (execForwardedClockLoss d s) := by simp [execForwardedClockLoss]
@[simp] theorem execForwardedClockReturn_keeps (d : Nat) (s : State) : KeepsQueue s (execForwardedClockReturn d s) := by
  simp [execForwardedClockReturn]

@[simp] theorem State.resetDies_pending (s : State) (v : Nat) : (s.resetDies v).pending = s.pending := by simp [State.resetDies]
@[simp] theorem execDieReset_keeps (s : State) : KeepsQueue s (execDieReset s) := by
  fun_cases execDieReset s <;> simp +zetaDelta

@[simp] theorem State.layPlans_pending (s : State) (k : Nat) : (s.layPlans k).pending = s.pending := by simp [State.layPlans]
@[simp] theorem State.layStores_pending (s : State) (h : Nat) : (s.layStores h).pending = s.pending := by simp [State.layStores]
@[simp] theorem State.coldTiles_pending (s : State) (k : Nat) : (s.coldTiles k).pending = s.pending := by simp [State.coldTiles]
@[simp] theorem execDieReady_keeps (d : Nat) (tilesFailed : BitVec 32) (s : State) : KeepsQueue s (execDieReady d tilesFailed s) := by
  simp [execDieReady]

@[simp] theorem State.tapIr_pending (s : State) (n code : Nat) (ok : Bool) : (s.tapIr n code ok).pending = s.pending := by simp [State.tapIr]
@[simp] theorem execIdcode_keeps (tap : Nat) (s : State) : KeepsQueue s (execIdcode tap s) := by simp [execIdcode]
@[simp] theorem execSamplePreload_keeps (tap : Nat) (s : State) : KeepsQueue s (execSamplePreload tap s) := by simp [execSamplePreload]
@[simp] theorem execExtest_keeps (tap : Nat) (s : State) : KeepsQueue s (execExtest tap s) := by simp [execExtest]
@[simp] theorem execClamp_keeps (tap : Nat) (s : State) : KeepsQueue s (execClamp tap s) := by simp [execClamp]
@[simp] theorem execHighz_keeps (tap : Nat) (s : State) : KeepsQueue s (execHighz tap s) := by simp [execHighz]
@[simp] theorem execIjtag_keeps (tap : Nat) (s : State) : KeepsQueue s (execIjtag tap s) := by simp [execIjtag]
@[simp] theorem execBypass_keeps (tap code : Nat) (s : State) : KeepsQueue s (execBypass tap code s) := by simp [execBypass]
@[simp] theorem execTapReset_keeps (s : State) : KeepsQueue s (execTapReset s) := by simp [execTapReset]
@[simp] theorem execInstrumentWrite_keeps (inst : Nat) (v : DWord) (s : State) : KeepsQueue s (execInstrumentWrite inst v s) := by
  simp [execInstrumentWrite]

/-! ## Sys2Proof/Machine/Clock.lean -/

@[simp] theorem idle_pending (s : State) : (idle s).pending = s.pending := by simp [idle]

/-! ## Sys2Proof/Machine/Faults.lean -/

@[simp] theorem State.pulse_pending (s : State) : s.pulse.pending = s.pending := by simp [State.pulse]
@[simp] theorem State.applyCap_pending (s : State) (w view : Nat) : (s.applyCap w view).pending = s.pending := by simp [State.applyCap]
@[simp] theorem State.endPause_pending (s : State) : s.endPause.pending = s.pending := by
  fun_cases State.endPause s <;> simp

@[simp] theorem State.loseIslands_pending (s : State) : s.loseIslands.pending = s.pending := rfl
@[simp] theorem State.leaveActive_pending (s : State) (src : Nat) (st : IslState) : (s.leaveActive src st).pending = s.pending := by
  simp [State.leaveActive]

@[simp] theorem State.abandonReturn_pending (s : State) : s.abandonReturn.pending = s.pending := by simp [State.abandonReturn]
@[simp] theorem State.islandReset_pending (s : State) (b : Bool) (src : Nat) : (s.islandReset b src).pending = s.pending := by
  simp [State.islandReset]

@[simp] theorem State.chipReset_pending (s : State) (src : Nat) (injected : Bool) : (s.chipReset src injected).pending = s.pending := by
  simp [State.chipReset]

@[simp] theorem State.reactDie_pending (s : State) (d : Nat) : (s.reactDie d).pending = s.pending := by simp [State.reactDie]
@[simp] theorem State.blockReset_pending (s : State) (n : Nat) : (s.blockReset n).pending = s.pending := by simp [State.blockReset]
@[simp] theorem State.react_pending (s : State) (c n owner : Nat) (injected : Bool) : (s.react c n owner injected).pending = s.pending := by
  simp [State.react]

@[simp] theorem State.fenceByHistory_pending (s : State) (n : Nat) (record : Bool) : (s.fenceByHistory n record).pending = s.pending := by
  simp [State.fenceByHistory]

@[simp] theorem State.setFaultQueue_pending (s : State) (o : Nat) (l : List LedgerRec) : (s.setFaultQueue o l).pending = s.pending := by
  simp [State.setFaultQueue]

@[simp] theorem State.record_pending (s : State) (f : FaultReq) : (s.record f).pending = s.pending := by
  simp only [State.record]
  split
  · rfl
  · split <;> simp

@[simp] theorem State.detect_pending (s : State) (f : FaultReq) : (s.detect f).pending = s.pending := by
  fun_cases State.detect s f <;> simp

@[simp] theorem execFaultRecord_keeps (detected : Option FaultReq) (s : State) : KeepsQueue s (execFaultRecord detected s) := by
  fun_cases execFaultRecord detected s <;> simp

@[simp] theorem State.ackHead_pending (s : State) (o seq : Nat) : (s.ackHead o seq).pending = s.pending := by
  fun_cases State.ackHead s o seq <;> simp

@[simp] theorem State.ackFault_pending (s : State) (m : Master) (seq : Nat) : (s.ackFault m seq).pending = s.pending := by
  fun_cases State.ackFault s m seq <;> simp

@[simp] theorem execFltAck_keeps (m : Master) (v : Word) (s : State) : KeepsQueue s (execFltAck m v s) := by simp [execFltAck]
@[simp] theorem execClassCAutoAck_keeps (seq : Nat) (s : State) : KeepsQueue s (execClassCAutoAck seq s) := by simp [execClassCAutoAck]
@[simp] theorem State.clearStat_pending (s : State) (w v : Nat) : (s.clearStat w v).pending = s.pending := by simp [State.clearStat]
@[simp] theorem pfWrite_pending (s : State) (m : Master) (addr : Nat) (k : State → State) (hk : ∀ t, SameQueue t (k t)) :
    (pfWrite s m addr k).pending = s.pending := by
  fun_cases pfWrite s m addr k <;> simp_all

@[simp] theorem execFltSrcStatClear_keeps (m : Master) (w : Nat) (v : Word) (s : State) : KeepsQueue s (execFltSrcStatClear m w v s) := by
  simp [execFltSrcStatClear]

@[simp] theorem execFltNPulseEnd_keeps (s : State) : KeepsQueue s (execFltNPulseEnd s) := by simp [execFltNPulseEnd]
@[simp] theorem execHbeatToggle_keeps (s : State) : KeepsQueue s (execHbeatToggle s) := by simp [execHbeatToggle]
@[simp] theorem execHealthStrobe_keeps (s : State) : KeepsQueue s (execHealthStrobe s) := by simp [execHealthStrobe]
@[simp] theorem execStrobeTimeout_keeps (s : State) : KeepsQueue s (execStrobeTimeout s) := by simp [execStrobeTimeout]
@[simp] theorem execMcGroupResumed_keeps (g : Nat) (s : State) : KeepsQueue s (execMcGroupResumed g s) := by simp [execMcGroupResumed]
@[simp] theorem State.unfence_pending (s : State) (kind i : Nat) : (s.unfence kind i).pending = s.pending := by
  fun_cases State.unfence s kind i <;> rfl

@[simp] theorem State.fenceCmd_pending (s : State) (m : Master) (v : Nat) : (s.fenceCmd m v).pending = s.pending := by
  fun_cases State.fenceCmd s m v <;> simp +zetaDelta

@[simp] theorem State.injectCmd_pending (s : State) (m : Master) (v : Nat) : (s.injectCmd m v).pending = s.pending := by simp [State.injectCmd]

/-! ## Sys2Proof/Machine/Power.lean -/

@[simp] theorem State.startRamp_pending (s : State) : s.startRamp.pending = s.pending := rfl
@[simp] theorem State.setCap_pending (s : State) (w view : Nat) : (s.setCap w view).pending = s.pending := by simp [State.setCap]
@[simp] theorem execCapTimeout_keeps (s : State) : KeepsQueue s (execCapTimeout s) := by simp [execCapTimeout]
@[simp] theorem State.allOff_pending (s : State) : s.allOff.pending = s.pending := rfl
@[simp] theorem State.holdUp_pending (s : State) : s.holdUp.pending = s.pending := by simp [State.holdUp]
@[simp] theorem execPowerSample_keeps (r : PowerReads) (s : State) : KeepsQueue s (execPowerSample r s) := by simp [execPowerSample]
@[simp] theorem execRailOutOfRange_keeps (d : Nat) (above : Bool) (s : State) : KeepsQueue s (execRailOutOfRange d above s) := by
  simp [execRailOutOfRange]

@[simp] theorem execDvfsStep_keeps (d : DvfsMove) (s : State) : KeepsQueue s (execDvfsStep d s) := by
  fun_cases execDvfsStep d s <;> simp +zetaDelta

@[simp] theorem execPwrBrakeN_keeps (asserted : Bool) (s : State) : KeepsQueue s (execPwrBrakeN asserted s) := by simp [execPwrBrakeN]
@[simp] theorem execBrakeRampStep_keeps (s : State) : KeepsQueue s (execBrakeRampStep s) := by simp [execBrakeRampStep]
@[simp] theorem State.coolDown_pending (s : State) (cause : Nat) : (s.coolDown cause).pending = s.pending := by simp [State.coolDown]
@[simp] theorem State.coolReturn_pending (s : State) (cause : Nat) : (s.coolReturn cause).pending = s.pending := by simp [State.coolReturn]
@[simp] theorem execCoolOk_keeps (s : State) : KeepsQueue s (execCoolOk s) := by simp [execCoolOk]
@[simp] theorem execCoolOkTimeout_keeps (s : State) : KeepsQueue s (execCoolOkTimeout s) := by simp [execCoolOkTimeout]
@[simp] theorem execCoolOkReturn_keeps (s : State) : KeepsQueue s (execCoolOkReturn s) := by simp [execCoolOkReturn]
@[simp] theorem execPwrFailN_keeps (s : State) : KeepsQueue s (execPwrFailN s) := by simp [execPwrFailN]

/-! ## Sys2Proof/Machine/Islands.lean -/

@[simp] theorem execControlCycleEnd_keeps (s : State) : KeepsQueue s (execControlCycleEnd s) := by simp [execControlCycleEnd]
@[simp] theorem State.takeControl_pending (s : State) (b : Bool) : (s.takeControl b).pending = s.pending := by simp [State.takeControl]
@[simp] theorem execStateCopy_keeps (crcOk : Bool) (s : State) : KeepsQueue s (execStateCopy crcOk s) := by simp [execStateCopy]
@[simp] theorem execCopyAckMissed_keeps (s : State) : KeepsQueue s (execCopyAckMissed s) := by simp [execCopyAckMissed]
@[simp] theorem execSwitchOver_keeps (src : Nat) (s : State) : KeepsQueue s (execSwitchOver src s) := by simp [execSwitchOver]

@[simp] theorem State.replayLog_pending (s : State) : s.replayLog.pending = s.pending := by
  refine foldl_pending (fun s a => ⟨?_⟩) _ _
  split <;> simp

@[simp] theorem State.noteSwitch_pending (s : State) (from_ to_ : Bool) (src : Nat) (planned : Bool) :
    (s.noteSwitch from_ to_ src planned).pending = s.pending := rfl

@[simp] theorem execSwitchOverDone_keeps (s : State) : KeepsQueue s (execSwitchOverDone s) := by
  fun_cases execSwitchOverDone s <;> simp +zetaDelta

@[simp] theorem execIslandReset_keeps (b : Bool) (s : State) : KeepsQueue s (execIslandReset b s) := by simp [execIslandReset]
@[simp] theorem execHandBack_keeps (s : State) : KeepsQueue s (execHandBack s) := by simp [execHandBack]
@[simp] theorem execNoIslandTimeout_keeps (s : State) : KeepsQueue s (execNoIslandTimeout s) := by simp [execNoIslandTimeout]
@[simp] theorem State.asyCtrl_pending (s : State) (v : Nat) : (s.asyCtrl v).pending = s.pending := by simp [State.asyCtrl]

/-! ## Sys2Proof/Machine/Thermal.lean -/

@[simp] theorem State.samplePair_pending (s : State) (t : Nat) (a b : Int) : (s.samplePair t a b).pending = s.pending := by simp [State.samplePair]
@[simp] theorem State.sampleStore_pending (s : State) (t : Nat) (v : Option Int) : (s.sampleStore t v).pending = s.pending := by
  simp [State.sampleStore]

@[simp] theorem State.judgeTile_pending (s : State) (t : Nat) : (s.judgeTile t).pending = s.pending := by simp [State.judgeTile]
@[simp] theorem State.shutDie_pending (s : State) (d : Nat) : (s.shutDie d).pending = s.pending := by simp [State.shutDie]
@[simp] theorem State.judgeFlow_pending (s : State) : s.judgeFlow.pending = s.pending := by simp [State.judgeFlow]
@[simp] theorem execTachWindow_keeps (hz : Nat) (s : State) : KeepsQueue s (execTachWindow hz s) := by simp [execTachWindow]
@[simp] theorem execCoolingStepChange_keeps (step : Nat) (s : State) : KeepsQueue s (execCoolingStepChange step s) := by simp [execCoolingStepChange]
@[simp] theorem execFlowLostTimeout_keeps (s : State) : KeepsQueue s (execFlowLostTimeout s) := by simp [execFlowLostTimeout]

@[simp] theorem State.sampleBoard_pending (s : State) (r : TempReads) : (s.sampleBoard r).pending = s.pending := by
  unfold State.sampleBoard
  extract_lets therm power t s₁
  have h₁ : s₁.pending = s.pending := by
    simp only [s₁]
    split
    · rfl
    · simp [t]
  split
  · exact h₁
  · split <;> simp [h₁]

@[simp] theorem execTemperatureSample_keeps (r : TempReads) (s : State) : KeepsQueue s (execTemperatureSample r s) := by
  unfold execTemperatureSample
  split
  · simp
  · rw [keepsQueue_next]
    simp only [ite_pending, State.coolDown_pending, State.raise_pending, ite_self, State.judgeFlow_pending]
    rw [foldl_pending (fun s d => ⟨State.shutDie_pending s d⟩), foldl_pending (fun s t => ⟨State.judgeTile_pending s t⟩)]
    dsimp only
    refine (foldl_pending (fun s t => ⟨?_⟩) _ _).trans (by simp)
    split
    · simp
    · split
      · split <;> simp
      · rfl

@[simp] theorem execThrottleStep_keeps (t : Nat) (s : State) : KeepsQueue s (execThrottleStep t s) := by simp [execThrottleStep]
@[simp] theorem execShutdownRecovery_keeps (d : Nat) (s : State) : KeepsQueue s (execShutdownRecovery d s) := by simp [execShutdownRecovery]
@[simp] theorem State.judgeLife_pending (s : State) : s.judgeLife.pending = s.pending := by simp [State.judgeLife]

@[simp] theorem execCycleSample_keeps (s : State) : KeepsQueue s (execCycleSample s) := by
  rw [execCycleSample, keepsQueue_next, State.judgeLife_pending]
  refine foldl_pending (fun s d => ⟨?_⟩) _ _
  split
  · rfl
  · extract_lets
    split <;> rfl

@[simp] theorem execThermalCycle_keeps (s : State) : KeepsQueue s (execThermalCycle s) := by simp [execThermalCycle]

/-! ## Sys2Proof/Machine/Sideband.lean -/

@[simp] theorem State.noteSideband_pending (s : State) (n : Nat) (long : Bool) : (s.noteSideband n long).pending = s.pending := rfl
@[simp] theorem State.enterTest_pending (s : State) : s.enterTest.pending = s.pending := by simp [State.enterTest]
@[simp] theorem State.leaveTest_pending (s : State) : s.leaveTest.pending = s.pending := by simp [State.leaveTest]
@[simp] theorem execTestEn_keeps (asserted : Bool) (s : State) : KeepsQueue s (execTestEn asserted s) := by simp [execTestEn]
@[simp] theorem execSidebandLongHold_keeps (n : Nat) (s : State) : KeepsQueue s (execSidebandLongHold n s) := by simp [execSidebandLongHold]

@[simp] theorem State.act_pending (s : State) (n : Nat) : (s.act n).pending = s.pending := by
  unfold State.act
  extract_lets run
  have hrun {o : Host.Outcome State Fault Refusal} (h : KeepsQueue s o) : (run o).pending = s.pending := by
    obtain ⟨t, rfl, ht⟩ := h
    exact ht
  split
  · split
    · rfl
    · exact hrun (execPerstN_keeps true s.host.refclkPresent s)
  · exact hrun (execPwrFailN_keeps ..)
  · exact hrun (execPwrBrakeN_keeps ..)
  · exact hrun (execCoolOk_keeps ..)
  · exact State.judgeFlow_pending s
  · rfl

@[simp] theorem execChatter_keeps (n : Nat) (s : State) : KeepsQueue s (execChatter n s) := by simp [execChatter]

@[simp] theorem execChatterEnd_keeps (n : Nat) (s : State) : KeepsQueue s (execChatterEnd n s) := by
  unfold execChatterEnd
  split
  · simp
  · split
    · exact execPerstN_keeps ..
    · exact execPwrBrakeN_keeps ..
    · exact execCoolOkReturn_keeps ..
    · simp
    · exact execTestEn_keeps ..
    · simp

@[simp] theorem State.clearSbEvt_pending (s : State) (v : Nat) : (s.clearSbEvt v).pending = s.pending := rfl
@[simp] theorem execSmbusClockLowTimeout_keeps (s : State) : KeepsQueue s (execSmbusClockLowTimeout s) := by simp [execSmbusClockLowTimeout]

/-! ## Sys2Proof/Machine/Mould.lean -/

@[simp] theorem State.startAmend_pending (s : State) (h : Nat) (b : List Byte) (poison : Bool) (v : Verdict) :
    (s.startAmend h b poison v).pending = s.pending := by
  fun_cases State.startAmend s h b poison v <;> simp

@[simp] theorem imageCommand_pending (q op : Nat) (kind : OpKind) (s : State) (k : Nat → List Byte → Bool → State → State)
    (hk : ∀ h b p s, SameQueue s (k h b p s)) : (imageCommand q op kind s k).pending = s.pending := by
  refine onForwarded_pending _ _ _ _ (fun f s => ⟨?_⟩)
  dsimp only
  split
  · simp
  · rw [(hk _ _ _ _).pending]
    rfl

@[simp] theorem execAmend_keeps (q : Nat) (v : Verdict) (s : State) : KeepsQueue s (execAmend q v s) := by simp [execAmend]
@[simp] theorem State.assignWays_pending (s : State) (parts : List (Nat × PartRec)) : (s.assignWays parts).pending = s.pending := by
  simp [State.assignWays]

@[simp] theorem State.assignShares_pending (s : State) : s.assignShares.pending = s.pending := rfl
@[simp] theorem execAmendFence_keeps (s : State) : KeepsQueue s (execAmendFence s) := by
  fun_cases execAmendFence s <;> simp +zetaDelta

@[simp] theorem State.clearReleased_pending (s : State) (o n : PartRec) : (s.clearReleased o n).pending = s.pending := by simp [State.clearReleased]
@[simp] theorem execAmendScrubDone_keeps (s : State) : KeepsQueue s (execAmendScrubDone s) := by
  fun_cases execAmendScrubDone s <;> simp +zetaDelta

@[simp] theorem State.noteMould_pending (s : State) (serial kind : Nat) : (s.noteMould serial kind).pending = s.pending := rfl
@[simp] theorem State.grantTo_pending (s : State) (x : Image) (p : Nat) : (s.grantTo x p).pending = s.pending := rfl
@[simp] theorem State.endAmend_pending (s : State) (a : Amend) : (s.endAmend a).pending = s.pending := by simp [State.endAmend]
@[simp] theorem execAmendGrant_keeps (s : State) : KeepsQueue s (execAmendGrant s) := by
  fun_cases execAmendGrant s <;> simp +zetaDelta

@[simp] theorem State.startInstall_pending (s : State) (h : Nat) (b : List Byte) (poison : Bool) (v : Verdict) :
    (s.startInstall h b poison v).pending = s.pending := by
  fun_cases State.startInstall s h b poison v <;> simp

@[simp] theorem execMouldInstall_keeps (q : Nat) (v : Verdict) (s : State) : KeepsQueue s (execMouldInstall q v s) := by simp [execMouldInstall]
@[simp] theorem execMouldInstallWriteDone_keeps (readBackOk : Bool) (s : State) : KeepsQueue s (execMouldInstallWriteDone readBackOk s) := by
  fun_cases execMouldInstallWriteDone readBackOk s <;> simp +zetaDelta

/-! ## Sys2Proof/Machine/Security.lean -/

@[simp] theorem State.hallTaken_pending (s : State) : s.hallTaken.pending = s.pending := rfl
@[simp] theorem execHallmark_keeps (q : Nat) (s : State) : KeepsQueue s (execHallmark q s) := by simp [execHallmark]
@[simp] theorem State.kexFailed_pending (s : State) (f : Forwarded) (p : Nat) : (s.kexFailed f p).pending = s.pending := rfl

@[simp] theorem execSessionOpen_keeps (q : Nat) (ok : Bool) (s : State) : KeepsQueue s (execSessionOpen q ok s) := by
  rw [execSessionOpen, keepsQueue_next]
  refine onForwarded_pending _ _ _ _ (fun f s => ⟨?_⟩)
  extract_lets
  split
  · rw [State.answer_pending]
    split <;> rfl
  · split
    · exact State.kexFailed_pending ..
    · exact (State.answer_pending ..).trans ((State.put_pending ..).trans (State.setSession_pending ..))

@[simp] theorem slotCommand_pending (q op b : Nat) (s : State) (k : Forwarded → Nat → Nat → State → State)
    (hk : ∀ a b c t, SameQueue t (k a b c t)) :
    (slotCommand q op b s k).pending = s.pending := by
  simp [slotCommand, (hk _ _ _ _).pending]

@[simp] theorem execSessionConfirm_keeps (q : Nat) (_confirmOk : Bool) (s : State) : KeepsQueue s (execSessionConfirm q _confirmOk s) := by
  simp [execSessionConfirm]

@[simp] theorem execSessionClose_keeps (q : Nat) (s : State) : KeepsQueue s (execSessionClose q s) := by simp [execSessionClose]
@[simp] theorem execOpeningTimeout_keeps (p slot : Nat) (s : State) : KeepsQueue s (execOpeningTimeout p slot s) := by simp [execOpeningTimeout]
@[simp] theorem State.closeMgmt_pending (s : State) : s.closeMgmt.pending = s.pending := rfl
@[simp] theorem State.ohmCtrl_pending (s : State) (v : Nat) : (s.ohmCtrl v).pending = s.pending := by simp [State.ohmCtrl]

/-! ## Sys2Proof/Machine/Registers.lean -/

@[simp] theorem after_pending (s : State) (o : Host.Outcome State Fault Refusal) (h : KeepsQueue s o) : (after s o).pending = s.pending := by
  obtain ⟨t, rfl, ht⟩ := h
  exact ht

@[simp] theorem State.clearPevt_pending (s : State) (p v : Nat) : (s.clearPevt p v).pending = s.pending := by simp [State.clearPevt]
@[simp] theorem State.msixWrite_pending (s : State) (f e k v : Nat) : (s.msixWrite f e k v).pending = s.pending := by simp [State.msixWrite]
@[simp] theorem State.dropHeld_pending (s : State) (i : Nat) : (s.dropHeld i).pending = s.pending := by
  fun_cases State.dropHeld s i <;> simp

@[simp] theorem State.writeIdx_pending (s : State) (i v : Nat) : (s.writeIdx i v).pending = s.pending := by simp [State.writeIdx]
@[simp] theorem State.writeReq_pending (s : State) (i v : Nat) : (s.writeReq i v).pending = s.pending := by simp [State.writeReq]
@[simp] theorem State.writeDone_pending (s : State) (i v : Nat) : (s.writeDone i v).pending = s.pending := by simp [State.writeDone]
@[simp] theorem State.clearLogged_pending (s : State) (i v : Nat) : (s.clearLogged i v).pending = s.pending := by simp [State.clearLogged]
@[simp] theorem State.regEffect_pending (s : State) (m : Master) (r : Reg) (v : Nat) : (s.regEffect m r v).pending = s.pending := by
  fun_cases State.regEffect s m r v <;> simp +zetaDelta

@[simp] theorem State.disarm_pending (s : State) (m : Master) (block : Nat) : (s.disarm m block).pending = s.pending := rfl
@[simp] theorem State.failPair_pending (s : State) (m : Master) (block : Nat) : (s.failPair m block).pending = s.pending := by
  fun_cases State.failPair s m block <;> simp

@[simp] theorem State.applyWrite_pending (s : State) (m : Master) (a : Nat) (r : Reg) (v : Nat) : (s.applyWrite m a r v).pending = s.pending := by
  fun_cases State.applyWrite s m a r v <;> simp

@[simp] theorem State.pairSecond_pending (s : State) (x : RegAccess) (p : Armed) : (s.pairSecond x p).pending = s.pending := by
  fun_cases State.pairSecond s x p <;> simp +zetaDelta

@[simp] theorem State.guarded_pending (s : State) (x : RegAccess) (a g : Nat) (r : Reg) : (s.guarded x a g r).pending = s.pending := by
  simp [State.guarded]

@[simp] theorem State.logAddr_pending (s : State) (l : RegLoc) : (s.logAddr l).2.pending = s.pending := by
  unfold State.logAddr
  split <;> simp

@[simp] theorem State.plainWrite_pending (s : State) (x : RegAccess) (a : Nat) : (s.plainWrite x a).pending = s.pending := by
  fun_cases State.plainWrite s x a <;> simp

@[simp] theorem State.writeReg_pending (s : State) (x : RegAccess) : (s.writeReg x).pending = s.pending := by
  unfold State.writeReg
  extract_lets m l a
  have hl : l.2.pending = s.pending := State.logAddr_pending ..
  split
  · rfl
  · split
    · rfl
    · refine (State.gate_pending _ _ _ _ _ (fun s => ⟨?_⟩)).trans hl
      split
      · simp
      · split
        · split <;> simp
        · simp

@[simp] theorem State.readReg_pending (s : State) (m : Master) (loc : RegLoc) (wide : Bool) : (s.readReg m loc wide).pending = s.pending := by
  unfold State.readReg
  extract_lets l a
  have hl : l.2.pending = s.pending := State.logAddr_pending ..
  split
  · rfl
  · refine (State.gate_pending _ _ _ _ _ (fun s => ⟨?_⟩)).trans hl
    split
    · simp
    · split
      · simp
      · split <;> simp

@[simp] theorem onReg_keeps (x : RegAccess) (f : Reg → Bool) (s : State) : KeepsQueue s (onReg x f s) := by simp [onReg]
@[simp] theorem execUnimplementedAccess_keeps (x : RegAccess) (write : Bool) (s : State) : KeepsQueue s (execUnimplementedAccess x write s) := by
  simp [execUnimplementedAccess]

@[simp] theorem execRetrain_keeps (x : RegAccess) (s : State) : KeepsQueue s (execRetrain x s) := by simp [execRetrain]
@[simp] theorem execPortEn_keeps (x : RegAccess) (s : State) : KeepsQueue s (execPortEn x s) := by simp [execPortEn]
@[simp] theorem execMntDieReset_keeps (x : RegAccess) (s : State) : KeepsQueue s (execMntDieReset x s) := by simp [execMntDieReset]
@[simp] theorem execFence_keeps (x : RegAccess) (s : State) : KeepsQueue s (execFence x s) := by simp [execFence]
@[simp] theorem execUnfence_keeps (x : RegAccess) (s : State) : KeepsQueue s (execUnfence x s) := by simp [execUnfence]
@[simp] theorem execFltInject_keeps (x : RegAccess) (s : State) : KeepsQueue s (execFltInject x s) := by simp [execFltInject]
@[simp] theorem execStandbyReset_keeps (x : RegAccess) (s : State) : KeepsQueue s (execStandbyReset x s) := by simp [execStandbyReset]
@[simp] theorem execReturnNow_keeps (x : RegAccess) (s : State) : KeepsQueue s (execReturnNow x s) := by simp [execReturnNow]
@[simp] theorem execSwap_keeps (x : RegAccess) (s : State) : KeepsQueue s (execSwap x s) := by simp [execSwap]
@[simp] theorem execPwrCap_keeps (x : RegAccess) (s : State) : KeepsQueue s (execPwrCap x s) := by simp [execPwrCap]
@[simp] theorem execCloseSess_keeps (x : RegAccess) (s : State) : KeepsQueue s (execCloseSess x s) := by simp [execCloseSess]
@[simp] theorem execCloseMgmt_keeps (x : RegAccess) (s : State) : KeepsQueue s (execCloseMgmt x s) := by simp [execCloseMgmt]
@[simp] theorem execPairArm_keeps (x : RegAccess) (s : State) : KeepsQueue s (execPairArm x s) := by simp [execPairArm]
@[simp] theorem execPairComplete_keeps (x : RegAccess) (s : State) : KeepsQueue s (execPairComplete x s) := by
  fun_cases execPairComplete x s <;> simp

@[simp] theorem execPairTimeout_keeps (m : Master) (block : Nat) (s : State) : KeepsQueue s (execPairTimeout m block s) := by simp [execPairTimeout]
@[simp] theorem execDualWrite_keeps (x : RegAccess) (s : State) : KeepsQueue s (execDualWrite x s) := by
  fun_cases execDualWrite x s <;> simp

@[simp] theorem execPostedWriteApplied_keeps (block : Nat) (s : State) : KeepsQueue s (execPostedWriteApplied block s) := by
  fun_cases execPostedWriteApplied block s <;> simp +zetaDelta

@[simp] theorem execFltLdgSel_keeps (m : Master) (v : Word) (s : State) : KeepsQueue s (execFltLdgSel m v s) := by simp [execFltLdgSel]
@[simp] theorem accWrite_keeps (s : State) (m : Master) (ofs : Nat) (k : Nat → State → State) (hk : ∀ a t, SameQueue t (k a t)) :
    KeepsQueue s (accWrite s m ofs k) := by
  fun_cases accWrite s m ofs k <;> simp_all

@[simp] theorem execMntIdx_keeps (m : Master) (v : Word) (s : State) : KeepsQueue s (execMntIdx m v s) := by simp [execMntIdx]
@[simp] theorem State.datRead_pending (s : State) (m : Master) (o : Nat) : (s.datRead m o).pending = s.pending := by
  fun_cases State.datRead s m o <;> simp +zetaDelta

@[simp] theorem State.datWrite_pending (s : State) (m : Master) (o : Nat) (v : Word) : (s.datWrite m o v).pending = s.pending := by
  unfold State.datWrite
  extract_lets i held s₁ inst s₂ own one second
  clear_value held
  have h₁ : s₁.pending = s.pending := by
    simp only [s₁]
    split
    · split <;> simp
    · rfl
  have h₂ : s₂.pending = s.pending := (State.setInst_pending ..).trans h₁
  have hone (s : State) : (one s).pending = s.pending := State.writeReg_pending ..
  split
  · split
    · simp [h₂]
    · split
      · simp [hone, h₂]
      · split
        · simp [h₂]
        · split
          · split <;> simp [hone, h₂]
          · simp [hone, h₂]
  · simp [hone, h₂]

@[simp] theorem State.datAccess_pending (s : State) (m : Master) (write : Bool) (v : Word) : (s.datAccess m write v).pending = s.pending := by
  simp [State.datAccess]

@[simp] theorem execMntDat_keeps (m : Master) (write : Bool) (v : Word) (s : State) : KeepsQueue s (execMntDat m write v s) := by simp [execMntDat]
@[simp] theorem State.busWrite_pending (s : State) (x : RegAccess) : (s.busWrite x).pending = s.pending := by simp [State.busWrite]
@[simp] theorem State.busRead_pending (s : State) (m : Master) (loc : RegLoc) (wide : Bool) : (s.busRead m loc wide).pending = s.pending := by
  simp [State.busRead]

@[simp] theorem execRegisterWrite_keeps (x : RegAccess) (s : State) : KeepsQueue s (execRegisterWrite x s) := by simp [execRegisterWrite]
@[simp] theorem execMntMbxReq_keeps (m : Master) (v : Word) (s : State) : KeepsQueue s (execMntMbxReq m v s) := by simp [execMntMbxReq]
@[simp] theorem execMntMbxDone_keeps (m : Master) (v : Word) (s : State) : KeepsQueue s (execMntMbxDone m v s) := by simp [execMntMbxDone]
@[simp] theorem sampleSel_keeps (s : State) (m : Master) (sel : Nat) (f : Nat → Nat × List Nat) : KeepsQueue s (sampleSel s m sel f) := by
  simp [sampleSel]

@[simp] theorem execTileCountersSel_keeps (m : Master) (s : State) : KeepsQueue s (execTileCountersSel m s) := by simp [execTileCountersSel]
@[simp] theorem execVaultBwSel_keeps (m : Master) (s : State) : KeepsQueue s (execVaultBwSel m s) := by simp [execVaultBwSel]
@[simp] theorem execPendingSel_keeps (m : Master) (s : State) : KeepsQueue s (execPendingSel m s) := by simp [execPendingSel]
@[simp] theorem execExpandMacSel_keeps (m : Master) (s : State) : KeepsQueue s (execExpandMacSel m s) := by simp [execExpandMacSel]
@[simp] theorem execIdentitySel_keeps (m : Master) (s : State) : KeepsQueue s (execIdentitySel m s) := by simp [execIdentitySel]
@[simp] theorem execSessionSlotsSel_keeps (m : Master) (s : State) : KeepsQueue s (execSessionSlotsSel m s) := by simp [execSessionSlotsSel]
@[simp] theorem execMgmtSessionsSel_keeps (m : Master) (s : State) : KeepsQueue s (execMgmtSessionsSel m s) := by simp [execMgmtSessionsSel]
@[simp] theorem execMailboxValid_keeps (m : Master) (s : State) : KeepsQueue s (execMailboxValid m s) := by
  fun_cases execMailboxValid m s <;> simp +zetaDelta

@[simp] theorem State.setVoted_pending (s : State) (r : Reg) (v : Nat) : (s.setVoted r v).pending = s.pending := by
  fun_cases State.setVoted s r v <;> rfl

@[simp] theorem State.setShown_pending (s : State) (a : Nat) (r : Reg) (v : Nat) : (s.setShown a r v).pending = s.pending := rfl
@[simp] theorem execVoteCompare_keeps (field : VotedField) (a b c : DWord) (s : State) : KeepsQueue s (execVoteCompare field a b c s) := by
  fun_cases execVoteCompare field a b c s <;> simp +zetaDelta

@[simp] theorem execVoteReload_keeps (field : VotedField) (s : State) : KeepsQueue s (execVoteReload field s) := by simp [execVoteReload]

/-! ## Sys2Proof/Machine/Management.lean -/

@[simp] theorem State.sendReply_pending (s : State) (typ : Nat) (r : MgmtReply) : (s.sendReply typ r).pending = s.pending := rfl
@[simp] theorem State.send_pending (s : State) (h : MsgHdr) (typ : Nat) (body : List Byte) : (s.send h typ body).pending = s.pending := rfl
@[simp] theorem State.sendErr_pending (s : State) (h : MsgHdr) (typ code : Nat) (own : List Byte) : (s.sendErr h typ code own).pending = s.pending := rfl
@[simp] theorem State.sendRefused_pending (s : State) (h : MsgHdr) (typ code : Nat) : (s.sendRefused h typ code).pending = s.pending := rfl
@[simp] theorem State.authFailed_pending (s : State) : s.authFailed.pending = s.pending := rfl
@[simp] theorem State.replayed_pending (s : State) : s.replayed.pending = s.pending := rfl
@[simp] theorem State.closePeer_pending (s : State) (n : Nat) : (s.closePeer n).pending = s.pending := rfl
@[simp] theorem openMsg_pending (typ : Nat) (h : MsgHdr) (fmt : Bool) (s : State) (k : State → State) (hk : ∀ t, SameQueue t (k t)) :
    (openMsg typ h fmt s k).pending = s.pending := by
  fun_cases openMsg typ h fmt s k <;> simp_all

@[simp] theorem sessionMsg_pending (typ : Nat) (admin : Bool) (h : MsgHdr) (fmt : Bool) (s : State) (k : Nat → State → State)
    (hk : ∀ a t, SameQueue t (k a t)) :
    (sessionMsg typ admin h fmt s k).pending = s.pending := by
  unfold sessionMsg
  split
  · rfl
  · simp [(hk _ _).pending]

@[simp] theorem msgRow_keeps (s : State) (k : State → State) (hk : ∀ t, SameQueue t (k t)) : KeepsQueue s (msgRow s k) := by
  fun_cases msgRow s k <;> simp_all

@[simp] theorem execDiscover_keeps (h : MsgHdr) (body : List Byte) (s : State) : KeepsQueue s (execDiscover h body s) := by simp [execDiscover]
@[simp] theorem execIdentityGet_keeps (h : MsgHdr) (body : List Byte) (s : State) : KeepsQueue s (execIdentityGet h body s) := by
  simp [execIdentityGet]

@[simp] theorem execKexInit_keeps (h : MsgHdr) (body : List Byte) (ok : Bool) (s : State) : KeepsQueue s (execKexInit h body ok s) := by
  refine msgRow_keeps _ _ (fun s => ⟨openMsg_pending _ _ _ _ _ (fun s => ⟨?_⟩)⟩)
  split
  · simp
  · extract_lets
    split
    · simp
    · split
      · simp
      · split
        · simp
        · split <;> simp +zetaDelta

@[simp] theorem execKexConfirm_keeps (h : MsgHdr) (body : List Byte) (ok : Bool) (s : State) : KeepsQueue s (execKexConfirm h body ok s) := by
  refine msgRow_keeps _ _ (fun s => ⟨openMsg_pending _ _ _ _ _ (fun s => ⟨?_⟩)⟩)
  split <;> simp

@[simp] theorem execRegRead_keeps (h : MsgHdr) (body : List Byte) (s : State) : KeepsQueue s (execRegRead h body s) := by
  refine msgRow_keeps _ _ (fun s => ⟨sessionMsg_pending _ _ _ _ _ _ (fun n s => ⟨?_⟩)⟩)
  extract_lets wide s₁
  have h₁ : s₁.pending = s.pending := State.busRead_pending ..
  split <;> simp [h₁]

@[simp] theorem execRegWrite_keeps (h : MsgHdr) (body : List Byte) (s : State) : KeepsQueue s (execRegWrite h body s) := by simp [execRegWrite]

@[simp] theorem execHallmarkGet_keeps (h : MsgHdr) (body : List Byte) (s : State) : KeepsQueue s (execHallmarkGet h body s) := by
  unfold execHallmarkGet
  extract_lets nonce scope piece asks
  split
  · simp
  · refine msgRow_keeps _ _ (fun s => ⟨sessionMsg_pending _ _ _ _ _ _ (fun n s => ⟨?_⟩)⟩)
    extract_lets fresh
    split <;> simp [fresh]

@[simp] theorem execPowerCap_keeps (h : MsgHdr) (body : List Byte) (s : State) : KeepsQueue s (execPowerCap h body s) := by simp [execPowerCap]
@[simp] theorem execTestToken_keeps (h : MsgHdr) (body : List Byte) (sigOk : Bool) (s : State) : KeepsQueue s (execTestToken h body sigOk s) := by
  simp [execTestToken]

@[simp] theorem execBlockPut_keeps (h : MsgHdr) (body : List Byte) (s : State) : KeepsQueue s (execBlockPut h body s) := by simp [execBlockPut]
@[simp] theorem stagedImage_keeps (typ : Nat) (kind : OpKind) (h : MsgHdr) (body : List Byte) (s : State) (running : State → Bool) (start : Nat → List Byte → State → State)
    (hstart : ∀ a b t, SameQueue t (start a b t)) :
    KeepsQueue s (stagedImage typ kind h body s running start) := by
  simp [stagedImage, (hstart _ _ _).pending]

@[simp] theorem execAmendMsg_keeps (h : MsgHdr) (body : List Byte) (v : Verdict) (s : State) : KeepsQueue s (execAmendMsg h body v s) := by
  simp [execAmendMsg]

@[simp] theorem execMouldInstallMsg_keeps (h : MsgHdr) (body : List Byte) (v : Verdict) (s : State) :
    KeepsQueue s (execMouldInstallMsg h body v s) := by simp [execMouldInstallMsg]

@[simp] theorem execOp_keeps (h : MsgHdr) (body : List Byte) (s : State) : KeepsQueue s (execOp h body s) := by
  refine msgRow_keeps _ _ (fun s => ⟨sessionMsg_pending _ _ _ _ _ _ (fun n s => ⟨?_⟩)⟩)
  split
  · simp
  · split
    · split <;> simp
    · simp [apply_ite Prod.snd]

@[simp] theorem execFaultAck_keeps (h : MsgHdr) (body : List Byte) (s : State) : KeepsQueue s (execFaultAck h body s) := by simp [execFaultAck]
@[simp] theorem State.settings_pending (s : State) (f : Slot → Slot) : (s.settings f).pending = s.pending := by
  fun_cases State.settings s f <;> rfl

@[simp] theorem execSetAddr_keeps (h : MsgHdr) (body : List Byte) (s : State) : KeepsQueue s (execSetAddr h body s) := by simp [execSetAddr]
@[simp] theorem execRevoke_keeps (h : MsgHdr) (body : List Byte) (s : State) : KeepsQueue s (execRevoke h body s) := by simp [execRevoke]
@[simp] theorem execClose_keeps (h : MsgHdr) (body : List Byte) (s : State) : KeepsQueue s (execClose h body s) := by simp [execClose]
@[simp] theorem execMgmtSessionIdle_keeps (n : Nat) (s : State) : KeepsQueue s (execMgmtSessionIdle n s) := by simp [execMgmtSessionIdle]

/-! ## Sys2Proof/Machine/Update.lean -/

@[simp] theorem State.noteFirmware_pending (s : State) (event : Nat) (b : Bool) (version code : Nat) :
    (s.noteFirmware event b version code).pending = s.pending := rfl

@[simp] theorem State.fwErr_pending (s : State) (code : Nat) : (s.fwErr code).pending = s.pending := rfl
@[simp] theorem State.dropDelta_pending (s : State) : s.dropDelta.pending = s.pending := rfl
@[simp] theorem State.forwardDelta_pending (s : State) : s.forwardDelta.pending = s.pending := by
  fun_cases State.forwardDelta s <;> rfl

@[simp] theorem fwMsg_keeps (typ : Nat) (h : MsgHdr) (fmt open0 : Bool) (s : State) (k : Option Nat → State → State)
    (hk : ∀ a t, SameQueue t (k a t)) :
    KeepsQueue s (fwMsg typ h fmt open0 s k) := by
  fun_cases fwMsg typ h fmt open0 s k <;> simp_all

@[simp] theorem State.fwRefused_pending (s : State) (h : MsgHdr) (typ code : Nat) : (s.fwRefused h typ code).pending = s.pending := rfl
@[simp] theorem execFwBegin_keeps (h : MsgHdr) (body : List Byte) (s : State) : KeepsQueue s (execFwBegin h body s) := by simp [execFwBegin]
@[simp] theorem execFwPut_keeps (h : MsgHdr) (body : List Byte) (s : State) : KeepsQueue s (execFwPut h body s) := by simp [execFwPut]
@[simp] theorem execFwReceptionTimeout_keeps (s : State) : KeepsQueue s (execFwReceptionTimeout s) := by simp [execFwReceptionTimeout]

@[simp] theorem execFwEnd_keeps (h : MsgHdr) (body : List Byte) (digestOk sigOk : Bool) (s : State) :
    KeepsQueue s (execFwEnd h body digestOk sigOk s) := by
  refine fwMsg_keeps _ _ _ _ _ _ (fun n s => ⟨?_⟩)
  extract_lets o b
  split
  · simp
  · split
    · simp
    · split <;> simp +zetaDelta

@[simp] theorem State.applyFailed_pending (s : State) (d : Delta) (code : Nat) : (s.applyFailed d code).pending = s.pending := by
  simp [State.applyFailed]

@[simp] theorem execFwApplyDone_keeps (targetOk flashOk : Bool) (components : List (BitVec 256)) (s : State) :
    KeepsQueue s (execFwApplyDone targetOk flashOk components s) := by
  fun_cases execFwApplyDone targetOk flashOk components s <;> simp

@[simp] theorem execRecoveryImageWritten_keeps (s : State) : KeepsQueue s (execRecoveryImageWritten s) := by simp [execRecoveryImageWritten]

@[simp] theorem execFwStatus_keeps (h : MsgHdr) (body : List Byte) (s : State) : KeepsQueue s (execFwStatus h body s) := by
  refine msgRow_keeps _ _ (fun s => ⟨sessionMsg_pending _ _ _ _ _ _ (fun _ s => ⟨?_⟩)⟩)
  rw [State.send_pending]
  split <;> simp

@[simp] theorem State.startHold_pending (s : State) (b revert : Bool) : (s.startHold b revert).pending = s.pending := rfl
@[simp] theorem execActivate_keeps (h : MsgHdr) (body : List Byte) (imageOk : Bool) (s : State) : KeepsQueue s (execActivate h body imageOk s) := by
  simp [execActivate]

@[simp] theorem State.holdWares_pending (s : State) (on : Bool) : (s.holdWares on).pending = s.pending := rfl
@[simp] theorem State.endHold_pending (s : State) : s.endHold.pending = s.pending := by
  fun_cases State.endHold s <;> simp +zetaDelta

@[simp] theorem State.holdFailed_pending (s : State) : s.holdFailed.pending = s.pending := by simp [State.holdFailed]
@[simp] theorem execActivateHoldAttempt_keeps (s : State) : KeepsQueue s (execActivateHoldAttempt s) := by simp [execActivateHoldAttempt]
@[simp] theorem State.switchIslands_pending (s : State) : s.switchIslands.pending = s.pending := rfl
@[simp] theorem State.measure_pending (s : State) (x : Slot) : (s.measure x).pending = s.pending := rfl
@[simp] theorem execActivateSwitch_keeps (s : State) : KeepsQueue s (execActivateSwitch s) := by simp [execActivateSwitch]
@[simp] theorem execConfirm_keeps (h : MsgHdr) (body : List Byte) (s : State) : KeepsQueue s (execConfirm h body s) := by simp [execConfirm]
@[simp] theorem execRevert_keeps (h : MsgHdr) (body : List Byte) (s : State) : KeepsQueue s (execRevert h body s) := by simp [execRevert]
@[simp] theorem execConfirmWindowExpiry_keeps (s : State) : KeepsQueue s (execConfirmWindowExpiry s) := by simp [execConfirmWindowExpiry]

/-! ## Sys2Proof/Machine/Firing.lean -/

@[simp] theorem State.bare_pending (s : State) (cause : FiringCause) : (s.bare cause).pending = s.pending := rfl
@[simp] theorem State.bootIslands_pending (s : State) (a b : Bool) : (s.bootIslands a b).pending = s.pending := by
  fun_cases State.bootIslands s a b <;> rfl

@[simp] theorem State.bootOhmis_pending (s : State) (r : FiringReads) : (s.bootOhmis r).pending = s.pending := by simp [State.bootOhmis]
@[simp] theorem State.fireSlot_pending (s : State) (b failed : Bool) : (s.fireSlot b failed).pending = s.pending := by simp [State.fireSlot]
@[simp] theorem State.fireMould_pending (s : State) (b : Bool) (m : FiredMould) (fallback : Bool) : (s.fireMould b m fallback).pending = s.pending := rfl
@[simp] theorem State.fireFences_pending (s : State) (bad : BitVec 48) : (s.fireFences bad).pending = s.pending := by simp [State.fireFences]
@[simp] theorem State.fireLinks_pending (s : State) (r : FiringReads) : (s.fireLinks r).pending = s.pending := by simp [State.fireLinks]
@[simp] theorem State.fireMemory_pending (s : State) : s.fireMemory.pending = s.pending := by simp [State.fireMemory]
@[simp] theorem State.firePower_pending (s : State) : s.firePower.pending = s.pending := by simp [State.firePower]
@[simp] theorem execFiring_keeps (r : FiringReads) (s : State) : KeepsQueue s (execFiring r s) := by
  fun_cases execFiring r s <;> simp +zetaDelta

/-! ## Sys2Proof/Machine/TileCmds.lean -/

@[simp] theorem execSlabLoad_keeps (t : Nat) (s : State) : KeepsQueue s (execSlabLoad t s) := by simp [execSlabLoad]
@[simp] theorem execSlabMatmul_keeps (t : Nat) (s : State) : KeepsQueue s (execSlabMatmul t s) := by simp [execSlabMatmul]
@[simp] theorem execSlabConv_keeps (t : Nat) (s : State) : KeepsQueue s (execSlabConv t s) := by simp [execSlabConv]
@[simp] theorem execAttend_keeps (t : Nat) (s : State) : KeepsQueue s (execAttend t s) := by simp [execAttend]
@[simp] theorem execVecRun_keeps (t : Nat) (s : State) : KeepsQueue s (execVecRun t s) := by simp [execVecRun]
@[simp] theorem execMove_keeps (t : Nat) (s : State) : KeepsQueue s (execMove t s) := by simp [execMove]
@[simp] theorem execGatherPages_keeps (t : Nat) (s : State) : KeepsQueue s (execGatherPages t s) := by simp [execGatherPages]
@[simp] theorem execReduce_keeps (t : Nat) (s : State) : KeepsQueue s (execReduce t s) := by
  fun_cases execReduce t s <;> simp +zetaDelta

@[simp] theorem execReduceResult_keeps (t : Nat) (s : State) : KeepsQueue s (execReduceResult t s) := by
  fun_cases execReduceResult t s <;> simp +zetaDelta [apply_ite Done.s]

@[simp] theorem execTallyWait_keeps (t : Nat) (s : State) : KeepsQueue s (execTallyWait t s) := by
  fun_cases execTallyWait t s <;> simp

@[simp] theorem execWaitRegistration_keeps (t : Nat) (s : State) : KeepsQueue s (execWaitRegistration t s) := by
  fun_cases execWaitRegistration t s <;> simp +zetaDelta

@[simp] theorem execTallyWake_keeps (t : Nat) (s : State) : KeepsQueue s (execTallyWake t s) := by
  fun_cases execTallyWake t s <;> simp

@[simp] theorem execWaitTimeout_keeps (t : Nat) (s : State) : KeepsQueue s (execWaitTimeout t s) := by
  fun_cases execWaitTimeout t s <;> simp

@[simp] theorem execTallySignal_keeps (t : Nat) (s : State) : KeepsQueue s (execTallySignal t s) := by
  fun_cases execTallySignal t s <;> simp

@[simp] theorem execYield_keeps (t : Nat) (s : State) : KeepsQueue s (execYield t s) := by
  fun_cases execYield t s <;> simp +zetaDelta

@[simp] theorem execCedeExpiry_keeps (t q : Nat) (s : State) : KeepsQueue s (execCedeExpiry t q s) := by simp [execCedeExpiry]
@[simp] theorem execSample_keeps (t : Nat) (s : State) : KeepsQueue s (execSample t s) := by simp [execSample]
@[simp] theorem execCropResize_keeps (t : Nat) (s : State) : KeepsQueue s (execCropResize t s) := by simp [execCropResize]
@[simp] theorem execBoxDecode_keeps (t : Nat) (s : State) : KeepsQueue s (execBoxDecode t s) := by simp [execBoxDecode]
@[simp] theorem execNms_keeps (t : Nat) (s : State) : KeepsQueue s (execNms t s) := by simp [execNms]
@[simp] theorem execEndStream_keeps (t : Nat) (s : State) : KeepsQueue s (execEndStream t s) := by
  fun_cases execEndStream t s <;> simp

@[simp] theorem tileWrite_keeps (s : State) (m : Master) (t ofs : Nat) (k : State → State) (hk : ∀ t, SameQueue t (k t)) :
    KeepsQueue s (tileWrite s m t ofs k) := by
  fun_cases tileWrite s m t ofs k <;> simp_all

@[simp] theorem execKlnTqTail_keeps (m : Master) (t q : Nat) (v : Word) (s : State) : KeepsQueue s (execKlnTqTail m t q v s) := by
  simp [execKlnTqTail]

@[simp] theorem execQueueEn_keeps (m : Master) (t : Nat) (v : Word) (s : State) : KeepsQueue s (execQueueEn m t v s) := by simp [execQueueEn]
@[simp] theorem execFlush_keeps (m : Master) (t : Nat) (v : Word) (s : State) : KeepsQueue s (execFlush m t v s) := by simp [execFlush]
@[simp] theorem execResume_keeps (m : Master) (t : Nat) (v : Word) (s : State) : KeepsQueue s (execResume m t v s) := by simp [execResume]
@[simp] theorem execKlnAbandon_keeps (m : Master) (t : Nat) (tag : Word) (s : State) : KeepsQueue s (execKlnAbandon m t tag s) := by
  simp [execKlnAbandon]

@[simp] theorem execAbandonActed_keeps (t tag : Nat) (s : State) : KeepsQueue s (execAbandonActed t tag s) := by simp [execAbandonActed]
@[simp] theorem execYieldPoint_keeps (t : Nat) (s : State) : KeepsQueue s (execYieldPoint t s) := by simp [execYieldPoint]
@[simp] theorem execSpillDone_keeps (t : Nat) (s : State) : KeepsQueue s (execSpillDone t s) := by simp [execSpillDone]
@[simp] theorem execRestoreDone_keeps (t : Nat) (s : State) : KeepsQueue s (execRestoreDone t s) := by simp [execRestoreDone]
@[simp] theorem execCommandBoundary_keeps (t : Nat) (s : State) : KeepsQueue s (execCommandBoundary t s) := by simp [execCommandBoundary]
@[simp] theorem execDmaHandover_keeps (t : Nat) (s : State) : KeepsQueue s (execDmaHandover t s) := by simp [execDmaHandover]
@[simp] theorem execDmaTransferDone_keeps (t e : Nat) (s : State) : KeepsQueue s (execDmaTransferDone t e s) := by simp [execDmaTransferDone]

@[simp] theorem execSignalAtHome_keeps (s : State) : KeepsQueue s (execSignalAtHome s) := by
  unfold execSignalAtHome
  split
  next g t ht =>
    have ht := State.popSignal_pending s false (g, t) ht
    simp_all
  · simp

@[simp] theorem execResetAtHome_keeps (s : State) : KeepsQueue s (execResetAtHome s) := by
  unfold execResetAtHome
  split
  next g t ht =>
    have ht := State.popSignal_pending s true (g, t) ht
    simp_all
  · simp

@[simp] theorem execTallyBroken_keeps (r : TallyRead) (s : State) : KeepsQueue s (execTallyBroken r s) := by simp [execTallyBroken]

/-! ## Sys2Proof/Machine/Dispatch.lean -/

@[simp] theorem exec_keeps (i : Instr) (s : State) : KeepsQueue s (exec i s) := by
  simp only [exec]
  split <;> simp

/-! ## The step -/

theorem step_of_pending_nil {s : State} (h : s.pending = []) : step s = .next (idle s) := by
  simp only [step, h]

theorem step_of_pending_cons {s : State} {c : Instr} {rest : List Instr} (h : s.pending = c :: rest) :
    step s = exec c { s with pending := rest } := by
  simp only [step, h]

/-- Settles O2: `step` hands `exec` the rest of the queue, and no command touches the queue it finds (`exec_keeps`). -/
theorem stepTakesOneCommand : Obligations.StepTakesOneCommand := by
  intro s
  cases h : s.pending with
  | nil => exact ⟨idle s, step_of_pending_nil h, by simp [h]⟩
  | cons c rest =>
    rw [step_of_pending_cons h]
    exact exec_keeps c { s with pending := rest }

end Sys2Proof.Machine
end

section
/-! PROOF.  O6: the loop over the ports (R357) where no enable is latched, and the two clocks of an idle step. -/
namespace Sys2Proof.Machine
open Sys2Proof

/-- `t` is `s` but for ends of ports whose shut-down is over (R357). -/
structure EndsShutdowns (s t : State) : Prop where
  frame : t = { s with links := { s.links with ends := t.links.ends } }
  portEnd : ∀ e, t.portEnd e = { s.portEnd e with shutting := (t.portEnd e).shutting }
  stays : ∀ e, (s.portEnd e).shutting = false → (t.portEnd e).shutting = false

namespace EndsShutdowns

theorem refl (s : State) : EndsShutdowns s s := ⟨rfl, fun _ => rfl, fun _ h => h⟩

theorem trans {s t u : State} (h : EndsShutdowns s t) (k : EndsShutdowns t u) : EndsShutdowns s u where
  frame := k.frame.trans (by rw [h.frame])
  portEnd e := (k.portEnd e).trans (by rw [h.portEnd e])
  stays e he := k.stays e (h.stays e he)

theorem rearm {s t : State} (h : EndsShutdowns s t) (e : Nat) : (t.portEnd e).rearm = (s.portEnd e).rearm := by rw [h.portEnd e]

theorem up {s t : State} (h : EndsShutdowns s t) (e : Nat) : (t.portEnd e).up = (s.portEnd e).up := by rw [h.portEnd e]

theorem teller {s t : State} (h : EndsShutdowns s t) : t.teller = s.teller := by rw [h.frame]

theorem mould {s t : State} (h : EndsShutdowns s t) : t.mould = s.mould := by rw [h.frame]

theorem aoCount {s t : State} (h : EndsShutdowns s t) : t.links.aoCount = s.links.aoCount := by rw [h.frame]

theorem rootLock {s t : State} (h : EndsShutdowns s t) : t.links.rootLock = s.links.rootLock := by rw [h.frame]

end EndsShutdowns

theorem State.bothEnds_portEnd (s : State) (j e : Nat) (f : PortEnd → PortEnd) :
    (s.bothEnds j f).portEnd e = if e = 2 * j ∨ e = 2 * j + 1 then f (s.portEnd e) else s.portEnd e := by
  unfold State.bothEnds
  by_cases h₁ : e = 2 * j + 1
  · subst h₁; simp
  · by_cases h₀ : e = 2 * j
    · subst h₀; simp
    · simp [h₁, h₀]

theorem State.bothEnds_endsShutdowns (s : State) (j : Nat) : EndsShutdowns s (s.bothEnds j (fun x => { x with shutting := false })) where
  frame := rfl
  portEnd e := by
    rw [State.bothEnds_portEnd]
    split <;> rfl
  stays e he := by
    rw [State.bothEnds_portEnd]
    split
    · rfl
    · exact he

/-- A round of `State.endShutdowns`, at port `j`. -/
def endShutdown (s : State) (j : Nat) : State :=
  let a := s.portEnd (2 * j)
  let b := s.portEnd (2 * j + 1)
  if a.shutting || b.shutting then
    let s := s.bothEnds j (fun x => { x with shutting := false })
    if a.en && b.en && (a.rearm || b.rearm) then s.retrainPort j else s
  else s

theorem State.endShutdowns_eq (s : State) : s.endShutdowns = (List.range 15).foldl endShutdown s := rfl

section
variable {s : State} {j : Nat} (h₀ : (s.portEnd (2 * j)).rearm = false) (h₁ : (s.portEnd (2 * j + 1)).rearm = false)
include h₀ h₁

/-- Where neither end has its enable latched, the port is not trained. -/
theorem endShutdown_of_not_rearm : endShutdown s j =
    if (s.portEnd (2 * j)).shutting || (s.portEnd (2 * j + 1)).shutting then s.bothEnds j (fun x => { x with shutting := false }) else s := by
  simp [endShutdown, h₀, h₁]

theorem endShutdown_endsShutdowns : EndsShutdowns s (endShutdown s j) := by
  rw [endShutdown_of_not_rearm h₀ h₁]
  split
  · exact State.bothEnds_endsShutdowns s j
  · exact .refl s

theorem endShutdown_shutting {e : Nat} (he : e = 2 * j ∨ e = 2 * j + 1) : ((endShutdown s j).portEnd e).shutting = false := by
  rw [endShutdown_of_not_rearm h₀ h₁]
  split
  next => rw [State.bothEnds_portEnd, if_pos he]
  next h =>
    obtain ⟨ha, hb⟩ : (s.portEnd (2 * j)).shutting = false ∧ (s.portEnd (2 * j + 1)).shutting = false := by simpa using h
    obtain rfl | rfl := he
    · exact ha
    · exact hb

end

/-- The rounds at the ports `l`, none with a latched enable: all shut-downs there end. -/
theorem foldl_endShutdown (l : List Nat) {s : State} (h : ∀ j ∈ l, ∀ e, e = 2 * j ∨ e = 2 * j + 1 → (s.portEnd e).rearm = false) :
    EndsShutdowns s (l.foldl endShutdown s) ∧
      ∀ j ∈ l, ∀ e, e = 2 * j ∨ e = 2 * j + 1 → ((l.foldl endShutdown s).portEnd e).shutting = false := by
  induction l generalizing s with
  | nil => exact ⟨.refl s, by simp⟩
  | cons i l ih =>
    have h₀ := h i List.mem_cons_self (2 * i) (.inl rfl)
    have h₁ := h i List.mem_cons_self (2 * i + 1) (.inr rfl)
    have round : EndsShutdowns s (endShutdown s i) := endShutdown_endsShutdowns h₀ h₁
    obtain ⟨rest, done⟩ := ih (s := endShutdown s i) fun j hj e he => (round.rearm e).trans (h j (List.mem_cons_of_mem i hj) e he)
    refine ⟨round.trans rest, fun j hj e he => ?_⟩
    obtain rfl | hj := List.mem_cons.1 hj
    · exact rest.stays e (endShutdown_shutting h₀ h₁ he)
    · exact done j hj e he

/-- R357 where no enable is latched: every shut-down ends, and nothing else happens to a port. -/
theorem State.endShutdowns_spec {s : State} (h : ∀ e < 30, (s.portEnd e).rearm = false) :
    EndsShutdowns s s.endShutdowns ∧ ∀ e < 30, (s.endShutdowns.portEnd e).shutting = false := by
  rw [State.endShutdowns_eq]
  obtain ⟨ends, done⟩ := foldl_endShutdown (List.range 15) (s := s) fun j hj e he => h e (by
    have := List.mem_range.1 hj
    omega)
  exact ⟨ends, fun e he => done (e / 2) (List.mem_range.2 (by omega)) e (by omega)⟩

/-- What 4 µs do once the shut-downs have ended in `u`: the two clocks run. -/
def State.tick (u : State) : State :=
  { u with
    links := { u.links with aoCount := if u.links.rootLock then u.links.aoCount + 275 else u.links.aoCount }
    teller := { u.teller with usec := if u.mould.fired then u.teller.usec + 4 else u.teller.usec } }

theorem idle_eq (s : State) : idle s = s.endShutdowns.tick := rfl

theorem State.tick_portEnd (u : State) (e : Nat) : u.tick.portEnd e = u.portEnd e := rfl

/-- Settles O6: the step is `idle`, whose loop over the ports ends each shut-down and, without a latched enable, trains none. -/
theorem emptyQueueIdles : Obligations.EmptyQueueIdles := by
  intro s hs
  refine ⟨idle s, step_of_pending_nil hs, fun h => ?_⟩
  obtain ⟨ends, done⟩ := State.endShutdowns_spec h
  rw [idle_eq]
  generalize s.endShutdowns = u at ends done
  simp only [State.tick_portEnd]
  refine ⟨?teller, ?aoCount, done, ends.up, ?rest⟩
  case teller => simp only [State.tick, ends.teller, ends.mould]
  case aoCount => simp only [State.tick, ends.aoCount, ends.rootLock]
  case rest => rw [ends.frame]; rfl

end Sys2Proof.Machine
end

section
/-! PROOF.  What the operations that a tile's commands share do to the state: divider and duty, events and numeric registers, waits at
the hearths, the weight buffers, and the end of a command. -/
namespace Sys2Proof.Machine
open Sys2Proof

variable (s : State) (t : Nat)

/-! ## Divider and duty (R351) -/

theorem State.settlePower_frame : s.settlePower t = { s with power := (s.settlePower t).power } := by
  unfold State.settlePower
  dsimp only
  split <;> rfl

@[simp] theorem State.settlePower_tile (j : Nat) : (s.settlePower t).tile j = s.tile j := by
  rw [State.settlePower_frame]
  rfl

@[simp] theorem State.settlePower_teller : (s.settlePower t).teller = s.teller := by
  rw [State.settlePower_frame]

@[simp] theorem State.settlePower_tilePart (j : Nat) : (s.settlePower t).tilePart j = s.tilePart j := by
  rw [State.settlePower_frame]
  rfl

/-- The tile then runs at the divider and the duty asked of it. -/
theorem State.settlePower_asked :
    ((s.settlePower t).tilePower t).d = s.askedD t ∧ ((s.settlePower t).tilePower t).duty = s.askedDuty t := by
  unfold State.settlePower
  dsimp only
  split
  case isTrue h => exact h
  case isFalse => simp only [State.setTilePower_tilePower, if_true, and_self]

/-! ## Faults, events and numeric registers (R41, R102, R417) -/

@[simp] theorem State.boundsFault_tile (p a j : Nat) : (s.boundsFault p a).tile j = s.tile j := by
  unfold State.boundsFault
  split <;> rfl

@[simp] theorem State.boundsFault_teller (p a : Nat) : (s.boundsFault p a).teller = s.teller := by
  unfold State.boundsFault
  split <;> rfl

theorem State.occurIf_frame (was now : Bool) (src : Nat) : s.occurIf was now src = { s with reg := (s.occurIf was now src).reg } := by
  unfold State.occurIf
  split <;> rfl

theorem State.tileEvent_frame : s.tileEvent t = { s with reg := (s.tileEvent t).reg } := by
  unfold State.tileEvent State.occurFrom
  split <;> rfl

@[simp] theorem State.tileEvent_tile (j : Nat) : (s.tileEvent t).tile j = s.tile j := by
  rw [State.tileEvent_frame]
  rfl

@[simp] theorem State.tileEvent_teller : (s.tileEvent t).teller = s.teller := by
  rw [State.tileEvent_frame]

theorem State.setNumeric_frame (sticky mask : Word) :
    s.setNumeric t sticky mask = { s with tiles := (s.setNumeric t sticky mask).tiles, reg := (s.setNumeric t sticky mask).reg } := by
  unfold State.setNumeric
  rw [State.occurIf_frame]
  rfl

@[simp] theorem State.setNumeric_tile (j : Nat) (sticky mask : Word) : (s.setNumeric t sticky mask).tile j =
    if j = t then { s.tile t with numSticky := sticky, numEvmask := mask } else s.tile j := by
  unfold State.setNumeric
  rw [State.occurIf_frame]
  exact State.setTile_tile s t j _

@[simp] theorem State.setNumeric_teller (sticky mask : Word) : (s.setNumeric t sticky mask).teller = s.teller := by
  rw [State.setNumeric_frame]

@[simp] theorem State.postRecord_tile (r : TileDone) (j : Nat) : (s.postRecord r).tile j = s.tile j := rfl
@[simp] theorem State.postRecord_records (r : TileDone) : (s.postRecord r).teller.records = s.teller.records ++ [r] := rfl

/-! ## Waits and contributions at the hearths (R127, R203) -/

theorem State.dropWaiter_frame : s.dropWaiter t = { s with mem := { s.mem with hearths := (s.dropWaiter t).mem.hearths } } := by
  have h := foldl_keeps (fun u : State => { u with mem := { u.mem with hearths := [] } })
    (f := fun u h => u.setHearth h { u.hearth h with waiters := sset none (u.hearth h).waiters t none }) (fun _ _ => rfl) (List.range 4) s
  exact congrArg (fun u : State => { u with mem := { u.mem with hearths := (s.dropWaiter t).mem.hearths } }) h

@[simp] theorem State.dropWaiter_tile (j : Nat) : (s.dropWaiter t).tile j = s.tile j := by
  rw [State.dropWaiter_frame]
  rfl

@[simp] theorem State.dropWaiter_teller : (s.dropWaiter t).teller = s.teller := by
  rw [State.dropWaiter_frame]

@[simp] theorem State.dropWaiter_readByte (a : Nat) : (s.dropWaiter t).readByte a = s.readByte a := by
  rw [State.dropWaiter_frame]
  rfl

/-- No hearth holds the tile's wait any more. -/
theorem State.dropWaiter_waiter {h : Nat} (hh : h < 4) : ((s.dropWaiter t).hearth h).waiter t = none := by
  have hl : List.range 4 = [0, 1, 2, 3] := rfl
  obtain rfl | rfl | rfl | rfl : h = 0 ∨ h = 1 ∨ h = 2 ∨ h = 3 := by omega
  all_goals simp [State.dropWaiter, hl, Hearth.waiter]

@[simp] theorem State.dropContribution_tile (j : Nat) : (s.dropContribution t).tile j = s.tile j := rfl
@[simp] theorem State.dropContribution_teller : (s.dropContribution t).teller = s.teller := rfl

/-! ## Free bytes (R115) -/

@[simp] theorem State.freeBytes_tiles (a n : Nat) : (s.freeBytes a n).tiles = s.tiles := by
  unfold State.freeBytes State.undefine
  split <;> rfl

@[simp] theorem State.freeBytes_tile (a n j : Nat) : (s.freeBytes a n).tile j = s.tile j := by
  unfold State.tile
  rw [State.freeBytes_tiles]

@[simp] theorem State.freeBytes_teller (a n : Nat) : (s.freeBytes a n).teller = s.teller := by
  unfold State.freeBytes State.undefine
  split <;> rfl

theorem State.readByte_freeBytes {a n x : Nat} (h : x < a ∨ a + n ≤ x) : (s.freeBytes a n).readByte x = s.readByte x := by
  refine State.readByte_undefine s _ x ?_
  simp only [Junk.covers, Bool.and_eq_false_iff, decide_eq_false_iff_not]
  omega

/-! ## The weight buffers (R92, R96, R108) -/

section
variable (q : Nat) (d : BitVec 512) (w : Option Work)

/-- The state in which a command of queue q has taken the array: a preload record of another queue is cleared. -/
def State.keepPreload : State :=
  s.setTile t { s.tile t with preload := if ((s.tile t).preload.map (·.queue)) ≠ some q then none else (s.tile t).preload }

theorem usesArray_iff (op : Nat) : usesArray op = true ↔ ((op = 0x01 ∨ op = 0x04) ∨ op = 0x02 ∨ op = 0x03) := by
  simp only [usesArray, isSlab, Bool.or_eq_true, beq_iff_eq]
  omega

/-- A command that does not use the array leaves everything; one that does clears another queue's preload record, and SLAB_MATMUL and SLAB_CONV
load the weight buffers. -/
theorem State.useArray_cases :
    usesArray (dOp d) = false ∧ s.useArray t q d w = s ∨
    usesArray (dOp d) = true ∧ s.useArray t q d w = s.keepPreload t q ∨
    usesArray (dOp d) = true ∧ (dOp d = 0x02 ∨ dOp d = 0x03) ∧ ∃ b, s.useArray t q d w = (s.keepPreload t q).setWeights t b := by
  have hkeep : (match (s.tile t).preload with | some r => if r.queue != q then none else some r | none => none) =
      if ((s.tile t).preload.map (·.queue)) ≠ some q then none else (s.tile t).preload := by
    cases (s.tile t).preload <;> simp
  unfold State.useArray State.keepPreload
  cases uses : usesArray (dOp d)
  case false => exact .inl ⟨rfl, rfl⟩
  case true =>
    simp only [Bool.not_true, Bool.false_eq_true, if_false]
    rw [← hkeep]
    right
    split
    case isTrue => exact .inl ⟨trivial, rfl⟩
    case isFalse op => exact .inr ⟨trivial, ((usesArray_iff _).1 uses).resolve_left op, _, rfl⟩

/-- Only the tile changes. -/
theorem State.useArray_frame : s.useArray t q d w = { s with tiles := (s.useArray t q d w).tiles } := by
  obtain ⟨-, e⟩ | ⟨-, e⟩ | ⟨-, -, b, e⟩ := s.useArray_cases t q d w
  · rw [e]
  · rw [e]; rfl
  · rw [e]; rfl

theorem State.useArray_tile_of_ne {j : Nat} (hj : j ≠ t) : (s.useArray t q d w).tile j = s.tile j := by
  obtain ⟨-, e⟩ | ⟨-, e⟩ | ⟨-, -, b, e⟩ := s.useArray_cases t q d w
  · rw [e]
  · simp [e, State.keepPreload, hj]
  · simp [e, State.keepPreload, State.setWeights, hj]

/-- Of the tile, only the preload record and the weight buffers change. -/
theorem State.useArray_tile_self : (s.useArray t q d w).tile t = { s.tile t with
      preload := if usesArray (dOp d) = true ∧ ((s.tile t).preload.map (·.queue)) ≠ some q then none else (s.tile t).preload
      weights := ((s.useArray t q d w).tile t).weights
      shadow := ((s.useArray t q d w).tile t).shadow } := by
  obtain ⟨uses, e⟩ | ⟨uses, e⟩ | ⟨uses, -, b, e⟩ := s.useArray_cases t q d w
  · simp [e, uses]
  · simp [e, uses, State.keepPreload]
  · simp [e, uses, State.keepPreload, State.setWeights]

theorem State.useArray_weights (h2 : dOp d ≠ 0x02) (h3 : dOp d ≠ 0x03) :
    ((s.useArray t q d w).tile t).weights = (s.tile t).weights ∧ ((s.useArray t q d w).tile t).shadow = (s.tile t).shadow := by
  obtain ⟨-, e⟩ | ⟨-, e⟩ | ⟨-, op, -⟩ := s.useArray_cases t q d w
  · simp [e]
  · simp [e, State.keepPreload]
  · omega

end

/-! ## What the scheduling of a tile touches -/

/-- Tile `y` holds the context frames of `x`, and fills the same one. -/
structure SameContexts (x y : Tile) : Prop where
  frame0 : y.frame0 = x.frame0
  frame1 : y.frame1 = x.frame1
  spilling : y.spilling = x.spilling

theorem SameContexts.frame {x y : Tile} (h : SameContexts x y) (f : Nat) : y.frame f = x.frame f := by
  unfold Tile.frame
  rw [h.frame0, h.frame1]

/-- `u` is `s` after tile t has gone on to another command or ended one: of the tiles only t moves, its context frames stay, and outside the tiles
only power settings, records for the Teller, events and raised faults change. -/
structure SchedulesAt (t : Nat) (s u : State) : Prop where
  frame : u = { s with tiles := u.tiles, teller := u.teller, reg := u.reg, faults := u.faults, power := u.power }
  others : ∀ j, j ≠ t → u.tile j = s.tile j
  contexts : SameContexts (s.tile t) (u.tile t)

namespace SchedulesAt

variable {t : Nat} {s u : State}

theorem refl (t : Nat) (s : State) : SchedulesAt t s s := ⟨rfl, fun _ _ => rfl, rfl, rfl, rfl⟩

theorem mem (h : SchedulesAt t s u) : u.mem = s.mem := by rw [h.frame]

theorem trans {v : State} (h : SchedulesAt t s u) (k : SchedulesAt t u v) : SchedulesAt t s v where
  frame := k.frame.trans (by rw [h.frame])
  others j hj := (k.others j hj).trans (h.others j hj)
  contexts := ⟨k.contexts.frame0.trans h.contexts.frame0, k.contexts.frame1.trans h.contexts.frame1,
    k.contexts.spilling.trans h.contexts.spilling⟩

/-- An update that leaves the tiles alone. -/
theorem of_tiles (frame : u = { s with teller := u.teller, reg := u.reg, faults := u.faults, power := u.power }) : SchedulesAt t s u := by
  have tiles : u.tile = s.tile := by
    rw [frame]
    rfl
  exact ⟨frame.trans (by rw [frame]), fun j _ => congrFun tiles j, by rw [tiles]; exact ⟨rfl, rfl, rfl⟩⟩

variable (h : SchedulesAt t s u)
include h

theorem ite {c : Prop} [Decidable c] {a b : State} (ha : SchedulesAt t u a) (hb : SchedulesAt t u b) : SchedulesAt t s (if c then a else b) := by
  split
  · exact h.trans ha
  · exact h.trans hb

theorem setTile {x : Tile} (hx : SameContexts (u.tile t) x) : SchedulesAt t s (u.setTile t x) :=
  h.trans ⟨rfl, fun j hj => by simp [hj], by simpa using hx⟩

theorem setNumeric (sticky mask : Word) : SchedulesAt t s (u.setNumeric t sticky mask) :=
  (h.setTile (x := { u.tile t with numSticky := sticky, numEvmask := mask }) ⟨rfl, rfl, rfl⟩).trans (.of_tiles (by
    unfold State.setNumeric
    rw [State.occurIf_frame]))

theorem settlePower : SchedulesAt t s (u.settlePower t) := h.trans (.of_tiles (by rw [State.settlePower_frame]))
theorem tileEvent : SchedulesAt t s (u.tileEvent t) := h.trans (.of_tiles (by rw [State.tileEvent_frame]))
theorem postRecord (r : TileDone) : SchedulesAt t s (u.postRecord r) := h.trans (.of_tiles rfl)
theorem boundsFault (p a : Nat) : SchedulesAt t s (u.boundsFault p a) := h.ite (.of_tiles rfl) (.refl t u)

theorem useArray (q : Nat) (d : BitVec 512) (w : Option Work) : SchedulesAt t s (u.useArray t q d w) :=
  h.trans ⟨by rw [State.useArray_frame], fun _ hj => u.useArray_tile_of_ne t q d w hj, by
    rw [State.useArray_tile_self]
    exact ⟨rfl, rfl, rfl⟩⟩

end SchedulesAt

/-! ## The end of a command (R107, R115-R117) -/

/-- A tile's queues and LAST_ERR once command c has ended with st. -/
def Tile.afterEnd (x : Tile) (c : RunCmd) (st : Nat) : Tile :=
  { x with lastErr := if st = stOk ∨ st = stAbandoned then x.lastErr else st }.setQ c.queue (endQueue (x.q c.queue) c st)

theorem Tile.afterEnd_q (x : Tile) (c : RunCmd) (st q : Nat) :
    (x.afterEnd c st).q q = if q = c.queue then endQueue (x.q c.queue) c st else x.q q :=
  Tile.setQ_q _ _ _ _

/-- What `Ended` asks is that nothing runs and that queues and LAST_ERR stand as `afterEnd` leaves them. -/
theorem ended_of_afterEnd {x y : Tile} {c : RunCmd} {st : Nat} (idle : y.running = none) (queues : y.queues = (x.afterEnd c st).queues)
    (lastErr : y.lastErr = (x.afterEnd c st).lastErr) : Ended x y c st := by
  have hq (q : Nat) : y.q q = if q = c.queue then endQueue (x.q c.queue) c st else x.q q := by
    rw [← Tile.afterEnd_q, Tile.q, queues]
    rfl
  exact ⟨idle, by rw [hq, if_pos rfl]; rfl, fun q hne => by rw [hq, if_neg hne], lastErr⟩

section
variable (c : RunCmd) (st num opf res : Nat)

theorem endCommand_schedulesAt : SchedulesAt t s (endCommand s t c st num opf res) := by
  unfold endCommand
  have moved : SchedulesAt t s (s.setTile t ((s.tile t).afterEnd c st)) := (SchedulesAt.refl t s).setTile ⟨rfl, rfl, rfl⟩
  exact ((moved.ite ((SchedulesAt.refl ..).setNumeric _ _) (.refl ..)).ite (SchedulesAt.refl ..).tileEvent (.refl ..)).ite
    ((SchedulesAt.refl ..).postRecord _) (.refl ..)

/-- Of the tile of a command that ends, only the command's queue, LAST_ERR and the sticky numeric flags move. -/
theorem endCommand_tile_self : (endCommand s t c st num opf res).tile t =
    { (s.tile t).afterEnd c st with numSticky := ((endCommand s t c st num opf res).tile t).numSticky } := by
  simp only [endCommand, apply_ite (State.tile · t), State.postRecord_tile, State.tileEvent_tile, State.setNumeric_tile, State.setTile_tile,
    if_true, ite_self]
  split <;> rfl

theorem endCommand_records : (endCommand s t c st num opf res).teller.records = s.teller.records ++ recordOf t c st num opf res := by
  simp only [endCommand, recordOf, apply_ite State.teller, apply_ite TellerState.records, State.postRecord_records, State.tileEvent_teller,
    State.setNumeric_teller, State.setTile_teller, ite_self]
  split
  · rfl
  · rw [List.append_nil]

/-- A command that does not run ends. -/
theorem endCommand_ended (h : (s.tile t).running = none) : Ended (s.tile t) ((endCommand s t c st num opf res).tile t) c st := by
  rw [endCommand_tile_self]
  exact ended_of_afterEnd h rfl rfl

/-- The running command ends. -/
theorem endRunning_ended : Ended (s.tile t) ((endRunning s t c st num opf res).tile t) c st := by
  unfold endRunning
  rw [endCommand_tile_self]
  simp only [State.setTile_tile, State.dropContribution_tile, State.dropWaiter_tile, if_true]
  exact ended_of_afterEnd rfl rfl rfl

theorem endRunning_records : (endRunning s t c st num opf res).teller.records = s.teller.records ++ recordOf t c st num opf res := by
  unfold endRunning
  simp only [endCommand_records, State.setTile_teller, State.dropContribution_teller, State.dropWaiter_teller]

theorem endRunning_tile_of_ne {j : Nat} (hj : j ≠ t) : (endRunning s t c st num opf res).tile j = s.tile j := by
  unfold endRunning
  rw [(endCommand_schedulesAt ..).others j hj]
  simp [hj]

theorem endRunning_readByte (a : Nat) : (endRunning s t c st num opf res).readByte a = s.readByte a := by
  unfold endRunning
  rw [State.readByte, (endCommand_schedulesAt ..).mem]
  exact State.dropWaiter_readByte s t a

end

end Sys2Proof.Machine
end

section
/-! PROOF.  O36: command boundaries, yield points, spills and restores of a tile (R107, R132, R133), ceding and abandonment. -/
namespace Sys2Proof.Machine
open Sys2Proof

variable {s : State} {t : Nat}

/-! ## Command boundaries (R107, R113) -/

theorem Tile.quiet_iff (x : Tile) : x.quiet = true ↔
    x.running = none ∧ x.spilling = none ∧ x.restoring = none ∧ x.frame0 = none ∧ x.frame1 = none := by
  simp only [Tile.quiet, Bool.and_eq_true, Option.isNone_iff_eq_none, and_assoc]

/-- The command at the head of queue q. -/
def Tile.headCmd (x : Tile) (q : Nat) : RunCmd := { desc := sget 0 (x.q q).slots (x.q q).head, queue := q, slot := (x.q q).head }

/-- The command at the head of queue q begins on tile t. -/
def State.beginHead (s : State) (t q : Nat) : State :=
  ((s.settlePower t).setTile t { s.tile t with running := some ((s.tile t).headCmd q) }).useArray t q ((s.tile t).headCmd q).desc none

/-- The status and the address that the check of that command gives. -/
def State.headVerdict (s : State) (t q : Nat) : Nat × Nat :=
  descVerdict ((s.tile t).headCmd q).desc t (s.tilePart t) (s.settlePower t)

/-- The bounds fault of a check that found an address or a tally out of bounds is raised (R41). -/
def State.faultHead (s : State) (t q : Nat) : State :=
  if (s.headVerdict t q).1 = stAddress ∨ (s.headVerdict t q).1 = stTally
  then (s.settlePower t).boundsFault (s.tilePart t) (s.headVerdict t q).2 else s.settlePower t

/-- The command at the head of queue q ends at once with the status of its check. -/
def State.refuseHead (s : State) (t q : Nat) : State := endCommand (s.faultHead t q) t ((s.tile t).headCmd q) (s.headVerdict t q).1 0 0 0

/-- At a boundary of a quiet tile the head of the ready queue of highest priority runs, or ends, as its descriptor's check says. -/
theorem boundary_of_quiet {q : Nat} (quiet : (s.tile t).quiet = true) (out : s.tileOut t = false) (up : s.tileUp t = true)
    (best : (s.tile t).best = some q) (unmarked : ¬ ((s.tile t).q q).head ∈ ((s.tile t).q q).marked) :
    boundary s t = if (s.headVerdict t q).1 = stOk then s.beginHead t q else s.refuseHead t q := by
  obtain ⟨running, spilling, restoring, frame0, frame1⟩ := (Tile.quiet_iff _).1 quiet
  have noFrame : (s.tile t).frameOf q = none := by simp [Tile.frameOf, frame0, frame1]
  have notMarked : ((s.tile t).q q).marked.contains ((s.tile t).q q).head = false := by simpa using unmarked
  unfold boundary State.beginHead State.refuseHead State.faultHead State.headVerdict Tile.headCmd
  simp only [running, spilling, restoring, out, up, best, noFrame, notMarked, Option.isSome_none, Bool.or_false, Bool.not_true,
    Bool.false_eq_true, if_false, State.settlePower_tilePart]

section
variable (s : State) (t q : Nat)

theorem State.beginHead_frame : s.beginHead t q = { s with tiles := (s.beginHead t q).tiles, power := (s.beginHead t q).power } := by
  unfold State.beginHead
  rw [State.useArray_frame, State.settlePower_frame]
  rfl

theorem State.beginHead_tile_of_ne {j : Nat} (hj : j ≠ t) : (s.beginHead t q).tile j = s.tile j := by
  simp [State.beginHead, State.useArray_tile_of_ne, hj]

/-- Of the tile, the running command, the preload record and the weight buffers change. -/
theorem State.beginHead_tile_self : (s.beginHead t q).tile t = { s.tile t with
    running := some ((s.tile t).headCmd q)
    preload := if usesArray (dOp ((s.tile t).headCmd q).desc) = true ∧ ((s.tile t).preload.map (·.queue)) ≠ some q then none
      else (s.tile t).preload
    weights := ((s.beginHead t q).tile t).weights
    shadow := ((s.beginHead t q).tile t).shadow } := by
  unfold State.beginHead
  rw [State.useArray_tile_self]
  simp only [State.setTile_tile, if_true]

theorem State.beginHead_weights (h2 : dOp ((s.tile t).headCmd q).desc ≠ 0x02) (h3 : dOp ((s.tile t).headCmd q).desc ≠ 0x03) :
    ((s.beginHead t q).tile t).weights = (s.tile t).weights ∧ ((s.beginHead t q).tile t).shadow = (s.tile t).shadow := by
  simpa [State.beginHead] using
    ((s.settlePower t).setTile t { s.tile t with running := some ((s.tile t).headCmd q) }).useArray_weights t q _ none h2 h3

theorem State.beginHead_asked : ((s.beginHead t q).tilePower t).d = s.askedD t ∧ ((s.beginHead t q).tilePower t).duty = s.askedDuty t := by
  unfold State.beginHead
  rw [State.useArray_frame]
  exact s.settlePower_asked t

theorem State.faultHead_schedulesAt : SchedulesAt t s (s.faultHead t q) :=
  (SchedulesAt.refl t s).settlePower.ite ((SchedulesAt.refl ..).boundsFault _ _) (.refl ..)

@[simp] theorem State.faultHead_tile (j : Nat) : (s.faultHead t q).tile j = s.tile j := by
  simp only [State.faultHead, apply_ite (State.tile · j), State.boundsFault_tile, State.settlePower_tile, ite_self]

@[simp] theorem State.faultHead_teller : (s.faultHead t q).teller = s.teller := by
  simp only [State.faultHead, apply_ite State.teller, State.boundsFault_teller, State.settlePower_teller, ite_self]

theorem State.refuseHead_schedulesAt : SchedulesAt t s (s.refuseHead t q) := (s.faultHead_schedulesAt t q).trans (endCommand_schedulesAt ..)

theorem State.refuseHead_ended (idle : (s.tile t).running = none) :
    Ended (s.tile t) ((s.refuseHead t q).tile t) ((s.tile t).headCmd q) (s.headVerdict t q).1 := by
  simpa [State.refuseHead] using endCommand_ended (s.faultHead t q) t ((s.tile t).headCmd q) (s.headVerdict t q).1 0 0 0 (by simpa using idle)

theorem State.refuseHead_records : (s.refuseHead t q).teller.records =
    s.teller.records ++ recordOf t ((s.tile t).headCmd q) (s.headVerdict t q).1 0 0 0 := by
  simpa [State.refuseHead] using endCommand_records (s.faultHead t q) t ((s.tile t).headCmd q) (s.headVerdict t q).1 0 0 0

end

/-- Where a command runs, no queue is ready, or the tile is out of service, a boundary settles the tile's power at most. -/
theorem boundary_of_not_taken (h : (s.tile t).running.isSome = true ∨ (s.tile t).best = none ∨ s.tileUp t = false ∨ s.tileOut t = true) :
    boundary s t = s ∨ boundary s t = s.settlePower t := by
  unfold boundary
  dsimp only
  split
  case isTrue => exact .inl rfl
  case isFalse free =>
    simp only [Bool.or_eq_true, Bool.not_eq_true', not_or] at free
    obtain ⟨⟨⟨⟨running, -⟩, -⟩, out⟩, up⟩ := free
    have best : (s.tile t).best = none := (h.resolve_left running).resolve_right (not_or_intro up out)
    simp only [best, or_true]

/-- Whatever a boundary does, it is the tile's scheduling: no byte, no other tile and no context frame changes. -/
theorem boundary_schedulesAt (s : State) (t : Nat) : SchedulesAt t s (boundary s t) := by
  have settled := (SchedulesAt.refl t s).settlePower
  have resume (x : Tile) (hx : SameContexts (s.tile t) x) : SchedulesAt t s ((s.settlePower t).setTile t x) :=
    settled.setTile (by rwa [State.settlePower_tile])
  fun_cases boundary s t
  case case1 => exact .refl t s
  case case2 => exact settled
  case case3 => exact resume _ ⟨rfl, rfl, rfl⟩
  case case4 => exact resume _ ⟨rfl, rfl, rfl⟩
  case case5 c v ok => exact (resume { s.tile t with running := some c } ⟨rfl, rfl, rfl⟩).useArray _ _ _
  case case6 => exact (settled.ite ((SchedulesAt.refl ..).boundsFault _ _) (.refl ..)).trans (endCommand_schedulesAt ..)

/-! ## Yield points (R132, R136) -/

/-- Queue q takes tile t: the running command begins to spill into frame f. -/
def State.take (s : State) (t f q : Nat) : State :=
  ((s.settlePower t).setTile t { s.tile t with spilling := some (f, q), takeCount := (s.tile t).takeCount + 1, preload := none }).dropWaiter t

section
variable (s : State) (t f q : Nat)

theorem State.take_tile_self :
    (s.take t f q).tile t = { s.tile t with spilling := some (f, q), takeCount := (s.tile t).takeCount + 1, preload := none } := by
  simp [State.take]

theorem State.take_tile_of_ne {j : Nat} (hj : j ≠ t) : (s.take t f q).tile j = s.tile j := by simp [State.take, hj]

theorem State.take_waiter {h : Nat} (hh : h < 4) : ((s.take t f q).hearth h).waiter t = none := State.dropWaiter_waiter _ _ hh

theorem State.take_frame : s.take t f q =
    { s with tiles := (s.take t f q).tiles, mem := { s.mem with hearths := (s.take t f q).mem.hearths }, power := (s.take t f q).power } := by
  unfold State.take
  rw [State.dropWaiter_frame, State.settlePower_frame]
  rfl

theorem State.take_readByte (a : Nat) : (s.take t f q).readByte a = s.readByte a := by
  rw [State.take_frame]
  rfl

end

section
variable {c : RunCmd} {r : State}

/-- A command that waits does nothing more before it can be taken. -/
theorem unitOf_of_wait (hw : c.wait ≠ .none) (h : unitOf s t c = some r) : r = s := by
  unfold unitOf at h
  split at h
  · cases h
  · contradiction
  · exact (Option.some.inj h).symm

theorem yieldPoint_of_no_unit (running : (s.tile t).running = some c) (h : unitOf s t c = none) : yieldPoint s t = s := by
  unfold yieldPoint
  simp only [running, h, ite_self]

variable (spilling : (s.tile t).spilling = none) (restoring : (s.tile t).restoring = none) (works : s.tileWorks t = true)
  (running : (s.tile t).running = some c)
include spilling restoring works running

theorem yieldPoint_of_stopsFirst (h : stopsFirst s t c = true) : yieldPoint s t = endAbandoned s t c := by
  obtain ⟨stops, unit⟩ := Bool.and_eq_true_iff.1 h
  obtain ⟨r, hr⟩ := Option.isSome_iff_exists.1 unit
  unfold yieldPoint
  simp only [spilling, restoring, works, running, hr, stops, Option.isSome_none, Bool.or_false, Bool.not_true, Bool.false_eq_true, if_false,
    if_true]

theorem yieldPoint_of_take {q f : Nat} (goes : (c.abandoned || c.flushed) = false) (hr : unitOf s t c = some r)
    (best : (r.tile t).best = some q) (higher : q < c.queue) (free : (r.tile t).takeFrame q = some f) :
    yieldPoint s t = r.take t f q := by
  unfold yieldPoint State.take
  simp only [spilling, restoring, works, running, hr, goes, best, higher, free, State.settlePower_tile, Option.isSome_none, Bool.or_false,
    Bool.not_true, Bool.false_eq_true, if_false, if_true]

end

/-- Freeing the outputs of an abandoned command touches no tile and no record, but where a VEC_RUN was under way. -/
theorem abandonedOuts_frame {c : RunCmd} (s : State) (t p : Nat) (h : dOp c.desc ≠ 0x05 ∨ c.work.vec = none) :
    (abandonedOuts c t p s).tiles = s.tiles ∧ (abandonedOuts c t p s).teller = s.teller := by
  have freed (l : List (Nat × Nat)) : (failed s l stAbandoned).s.tiles = s.tiles ∧ (failed s l stAbandoned).s.teller = s.teller :=
    ⟨foldl_keeps State.tiles (f := fun (u : State) (r : Nat × Nat) => u.freeBytes r.1 r.2) (fun _ _ => State.freeBytes_tiles ..) l s,
      foldl_keeps State.teller (f := fun (u : State) (r : Nat × Nat) => u.freeBytes r.1 r.2) (fun _ _ => State.freeBytes_teller ..) l s⟩
  unfold abandonedOuts
  split
  case isTrue vecRun =>
    rw [h.resolve_left (not_not_intro vecRun)]
    exact ⟨rfl, rfl⟩
  case isFalse => exact freed _

/-! ## Spills and restores (R133) -/

@[simp] theorem Tile.setFrame_frame (x : Tile) (f : Nat) (v : Option Frame) : (x.setFrame f v).frame f = v := by
  unfold Tile.setFrame Tile.frame
  split <;> rfl

theorem Tile.setFrame_eq (x : Tile) (f : Nat) (v : Option Frame) :
    x.setFrame f v = { x with frame0 := (x.setFrame f v).frame0, frame1 := (x.setFrame f v).frame1 } := by
  unfold Tile.setFrame
  split <;> rfl

/-- The tile once a spill has put command and vector unit into frame f. -/
def Tile.spilled (x : Tile) (f : Nat) (c : RunCmd) : Tile :=
  { x with spilling := none, running := none }.setFrame f (some { cmd := { c with taken := true }, vec := x.vec })

theorem Tile.spilled_frame (x : Tile) (f : Nat) (c : RunCmd) :
    (x.spilled f c).frame f = some { cmd := { c with taken := true }, vec := x.vec } := Tile.setFrame_frame ..

theorem Tile.spilled_spilling (x : Tile) (f : Nat) (c : RunCmd) : (x.spilled f c).spilling = none := by
  unfold Tile.spilled
  rw [Tile.setFrame_eq]

/-- The state in which command c of tile t has been spilled into frame f, before the tile goes on. -/
def State.spill (s : State) (t f : Nat) (c : RunCmd) : State :=
  (s.freeBytes (frameBase t f) frameBytes).setTile t ((s.tile t).spilled f c)

section
variable (s : State) (t f : Nat) (c : RunCmd)

theorem State.spill_tile_self : (s.spill t f c).tile t = (s.tile t).spilled f c := by simp [State.spill]

theorem State.spill_tile_of_ne {j : Nat} (hj : j ≠ t) : (s.spill t f c).tile j = s.tile j := by simp [State.spill, hj]

theorem State.spill_readByte {a : Nat} (ha : a < frameBase t f ∨ frameBase t f + frameBytes ≤ a) : (s.spill t f c).readByte a = s.readByte a :=
  s.readByte_freeBytes ha

end

theorem spillDone_eq {q f : Nat} {c : RunCmd} (spilling : (s.tile t).spilling = some (f, q)) (running : (s.tile t).running = some c)
    (wait : c.wait = .none) (abandoned : c.abandoned = false) (flushed : c.flushed = false) :
    spillDone s t = boundary (s.spill t f c) t := by
  have noWait : spilledWait .none = .none := rfl
  unfold spillDone State.spill Tile.spilled
  simp only [spilling, running, wait, noWait, abandoned, flushed, Bool.false_eq_true, if_false]

/-- The tile once a restore has read frame f, which held fr. -/
def Tile.restored (x : Tile) (f : Nat) (fr : Frame) : Tile := { x with restoring := none, running := some fr.cmd, vec := fr.vec }.setFrame f none

/-- Tile t takes the command in frame f, which held fr, back out. -/
def State.restore (s : State) (t f : Nat) (fr : Frame) : State :=
  (s.setTile t ((s.tile t).restored f fr)).useArray t fr.cmd.queue fr.cmd.desc (some fr.cmd.work)

section
variable (s : State) (t f : Nat) (fr : Frame)

theorem Tile.restored_eq (x : Tile) : x.restored f fr =
    { x with restoring := none, running := some fr.cmd, vec := fr.vec, frame0 := (x.restored f fr).frame0, frame1 := (x.restored f fr).frame1 } :=
  Tile.setFrame_eq ..

theorem State.restore_tile_self : (s.restore t f fr).tile t = { (s.tile t).restored f fr with
    preload := ((s.restore t f fr).tile t).preload
    weights := ((s.restore t f fr).tile t).weights
    shadow := ((s.restore t f fr).tile t).shadow } := by
  unfold State.restore
  rw [State.useArray_tile_self]
  simp only [State.setTile_tile, if_true]

/-- Command and vector unit are the frame's, which is free, and the queues stand. -/
theorem State.restore_tile : ((s.restore t f fr).tile t).running = some fr.cmd ∧ ((s.restore t f fr).tile t).vec = fr.vec ∧
    ((s.restore t f fr).tile t).frame f = none ∧ ((s.restore t f fr).tile t).restoring = none ∧
    ((s.restore t f fr).tile t).queues = (s.tile t).queues := by
  have empty : ((s.tile t).restored f fr).frame f = none := Tile.setFrame_frame ..
  rw [State.restore_tile_self]
  refine ⟨?_, ?_, empty, ?_, ?_⟩
  all_goals
    dsimp only
    rw [Tile.restored_eq]

theorem State.restore_preload (uses : usesArray (dOp fr.cmd.desc) = true)
    (other : ((s.tile t).preload.map (·.queue)) ≠ some fr.cmd.queue) : ((s.restore t f fr).tile t).preload = none := by
  have same : ((s.tile t).restored f fr).preload = (s.tile t).preload := by rw [Tile.restored_eq]
  unfold State.restore
  rw [State.useArray_tile_self]
  simp only [State.setTile_tile, if_true]
  exact if_pos ⟨uses, by rwa [same]⟩

theorem State.restore_tile_of_ne {j : Nat} (hj : j ≠ t) : (s.restore t f fr).tile j = s.tile j := by
  simp [State.restore, State.useArray_tile_of_ne, hj]

theorem State.restore_frame : s.restore t f fr = { s with tiles := (s.restore t f fr).tiles } := by
  unfold State.restore
  rw [State.useArray_frame]
  rfl

end

theorem restoreDone_eq {f : Nat} {fr : Frame} (restoring : (s.tile t).restoring = some f) (frame : (s.tile t).frame f = some fr) :
    restoreDone s t = s.restore t f fr := by
  unfold restoreDone State.restore Tile.restored
  simp only [restoring, frame]

/-! ## Ceding and abandonment (R130, R136) -/

theorem breakRestore_queues (x : Tile) : (breakRestore x).queues = x.queues := by
  fun_cases breakRestore x <;> rfl

theorem breakRestore_q (x : Tile) (q : Nat) : (breakRestore x).q q = x.q q := by rw [Tile.q, breakRestore_queues, ← Tile.q]

theorem abandonActed_of_quiet {tag : Nat} (quiet : (s.tile t).quiet = true) (engine0 : (s.tile t).engine0 = none)
    (engine1 : (s.tile t).engine1 = none) (listed : tag ∈ (s.tile t).abandonList) (owed : s.teller.abandons = []) :
    abandonActed s t tag = s.setTile t { s.tile t with abandonList := (s.tile t).abandonList.filter (fun g => g ≠ tag) } := by
  obtain ⟨running, -, -, frame0, frame1⟩ := (Tile.quiet_iff _).1 quiet
  have free (f : Nat) : freeAbandoned s t f tag = s := by
    unfold freeAbandoned Tile.frame
    simp only [frame0, frame1, ite_self]
  have listed : (s.tile t).abandonList.contains tag = true := by simpa using listed
  have retry (x : Tile) : retryAbandons (s.setTile t x) = s.setTile t x := by
    unfold retryAbandons
    simp only [State.setTile_teller, owed, List.foldl_nil]
    rw [← owed]
    rfl
  unfold abandonActed
  simp only [listed, free, running, frame0, frame1, engine0, engine1, retry, Bool.not_true, Bool.or_false, Bool.false_eq_true, if_false]

/-! ## O36 -/

theorem exec_commandBoundary (s : State) {t : Nat} (ht : t < 32) : exec (.commandBoundary t) s = .next (boundary s t) := if_pos ht
theorem exec_yieldPoint (s : State) (t : Nat) : exec (.yieldPoint t) s = .next (yieldPoint s t) := rfl
theorem exec_spillDone (s : State) (t : Nat) : exec (.spillDone t) s = .next (spillDone s t) := rfl
theorem exec_restoreDone (s : State) (t : Nat) : exec (.restoreDone t) s = .next (restoreDone s t) := rfl
theorem exec_abandonActed (s : State) (t tag : Nat) : exec (.abandonActed t tag) s = .next (abandonActed s t tag) := rfl

/-- Settles O36: for every row, the next state is the one that the equation of its function above names, and what the statement says of that
state is what the lemmas about it say. -/
theorem tileScheduling : Obligations.TileScheduling := by
  unfold Obligations.TileScheduling
  refine ⟨?boundary, ?notTaken, ?take, ?stops, fun s t c => abandonedOuts_frame s t _, ?noUnit, ?spill, ?restore, ?cede, ?acted⟩
  case boundary =>
    intro s t q ht quiet out up best unmarked
    obtain ⟨idle, -⟩ := (Tile.quiet_iff _).1 quiet
    have run := boundary_of_quiet quiet out up best unmarked
    refine ⟨fun ok => ⟨s.beginHead t q, ?_, s.beginHead_tile_self t q, s.beginHead_weights t q, (s.beginHead_asked t q).1,
        (s.beginHead_asked t q).2, fun _ => s.beginHead_tile_of_ne t q, s.beginHead_frame t q⟩,
      fun refused _ => ⟨s.refuseHead t q, ?_, s.refuseHead_ended t q idle, s.refuseHead_records t q,
        (s.refuseHead_schedulesAt t q).mem, (s.refuseHead_schedulesAt t q).others, (s.refuseHead_schedulesAt t q).frame⟩⟩
    · rw [exec_commandBoundary s ht, run]
      exact congrArg _ (if_pos ok)
    · rw [exec_commandBoundary s ht, run]
      exact congrArg _ (if_neg refused)
  case notTaken =>
    intro s t h
    by_cases ht : t < 32
    · obtain e | e := boundary_of_not_taken h
      · exact ⟨s, by rw [exec_commandBoundary s ht, e], rfl⟩
      · exact ⟨s.settlePower t, by rw [exec_commandBoundary s ht, e], State.settlePower_frame ..⟩
    · exact ⟨s, if_neg ht, rfl⟩
  case take =>
    intro s r t q f c spilling restoring works running abandoned flushed unit best higher free
    have goes : (c.abandoned || c.flushed) = false := by rw [abandoned, flushed]; rfl
    refine ⟨r.take t f q, ?_, r.take_tile_self t f q, fun _ => r.take_waiter t f q, fun _ => r.take_tile_of_ne t f q, r.take_readByte t f q,
      fun wait => unitOf_of_wait wait unit, r.take_frame t f q⟩
    rw [exec_yieldPoint, yieldPoint_of_take spilling restoring works running goes unit best higher free]
  case stops =>
    intro s t c spilling restoring works running stops
    refine ⟨endAbandoned s t c, ?_, endRunning_ended .., endRunning_records .., fun _ hj => endRunning_tile_of_ne (hj := hj) ..,
      fun _ => endRunning_readByte ..⟩
    rw [exec_yieldPoint, yieldPoint_of_stopsFirst spilling restoring works running stops]
  case noUnit =>
    intro s t c running unit
    rw [exec_yieldPoint, yieldPoint_of_no_unit running unit]
  case spill =>
    intro s t q f c spilling _ running wait abandoned flushed
    have went := boundary_schedulesAt (s.spill t f c) t
    refine ⟨boundary (s.spill t f c) t, ?_, ?_, ?_, fun a ha => ?_, fun j hj => ?_⟩
    · rw [exec_spillDone, spillDone_eq spilling running wait abandoned flushed]
    · rw [went.contexts.frame, State.spill_tile_self, Tile.spilled_frame]
    · rw [went.contexts.spilling, State.spill_tile_self, Tile.spilled_spilling]
    · rw [State.readByte, went.mem, ← State.readByte, State.spill_readByte _ _ _ _ ha]
    · rw [went.others j hj, State.spill_tile_of_ne _ _ _ _ hj]
  case restore =>
    intro s t f fr _ restoring frame
    obtain ⟨took, vec, empty, ended, queues⟩ := s.restore_tile t f fr
    refine ⟨s.restore t f fr, ?_, took, vec, empty, ended, queues, s.restore_preload t f fr, fun _ => s.restore_tile_of_ne t f fr,
      s.restore_frame t f fr⟩
    rw [exec_restoreDone, restoreDone_eq restoring frame]
  case cede =>
    intro s t q ceding
    exact ⟨_, if_pos ceding, by simp [breakRestore_q], fun j hj => by simp [hj], rfl⟩
  case acted =>
    intro s t tag quiet engine0 engine1 listed owed
    refine ⟨_, (exec_abandonActed s t tag).trans (congrArg _ (abandonActed_of_quiet quiet engine0 engine1 listed owed)), by simp,
      fun g hg hl => by simp [hg, hl], fun j hj => by simp [hj], rfl⟩

end Sys2Proof.Machine
end

section
/-! PROOF.  O5: the Reset columns. -/
namespace Sys2Proof.Machine
open Sys2Proof

/-- Settles O5: the tables of `State.reset` list no key, so that every accessor gives its default, which is the Reset column. -/
theorem resetRegisterValues : Obligations.ResetRegisterValues :=
  ⟨fun _ => ⟨rfl, rfl, rfl⟩, rfl, rfl, fun _ => ⟨rfl, rfl, rfl⟩, fun _ => ⟨rfl, rfl, rfl⟩, fun _ => ⟨rfl, rfl⟩, fun _ => ⟨rfl, rfl⟩,
    fun _ => rfl, fun _ => rfl, rfl, rfl, rfl⟩

end Sys2Proof.Machine
end

section
/-! PROOF.  What beginning and ending a long operation does (R378), and the shared gates of AMEND and MOULD_INSTALL: a forwarded command
(R377, R531), or a message on the staged image (R503). -/
namespace Sys2Proof.Machine
open Sys2Proof

/-! ## Handles (R378) -/

theorem State.op?_setOp_same {s : State} {h : Nat} {o : OpRec} (found : s.op? h = some o) (x : OpRec) : (s.setOp h x).op? h = some x := by
  obtain ⟨e, he, -⟩ := Option.map_eq_some_iff.1 found
  have key : ((fun e : Nat × OpRec => decide (e.1 = h)) ∘ fun e : Nat × OpRec => if e.1 = h then (h, x) else e) = fun e => decide (e.1 = h) := by
    funext e
    by_cases hk : e.1 = h <;> simp [hk]
  have hk : e.1 = h := by simpa using List.find?_some he
  show ((kset s.host.handles h x).find? _).map _ = _
  rw [kset, List.find?_map, key, he]
  simp [hk]

theorem State.newHandle_op? {s : State} (free : s.op? s.host.nextHandle = none) (o : OpRec) :
    (s.newHandle o).2.op? s.host.nextHandle = some o := by
  have none : s.host.handles.find? (fun e => e.1 = s.host.nextHandle) = none := by simpa [State.op?] using free
  simp [State.newHandle, State.op?, List.find?_append, none]

/-- Ending an operation moves the host's side alone: the handle, and the final completion. -/
theorem State.endHandle_frame (s : State) (h : Nat) (st : OpState) (status r1 : Nat) :
    s.endHandle h st status r1 = { s with host := (s.endHandle h st status r1).host } := by
  fun_cases State.endHandle s h st status r1 <;> rfl

theorem State.endHandle_op? {s : State} {h : Nat} {o : OpRec} (found : s.op? h = some o) (running : o.state = .running)
    (kept : o.forgotten = false) (st : OpState) (status r1 : Nat) :
    ((s.endHandle h st status r1).op? h).map (·.state) = some st := by
  unfold State.endHandle
  rw [found]
  simp only [running, kept, Bool.false_eq_true, if_false]
  split
  next h => cases h
  next =>
    cases ho : o.origin with
    | host f q c => exact congrArg (Option.map _) (State.op?_setOp_same found _)
    | peer n => exact congrArg (Option.map _) (State.op?_setOp_same found _)

/-! ## Refusal and the start of an amendment (R53, R70-R72) -/

@[simp] theorem State.mouldErr_mould (s : State) (h code : Nat) : (s.mouldErr h code).mould = { s.mould with lastErr := code } := by
  unfold State.mouldErr
  rw [State.endHandle_frame]

theorem State.mouldErr_frame (s : State) (h code : Nat) :
    s.mouldErr h code = { s with mould := (s.mouldErr h code).mould, host := (s.mouldErr h code).host } := by
  rw [State.mouldErr_mould]
  exact State.endHandle_frame ..

theorem State.mouldErr_op? {s : State} {h : Nat} {o : OpRec} (found : s.op? h = some o) (running : o.state = .running)
    (kept : o.forgotten = false) (code : Nat) : ((s.mouldErr h code).op? h).map (·.state) = some .done :=
  State.endHandle_op? (s := { s with mould := { s.mould with lastErr := code } }) found running kept ..

theorem State.amend_none_of_not_busy {s : State} (idle : s.amendBusy = false) : s.mould.amend = none := by
  simp only [State.amendBusy, Bool.or_eq_false_iff] at idle
  obtain ⟨⟨⟨⟨⟨-, none⟩, -⟩, -⟩, -⟩, -⟩ := idle
  simpa using none

section
variable {s : State} {h : Nat} {b : List Byte} {poison : Bool} {v : Verdict}

theorem State.startAmend_of_busy (busy : s.amendBusy = true) : s.startAmend h b poison v = s.mouldErr h 0x0E := if_pos busy

variable (idle : s.amendBusy = false)
include idle

theorem State.startAmend_of_error {c : Nat} (bad : s.checkImage b poison v true = .error c) : s.startAmend h b poison v = s.mouldErr h c := by
  simp [State.startAmend, idle, bad]

theorem State.startAmend_of_bar {x : Image} (good : s.checkImage b poison v true = .ok x) (bar : s.amendBar x ≠ 0) :
    s.startAmend h b poison v = s.mouldErr h (s.amendBar x) := by
  simp [State.startAmend, idle, good, bar]

theorem State.startAmend_of_ok {x : Image} (good : s.checkImage b poison v true = .ok x) (clear : s.amendBar x = 0) :
    s.startAmend h b poison v = s.beginDrain { handle := h, image := x } := by
  simp [State.startAmend, idle, good, clear]

end

theorem State.startInstall_of_ok {s : State} {h : Nat} {b : List Byte} {poison : Bool} {v : Verdict} {x : Image} (idle : s.installBusy = false)
    (good : s.checkImage b poison v false = .ok x) :
    s.startInstall h b poison v = { s with mould := { s.mould with install := some { handle := h, image := x } } } := by
  simp [State.startInstall, idle, good]

/-! ## Routes and poison do not see the host's side (R34, R183, R210) -/

section
variable {s t : State} (h : t.links = s.links)
include h

theorem State.joined_of_links : t.joined = s.joined := by
  have ends (e : Nat) : t.portEnd e = s.portEnd e := by rw [State.portEnd, h, State.portEnd]
  funext a b
  simp only [State.joined, State.portOpen, ends]

theorem State.pathOpen_of_links (l : List Nat) : t.pathOpen l = s.pathOpen l := by
  induction l with
  | nil => rfl
  | cons a r ih => cases r with
    | nil => rfl
    | cons b r => simp only [State.pathOpen, State.joined_of_links h, ih]

theorem State.shortest_of_links (b n : Nat) (ps : List (List Nat)) : t.shortest b n ps = s.shortest b n ps := by
  induction n generalizing ps with
  | zero => rfl
  | succ n ih => simp only [State.shortest, State.joined_of_links h, ih]

/-- Routes run over the ports alone (R34, R36). -/
theorem State.reach_of_links : t.reach = s.reach := by
  funext a b
  simp only [State.reach, State.path, State.pathOpen_of_links h, State.shortest_of_links h]
end

theorem State.meetsPoison_host (s : State) (x : HostState) (g : Agent) (a n : Nat) :
    ({ s with host := x } : State).meetsPoison g a n = s.meetsPoison g a n := by
  have reach : ({ s with host := x } : State).reach = s.reach := State.reach_of_links rfl
  have lost : ({ s with host := x } : State).lost = s.lost := by
    funext d a
    simp only [State.lost, reach]
    rfl
  have answered : ({ s with host := x } : State).answered = s.answered := by
    funext hm line k
    simp only [State.answered, State.hearthUp, reach]
    rfl
  have ownerGone : ({ s with host := x } : State).ownerGone = s.ownerGone := by
    funext line
    simp only [State.ownerGone, answered]
    rfl
  have goodOwner : ({ s with host := x } : State).goodOwner = s.goodOwner := by
    funext line
    simp only [State.goodOwner, answered]
    rfl
  simp only [State.meetsPoison, State.meetsLost, reach, lost, ownerGone, goodOwner]
  rfl

/-! ## The forwarded commands (R377, R531) -/

/-- The operation of a forwarded command on an image. -/
def State.imageOp (s : State) (f : Forwarded) (kind : OpKind) : OpRec :=
  { origin := .host f.fn f.sq f.cid, kind := kind, part := s.funcPart f.fn, cq := (s.sq f.sq).bind, base := f.fld 16 6, units := f.fld 22 4 }

/-- The state in which that operation has its handle, and the command its completion. -/
def State.imageBegun (s : State) (q : Nat) (f : Forwarded) (kind : OpKind) : State :=
  ((s.dropForwarded q).newHandle (s.imageOp f kind)).2.answer f 0 s.host.nextHandle 0

@[simp] theorem State.imageBegun_mould (s : State) (q : Nat) (f : Forwarded) (kind : OpKind) : (s.imageBegun q f kind).mould = s.mould := rfl

theorem State.imageBegun_op? {s : State} (free : s.op? s.host.nextHandle = none) (q : Nat) (f : Forwarded) (kind : OpKind) :
    (s.imageBegun q f kind).op? s.host.nextHandle = some (s.imageOp f kind) :=
  State.newHandle_op? (s := s.dropForwarded q) free _

theorem lowest_of_false {l : List (Bool × Nat)} (h : ∀ e ∈ l, e.1 = false) : lowest l = 0 := by
  have none : l.filter (·.1) = [] := List.filter_eq_nil_iff.2 fun e he => by simp [h e he]
  simp [lowest, none]

/-- A command of the PF on a range within its bounds, with a handle to spare, is accepted: its operation runs on the bytes. -/
theorem imageCommand_of_ok {s : State} {q op : Nat} {f : Forwarded} (mine : tellerOp op = false) (fn : f.fn = 0) (form : bodyReserved f 26 = false)
    (room : s.openHandles (.host f.fn f.sq f.cid) < 16) (src : s.srcOk (s.funcPart f.fn) (f.fld 16 6) (f.fld 22 4) 65536 = true)
    (awaits : s.Awaits q op f) (kind : OpKind) (k : Nat → List Byte → Bool → State → State) :
    imageCommand q op kind s k = k s.host.nextHandle (s.readBytes (f.fld 16 6) (f.fld 22 4)) (s.meetsPoison .mint (f.fld 16 6) (f.fld 22 4))
      (s.imageBegun q f kind) := by
  have taken : s.taken q op = s.dropForwarded q := by simp [State.taken, mine]
  have code : lowest [(bodyReserved f 26, 0x02), (decide (f.fn ≠ 0), 0x03), (decide (16 ≤ (s.dropForwarded q).openHandles (.host f.fn f.sq f.cid)), 0x09),
      (!(s.dropForwarded q).srcOk ((s.dropForwarded q).funcPart f.fn) (f.fld 16 6) (f.fld 22 4) 65536, 0x0A)] = 0 :=
    lowest_of_false (List.forall_mem_cons.2 ⟨form, List.forall_mem_cons.2 ⟨decide_eq_false (not_not.2 fn),
      List.forall_mem_cons.2 ⟨decide_eq_false (Nat.not_le.2 room), List.forall_mem_singleton.2 (congrArg not src)⟩⟩⟩)
  unfold imageCommand
  rw [onForwarded_awaits awaits, taken]
  dsimp only
  rw [if_neg (not_not.2 code)]
  exact congrArg (fun p => k s.host.nextHandle (s.readBytes (f.fld 16 6) (f.fld 22 4)) p (s.imageBegun q f kind))
    (State.meetsPoison_host s ((s.dropForwarded q).newHandle (s.imageOp f kind)).2.host .mint (f.fld 16 6) (f.fld 22 4))

section
variable {s : State} {q : Nat} {f : Forwarded} {v : Verdict} (fn : f.fn = 0) (form : bodyReserved f 26 = false)
  (room : s.openHandles (.host f.fn f.sq f.cid) < 16) (src : s.srcOk (s.funcPart f.fn) (f.fld 16 6) (f.fld 22 4) 65536 = true)
include fn form room src

theorem exec_amend_of_awaits (awaits : s.Awaits q 0x03 f) : exec (.amend q v) s = .next ((s.imageBegun q f .amend).startAmend s.host.nextHandle
    (s.readBytes (f.fld 16 6) (f.fld 22 4)) (s.meetsPoison .mint (f.fld 16 6) (f.fld 22 4)) v) :=
  congrArg Host.Outcome.next (imageCommand_of_ok rfl fn form room src awaits .amend _)

theorem exec_mouldInstall_of_awaits (awaits : s.Awaits q 0x06 f) : exec (.mouldInstall q v) s = .next ((s.imageBegun q f .mouldInstall).startInstall
    s.host.nextHandle (s.readBytes (f.fld 16 6) (f.fld 22 4)) (s.meetsPoison .mint (f.fld 16 6) (f.fld 22 4)) v) :=
  congrArg Host.Outcome.next (imageCommand_of_ok rfl fn form room src awaits .mouldInstall _)
end

/-! ## Messages on the staged image (R503) -/

/-- The operation that a peer's message on the staged image begins. -/
def State.stagedBegun (s : State) (h : MsgHdr) (n : Nat) (kind : OpKind) : State :=
  ((s.heard n h).newHandle { origin := s.peerOrigin n, kind := kind, part := 8 }).2

theorem State.heard_peerOrigin (s : State) (h : MsgHdr) (n : Nat) : (s.heard n h).peerOrigin n = s.peerOrigin n := by
  simp [State.heard, State.peerOrigin]

section
variable {s : State} {h : MsgHdr} {n : Nat} {b : List Byte} (speaks : Speaks s h n true) (len : b.length = 4) (fits : lfld b 0 4 ≤ 65536)
  (room : s.openHandles (s.peerOrigin n) < 4)
include speaks len fits room

theorem stagedImage_of_running {typ : Nat} {running : State → Bool} (busy : running (s.heard n h) = true) (kind : OpKind)
    (start : Nat → List Byte → State → State) : stagedImage typ kind h b s running start = .next ((s.heard n h).sendErr h typ 0x05 []) := by
  have form : (b.length == 4 && decide (lfld b 0 4 ≤ 65536)) = true := by simp [len, fits]
  have open_ : ¬ 4 ≤ (s.heard n h).openHandles (s.peerOrigin n) := Nat.not_le.2 room
  rw [stagedImage, msgRow_up speaks.up, form, sessionMsg_speaks speaks]
  simp only [State.heard_peerOrigin, open_, busy, if_false, if_true]

/-- Where the operation is not refused at once, its handle is the reply. -/
theorem stagedImage_of_started {typ : Nat} {running : State → Bool} {kind : OpKind} {start : Nat → List Byte → State → State} {t : State}
    (idle : running (s.heard n h) = false)
    (started : start s.host.nextHandle (s.staged (lfld b 0 4)) (s.stagedBegun h n kind) = t)
    (goes : (t.op? s.host.nextHandle).map (·.state) = some .running) :
    stagedImage typ kind h b s running start = .next (t.send h typ (toLE 4 s.host.nextHandle)) := by
  have form : (b.length == 4 && decide (lfld b 0 4 ≤ 65536)) = true := by simp [len, fits]
  have open_ : ¬ 4 ≤ (s.heard n h).openHandles (s.peerOrigin n) := Nat.not_le.2 room
  rw [stagedImage, msgRow_up speaks.up, form, sessionMsg_speaks speaks]
  simp only [State.heard_peerOrigin, open_, idle, Bool.false_eq_true, if_false]
  subst started
  exact congrArg _ (if_neg fun done => by cases goes.symm.trans done)

variable {v : Verdict}

theorem exec_amendMsg_of_running (busy : s.mould.amend.isSome = true) :
    exec (.amendMsg h b v) s = .next ((s.heard n h).sendErr h 0x16 0x05 []) := by
  show execAmendMsg h b v s = _
  exact stagedImage_of_running (running := fun s => s.mould.amend.isSome) speaks len fits room busy .amend _

variable {t : State}

theorem exec_amendMsg_of_started (idle : s.mould.amend = none)
    (started : (s.stagedBegun h n .amend).startAmend s.host.nextHandle (s.staged (lfld b 0 4)) false v = t)
    (goes : (t.op? s.host.nextHandle).map (·.state) = some .running) :
    exec (.amendMsg h b v) s = .next (t.send h 0x16 (toLE 4 s.host.nextHandle)) := by
  show execAmendMsg h b v s = _
  exact stagedImage_of_started (running := fun s => s.mould.amend.isSome) (start := fun k b s => s.startAmend k b false v) speaks len fits room (congrArg Option.isSome idle) started goes

theorem exec_mouldInstallMsg_of_started (idle : s.mould.install = none)
    (started : (s.stagedBegun h n .mouldInstall).startInstall s.host.nextHandle (s.staged (lfld b 0 4)) false v = t)
    (goes : (t.op? s.host.nextHandle).map (·.state) = some .running) :
    exec (.mouldInstallMsg h b v) s = .next (t.send h 0x1B (toLE 4 s.host.nextHandle)) := by
  show execMouldInstallMsg h b v s = _
  exact stagedImage_of_started (running := fun s => s.mould.install.isSome) (start := fun k b s => s.startInstall k b false v) speaks len fits room (congrArg Option.isSome idle) started goes
end

theorem State.stagedBegun_op? {s : State} (free : s.op? s.host.nextHandle = none) (h : MsgHdr) (n : Nat) (kind : OpKind) :
    (s.stagedBegun h n kind).op? s.host.nextHandle = some { origin := s.peerOrigin n, kind := kind, part := 8 } :=
  State.newHandle_op? (s := s.heard n h) free _

end Sys2Proof.Machine
end

section
/-! PROOF.  The steps of an amendment (R71): Fence, the scrub, and the grants. -/
namespace Sys2Proof.Machine
open Sys2Proof

/-! ## Ways and shares change hands (R191, R462) -/

theorem State.dropCopy_faults (s : State) (h l : Nat) : (s.dropCopy h l).faults = s.faults := by
  have back (u : State) (c : RcLine) : (u.wroteBack l c).faults = u.faults := by
    unfold State.wroteBack
    split <;> rfl
  unfold State.dropCopy
  split
  · rfl
  · dsimp only
    split
    · exact back ..
    · split
      · split
        · exact back ..
        · exact back ..
      · exact back ..

/-- New ways are coherence traffic: the lines of ways that change hands leave their caches. -/
theorem State.assignWays_coh (s : State) (parts : List (Nat × PartRec)) : Coh s (s.assignWays parts) :=
  Coh.foldl _ (fun _ _ h c => (Coh.foldl _ (fun _ _ l c => c.dropCopy h l) _ c).setHearth _ _) _ (.refl s)

theorem State.assignWays_faults (s : State) (parts : List (Nat × PartRec)) : (s.assignWays parts).faults = s.faults := by
  unfold State.assignWays
  refine foldl_keeps State.faults (fun u h => ?_) _ _
  dsimp only
  rw [State.setHearth_faults]
  exact foldl_keeps State.faults (fun w l => State.dropCopy_faults w h l) _ u

theorem State.assignWays_frame (s : State) (parts : List (Nat × PartRec)) : s.assignWays parts = { s with mem := (s.assignWays parts).mem } := by
  refine (s.assignWays_coh parts).rest.trans ?_
  rw [State.assignWays_faults]

/-! ## Fence (R71 step 3) -/

/-- The records that Fence leaves in force. -/
def MouldState.fenced (s : State) (a : Amend) : MouldState :=
  { s.mould with
    parts := s.mould.parts.map (fun e => (e.1, e.2.fenced (s.amended a.image e.1).1))
    wins := s.mould.wins.map (fun e => (e.1, e.2.fenced (s.amended a.image e.1).2))
    amend := some { a with step := .scrub, before := s.mould.parts, beforeWins := s.mould.wins, waits := [] } }

section
variable {s : State} {a : Amend} (amend : s.mould.amend = some a) (goes : a.suspended = false)
include amend goes

omit goes in
theorem exec_amendFence_of_flying (flying : s.inFlight a.waits ≠ []) : exec .amendFence s = .next s := by
  show execAmendFence s = _
  simp [execAmendFence, amend, flying]

section
variable (step : a.step = .drain) (held : s.teller.held = false)
include step held

theorem exec_amendFence_of_inUse (ended : s.inFlight a.waits = []) (used : s.resInUse a.image = true) :
    exec .amendFence s = .next (({ s with mould := { s.mould with amend := none } } : State).mouldErr a.handle 0x0D) := by
  show execAmendFence s = _
  simp [execAmendFence, amend, goes, step, held, ended, used]

theorem exec_amendFence_of_free (ended : s.inFlight a.waits = []) (free : s.resInUse a.image = false) :
    exec .amendFence s = .next (({ s with mould := .fenced s a } : State).assignWays (overlay s.mould.parts a.image.parts)) := by
  show execAmendFence s = _
  simp [execAmendFence, amend, goes, step, held, ended, free, MouldState.fenced]

end
end

/-! ## The scrub (R71 step 4, R72, R206, R207) -/

theorem sget_filter_key {α : Type} (d : α) (m : Store α) (keep : Nat → Bool) (k : Nat) :
    sget d (m.filter (fun e => keep e.1)) k = if keep k then sget d m k else d := by
  induction m with
  | nil => simp
  | cons e r ih =>
    obtain ⟨k', v⟩ := e
    by_cases hk : k' = k
    · subst hk
      cases h : keep k' <;> simp [h, sget_cons, ih]
    · cases h : keep k' <;> simp [h, sget_cons, ih, hk]

/-- Cached copies leave and directory states fall before a range is zeroed, and then its bytes are zero. -/
theorem State.readByte_zeroRange (s : State) (a n x : Nat) : (s.zeroRange a n).readByte x = if a ≤ x ∧ x < a + n then 0 else s.readByte x := by
  unfold State.zeroRange
  rw [State.readByte_zero]
  refine congrArg (ite _ _) (Coh.readByte ?_ x)
  exact Coh.foldl _ (fun _ _ e c => c.setDir e.1 0) _ (Coh.foldl _ (fun _ _ h c => c.setHearth h _) _ (.refl s))

/-- The units of a list are zeroed. -/
def State.clearUnits (s : State) (l : List Nat) : State := l.foldl (fun s u => s.zeroRange (u * 0x4000000) 0x4000000) s

theorem State.readByte_clearUnits {l : List Nat} {x : Nat} {s : State}
    (h : (∃ u ∈ l, u * 0x4000000 ≤ x ∧ x < u * 0x4000000 + 0x4000000) ∨ s.readByte x = 0) : (s.clearUnits l).readByte x = 0 := by
  induction l generalizing s with
  | nil => simpa [State.clearUnits] using h
  | cons u l ih =>
    refine ih (s := s.zeroRange (u * 0x4000000) 0x4000000) ?_
    rw [State.readByte_zeroRange]
    obtain ⟨w, hw, hx⟩ | zero := h
    · obtain rfl | hw := List.mem_cons.1 hw
      · exact .inr (if_pos hx)
      · exact .inl ⟨w, hw, hx⟩
    · right
      split
      · rfl
      · exact zero

/-- Released tiles are as after reset, and their stores zero. -/
def State.clearTiles (s : State) (o n : PartRec) : State :=
  (List.range 32).foldl (fun s t =>
    if o.tiles.getLsbD t && !n.tiles.getLsbD t && s.dieReady (4 + t / 8) then
      ((s.dropWaiter t).setTile t {}).zeroRange (storeBase t) 0x1000000 else s) s
/-- Released tallies, requests, rings, queues and contexts are as after reset. -/
def State.clearTables (s : State) (o n : PartRec) : State :=
  { s with
    mem := { s.mem with
      tallies := s.mem.tallies.filter (fun e => !lostUnit o.tally n.tally (e.1 / 64))
      talliesBroken := s.mem.talliesBroken.filter (fun e => !lostUnit o.tally n.tally (e.1 / 64)) }
    teller := { s.teller with
      requests := s.teller.requests.filter (fun e => !lostUnit o.req n.req (e.1 / 64))
      rings := s.teller.rings.filter (fun e => !lostUnit o.req n.req (e.1 / 64)) }
    host := { s.host with
      sqs := s.host.sqs.filter (fun e => !lostUnit o.sq n.sq e.1)
      cqs := s.host.cqs.filter (fun e => !lostUnit o.cq n.cq e.1) }
    wheels := { s.wheels with ctxs := s.wheels.ctxs.filter (fun e => !lostUnit o.ctx n.ctx e.1) } }

theorem State.clearReleased_eq (s : State) (o n : PartRec) : s.clearReleased o n =
    ((s.clearTiles o n).clearUnits ((dramUnits o).filter (fun u => !n.dram.any (·.has u)))).clearTables o n := rfl

section
variable (s : State) {o n : PartRec}

theorem State.clearReleased_tally {k : Nat} (lost : lostUnit o.tally n.tally (k / 64) = true) : (s.clearReleased o n).tally k = 0 := by
  rw [State.clearReleased_eq]
  exact (sget_filter_key 0 _ (fun k => !lostUnit o.tally n.tally (k / 64)) k).trans (if_neg (by simp [lost]))

theorem State.clearReleased_request {i : Nat} (lost : lostUnit o.req n.req (i / 64) = true) : (s.clearReleased o n).request i = {} := by
  rw [State.clearReleased_eq]
  exact (sget_filter_key ({} : Request) _ (fun i => !lostUnit o.req n.req (i / 64)) i).trans (if_neg (by simp [lost]))

theorem State.clearReleased_ring {i : Nat} (lost : lostUnit o.req n.req (i / 64) = true) : (s.clearReleased o n).ring i = {} := by
  rw [State.clearReleased_eq]
  exact (sget_filter_key ({} : Ring) _ (fun i => !lostUnit o.req n.req (i / 64)) i).trans (if_neg (by simp [lost]))

theorem State.clearReleased_readByte {u i : Nat} (had : u ∈ dramUnits o) (lost : n.dram.any (·.has u) = false) (inside : i < 0x4000000) :
    (s.clearReleased o n).readByte (u * 0x4000000 + i) = 0 := by
  rw [State.clearReleased_eq]
  exact State.readByte_clearUnits (.inl ⟨u, List.mem_filter.2 ⟨had, by simp [lost]⟩, Nat.le_add_right .., Nat.add_lt_add_left inside _⟩)
end

/-- A die that holds something released is resetting (R72). -/
def State.scrubWaits (s : State) (a : Amend) : Bool :=
  a.before.any (fun e => (List.range 4).any (fun k =>
    ((s.die k).resetting && e.2.releasesAt ((s.part? e.1).getD e.2) k false) ||
      ((s.die (4 + k)).resetting && e.2.releasesAt ((s.part? e.1).getD e.2) k true)))

/-- What the losing partitions released is cleared. -/
def State.scrubbed (s : State) (a : Amend) : State := a.before.foldl (fun t e => t.clearReleased e.2 ((s.part? e.1).getD e.2)) s

/-- The amendment goes on to Grant, with the runs that the gaining partitions have in flight in `s` awaited. -/
def Amend.toGrant (a : Amend) (s : State) : Amend := { a with step := .grant, waits := s.runsOf (s.gaining a.image) }

section
variable {s : State} {a : Amend} (amend : s.mould.amend = some a)
include amend

theorem exec_amendScrubDone_eq : exec .amendScrubDone s =
    if a.step ≠ .scrub ∨ a.suspended ∨ s.islands.noneActive ∨ s.scrubWaits a then .next s
    else .next { s.scrubbed a with mould := { (s.scrubbed a).mould with amend := some (a.toGrant s) } } := by
  show execAmendScrubDone s = _
  simp only [execAmendScrubDone, amend]
  rfl

theorem exec_amendScrubDone_of_waits (waits : s.scrubWaits a = true) : exec .amendScrubDone s = .next s := by
  rw [exec_amendScrubDone_eq amend]
  exact if_pos (.inr (.inr (.inr waits)))

theorem exec_amendScrubDone_of_clear (goes : a.suspended = false) (step : a.step = .scrub) (active : s.islands.noneActive = false)
    (clear : s.scrubWaits a = false) :
    exec .amendScrubDone s = .next { s.scrubbed a with mould := { (s.scrubbed a).mould with amend := some (a.toGrant s) } } := by
  rw [exec_amendScrubDone_eq amend]
  exact if_neg (by simp [goes, step, active, clear])
end

theorem State.scrubWaits_eq_false {s : State} {a : Amend} (up : ∀ d < 8, (s.die d).resetting = false) : s.scrubWaits a = false := by
  refine List.any_eq_false.2 fun e _ => ?_
  rw [Bool.not_eq_true]
  refine List.any_eq_false.2 fun k hk => ?_
  have hk := List.mem_range.1 hk
  simp [up k (by omega), up (4 + k) (by omega)]

theorem State.scrubWaits_of_resetting {s : State} {a : Amend} {p k : Nat} {o n : PartRec} (before : (p, o) ∈ a.before) (now : s.part? p = some n)
    (hk : k < 4) (resetting : (s.die k).resetting = true) (released : o.releasesAt n k false = true) : s.scrubWaits a = true :=
  List.any_eq_true.2 ⟨(p, o), before, List.any_eq_true.2 ⟨k, List.mem_range.2 hk, by simp [now, resetting, released]⟩⟩

/-! ## Grant (R71 step 5) -/

theorem find?_sins_of_ne {α : Type} (m : Store α) {k j : Nat} (v : α) (h : j ≠ k) :
    (sins m k v).find? (fun e => e.1 = j) = m.find? (fun e => e.1 = j) := by
  induction m with
  | nil => simp [sins, h.symm]
  | cons e r ih =>
    obtain ⟨k', v'⟩ := e
    unfold sins
    split
    · simp [h.symm]
    · split
      next hk => subst hk; simp [h.symm]
      next => simp only [List.find?_cons, ih]

/-- `t` is `s` once the partitions `l` have received resources: records and power shares alone move, and the record of no other partition. -/
structure Grants (l : List Nat) (s t : State) : Prop where
  frame : t = { s with mould := { s.mould with parts := t.mould.parts, wins := t.mould.wins }, power := t.power }
  part? : ∀ q, q ∉ l → t.part? q = s.part? q

namespace Grants
variable {l : List Nat} {s t : State} (h : Grants l s t)
include h

theorem serial : t.mould.serial = s.mould.serial := by rw [h.frame]
theorem update : t.update = s.update := by rw [h.frame]
theorem host : t.host = s.host := by rw [h.frame]

end Grants

theorem State.grantTo_grants (s : State) (x : Image) (p : Nat) : Grants [p] s (s.grantTo x p) where
  frame := rfl
  part? q hq := congrArg (Option.map _) (find?_sins_of_ne s.mould.parts (s.amended x p).1 (by simpa using hq))

theorem State.grantTo_foldl (x : Image) (l : List Nat) (s : State) : Grants l s (l.foldl (fun s p => s.grantTo x p) s) := by
  induction l generalizing s with
  | nil => exact ⟨rfl, fun _ _ => rfl⟩
  | cons p l ih =>
    have one := s.grantTo_grants x p
    have rest := ih (s.grantTo x p)
    refine ⟨rest.frame.trans (by rw [one.frame]; rfl), fun q hq => ?_⟩
    rw [List.mem_cons, not_or] at hq
    exact (rest.part? q hq.2).trans (one.part? q (by simpa using hq.1))

/-- Gaining partitions that have not their resources yet, and those of them that have reached their own step boundary. -/
def State.gainers (s : State) (a : Amend) : List Nat := (List.range 8).filter (fun p => !a.granted.contains p && s.gaining a.image p)
def State.readyGainers (s : State) (a : Amend) : List Nat := (s.gainers a).filter (fun p => (s.inFlight a.waits).all (fun r => r.1 ≠ p))
/-- Those receive their resources. -/
def State.granting (s : State) (a : Amend) : State := (s.readyGainers a).foldl (fun s p => s.grantTo a.image p) s

/-- The amendment waits for the partitions that have not. -/
def State.grantedSome (s : State) (a : Amend) : State :=
  { s.granting a with mould := { (s.granting a).mould with
      amend := some { a with waits := s.inFlight a.waits, granted := a.granted ++ s.readyGainers a } } }

theorem State.granting_grants (s : State) (a : Amend) : Grants (s.readyGainers a) s (s.granting a) := State.grantTo_foldl ..

section
variable {s : State} {a : Amend}

theorem State.mem_gainers {p : Nat} : p ∈ s.gainers a ↔ p < 8 ∧ p ∉ a.granted ∧ s.gaining a.image p = true := by
  simp [State.gainers]

theorem State.mem_readyGainers {p : Nat} : p ∈ s.readyGainers a ↔ p ∈ s.gainers a ∧ ∀ r ∈ s.inFlight a.waits, r.1 ≠ p := by
  simp only [State.readyGainers, List.mem_filter, List.all_eq_true, decide_eq_true_eq]

theorem State.readyGainers_of_boundary (ended : ∀ r ∈ s.inFlight a.waits, r.1 ∈ a.granted ∨ s.gaining a.image r.1 = false) :
    s.readyGainers a = s.gainers a := by
  refine List.filter_eq_self.2 fun p hp => List.all_eq_true.2 fun r hr => decide_eq_true fun e => ?_
  obtain ⟨-, new, gains⟩ := State.mem_gainers.1 hp
  obtain old | not := ended r hr
  · exact new (e ▸ old)
  · rw [e, gains] at not
    cases not

theorem State.readyGainers_length_lt {r : Nat × Nat} (flying : r ∈ s.inFlight a.waits) (hp : r.1 < 8) (new : r.1 ∉ a.granted)
    (gains : s.gaining a.image r.1 = true) : (s.readyGainers a).length < (s.gainers a).length := by
  refine lt_of_le_of_ne (List.length_filter_le ..) fun e => ?_
  have all := List.filter_eq_self.1 (List.filter_sublist.eq_of_length e) r.1 (State.mem_gainers.2 ⟨hp, new, gains⟩)
  exact of_decide_eq_true (List.all_eq_true.1 all r flying) rfl

variable (amend : s.mould.amend = some a) (goes : a.suspended = false) (step : a.step = .grant) (held : s.teller.held = false)
include amend goes step held

theorem exec_amendGrant_eq : exec .amendGrant s = if (s.readyGainers a).length < (s.gainers a).length then .next (s.grantedSome a)
    else .next ((s.granting a).endAmend a) := by
  show execAmendGrant s = _
  simp only [execAmendGrant, amend]
  exact if_neg (by simp [goes, step, held])

theorem exec_amendGrant_of_boundary (ended : ∀ r ∈ s.inFlight a.waits, r.1 ∈ a.granted ∨ s.gaining a.image r.1 = false) :
    exec .amendGrant s = .next ((s.granting a).endAmend a) := by
  rw [exec_amendGrant_eq amend goes step held, State.readyGainers_of_boundary ended]
  exact if_neg (Nat.lt_irrefl _)

theorem exec_amendGrant_of_flying {r : Nat × Nat} (flying : r ∈ s.inFlight a.waits) (hp : r.1 < 8) (new : r.1 ∉ a.granted)
    (gains : s.gaining a.image r.1 = true) : exec .amendGrant s = .next (s.grantedSome a) := by
  rw [exec_amendGrant_eq amend goes step held]
  exact if_pos (State.readyGainers_length_lt flying hp new gains)
end

/-! ### The last grant -/

theorem State.slot_setSlot_of_same (s : State) (b : Bool) (x : Slot) : (s.setSlot b x).slot b = x := by simp

section
variable (s : State) (a : Amend)

theorem State.endAmend_mould : (s.endAmend a).mould = { s.mould with
    parts := overlay a.before a.image.parts, wins := overlay a.beforeWins a.image.wins, serial := a.image.serial, amend := none,
    amendCount := min 65535 (s.mould.amendCount + 1) } := by
  unfold State.endAmend
  dsimp only
  rw [State.endHandle_frame]
  rfl

theorem State.endAmend_highestSerial : (s.endAmend a).ledger.highestSerial = max s.ledger.highestSerial a.image.serial := by
  unfold State.endAmend
  dsimp only
  rw [State.endHandle_frame]
  rfl

theorem State.endAmend_amendLog (room : (s.slot s.mould.firedSlotB).amendLog.length < 256) :
    ((s.endAmend a).slot s.mould.firedSlotB).amendLog = (s.slot s.mould.firedSlotB).amendLog ++ [a.image] := by
  unfold State.endAmend
  dsimp only
  rw [State.endHandle_frame]
  refine (congrArg Slot.amendLog (State.slot_setSlot_of_same s s.mould.firedSlotB _)).trans ?_
  simp [Slot.append, room]

theorem State.endAmend_op? {o : OpRec} (found : s.op? a.handle = some o) (running : o.state = .running) (kept : o.forgotten = false) :
    ((s.endAmend a).op? a.handle).map (·.state) = some .done := by
  unfold State.endAmend
  refine State.endHandle_op? (o := o) ?_ running kept ..
  exact found
end

end Sys2Proof.Machine
end

section
/-! PROOF.  O59: MOULD_INSTALL_WRITE_DONE, and the changes of the mould together. -/
namespace Sys2Proof.Machine
open Sys2Proof

/-! ## The write of an installation (R66) -/

/-- A slot with its mould area, log and checkpoints erased. -/
def Slot.mouldErased (x : Slot) : Slot := { x with mould := none, amendLog := [], checkA := none, checkB := none }

/-- Step 2 of R66 touches the fired slot and the installation's record, and erases the slot's areas unless it has done so. -/
theorem State.beginWrite_spec {s : State} {i : Install} (install : s.mould.install = some i) :
    s.beginWrite = { s with update := s.beginWrite.update, mould := { s.mould with install := some { i with writing := true } } } ∧
      s.beginWrite.slot (!s.mould.firedSlotB) = s.slot (!s.mould.firedSlotB) ∧
      (i.writing = false → s.beginWrite.slot s.mould.firedSlotB = (s.slot s.mould.firedSlotB).mouldErased) := by
  unfold State.beginWrite
  rw [install]
  dsimp only
  split
  next writing =>
    refine ⟨?_, rfl, fun h => by rw [writing] at h; cases h⟩
    obtain ⟨handle, image, w⟩ := i
    subst writing
    rw [← install]
  next =>
    refine ⟨rfl, ?_, fun _ => State.slot_setSlot_of_same ..⟩
    exact (State.setSlot_slot s _ _ _).trans (if_neg (by simp))

theorem exec_mouldInstallWriteDone_of_waits {s : State} {i : Install} (install : s.mould.install = some i)
    (waits : (i.writing = false ∧ s.opSuspended i.handle = true) ∨ s.islands.noneActive = true) (ok : Bool) :
    exec (.mouldInstallWriteDone ok) s = .next s := by
  show execMouldInstallWriteDone ok s = _
  simp only [execMouldInstallWriteDone, install]
  exact if_pos (waits.imp (fun h => by simp [h.1, h.2]) id)

/-- The image stands in the fired slot, and waits for the next firing. -/
def State.installed (s : State) (i : Install) : State :=
  let t := { s.beginWrite with mould := { s.beginWrite.mould with install := none } }
  let t := t.setSlot t.mould.firedSlotB { t.slot t.mould.firedSlotB with mould := some i.image }
  let t := { t with
    mould := { t.mould with installed := true }
    ledger := { t.ledger with highestSerial := max t.ledger.highestSerial i.image.serial } }
  (t.noteMould i.image.serial 0).endHandle i.handle .done 0 0

/-- The write failed. -/
def State.writeFailed (s : State) (i : Install) : State :=
  (({ s.beginWrite with mould := { s.beginWrite.mould with install := none } } : State).raise { source := 408 }).endHandle i.handle .done 0x07 1

section
variable {s : State} {i : Install} (install : s.mould.install = some i)
include install

section
variable (goes : i.writing = true ∨ s.opSuspended i.handle = false) (active : s.islands.noneActive = false)
include goes active

theorem exec_mouldInstallWriteDone_of_ok : exec (.mouldInstallWriteDone true) s = .next (s.installed i) := by
  show execMouldInstallWriteDone true s = _
  simp only [execMouldInstallWriteDone, install]
  exact if_neg (by obtain h | h := goes <;> simp [h, active])

theorem exec_mouldInstallWriteDone_of_failed : exec (.mouldInstallWriteDone false) s = .next (s.writeFailed i) := by
  show execMouldInstallWriteDone false s = _
  simp only [execMouldInstallWriteDone, install]
  exact if_neg (by obtain h | h := goes <;> simp [h, active])
end

omit install in
theorem State.installed_slot (b : Bool) : (s.installed i).slot b = if b = s.beginWrite.mould.firedSlotB
    then { s.beginWrite.slot s.beginWrite.mould.firedSlotB with mould := some i.image } else s.beginWrite.slot b := by
  rw [← State.setSlot_slot]
  unfold State.installed
  dsimp only
  rw [State.endHandle_frame]
  rfl

theorem State.installed_spec : (s.installed i).mould = { s.mould with install := none, installed := true } ∧
    (s.installed i).ledger.highestSerial = max s.ledger.highestSerial i.image.serial ∧
    (s.installed i).slot (!s.mould.firedSlotB) = s.slot (!s.mould.firedSlotB) ∧
    (s.installed i).slot s.mould.firedSlotB = { s.beginWrite.slot s.mould.firedSlotB with mould := some i.image } := by
  obtain ⟨frame, other, -⟩ := State.beginWrite_spec install
  have fired : s.beginWrite.mould.firedSlotB = s.mould.firedSlotB := by rw [frame]
  have mould : (s.installed i).mould = { s.beginWrite.mould with install := none, installed := true } := by
    unfold State.installed
    dsimp only
    rw [State.endHandle_frame]
    rfl
  have serial : (s.installed i).ledger.highestSerial = max s.beginWrite.ledger.highestSerial i.image.serial := by
    unfold State.installed
    dsimp only
    rw [State.endHandle_frame]
    rfl
  refine ⟨by rw [mould, frame], by rw [serial, frame], ?_, ?_⟩
  · rw [State.installed_slot, fired, if_neg (by simp), other]
  · rw [State.installed_slot, fired, if_pos rfl]

theorem State.writeFailed_spec : (s.writeFailed i).mould = { s.mould with install := none } ∧
    (s.writeFailed i).faults.raised = s.faults.raised ++ [{ source := 408 }] ∧ (s.writeFailed i).update = s.beginWrite.update := by
  obtain ⟨frame, -, -⟩ := State.beginWrite_spec install
  unfold State.writeFailed
  rw [State.endHandle_frame]
  refine ⟨?_, ?_, rfl⟩
  · show ({ s.beginWrite.mould with install := none } : MouldState) = _
    rw [frame]
  · show s.beginWrite.faults.raised ++ _ = _
    rw [frame]
end

theorem State.install_none_of_not_busy {s : State} (idle : s.installBusy = false) : s.mould.install = none := by
  simp only [State.installBusy, Bool.or_eq_false_iff] at idle
  obtain ⟨⟨⟨⟨⟨⟨⟨-, none⟩, -⟩, -⟩, -⟩, -⟩, -⟩, -⟩ := idle
  simpa using none

/-- Settles O59: each row of an amendment or an installation is the next state that the equations above name, case by case; what the
statement says of it are the lemmas on that state. -/
theorem mouldChanges : Obligations.MouldChanges := by
  unfold Obligations.MouldChanges
  refine ⟨?commands, ?steps, ?none, ?write, ?messages⟩
  case commands =>
    intro s q f v fn form room free src b poison
    have begun (kind : OpKind) := State.imageBegun_op? free q f kind
    refine ⟨fun awaits idle => ?_, fun awaits busy => ?_, fun awaits idle x good => ?_⟩
    · have run := exec_amend_of_awaits (v := v) fn form room src awaits
      refine ⟨fun c bad => ?_, fun x good bar => ?_, fun x good clear => ?_⟩
      · rw [State.startAmend_of_error (s := s.imageBegun q f .amend) idle bad] at run
        refine ⟨_, run, by simp, by simpa using State.amend_none_of_not_busy idle, State.mouldErr_op? (begun _) rfl rfl c⟩
      · rw [State.startAmend_of_bar (s := s.imageBegun q f .amend) idle good bar] at run
        exact ⟨_, run, by simp; rfl, by simpa using State.amend_none_of_not_busy idle⟩
      · rw [State.startAmend_of_ok (s := s.imageBegun q f .amend) idle good clear] at run
        exact ⟨_, run, rfl, rfl, congrArg (Option.map _) (begun _), rfl⟩
    · refine ⟨_, (exec_amend_of_awaits fn form room src awaits).trans
        (congrArg _ (State.startAmend_of_busy (s := s.imageBegun q f .amend) busy)), by simp, by simp⟩
    · exact ⟨_, (exec_mouldInstall_of_awaits fn form room src awaits).trans
        (congrArg _ (State.startInstall_of_ok (s := s.imageBegun q f .mouldInstall) idle good)), rfl, rfl, rfl, rfl⟩
  case steps =>
    intro s a amend goes
    refine ⟨fun step held => ⟨fun ended used => ?_, fun ended free => ?_, fun flying => exec_amendFence_of_flying amend flying⟩,
      fun step active before => ?_, fun p o n step active before now => ⟨fun up => ?_, fun k hk resetting released => ?_⟩, 
      fun o step held ended found running kept room => ?_, fun r step held flying hp new gains => ?_⟩
    · exact ⟨_, exec_amendFence_of_inUse amend goes step held ended used, by simp, by simp, by simp, State.mouldErr_frame _ _ _⟩
    · refine ⟨_, exec_amendFence_of_free amend goes step held ended free, ?_⟩
      rw [State.assignWays_frame]
      exact ⟨rfl, fun e he => List.mem_map_of_mem he, fun e he => List.mem_map_of_mem he, rfl⟩
    · refine ⟨_, exec_amendScrubDone_of_clear amend goes step active (by simp [State.scrubWaits, before]), rfl, ?_⟩
      simp only [State.scrubbed, before, List.foldl_nil]
    · have scrubbed : s.scrubbed a = s.clearReleased o n := by simp [State.scrubbed, before, now]
      refine ⟨_, exec_amendScrubDone_of_clear amend goes step active (State.scrubWaits_eq_false up), rfl, ?_⟩
      rw [scrubbed]
      exact ⟨fun k lost => State.clearReleased_tally s lost, fun i lost => ⟨State.clearReleased_request s lost, State.clearReleased_ring s lost⟩,
        fun u had lost i inside => State.clearReleased_readByte s had lost inside⟩
    · exact exec_amendScrubDone_of_waits amend (State.scrubWaits_of_resetting (by simp [before]) now hk resetting released)
    · have grants := (s.granting_grants a).frame
      have mould := State.endAmend_mould (s.granting a) a
      have serial := State.endAmend_highestSerial (s.granting a) a
      have log := State.endAmend_amendLog (s.granting a) a (by rw [grants]; exact room)
      have done := State.endAmend_op? (s.granting a) a (o := o) (by rw [grants]; exact found) running kept
      rw [grants] at log
      refine ⟨_, exec_amendGrant_of_boundary amend goes step held ended, by rw [mould], by rw [mould], by rw [mould], by rw [mould],
        by rw [serial, grants], ?_, done⟩
      rw [grants]
      exact log
    · have grants := s.granting_grants a
      refine ⟨s.grantedSome a, _, exec_amendGrant_of_flying amend goes step held flying hp new gains, rfl, step, rfl,
        fun p hp => List.mem_append_left _ hp, grants.serial,
        grants.part? r.1 fun ready => (State.mem_readyGainers.1 ready).2 r flying rfl, grants.update,
        grants.host⟩
  case none =>
    intro s none
    refine ⟨?_, ?_, ?_⟩
    · show execAmendFence s = _
      simp [execAmendFence, none]
    · show execAmendScrubDone s = _
      simp [execAmendScrubDone, none]
    · show execAmendGrant s = _
      simp [execAmendGrant, none]
  case write =>
    intro s i install k
    refine ⟨fun fresh suspended ok => exec_mouldInstallWriteDone_of_waits install (.inl ⟨fresh, suspended⟩) ok,
      fun inactive ok => exec_mouldInstallWriteDone_of_waits install (.inr inactive) ok, fun goes active => ?_⟩
    obtain ⟨-, other, erased⟩ := State.beginWrite_spec install
    constructor
    · obtain ⟨mould, serial, kept, written⟩ := State.installed_spec install
      refine ⟨_, exec_mouldInstallWriteDone_of_ok install goes active, congrArg Slot.mould written, fun fresh => ?_, kept,
        by rw [mould], by rw [mould], serial, by rw [mould]⟩
      show ((s.installed i).slot s.mould.firedSlotB).amendLog = _ ∧ ((s.installed i).slot s.mould.firedSlotB).checkA = _ ∧
        ((s.installed i).slot s.mould.firedSlotB).checkB = _
      rw [written, erased fresh]
      exact ⟨rfl, rfl, rfl⟩
    · obtain ⟨mould, raised, update⟩ := State.writeFailed_spec install
      have slot (b : Bool) : (s.writeFailed i).slot b = s.beginWrite.slot b := by rw [State.slot, update, State.slot]
      refine ⟨_, exec_mouldInstallWriteDone_of_failed install goes active, fun fresh => ?_, (slot _).trans other, by rw [mould], by rw [mould], raised⟩
      show ((s.writeFailed i).slot k).mould = _ ∧ ((s.writeFailed i).slot k).amendLog = _
      rw [slot, erased fresh]
      exact ⟨rfl, rfl⟩
  case messages =>
    intro s h n b v speaks len fits room free image
    have begun (kind : OpKind) := State.stagedBegun_op? free h n kind
    refine ⟨fun busy => exec_amendMsg_of_running speaks len fits room busy, fun x idle good clear => ?_, fun x idle good => ?_⟩
    · exact ⟨_, exec_amendMsg_of_started speaks len fits room (State.amend_none_of_not_busy idle)
        (State.startAmend_of_ok (s := s.stagedBegun h n .amend) idle good clear) (congrArg (Option.map _) (begun _)), rfl, rfl⟩
    · exact ⟨_, exec_mouldInstallMsg_of_started speaks len fits room (State.install_none_of_not_busy idle)
        (State.startInstall_of_ok (s := s.stagedBegun h n .mouldInstall) idle good)
        (congrArg (Option.map _) (begun _)), rfl, rfl⟩

end Sys2Proof.Machine
end

section
/-! PROOF.  Fences and lost dies while nothing is under way (R451-R453): a firing meets them before the first request, queue or ware. -/
namespace Sys2Proof.Machine
open Sys2Proof

/-- Nothing is under way: no request, ware, queue, handle, stream or session, and no tile holds anything; `n` firings are counted, and
`serial` is the highest serial. -/
structure Still (n serial : Nat) (s : State) : Prop where
  firingCount : s.ledger.firingCount = n
  highestSerial : s.ledger.highestSerial = serial
  testMode : s.faults.testMode = false
  requests : s.teller.requests = []
  wares : s.teller.wares = []
  sqs : s.host.sqs = []
  cqs : s.host.cqs = []
  funcs : s.host.funcs = []
  handles : s.host.handles = []
  ctxs : s.wheels.ctxs = []
  sessions : s.sec.sessions = []
  posted : s.reg.posted = []
  amend : s.mould.amend = none
  tiles : s.tiles = []

/-- The first part of losing vault v: partitions with DRAM are reset, their wares unloaded, and their DRAM is undefined. -/
def State.losePartitions (s : State) (v : Nat) : State :=
  let parts := s.mould.parts.filter (fun e => !e.2.dram.isEmpty)
  let s := (parts.foldl (fun s e => s.partitionReset e.1) s).dropHomed (8 + v)
  let s := { s with teller := { s.teller with wares := s.teller.wares.filter (fun w => !parts.any (fun e => e.1 == w.2.part)) } }
  parts.foldl (fun s e => e.2.dram.foldl (fun s r =>
    let n := min (s.dramTop - r.first * 0x4000000) (r.count * 0x4000000)
    (s.zero (r.first * 0x4000000) n).freeBytes (r.first * 0x4000000) n) s) s
/-- The second part: the vault's wheels, and what the host or the stream ports had of it. -/
def State.loseHost (s : State) (v : Nat) : State :=
  let s := [2 * v, 2 * v + 1].foldl (fun s w => s.setWheel w {}) (s.setVault v {})
  if v = 0 then
    let s := s.closeContexts (fun c => (s.ctx c).cfg.wheel < 2) 0
    let s := if s.host.linkUp then s.raise { source := 301 } else s
    { s with host := { s.host with sqs := [], cqs := [], funcs := [], forwarded := [], due := [], staging := [], vfEnable := false,
                                   vfBarLog2 := 0, vfBarBase := 0, linkUp := false, linkTraining := false } }
  else
    let s := s.loseContexts
    { s with host := { s.host with eth := [] } }
theorem State.loseVault_eq (s : State) (v : Nat) : s.loseVault v = (s.losePartitions v).loseHost v := rfl

namespace Still

theorem foldl {n serial : Nat} {α : Type} {f : State → α → State} (keeps : ∀ s a, Still n serial s → Still n serial (f s a)) (l : List α)
    {s : State} (h : Still n serial s) : Still n serial (l.foldl f s) := by
  induction l generalizing s with
  | nil => exact h
  | cons a l ih => exact ih (keeps s a h)

variable {n serial : Nat} {s : State} (h : Still n serial s)
include h

omit h in
theorem ite {c : Prop} [Decidable c] {a b : State} (ha : Still n serial a) (hb : Still n serial b) : Still n serial (if c then a else b) := by
  split
  · exact ha
  · exact hb

theorem request (i : Nat) : s.request i = {} := by rw [State.request, h.requests, sget_nil]
theorem sq (q : Nat) : s.sq q = {} := by rw [State.sq, h.sqs, sget_nil]
theorem cq (q : Nat) : s.cq q = {} := by rw [State.cq, h.cqs, sget_nil]
theorem func (f : Nat) : s.func f = {} := by rw [State.func, h.funcs, sget_nil]
theorem tile (t : Nat) : s.tile t = {} := by rw [State.tile, h.tiles, sget_nil]

/-! ## Updates that touch none of this -/

theorem raise (f : FaultReq) : Still n serial (s.raise f) := { h with }
theorem note (typ : Nat) (d : List Byte) : Still n serial (s.note typ d) := { h with }
theorem setDie (d : Nat) (x : DieState) : Still n serial (s.setDie d x) := { h with }
theorem setHearth (k : Nat) (x : Hearth) : Still n serial (s.setHearth k x) := { h with }
theorem setVault (v : Nat) (x : Vault) : Still n serial (s.setVault v x) := { h with }
theorem setWheel (w : Nat) (x : WheelUnit) : Still n serial (s.setWheel w x) := { h with }
theorem setPortEnd (e : Nat) (x : PortEnd) : Still n serial (s.setPortEnd e x) := { h with }
theorem bothEnds (j : Nat) (f : PortEnd → PortEnd) : Still n serial (s.bothEnds j f) := { h with }
theorem setTilePower (t : Nat) (x : TilePower) : Still n serial (s.setTilePower t x) := { h with }
theorem zero (a k : Nat) : Still n serial (s.zero a k) := { h with }
theorem freeBytes (a k : Nat) : Still n serial (s.freeBytes a k) := by
  unfold State.freeBytes State.undefine
  split
  · exact h
  · exact { h with }
theorem setMem (x : MemState) : Still n serial { s with mem := x } := { h with }
theorem coh {t : State} (c : Coh s t) : Still n serial t := by
  rw [c.rest]
  exact { h with }

/-! ## What is under way ends: there is nothing (R429, R499) -/

theorem requestsOf (p : Nat) : s.requestsOf p = [] := by rw [State.requestsOf, h.requests, List.filter_nil]
theorem killRequests (p reason : Nat) (which : Nat → Bool) : s.killRequests p reason which = s := by
  rw [State.killRequests, h.requestsOf, List.foldl_nil]
theorem closeContexts (which : Nat → Bool) (evt : BitVec 5) : s.closeContexts which evt = s := by
  rw [State.closeContexts, h.ctxs, List.foldl_nil]
theorem cancelOps (f : Nat) (amends : Bool) : s.cancelOps f amends = s := by rw [State.cancelOps, h.handles, List.foldl_nil]
theorem breakRuns (lost : Nat → Bool) : s.breakRuns lost = s := by rw [State.breakRuns, h.wares, List.foldl_nil]
theorem failWares (which : Ware → Bool) : s.failWares which = s := by rw [State.failWares, h.wares, List.foldl_nil]
theorem amendDie (k : Nat) (hearth : Bool) : s.amendDie k hearth = s := by
  unfold State.amendDie
  rw [h.amend]
theorem closeSession (p k : Nat) : s.closeSession p k = s := by
  have free : s.session p k = {} := by rw [State.session, h.sessions, sget_nil]
  unfold State.closeSession
  rw [free]
theorem closeSessions (p : Nat) : Still n serial (s.closeSessions p) :=
  foldl (fun _ k h => by rwa [h.closeSession]) _ h
theorem dropRuns (p : Nat) : Still n serial (s.dropRuns p) := { h with wares := by rw [State.dropRuns, h.wares, List.map_nil] }
theorem dropTails (t : Nat) : Still n serial (s.dropTails t) := { h with }
theorem dropWaiter (t : Nat) : Still n serial (s.dropWaiter t) := foldl (fun _ k h => h.setHearth k _) _ h
theorem dropContribution (t : Nat) : Still n serial (s.dropContribution t) := { h with }
/-- An empty tile that is emptied is not listed. -/
theorem setTile {x : Tile} (empty : x = {}) (t : Nat) : Still n serial (s.setTile t x) :=
  { h with tiles := by rw [State.setTile, h.tiles, empty]; rfl }
theorem flushQueue (t q : Nat) : Still n serial (flushQueue s t q) := by
  unfold Sys2Proof.Machine.flushQueue
  rw [h.tile t]
  exact h.setTile rfl t
theorem partitionReset (p : Nat) : Still n serial (s.partitionReset p) := by
  unfold State.partitionReset
  split
  · exact h
  next r _ =>
    rw [h.killRequests]
    dsimp only
    rw [h.closeContexts]
    have flushed : Still n serial ((List.range 32).foldl (fun s t =>
        if r.tiles.getLsbD t then (List.range 4).foldl (fun s q => Sys2Proof.Machine.flushQueue s t q) (s.dropTails t) else s) s) :=
      foldl (fun _ t h => ite (foldl (fun _ q h => h.flushQueue t q) _ (h.dropTails t)) h) _ h
    have ended := flushed.dropRuns p
    rw [ended.cancelOps]
    exact ite (ended.closeSessions p) ended

/-! ## Tiles and dies are lost (R209, R211, R453) -/

theorem loseTile (t : Nat) (engines : Bool) : Still n serial (s.loseTile t engines) := by
  unfold State.loseTile
  rw [h.tile t]
  have empty : (if engines then {} else { engine0 := ({} : Tile).engine0, engine1 := ({} : Tile).engine1 } : Tile) = {} := by
    cases engines <;> rfl
  have lost := (((h.dropWaiter t).dropContribution t).setTile empty t).dropTails t
  exact { lost with }
theorem loseKiln (k : Nat) (hearth : Bool) : Still n serial (s.loseKiln k hearth) := by
  unfold State.loseKiln
  rw [h.amendDie]
  have lost : Still n serial ((List.range 8).foldl (fun s i => s.loseTile (8 * k + i) hearth) s) := foldl (fun _ i h => h.loseTile _ _) _ h
  dsimp only
  rwa [lost.breakRuns]
theorem dropHomed (d : Nat) : Still n serial (s.dropHomed d) := { foldl (fun _ k h => h.setHearth k _) _ h with }
theorem loseCopies (k : Nat) : Still n serial (s.loseCopies k) := by
  unfold State.loseCopies
  exact ite (foldl (fun _ _ h => h.setMem _) _ h) (foldl (fun _ _ h => ite (h.raise _) h) _ (foldl (fun _ _ h => h.setMem _) _ h))
theorem losePosted (block : Nat) : Still n serial (s.losePosted block) := by
  unfold State.losePosted
  rw [h.posted]
  exact { h with posted := rfl }
theorem loseHearth (k : Nat) : Still n serial (s.loseHearth k) := by
  unfold State.loseHearth
  have waits (l : List Nat) : Still n serial (l.foldl (fun s t => match (s.tile t).running with
      | some c => if c.wait = .tallyHeld then endRunning (s.dropWaiter t) t c stHw 0 0 0 else s.dropWaiter t
      | none => s.dropWaiter t) s) := foldl (fun s t h => by rw [h.tile t]; exact h.dropWaiter t) l h
  have lost (l : List Nat) := ((((waits l).loseCopies k).loseKiln k true).dropHomed (4 + k)).losePosted (hearthBlock k)
  dsimp only
  generalize hu : State.losePosted _ (hearthBlock k) = u
  have still : Still n serial u := hu ▸ lost _
  have reset := still.setHearth k { ways := (u.hearth k).ways }
  generalize u.setHearth k _ = v at reset
  have emptied := ((reset.setMem { v.mem with
    tallies := v.mem.tallies.filter (fun e => tallyHome e.1 ≠ k)
    talliesBroken := v.mem.talliesBroken.filter (fun e => tallyHome e.1 ≠ k)
    exports := v.mem.exports.filter (fun e => !(decide (0xD000000 + 0x8000 * k ≤ e.1) && decide (e.1 < 0xD000000 + 0x8000 * (k + 1)))) }).zero
      (storeBase (8 * k)) (8 * 0x1000000))
  rwa [emptied.failWares]
theorem loseContexts : Still n serial s.loseContexts := by
  unfold State.loseContexts
  rw [h.ctxs]
  exact { h with ctxs := rfl }
theorem losePartitions (v : Nat) : Still n serial (s.losePartitions v) := by
  unfold State.losePartitions
  refine foldl (fun s e h => foldl (fun s r h => (h.zero _ _).freeBytes _ _) _ h) _ ?_
  have reset : Still n serial ((s.mould.parts.filter (fun e => !e.2.dram.isEmpty)).foldl (fun s e => s.partitionReset e.1) s |>.dropHomed (8 + v)) :=
    (foldl (fun _ e h => h.partitionReset e.1) _ h).dropHomed (8 + v)
  exact { reset with wares := by rw [reset.wares, List.filter_nil] }
theorem loseVault (v : Nat) : Still n serial (s.loseVault v) := by
  rw [State.loseVault_eq]
  have units : Still n serial ([2 * v, 2 * v + 1].foldl (fun s w => s.setWheel w {}) ((s.losePartitions v).setVault v {})) :=
    foldl (fun _ w h => h.setWheel w _) _ ((h.losePartitions v).setVault v _)
  unfold State.loseHost
  dsimp only
  split
  · rw [units.closeContexts]
    exact { ite (units.raise _) units with sqs := rfl, cqs := rfl, funcs := rfl }
  · exact { units.loseContexts with }
theorem loseDie (d : Nat) : Still n serial (s.loseDie d) :=
  ite (h.loseKiln _ _) (ite (h.loseHearth _) (ite (h.loseVault _) h))

/-! ## Fences (R36, R345, R451) -/

theorem fenceDie (d : Nat) : Still n serial (s.fenceDie d) := by
  have lost : Still n serial (if s.die d = .ready then s.loseDie d else s) := ite (h.loseDie d) h
  exact ite h (ite (lost.setDie _ _) (ite ((lost.setDie _ _).setDie _ _) { lost with }))
theorem fenceTile (t : Nat) : Still n serial (s.fenceTile t) := by
  unfold State.fenceTile
  have fenced : Still n serial { s with
      faults := { s.faults with fenceTiles := s.faults.fenceTiles ||| BitVec.ofNat 32 (2 ^ t) }
      ledger := { s.ledger with fenceTiles := s.ledger.fenceTiles ||| BitVec.ofNat 32 (2 ^ t) } } := { h with }
  have lost := (fenced.note 0x05 (toLE 1 0 ++ toLE 1 t ++ toLE 1 (b2n true))).loseTile t false
  rw [← State.noteFence] at lost
  dsimp only
  rw [lost.breakRuns, lost.failWares]
  exact ite (lost.fenceDie _) lost
theorem checkRoutes (j : Nat) : Still n serial (s.checkRoutes j) := by
  unfold State.checkRoutes
  exact foldl (fun _ d h => h.fenceDie d) _ (ite (h.raise _) h)
theorem fencePort (j : Nat) (shut : Bool) : Still n serial (s.fencePort j shut) := by
  unfold State.fencePort
  refine checkRoutes ?_ j
  have closed : Still n serial (s.closePort j shut) := { h with }
  exact ite (closed.fenceDie _) closed
theorem endTraining (j : Nat) (a b : LaneTest) : Still n serial (s.endTraining j a b) := by
  unfold State.endTraining
  have tested (x y : PortEnd) : Still n serial ((s.setPortEnd (2 * j) x).setPortEnd (2 * j + 1) y) := (h.setPortEnd _ _).setPortEnd _ _
  exact ite (((tested _ _).fencePort j false).raise _) (ite ((((tested _ _).bothEnds j _).raise _).raise _) ((tested _ _).bothEnds j _))

end Still

end Sys2Proof.Machine
end

section
/-! PROOF.  O60: the sequence of a firing in parts, and where it stops (R510). -/
namespace Sys2Proof.Machine
open Sys2Proof

/-- Steps 1 to 5: every domain is reset, the Ledger is read, the islands and Ohmis start. -/
def State.fireBoot (s : State) (r : FiringReads) (cause : FiringCause) : State :=
  let t := s.installMoved.bare cause
  let t := { t with links := { t.links with aoCount := if cause = FiringCause.rootReturn then s.links.aoCount else 0 } }
  let t := (if cause = FiringCause.powerOn then t else { t with ledger := { t.ledger with tail := s.ledger.tail } }.writeTail).readLedger r.lostA r.lostB
  let t := if s.faults.testMode then t.note 0x08 [0] else t
  (t.bootIslands r.islandAOk r.islandBOk).bootOhmis r
/-- A firing that holds an identity key notes which checkpoint copies it found newest (R67). -/
def State.judgeSlots (s : State) (r : FiringReads) : State :=
  if s.sec.identityOk then (s.setSlot false ((s.slot false).judged s.ledger.highestSerial r.slotA)).setSlot true
    ((s.slot true).judged s.ledger.highestSerial r.slotB) else s
/-- The slot is chosen, and the codes of the moulds met are shown. -/
def State.fireChosen (s : State) (r : FiringReads) (b failed : Bool) : State :=
  let t := (s.fireSlot b failed).judgeSlots r
  { t with mould := { t.mould with lastErr := (((s.fireSlot b failed).pickMould b r).2.getLast?).getD 0, firedSlotB := b } }
/-- Steps 6 to 10 on a mould: its records come into force, fences, links, memory and power. -/
def State.fireOn (s : State) (r : FiringReads) (b : Bool) (m : FiredMould) (fallback : Bool) : State :=
  let t := (s.fireMould b m fallback).setSlot (if fallback then !b else b) ((s.slot (if fallback then !b else b)).cutLog m)
  let t := if fallback || m.discarded.isSome then t.raise { source := 308 } else t
  (((t.fireFences r.badChannels).fireLinks r).fireMemory.firePower).assignWays m.parts
/-- Tiles that failed their self-test are fenced, and kilns without a tile left. -/
def State.fireFenced (s : State) (r : FiringReads) : State :=
  let t := (List.range 32).foldl (fun s t => if r.badTiles.getLsbD t && !s.ledger.fenceTiles.getLsbD t then s.fenceTile t else s) s
  (List.range 4).foldl (fun s k => if (List.range 8).all (fun i => s.faults.fenceTiles.getLsbD (8 * k + i)) then s.fenceDie k else s) t
/-- The link trains, dispatch begins, and the firing has its record. -/
def State.fireDone (s : State) (r : FiringReads) (b : Bool) : State :=
  let t := { s with
    host := { s.host with refclkPresent := r.refclk, refclkUsed := r.refclk, linkTraining := !s.host.perstAsserted && s.dieReady 8 }
    teller := { s.teller with held := s.islands.noneActive } }
  t.note 0x02 (toLE 1 t.links.resetCause.toNat ++ toLE 1 (b2n b) ++ toLE 4 t.mould.serial ++ [0, 0])
/-- The return of the root clock has its own record. -/
def State.rootRecorded (s : State) : State :=
  let t := s.record { source := 426 }
  { t with links := { t.links with firingDue := none } }
/-- Only that cause has a record more than the firing's own. -/
def State.recordedFor (s : State) (cause : FiringCause) : State := if cause = .rootReturn then s.rootRecorded else s

theorem exec_firing_of_no_cause {s : State} (none : s.firingCause = none) (r : FiringReads) : exec (.firing r) s = .next s := by
  show execFiring r s = _
  simp only [execFiring, none]

section
variable {s : State} {r : FiringReads} {cause : FiringCause} (caused : s.firingCause = some cause)
include caused

theorem exec_firing_eq : execFiring r s = match (s.fireBoot r cause).pickSlot r with
    | none => .next { s.fireBoot r cause with update := { (s.fireBoot r cause).update with recovery := true } }
    | some (b, failed) => match (((s.fireBoot r cause).fireSlot b failed).pickMould b r).1 with
      | none => .next { (s.fireBoot r cause).fireChosen r b failed with
          faults := { ((s.fireBoot r cause).fireChosen r b failed).faults with mouldsFailed := true } }
      | some (m, fallback) =>
        if cause = .rootReturn then .next (((((s.fireBoot r cause).fireChosen r b failed).fireOn r b m fallback).fireFenced r).fireDone r b).rootRecorded
        else .next (((((s.fireBoot r cause).fireChosen r b failed).fireOn r b m fallback).fireFenced r).fireDone r b) := by
  unfold execFiring
  rw [caused] <;> rfl

/-- No slot's image verifies: the firing ends in recovery. -/
theorem exec_firing_of_no_image (pick : (s.fireBoot r cause).pickSlot r = none) :
    exec (.firing r) s = .next { s.fireBoot r cause with update := { (s.fireBoot r cause).update with recovery := true } } := by
  show execFiring r s = _
  rw [exec_firing_eq caused, pick]

variable {b failed : Bool} (pick : (s.fireBoot r cause).pickSlot r = some (b, failed))
include pick

/-- No slot's mould verifies: the firing ends without one. -/
theorem exec_firing_of_no_mould (mould : (((s.fireBoot r cause).fireSlot b failed).pickMould b r).1 = none) :
    exec (.firing r) s = .next { (s.fireBoot r cause).fireChosen r b failed with
      faults := { ((s.fireBoot r cause).fireChosen r b failed).faults with mouldsFailed := true } } := by
  show execFiring r s = _
  rw [exec_firing_eq caused, pick]
  dsimp only
  rw [mould]

theorem exec_firing_of_mould {m : FiredMould} {fallback : Bool}
    (mould : (((s.fireBoot r cause).fireSlot b failed).pickMould b r).1 = some (m, fallback)) :
    exec (.firing r) s = .next (((((s.fireBoot r cause).fireChosen r b failed).fireOn r b m fallback).fireFenced r).fireDone r b |>.recordedFor cause) := by
  show execFiring r s = _
  rw [exec_firing_eq caused, pick]
  dsimp only
  rw [mould]
  exact (apply_ite Host.Outcome.next ..).symm
end

end Sys2Proof.Machine
end

section
/-! PROOF.  O60: what a firing starts from (R510 steps 1 to 5) — the state as every domain leaves reset, its islands and Ohmis started. -/
namespace Sys2Proof.Machine
open Sys2Proof

/-! ## An installation that has or has not begun (R66) -/

/-- A firing may find the fired slot of an installation erased; it moves nothing else but the free values. -/
theorem State.installMoved_frame (s : State) :
    s.installMoved = { s with update := s.installMoved.update, mould := s.installMoved.mould, free := s.installMoved.free } := by
  unfold State.installMoved
  split
  · rfl
  · split
    · rfl
    · dsimp only [State.takeFree]
      split
      · unfold State.beginWrite
        split
        · rfl
        · split <;> rfl
      · rfl

theorem State.installMoved_of_none {s : State} (install : s.mould.install = none) : s.installMoved = s := by
  rw [State.installMoved, install]

theorem State.beginWrite_slot (s : State) (b : Bool) : s.beginWrite.slot b = s.slot b ∨ s.beginWrite.slot b = (s.slot b).mouldErased := by
  unfold State.beginWrite
  split
  · exact .inl rfl
  · split
    · exact .inl rfl
    · by_cases fired : b = s.mould.firedSlotB
      · rw [fired]
        exact .inr (State.slot_setSlot_of_same s s.mould.firedSlotB (s.slot s.mould.firedSlotB).mouldErased)
      · exact .inl ((State.setSlot_slot s _ b _).trans (if_neg fired))

theorem State.installMoved_slot (s : State) (b : Bool) : s.installMoved.slot b = s.slot b ∨ s.installMoved.slot b = (s.slot b).mouldErased := by
  unfold State.installMoved
  split
  · exact .inl rfl
  · split
    · exact .inl rfl
    · dsimp only [State.takeFree]
      split
      · exact State.beginWrite_slot { s with free := s.free + 1 } b
      · exact .inl rfl

theorem State.installMoved_state (s : State) (b : Bool) : (s.installMoved.slot b).state = (s.slot b).state := by
  obtain h | h := s.installMoved_slot b <;> rw [h]
  rfl

theorem State.installMoved_mould {s : State} {b : Bool} (mould : (s.slot b).mould = none) : (s.installMoved.slot b).mould = none := by
  obtain h | h := s.installMoved_slot b <;> rw [h]
  · exact mould
  · rfl

/-! ## Islands and Ohmis start -/

/-- `t` is `s` with faults raised. -/
def Raises (s t : State) : Prop := t = { s with faults := { s.faults with raised := t.faults.raised } }

namespace Raises
theorem refl (s : State) : Raises s s := rfl
variable {s t u : State}
theorem raise (h : Raises s t) (f : FaultReq) : Raises s (t.raise f) := by
  unfold Raises at h ⊢
  rw [h]
  rfl
theorem ite {c : Prop} [Decidable c] (h : Raises s t) (g : Raises s u) : Raises s (if c then t else u) := by
  split
  · exact h
  · exact g
theorem faults {c : Prop} [Decidable c] (h : Raises s t) (f : FaultReq) :
    Raises s { t with faults := if c then t.faults else (t.raise f).faults } := by
  split
  · exact h
  · exact h.raise f
theorem still {n serial : Nat} (h : Raises s t) (g : Still n serial s) : Still n serial t := by
  rw [h]
  exact { g with }
end Raises

/-- What Ohmis holds once its self-tests have run (R486, R505). -/
def State.ohmisStarted (s : State) (r : FiringReads) : State :=
  { s with sec := { s.sec with
      identityOk := !r.pufFailed, trngOk := r.trngOk, enginesOk := r.enginesOk, idKey := if r.pufFailed then 0 else identityKey
      idSecret := if r.pufFailed then 0 else identitySecret, measured := (r.measured ++ List.replicate 5 0).take 5 } }

theorem State.bootOhmis_raises (s : State) (r : FiringReads) : Raises (s.ohmisStarted r) (s.bootOhmis r) := by
  have corrected := Raises.ite (c := (r.pufCorrected && !r.pufFailed) = true) ((Raises.refl (s.ohmisStarted r)).raise { source := 385 }) (.refl _)
  have failed := Raises.ite (c := r.pufFailed = true) (corrected.raise { source := 386 }) corrected
  have trng := Raises.ite (c := r.trngOk = true) failed (failed.raise { source := 387 })
  have engines := Raises.ite (c := r.enginesOk = true) trng (trng.raise { source := 388 })
  exact engines.faults { source := 409 }

theorem State.bootIslands_frame (s : State) (a b : Bool) : s.bootIslands a b =
    { s with islands := (s.bootIslands a b).islands, faults := (s.bootIslands a b).faults, teller := (s.bootIslands a b).teller } := by
  cases a <;> cases b <;> rfl

theorem Still.bootIslands {n serial : Nat} {s : State} (h : Still n serial s) (a b : Bool) : Still n serial (s.bootIslands a b) := by
  cases a <;> cases b <;> exact { h with }

theorem Still.ohmisStarted {n serial : Nat} {s : State} (h : Still n serial s) (r : FiringReads) : Still n serial (s.ohmisStarted r) := { h with }

/-! ## The state booted (R510) -/

/-- Steps 1 to 3: every domain is reset, and the Ledger read. -/
def State.rebooted (s : State) (r : FiringReads) (cause : FiringCause) : State :=
  let t := s.installMoved.bare cause
  let t := { t with links := { t.links with aoCount := if cause = FiringCause.rootReturn then s.links.aoCount else 0 } }
  (if cause = FiringCause.powerOn then t else { t with ledger := { t.ledger with tail := s.ledger.tail } }.writeTail).readLedger r.lostA r.lostB

theorem State.fireBoot_eq {s : State} (test : s.faults.testMode = false) (r : FiringReads) (cause : FiringCause) :
    s.fireBoot r cause = ((s.rebooted r cause).bootIslands r.islandAOk r.islandBOk).bootOhmis r := by
  unfold State.fireBoot State.rebooted
  rw [test]
  rfl

section
variable (s : State) (r : FiringReads) (cause : FiringCause)

theorem State.rebooted_frame : s.rebooted r cause =
    { s.installMoved.bare cause with
      links := { (s.installMoved.bare cause).links with aoCount := if cause = FiringCause.rootReturn then s.links.aoCount else 0 }
      ledger := { (s.installMoved.bare cause).ledger with
        ring := (s.rebooted r cause).ledger.ring, ringB := (s.rebooted r cause).ledger.ringB, tail := (s.rebooted r cause).ledger.tail } } := by
  unfold State.rebooted
  dsimp only
  split <;> rfl

theorem State.rebooted_still : Still (s.ledger.firingCount + 1) s.ledger.highestSerial (s.rebooted r cause) := by
  rw [State.rebooted_frame, State.installMoved_frame]
  constructor <;> rfl

end

/-- What a firing outside test mode has made of a state when it chooses its slot. -/
structure Booted (s : State) (r : FiringReads) (cause : FiringCause) (t : State) : Prop where
  still : Still (s.ledger.firingCount + 1) s.ledger.highestSerial t
  mould : t.mould = {}
  update : t.update = (s.installMoved.bare cause).update
  ends : t.links.ends = []
  dies : t.links.dies = []
  bytes : t.mem.bytes = s.mem.bytes.filter (fun e => decide (hostWindow ≤ e.1))
  junk : t.mem.junk = s.mem.junk.filter (fun j => decide (hostWindow ≤ j.base))
  fenceTiles : t.ledger.fenceTiles = s.ledger.fenceTiles
  perst : t.host.perstAsserted = s.host.perstAsserted
  identityOk : t.sec.identityOk = !r.pufFailed
  idKey : t.sec.idKey = if r.pufFailed then 0 else identityKey
  islands : r.islandAOk = true → r.islandBOk = true → t.islands = { stA := .active, stB := .sync, selfCycles := 64 }

theorem State.fireBoot_booted {s : State} (test : s.faults.testMode = false) (r : FiringReads) (cause : FiringCause) :
    Booted s r cause (s.fireBoot r cause) := by
  rw [State.fireBoot_eq test]
  have raised := ((s.rebooted r cause).bootIslands r.islandAOk r.islandBOk).bootOhmis_raises r
  have still := raised.still (((s.rebooted_still r cause).bootIslands r.islandAOk r.islandBOk).ohmisStarted r)
  have islands : r.islandAOk = true → r.islandBOk = true →
      ((s.rebooted r cause).bootIslands r.islandAOk r.islandBOk).islands = { stA := .active, stB := .sync, selfCycles := 64 } := by
    intro a b
    rw [a, b]
    rfl
  constructor
  case still => exact still
  all_goals rw [raised]
  case islands => exact islands
  case identityOk => rfl
  case idKey => rfl
  all_goals
    unfold State.ohmisStarted
    rw [State.bootIslands_frame, State.rebooted_frame]
  all_goals
    rw [State.installMoved_frame]
    rfl

/-! ## The sequence keeps a module still -/

/-- The slots as the choice of one leaves them, without its records (R512, R525). -/
def State.slotFired (s : State) (b failed : Bool) : State :=
  let t := (s.setSlot b ((s.slot b).enter .valid)).setSlot (!b) (if failed then (s.slot (!b)).enter .empty else (s.slot (!b)).afterFiring)
  let t := { t with update := { t.update with runningB := b } }
  { t with update := { t.update with phase := t.restPhase } }

/-- `t` is `s` with its power and temperatures set, and faults raised. -/
def Powered (s t : State) : Prop := t = { s with power := t.power, therm := t.therm, faults := { s.faults with raised := t.faults.raised } }

namespace Powered
theorem refl (s : State) : Powered s s := rfl
variable {s t u : State}
theorem trans (h : Powered s t) (g : Powered t u) : Powered s u := by
  unfold Powered at h
  rw [h] at g
  exact g
theorem ite {c : Prop} [Decidable c] (h : Powered s t) (g : Powered s u) : Powered s (if c then t else u) := by
  split
  · exact h
  · exact g
theorem foldl {α : Type} {f : State → α → State} (step : ∀ u a, Powered u (f u a)) (l : List α) (s : State) : Powered s (l.foldl f s) := by
  induction l generalizing s with
  | nil => exact .refl s
  | cons a l ih => exact (step s a).trans (ih _)
theorem still {n serial : Nat} (h : Powered s t) (g : Still n serial s) : Still n serial t := by
  rw [h]
  exact { g with }
end Powered

theorem State.judgeLife_powered (s : State) : Powered s s.judgeLife := .ite rfl rfl

section
variable {s t : State} (h : Powered s t)
include h
theorem Powered.setPower (x : PowerState) : Powered s { t with power := x } := h.trans rfl
theorem Powered.setTherm (x : ThermState) : Powered s { t with therm := x } := h.trans rfl
theorem Powered.raise (f : FaultReq) : Powered s (t.raise f) := h.trans rfl
end

/-- Step 10's powers touch nothing else. -/
theorem State.firePower_powered (s : State) : Powered s s.firePower := by
  have tiles (x : TilePower) := Powered.foldl (fun (u : State) t => (rfl : Powered u (u.setTilePower t x))) (List.range 32) s
  have shared (x : TilePower) (p q r : PowerState) := (((tiles x).setPower p).setPower q).setPower r
  unfold State.firePower
  exact ((Powered.ite ((shared _ _ _ _).raise { source := 357 }) (shared _ _ _ _)).setTherm _).trans (State.judgeLife_powered _)

/-- The state whose PCIe link may train and whose dispatch may begin. -/
def State.opened (s : State) (r : FiringReads) : State :=
  { s with
    host := { s.host with refclkPresent := r.refclk, refclkUsed := r.refclk, linkTraining := !s.host.perstAsserted && s.dieReady 8 }
    teller := { s.teller with held := s.islands.noneActive } }

namespace Still

variable {n serial : Nat} {s : State} (h : Still n serial s)
include h

theorem setSlot (b : Bool) (x : Slot) : Still n serial (s.setSlot b x) := { h with }

theorem slotFired (b failed : Bool) : Still n serial (s.slotFired b failed) := { h with }

theorem fireSlot (b failed : Bool) : Still n serial (s.fireSlot b failed) := by
  have noted (typ : Nat) (l : List Byte) := ite (c := (s.slot (!b)).state = .trial ∧ (!failed) = true) ((h.slotFired b failed).note typ l) (h.slotFired b failed)
  exact ite ((noted 0x0A _).raise _) (noted 0x0A _)

theorem judgeSlots (r : FiringReads) : Still n serial (s.judgeSlots r) := ite ((h.setSlot _ _).setSlot _ _) h

theorem fireChosen (r : FiringReads) (b failed : Bool) : Still n serial (s.fireChosen r b failed) :=
  { (h.fireSlot b failed).judgeSlots r with }

theorem fireMould (b : Bool) (m : FiredMould) (fallback : Bool) : Still n serial (s.fireMould b m fallback) := { h with }

theorem fireFences (bad : BitVec 48) : Still n serial (s.fireFences bad) :=
  foldl (fun _ _ h => ite (h.note 0x05 _) h) _ { h with }

theorem fireLinks (r : FiringReads) : Still n serial (s.fireLinks r) :=
  foldl (fun _ j h => (h.bothEnds j _).endTraining j _ _) _ (foldl (fun _ d h => h.setDie d _) _ { h with })

theorem fireMemory : Still n serial s.fireMemory := ite (h.setMem _) ((h.setMem _).freeBytes _ _)

theorem firePower : Still n serial s.firePower := s.firePower_powered.still h

theorem fireOn (r : FiringReads) (b : Bool) (m : FiredMould) (fallback : Bool) : Still n serial (s.fireOn r b m fallback) := by
  unfold State.fireOn
  have mould := (h.fireMould b m fallback).setSlot (if fallback then !b else b) ((s.slot (if fallback then !b else b)).cutLog m)
  exact ((((ite (mould.raise { source := 308 }) mould).fireFences _).fireLinks r).fireMemory.firePower).coh (State.assignWays_coh ..)

theorem fireFenced (r : FiringReads) : Still n serial (s.fireFenced r) :=
  foldl (fun _ k h => ite (h.fenceDie k) h) _ (foldl (fun _ t h => ite (h.fenceTile t) h) _ h)

theorem opened (r : FiringReads) : Still n serial (s.opened r) := { h with }

theorem fireDone (r : FiringReads) (b : Bool) : Still n serial (s.fireDone r b) := (h.opened r).note 0x02 _

end Still

/-! ## The record of the root clock's return (R354) -/

/-- `t` is `s` after a fault's record: what the collector, the Ledger and the reactions hold may move. -/
structure Recorded (s t : State) : Prop where
  frame : t = { s with
    faults := t.faults, ledger := t.ledger, reg := { s.reg with occurrences := t.reg.occurrences }, links := { s.links with firingDue := t.links.firingDue } }
  testMode : t.faults.testMode = s.faults.testMode
  firingCount : t.ledger.firingCount = s.ledger.firingCount
  highestSerial : t.ledger.highestSerial = s.ledger.highestSerial

namespace Recorded
theorem refl (s : State) : Recorded s s := ⟨rfl, rfl, rfl, rfl⟩
variable {s t u : State}
theorem trans (h : Recorded s t) (g : Recorded t u) : Recorded s u where
  frame := by
    have frame := h.frame
    rw [frame] at g
    exact g.frame
  testMode := g.testMode.trans h.testMode
  firingCount := g.firingCount.trans h.firingCount
  highestSerial := g.highestSerial.trans h.highestSerial
theorem ite {c : Prop} [Decidable c] (h : Recorded s t) (g : Recorded s u) : Recorded s (if c then t else u) := by
  split
  · exact h
  · exact g
theorem dropped (s : State) (x : Store Nat) : Recorded s { s with faults := { s.faults with dropped := x } } := ⟨rfl, rfl, rfl, rfl⟩
theorem still {n serial : Nat} (h : Recorded s t) (g : Still n serial s) : Still n serial t := by
  have firingCount := h.firingCount.trans g.firingCount
  have highestSerial := h.highestSerial.trans g.highestSerial
  have testMode := h.testMode.trans g.testMode
  have frame := h.frame
  constructor
  case firingCount => exact firingCount
  case highestSerial => exact highestSerial
  case testMode => exact testMode
  all_goals rw [frame]
  exacts [g.requests, g.wares, g.sqs, g.cqs, g.funcs, g.handles, g.ctxs, g.sessions, g.posted, g.amend, g.tiles]
end Recorded

theorem State.pulse_recorded (s : State) : Recorded s s.pulse := .ite ⟨rfl, rfl, rfl, rfl⟩ ⟨rfl, rfl, rfl, rfl⟩
theorem State.setFaultQueue_recorded (s : State) (o : Nat) (l : List LedgerRec) : Recorded s (s.setFaultQueue o l) :=
  .ite ⟨rfl, rfl, rfl, rfl⟩ ⟨rfl, rfl, rfl, rfl⟩
theorem State.noteFault_recorded (s : State) (r : LedgerRec) : Recorded s (s.noteFault r).2 := by
  unfold State.noteFault
  split
  · exact ⟨rfl, rfl, rfl, rfl⟩
  · split <;> exact ⟨rfl, rfl, rfl, rfl⟩
theorem State.chipReset_recorded (s : State) (src : Nat) (injected : Bool) : Recorded s (s.chipReset src injected) :=
  .ite ⟨rfl, rfl, rfl, rfl⟩ ⟨rfl, rfl, rfl, rfl⟩

/-- A fault without a fence or a block of its own. -/
structure Blockless (n : Nat) : Prop where
  fence : ∀ (s : State) (record : Bool), s.fenceByHistory n record = s
  block : ∀ s : State, s.blockReset n = s

theorem blockless_426 : Blockless 426 := ⟨fun _ _ => rfl, fun _ => rfl⟩

theorem Blockless.react {n : Nat} (blockless : Blockless n) (s : State) (c : Nat) (injected : Bool) : Recorded s (s.react c n 8 injected) := by
  have pulsed := Recorded.ite (c := 1 ≤ strength c) s.pulse_recorded (.refl s)
  have masked (t : State) : Recorded t (if 2 ≤ strength c then { t with faults := { t.faults with nmi := t.faults.nmi ++ [n] } } else t) :=
    .ite ⟨rfl, rfl, rfl, rfl⟩ (.refl t)
  refine .ite (pulsed.trans (masked _)) ?_
  rw [if_neg (by decide), blockless.block]
  exact .ite (pulsed.trans (masked _)) ((pulsed.trans (masked _)).trans (State.chipReset_recorded ..))

theorem Blockless.record {f : FaultReq} (blockless : Blockless f.source) {s : State} (owner : s.srcOwner f = 8) : Recorded s (s.record f) := by
  unfold State.record
  rw [owner]
  refine .ite (.refl s) ?_
  refine Recorded.trans (t := { s with faults := { s.faults with
    srcStat := s.faults.srcStat ||| BitVec.ofNat 512 (2 ^ f.source), hbeatStopped := s.faults.hbeatStopped || srcSafety f.source } }) ⟨rfl, rfl, rfl, rfl⟩ ?_
  dsimp only
  split
  · rw [blockless.fence]
    exact ((State.setFaultQueue_recorded ..).trans (State.noteFault_recorded ..)).trans (blockless.react ..)
  · rw [blockless.fence]
    refine Recorded.trans ?_ (blockless.react ..)
    split
    · exact (State.noteFault_recorded ..).trans (State.setFaultQueue_recorded ..)
    · exact (State.noteFault_recorded ..).trans (Recorded.dropped ..)

theorem State.srcOwner_426 (s : State) : s.srcOwner { source := 426 } = 8 := ite_self _

theorem State.rootRecorded_recorded (s : State) : Recorded s s.rootRecorded :=
  (Blockless.record blockless_426 s.srcOwner_426).trans ⟨rfl, rfl, rfl, rfl⟩

theorem State.recordedFor_recorded (s : State) (cause : FiringCause) : Recorded s (s.recordedFor cause) := .ite s.rootRecorded_recorded (.refl s)

end Sys2Proof.Machine
end

section
/-! PROOF.  O60: the slot and the mould that a firing chooses (R64, R512), and where it stops. -/
namespace Sys2Proof.Machine
open Sys2Proof

/-! ## The choice of a slot (R512) -/

theorem State.pickSlot_of_noImage (s : State) {r : FiringReads} (a : r.slotA.imageOk = false) (b : r.slotB.imageOk = false) :
    s.pickSlot r = none := by
  unfold State.pickSlot
  cases (s.slot true).state == .valid <;> simp [a, b]

section
variable {s : State} (valid : (s.slot false).state = .valid) (empty : (s.slot true).state = .empty)
include valid empty

theorem State.pickSlot_of_slotA {r : FiringReads} (ok : r.slotA.imageOk = true) : s.pickSlot r = some (false, false) := by
  have first : ((s.slot true).state == .valid) = false := by rw [empty]; rfl
  simp [State.pickSlot, first, valid, ok]

/-- A VALID slot that fires beside an EMPTY one changes neither. -/
theorem State.slotFired_of_slotA : s.slotFired false false =
    { s with update := { s.update with runningB := false, phase := (s.slotFired false false).update.phase } } := by
  have entered : (s.slot false).enter .valid = s.slot false := if_pos valid
  have after : (s.slot true).afterFiring = s.slot true := if_neg (by rw [empty]; decide)
  unfold State.slotFired
  rw [entered, Bool.not_false, if_neg Bool.false_ne_true, after]
  rfl

omit valid in
theorem State.fireSlot_of_slotA : s.fireSlot false false = s.slotFired false false := by
  have quiet : ¬ ((s.slot (!false)).state = .trial ∧ (!false) = true) := fun h => by rw [Bool.not_false, empty] at h; cases h.1
  unfold State.fireSlot
  dsimp only
  rw [if_neg quiet]
  rfl

theorem State.fireSlot_slot (b : Bool) : (s.fireSlot false false).slot b = s.slot b := by
  rw [State.fireSlot_of_slotA empty, State.slotFired_of_slotA valid empty]
  rfl

end

/-! ## The choice of a mould (R64) -/

theorem Slot.structure_of_empty {x : Slot} (mould : x.mould = none) (id : BitVec 256) (highest : Nat) (r : SlotReads) (identity : Bool) :
    x.structure_ id highest r identity = .error (x.mouldCode id highest r.mould) := by
  unfold Slot.structure_
  rw [mould]

theorem State.pickMould_of_empty {s : State} {b : Bool} {r : FiringReads} (identity : s.sec.identityOk = true)
    (first : (s.slot b).mould = none) (other : (s.slot (!b)).mould = none) : (s.pickMould b r).1 = none := by
  unfold State.pickMould
  dsimp only
  rw [Slot.structure_of_empty first, Slot.structure_of_empty other]
  dsimp only
  rw [identity]
  rfl

/-- A full mould that passes, without checkpoint or log, is the structure. -/
theorem Slot.structure_of_full {x : Slot} {m : Image} {id : BitVec 256} {highest : Nat} {r : SlotReads} (mould : x.mould = some m)
    (a : x.checkA = none) (b : x.checkB = none) (log : x.amendLog = []) (code : x.mouldCode id highest r.mould = 0) (identity : Bool) :
    x.structure_ id highest r identity = .ok m.alone := by
  unfold Slot.structure_
  rw [code, mould]
  simp [a, b, log, applyLog]

theorem State.pickMould_of_ok {s : State} {b : Bool} {r : FiringReads} {m : FiredMould}
    (structure_ : (s.slot b).structure_ s.boundId s.ledger.highestSerial (if b then r.slotB else r.slotA) s.sec.identityOk = .ok m) :
    (s.pickMould b r).1 = some (m, false) := by
  unfold State.pickMould
  dsimp only
  rw [structure_]

/-! ## The slot chosen -/

theorem State.fireSlot_frame (s : State) (b failed : Bool) : s.fireSlot b failed =
    { s with update := (s.slotFired b failed).update, ledger := (s.fireSlot b failed).ledger, faults := (s.fireSlot b failed).faults } := by
  have records : s.fireSlot b failed =
      let t := if (s.slot (!b)).state = .trial ∧ !failed then (s.slotFired b failed).noteFirmware 4 (!b) (s.slot (!b)).version 0 else s.slotFired b failed
      if failed then t.raise { source := 384 } else t := rfl
  rw [records]
  dsimp only
  split <;> split <;> rfl

theorem State.judgeSlots_frame (s : State) (r : FiringReads) : s.judgeSlots r = { s with update := (s.judgeSlots r).update } := by
  unfold State.judgeSlots
  split <;> rfl

theorem Slot.judged_state (x : Slot) (highest : Nat) (r : SlotReads) : (x.judged highest r).state = x.state := by
  unfold Slot.judged
  split <;> rfl

theorem State.judgeSlots_update (s : State) (r : FiringReads) : (s.judgeSlots r).update =
    { s.update with slotA := (s.judgeSlots r).update.slotA, slotB := (s.judgeSlots r).update.slotB } := by
  unfold State.judgeSlots
  split <;> rfl

theorem State.judgeSlots_stateA (s : State) (r : FiringReads) : (s.judgeSlots r).update.slotA.state = s.update.slotA.state := by
  unfold State.judgeSlots
  split
  · exact Slot.judged_state ..
  · rfl

/-- A firing without a mould has touched the slots, the Ledger and the faults. -/
theorem State.fireChosen_frame (s : State) (r : FiringReads) (b failed : Bool) : s.fireChosen r b failed =
    { s with
      update := (s.fireChosen r b failed).update, ledger := (s.fireChosen r b failed).ledger, faults := (s.fireChosen r b failed).faults
      mould := { s.mould with lastErr := (s.fireChosen r b failed).mould.lastErr, firedSlotB := b } } := by
  unfold State.fireChosen
  rw [State.judgeSlots_frame, State.fireSlot_frame]

theorem Booted.slot {s : State} {r : FiringReads} {cause : FiringCause} {t : State} (h : Booted s r cause t) (b : Bool) :
    t.slot b = s.installMoved.slot b := by
  unfold State.slot
  rw [h.update]
  rfl

end Sys2Proof.Machine
end

section
/-! PROOF.  O60: links and memory of a firing (R343, R350, R513). -/
namespace Sys2Proof.Machine
open Sys2Proof

/-! ## Links that train from reset without a failed lane (R343) -/

/-- A port end that trains from reset. -/
def PortEnd.starting : PortEnd := { training := true, fromReset := true }
/-- The same end once its lanes are tested, without a failure. -/
def PortEnd.passed : PortEnd := (PortEnd.starting.tested {}).counted

theorem State.bothEnds_of_eq {s : State} {j : Nat} {x : PortEnd} (near : s.portEnd (2 * j) = x) (far : s.portEnd (2 * j + 1) = x)
    (f : PortEnd → PortEnd) : s.bothEnds j f = (s.setPortEnd (2 * j) (f x)).setPortEnd (2 * j + 1) (f x) := by
  unfold State.bothEnds
  rw [near, far]

theorem State.setEnds_portEnd (s : State) (j : Nat) (x : PortEnd) :
    ((s.setPortEnd (2 * j) x).setPortEnd (2 * j + 1) x).portEnd (2 * j) = x ∧
      ((s.setPortEnd (2 * j) x).setPortEnd (2 * j + 1) x).portEnd (2 * j + 1) = x := by
  constructor <;> simp

/-- What a port proposes after such a test: its full width. -/
theorem propose_passed_pos (j : Nat) : propose (portLanes j) (PortEnd.passed.working (portLanes j)) ≠ 0 := by
  unfold portLanes
  split <;> decide

/-- `t` is `s` with the ends of port j set. -/
structure Trained (j : Nat) (s t : State) : Prop where
  frame : t = { s with links := { s.links with ends := t.links.ends } }
  others : ∀ e, e ≠ 2 * j → e ≠ 2 * j + 1 → t.portEnd e = s.portEnd e

namespace Trained
variable {j : Nat} {s t u : State}
theorem trans (h : Trained j s t) (g : Trained j t u) : Trained j s u := by
  refine ⟨?_, fun e near far => (g.others e near far).trans (h.others e near far)⟩
  have frame := g.frame
  rw [h.frame] at frame
  exact frame
theorem bothEnds (s : State) (j : Nat) (x y : PortEnd) : Trained j s ((s.setPortEnd (2 * j) x).setPortEnd (2 * j + 1) y) := by
  refine ⟨rfl, fun e near far => ?_⟩
  rw [State.setPortEnd_portEnd, if_neg far, State.setPortEnd_portEnd, if_neg near]
end Trained

/-- Such a port comes up. -/
theorem State.endTraining_trained {s : State} {j : Nat} (near : s.portEnd (2 * j) = .starting) (far : s.portEnd (2 * j + 1) = .starting) :
    Trained j s (s.endTraining j {} {}) := by
  have other : (s.setPortEnd (2 * j) PortEnd.passed).portEnd (2 * j + 1) = .starting := by
    rw [State.setPortEnd_portEnd, if_neg (by omega), far]
  obtain ⟨passedNear, passedFar⟩ := State.setEnds_portEnd s j .passed
  unfold State.endTraining
  dsimp only
  rw [near, ← PortEnd.passed, other, ← PortEnd.passed, passedNear, passedFar]
  rw [if_neg ?_, if_neg ?_]
  · exact (Trained.bothEnds s j _ _).trans (Trained.bothEnds _ j _ _)
  · exact fun h => h.1 rfl
  · rintro (h | h | ⟨h, -⟩)
    · exact propose_passed_pos j h
    · exact propose_passed_pos j h
    · cases h

/-- Port j begins its training from reset, and ends it. -/
def State.trainPort (s : State) (j : Nat) : State := (s.bothEnds j (fun x => { x with training := true, fromReset := true })).endTraining j {} {}

theorem State.trainPort_trained {s : State} {j : Nat} (near : s.portEnd (2 * j) = {}) (far : s.portEnd (2 * j + 1) = {}) :
    Trained j s (s.trainPort j) := by
  unfold State.trainPort
  rw [State.bothEnds_of_eq near far]
  obtain ⟨near, far⟩ := State.setEnds_portEnd s j .starting
  exact (Trained.bothEnds s j _ _).trans (State.endTraining_trained near far)

/-- Ports train one after the other; each finds its ends as reset left them. -/
theorem State.trainPorts_frame {l : List Nat} (distinct : l.Nodup) {s : State}
    (unset : ∀ j ∈ l, s.portEnd (2 * j) = {} ∧ s.portEnd (2 * j + 1) = {}) :
    l.foldl State.trainPort s = { s with links := { s.links with ends := (l.foldl State.trainPort s).links.ends } } := by
  induction l generalizing s with
  | nil => rfl
  | cons j l ih =>
    obtain ⟨near, far⟩ := unset j List.mem_cons_self
    have trained := State.trainPort_trained near far
    have later : ∀ i ∈ l, (s.trainPort j).portEnd (2 * i) = {} ∧ (s.trainPort j).portEnd (2 * i + 1) = {} := by
      intro i mem
      have apart : i ≠ j := fun same => (List.nodup_cons.1 distinct).1 (same ▸ mem)
      rw [trained.others _ (by omega) (by omega), trained.others _ (by omega) (by omega)]
      exact unset i (List.mem_cons_of_mem _ mem)
    have rest := ih (List.nodup_cons.1 distinct).2 later
    rw [trained.frame] at rest
    rw [List.foldl_cons, trained.frame]
    exact rest

/-! ## Every die has its clock (R350) -/

theorem State.readyDies_frame (l : List Nat) (s : State) : l.foldl (fun u d => u.setDie d .ready) s =
    { s with links := { s.links with dies := (l.foldl (fun u d => u.setDie d .ready) s).links.dies } } := by
  induction l generalizing s with
  | nil => rfl
  | cons d l ih => exact ih (s.setDie d .ready)

theorem State.readyDies_die (l : List Nat) (s : State) (d : Nat) :
    (l.foldl (fun u d => u.setDie d .ready) s).die d = if d ∈ l then .ready else s.die d := by
  induction l generalizing s with
  | nil => rfl
  | cons e l ih =>
    rw [List.foldl_cons, ih, State.setDie_die]
    by_cases mem : d ∈ l
    · simp [mem]
    · simp [mem]

/-- The links with their clocks, before the ports train. -/
def State.clocked (s : State) : State :=
  (List.range 10).foldl (fun u d => u.setDie d .ready) { s with links := { s.links with fwdOk := 0x3FF } }

theorem State.clocked_frame (s : State) : s.clocked = { s with links := { s.links with fwdOk := 0x3FF, dies := s.clocked.links.dies } } :=
  State.readyDies_frame _ _

theorem State.clocked_die (s : State) {d : Nat} (lt : d < 10) : s.clocked.die d = .ready :=
  (State.readyDies_die ..).trans (if_pos (List.mem_range.2 lt))

theorem State.withEnds_die (s : State) (x : Store PortEnd) (d : Nat) :
    ({ s with links := { s.links with ends := x } } : State).die d = s.die d := rfl

/-- From reset, without a lane at fault, every die is ready and nothing but the links has changed. -/
theorem State.fireLinks_spec {s : State} {r : FiringReads} (lanes : r.lanes = []) (ends : s.links.ends = []) :
    s.fireLinks r = { s with links := (s.fireLinks r).links } ∧ ∀ d < 10, (s.fireLinks r).die d = .ready := by
  have eq : s.fireLinks r = (List.range 15).foldl State.trainPort s.clocked := by
    unfold State.fireLinks
    rw [lanes]
    rfl
  have unset (e : Nat) : s.clocked.portEnd e = {} := by
    rw [State.portEnd, State.clocked_frame, ends]
    rfl
  have frame := State.trainPorts_frame List.nodup_range (fun j (_ : j ∈ List.range 15) => ⟨unset (2 * j), unset (2 * j + 1)⟩)
  rw [← eq] at frame
  constructor
  · rw [frame, State.clocked_frame]
  · intro d lt
    rw [frame, State.withEnds_die]
    exact s.clocked_die lt

/-! ## Memory (R513) -/

theorem State.dramTop_lt (s : State) : s.dramTop < hostWindow := by
  have channels : s.channels ≤ 48 := Nat.sub_le ..
  unfold State.dramTop
  generalize s.channels = n at channels
  split
  · exact (Nat.mul_le_mul_right _ channels).trans_lt (by decide)
  · exact (Nat.mul_le_mul_right _ channels).trans_lt (by decide)

theorem sget_eq_default {α : Type} {d : α} {l : Store α} {k : Nat} (absent : ∀ e ∈ l, e.1 ≠ k) : sget d l k = d := by
  induction l with
  | nil => rfl
  | cons e l ih =>
    rw [sget_cons, if_neg (absent e List.mem_cons_self)]
    exact ih (fun f mem => absent f (List.mem_cons_of_mem _ mem))

/-- Below the host window a firing leaves no byte written and none undefined. -/
theorem MemState.readByte_of_host {m : MemState} {a : Nat} (below : a < hostWindow) (bytes : ∀ e ∈ m.bytes, hostWindow ≤ e.1)
    (junk : ∀ j ∈ m.junk, hostWindow ≤ j.base) : m.readByte a = 0 := by
  have none : m.junk.find? (fun j => j.covers a) = none := by
    rw [List.find?_eq_none]
    intro j mem covers
    have base := junk j mem
    have from_ : j.base ≤ a := by
      rw [Junk.covers, Bool.and_eq_true, decide_eq_true_eq] at covers
      exact covers.1
    omega
  unfold MemState.readByte
  rw [none]
  exact sget_eq_default (fun e mem same => absurd (bytes e mem) (by omega))

theorem State.freeBytes_frame (s : State) (a n : Nat) : s.freeBytes a n =
    { s with mem := { s.mem with bytes := (s.freeBytes a n).mem.bytes, junk := (s.freeBytes a n).mem.junk }, free := (s.freeBytes a n).free } := by
  unfold State.freeBytes State.undefine
  split <;> rfl

/-- With inline ECC on, no byte is written and none made undefined. -/
theorem State.fireMemory_of_ecc {s : State} (ecc : (s.mould.device.ecc == 1) = true) : s.fireMemory = { s with mem := { s.mem with ecc := true } } := by
  unfold State.fireMemory
  rw [ecc]
  rfl

/-- With it off, DRAM is undefined. -/
theorem State.fireMemory_of_noEcc {s : State} (ecc : (s.mould.device.ecc == 1) = false) : ∃ n,
    s.fireMemory = ({ s with mem := { s.mem with ecc := false } } : State).freeBytes 0 n := by
  refine ⟨({ s with mem := { s.mem with ecc := false } } : State).dramTop, ?_⟩
  unfold State.fireMemory
  rw [ecc]
  exact if_neg Bool.false_ne_true

theorem State.fireMemory_spec (s : State) : s.fireMemory = { s with mem := s.fireMemory.mem, free := s.fireMemory.free } ∧
    (s.fireMemory.mem.ecc = true → s.fireMemory.mem.bytes = s.mem.bytes ∧ s.fireMemory.mem.junk = s.mem.junk) := by
  cases ecc : s.mould.device.ecc == 1
  · obtain ⟨n, eq⟩ := State.fireMemory_of_noEcc ecc
    rw [State.freeBytes_frame] at eq
    rw [eq]
    exact ⟨rfl, fun on => by cases on⟩
  · rw [State.fireMemory_of_ecc ecc]
    exact ⟨rfl, fun _ => ⟨rfl, rfl⟩⟩

end Sys2Proof.Machine
end

section
/-! PROOF.  O60: a firing on the mould of slot A, and the obligation. -/
namespace Sys2Proof.Machine
open Sys2Proof

/-! ## The VALID slot A is chosen -/

section
variable {s : State} (valid : (s.slot false).state = .valid) (empty : (s.slot true).state = .empty) (r : FiringReads)
include valid empty

theorem State.fireChosen_of_slotA : s.fireChosen r false false =
    { s with
      update := (s.fireChosen r false false).update
      mould := { s.mould with lastErr := (s.fireChosen r false false).mould.lastErr, firedSlotB := false } } := by
  unfold State.fireChosen
  rw [State.judgeSlots_frame, State.fireSlot_of_slotA empty, State.slotFired_of_slotA valid empty]

theorem State.fireChosen_update_of_slotA : (s.fireChosen r false false).update.runningB = false ∧
    (s.fireChosen r false false).update.recovery = s.update.recovery ∧ (s.fireChosen r false false).update.slotA.state = .valid := by
  have judged : (s.fireChosen r false false).update = ((s.slotFired false false).judgeSlots r).update := by
    unfold State.fireChosen
    rw [State.fireSlot_of_slotA empty]
  rw [judged]
  refine ⟨?_, ?_, ?_⟩
  · rw [State.judgeSlots_update, State.slotFired_of_slotA valid empty]
  · rw [State.judgeSlots_update, State.slotFired_of_slotA valid empty]
  · rw [State.judgeSlots_stateA, State.slotFired_of_slotA valid empty]
    exact valid
end

/-! ## The records in force (R64, R510 steps 6 to 10) -/

theorem Slot.cutLog_of_none {m : FiredMould} (discarded : m.discarded = none) (x : Slot) : x.cutLog m = x := by
  rw [Slot.cutLog, discarded]
  rfl

theorem State.setSlot_of_slot (s : State) (b : Bool) : s.setSlot b (s.slot b) = s := by
  cases b <;> rfl

theorem State.fireFences_of_none (s : State) : s.fireFences 0 = { s with faults := { s.faults with
    fenceTiles := s.ledger.fenceTiles, fenceChans := s.ledger.fenceChans ||| 0, fenceWheels := s.ledger.fenceWheels } } := by
  unfold State.fireFences
  exact List.foldl_fixed' (fun c => by simp) _

/-- The parts of a state that the steps after the records move. -/
def Run (s t : State) : Prop :=
  t = { s with faults := t.faults, links := t.links, mem := t.mem, free := t.free, power := t.power, therm := t.therm }

theorem Run.trans {s t u : State} (h : Run s t) (g : Run t u) : Run s u := by
  unfold Run at h
  rw [h] at g
  exact g

/-- What the steps after the records give where no channel, lane or amendment failed. -/
structure Ran (s t : State) : Prop where
  run : Run s t
  fenceTiles : t.faults.fenceTiles = s.ledger.fenceTiles
  dies : ∀ d < 10, t.die d = .ready
  memory : t.mem.ecc = true → t.mem.bytes = s.mem.bytes ∧ t.mem.junk = s.mem.junk

namespace Ran
variable {s t : State} (h : Ran s t)
include h

/-- What sets faults raised, memory, free values, power and temperatures alone keeps the rest. -/
theorem moved {u : State} (frame : u = { t with faults := { t.faults with raised := u.faults.raised }, mem := u.mem, free := u.free, power := u.power, therm := u.therm })
    (memory : u.mem.ecc = true → t.mem.ecc = true ∧ u.mem.bytes = t.mem.bytes ∧ u.mem.junk = t.mem.junk) : Ran s u where
  run := h.run.trans (by rw [frame]; rfl)
  fenceTiles := by
    rw [frame]
    exact h.fenceTiles
  dies d lt := by
    rw [frame]
    exact h.dies d lt
  memory on := by
    obtain ⟨was, bytes, junk⟩ := memory on
    obtain ⟨bytes', junk'⟩ := h.memory was
    exact ⟨bytes.trans bytes', junk.trans junk'⟩

theorem fireMemory (mem : t.mem = s.mem) : Ran s t.fireMemory := by
  obtain ⟨frame, bytes⟩ := t.fireMemory_spec
  constructor
  · exact h.run.trans (by rw [frame]; rfl)
  · rw [frame]
    exact h.fenceTiles
  · intro d lt
    rw [frame]
    exact h.dies d lt
  · rw [← mem]
    exact bytes

theorem firePower : Ran s t.firePower := by
  have frame := t.firePower_powered
  refine h.moved (by rw [frame]) ?_
  rw [frame]
  exact fun on => ⟨on, rfl, rfl⟩

theorem assignWays (parts : List (Nat × PartRec)) : Ran s (t.assignWays parts) := by
  refine h.moved (by rw [State.assignWays_frame]) ?_
  rw [(t.assignWays_coh parts).mem]
  exact fun on => ⟨on, rfl, rfl⟩
end Ran

section
variable {s : State} {r : FiringReads} {m : FiredMould} (ends : s.links.ends = []) (lanes : r.lanes = []) (channels : r.badChannels = 0)
include ends lanes channels

/-- Steps 6 to 9: fences, links and memory. -/
theorem State.fireMemory_ran : Ran s ((s.fireFences r.badChannels).fireLinks r).fireMemory := by
  have frame := s.fireFences_of_none
  rw [← channels] at frame
  obtain ⟨links, dies⟩ := State.fireLinks_spec (s := s.fireFences r.badChannels) lanes (by rw [frame]; exact ends)
  refine Ran.fireMemory ⟨?_, ?_, dies, fun _ => ?_⟩ ?_
  · unfold Run
    rw [links, frame]
  · rw [links, frame]
  · rw [links, frame]
    exact ⟨rfl, rfl⟩
  · rw [links, frame]

theorem State.fireOn_ran (b : Bool) (discarded : m.discarded = none) : Ran (s.fireMould b m false) (s.fireOn r b m false) := by
  unfold State.fireOn
  have slot : (s.fireMould b m false).setSlot b ((s.slot b).cutLog m) = s.fireMould b m false := by
    rw [Slot.cutLog_of_none discarded]
    exact State.setSlot_of_slot (s.fireMould b m false) b
  rw [if_neg Bool.false_ne_true, slot, discarded]
  exact (State.fireMemory_ran (s := s.fireMould b m false) ends lanes channels).firePower.assignWays m.parts
end

/-! ## The firing ends (R510 step 10) -/

theorem foldl_eq_of_fixed {α β : Type} {f : β → α → β} {b : β} {l : List α} (fixed : ∀ a ∈ l, f b a = b) : l.foldl f b = b := by
  induction l with
  | nil => rfl
  | cons a l ih =>
    rw [List.foldl_cons, fixed a List.mem_cons_self]
    exact ih (fun x mem => fixed x (List.mem_cons_of_mem _ mem))

/-- No tile failed its self-test, and each kiln has one that is not fenced. -/
theorem State.fireFenced_of_none {s : State} {r : FiringReads} (tiles : r.badTiles = 0)
    (left : ∀ k < 4, ∃ i < 8, s.faults.fenceTiles.getLsbD (8 * k + i) = false) : s.fireFenced r = s := by
  unfold State.fireFenced
  rw [tiles]
  dsimp only
  rw [foldl_eq_of_fixed (l := List.range 32) (fun t _ => by simp)]
  refine foldl_eq_of_fixed (fun k mem => if_neg fun all => ?_)
  obtain ⟨i, lt, off⟩ := left k (List.mem_range.1 mem)
  have on := List.all_eq_true.1 all i (List.mem_range.2 lt)
  rw [off] at on
  cases on

/-- `t` is `s` with its firing ended: dispatch goes on where an island is active, and the PCIe link trains where it may. -/
structure FiringEnded (s t : State) : Prop where
  mould : t.mould = s.mould
  update : t.update = s.update
  islands : t.islands = s.islands
  mem : t.mem = s.mem
  dies : ∀ d, t.die d = s.die d
  held : t.teller.held = s.islands.noneActive
  linkTraining : t.host.linkTraining = (!s.host.perstAsserted && s.dieReady 8)

theorem State.fireDone_ended (s : State) (r : FiringReads) (b : Bool) (cause : FiringCause) : FiringEnded s ((s.fireDone r b).recordedFor cause) := by
  have frame := ((s.fireDone r b).recordedFor_recorded cause).frame
  constructor
  case dies =>
    intro d
    rw [frame]
    rfl
  all_goals
    rw [frame]
    rfl

/-! ## What each clause fires on -/

theorem State.boundId_of_idKey {s t : State} (key : s.sec.idKey = t.sec.idKey) : s.boundId = t.boundId := by
  unfold State.boundId State.idKeyBytes
  rw [key]

/-- Slot A is VALID with mould m alone, slot B EMPTY, and nothing failed that the firing tests. -/
structure FiresSlotA (s : State) (r : FiringReads) (m : Image) : Prop where
  islandA : r.islandAOk = true
  islandB : r.islandBOk = true
  puf : r.pufFailed = false
  valid : s.update.slotA.state = .valid
  empty : s.update.slotB.state = .empty
  image : r.slotA.imageOk = true
  mould : s.update.slotA.mould = some m
  checkA : s.update.slotA.checkA = none
  checkB : s.update.slotA.checkB = none
  log : s.update.slotA.amendLog = []
  install : s.mould.install = none
  code : s.update.slotA.mouldCode ({ s with sec := { s.sec with idKey := identityKey } } : State).boundId s.ledger.highestSerial r.slotA.mould = 0
  tiles : r.badTiles = 0
  channels : r.badChannels = 0
  lanes : r.lanes = []
  left : ∀ k < 4, ∃ i < 8, s.ledger.fenceTiles.getLsbD (8 * k + i) = false

section
variable {s t : State} {r : FiringReads} {cause : FiringCause} (booted : Booted s r cause t)
include booted

theorem Booted.valid (valid : s.update.slotA.state = .valid) : (t.slot false).state = .valid := by
  rw [booted.slot, State.installMoved_state]
  exact valid
theorem Booted.empty (empty : s.update.slotB.state = .empty) : (t.slot true).state = .empty := by
  rw [booted.slot, State.installMoved_state]
  exact empty
theorem Booted.recovery : t.update.recovery = false := by rw [booted.update]; rfl
theorem Booted.die (d : Nat) : t.die d = .inReset := by
  rw [State.die, booted.dies, sget_nil]
theorem Booted.readByte {a : Nat} (below : a < hostWindow) {m : MemState} (bytes : m.bytes = t.mem.bytes) (junk : m.junk = t.mem.junk) :
    m.readByte a = 0 := by
  refine MemState.readByte_of_host below ?_ ?_
  · rw [bytes, booted.bytes]
    exact fun e mem => of_decide_eq_true (List.mem_filter.1 mem).2
  · rw [junk, booted.junk]
    exact fun j mem => of_decide_eq_true (List.mem_filter.1 mem).2

/-- Neither slot holds a mould. -/
theorem Booted.pickMould_of_none (puf : r.pufFailed = false) (valid : s.update.slotA.state = .valid) (empty : s.update.slotB.state = .empty)
    (mouldA : s.update.slotA.mould = none) (mouldB : s.update.slotB.mould = none) : ((t.fireSlot false false).pickMould false r).1 = none := by
  have mould (b : Bool) (m : (s.slot b).mould = none) : ((t.fireSlot false false).slot b).mould = none := by
    rw [State.fireSlot_slot (booted.valid valid) (booted.empty empty), booted.slot]
    exact State.installMoved_mould m
  refine State.pickMould_of_empty ?_ (mould false mouldA) (mould true mouldB)
  rw [State.fireSlot_frame]
  exact booted.identityOk.trans (by rw [puf]; rfl)

variable {m : Image} (fires : FiresSlotA s r m)
include fires

theorem Booted.pickMould_of_fires : ((t.fireSlot false false).pickMould false r).1 = some (m.alone, false) := by
  have slot : (t.fireSlot false false).slot false = s.update.slotA := by
    rw [State.fireSlot_slot (booted.valid fires.valid) (booted.empty fires.empty), booted.slot, State.installMoved_of_none fires.install]
    rfl
  have bound : (t.fireSlot false false).boundId = ({ s with sec := { s.sec with idKey := identityKey } } : State).boundId := by
    refine State.boundId_of_idKey ?_
    rw [State.fireSlot_frame]
    exact booted.idKey.trans (by rw [fires.puf]; rfl)
  have serial : (t.fireSlot false false).ledger.highestSerial = s.ledger.highestSerial := (booted.still.fireSlot false false).highestSerial
  refine State.pickMould_of_ok ?_
  rw [slot, bound, serial]
  exact Slot.structure_of_full fires.mould fires.checkA fires.checkB fires.log fires.code _
end

end Sys2Proof.Machine
end

section
/-! PROOF.  O60: what a firing leaves, and the obligation. -/
namespace Sys2Proof.Machine
open Sys2Proof

/-- What a firing on mould m of slot A, from state s, leaves. -/
structure FiredSlotA (s : State) (m : Image) (u : State) : Prop where
  fired : u.mould.fired = true
  runningB : u.update.runningB = false
  valid : u.update.slotA.state = .valid
  recovery : u.update.recovery = false
  parts : u.mould.parts = overlay [] m.parts
  wins : u.mould.wins = overlay [] m.wins
  serial : u.mould.serial = m.serial
  fallback : u.mould.fallback = false
  dies : ∀ d < 10, u.die d = .ready
  held : u.teller.held = false
  activeB : u.islands.activeB = false
  zero : u.mem.ecc = true → ∀ a < u.dramTop, u.readByte a = 0
  linkTraining : u.host.linkTraining = !s.host.perstAsserted

section
variable {s t : State} {r : FiringReads} {cause : FiringCause} (booted : Booted s r cause t) {m : Image} (fires : FiresSlotA s r m)
include booted fires

theorem Booted.fireOn_ran : Ran ((t.fireChosen r false false).fireMould false m.alone false) ((t.fireChosen r false false).fireOn r false m.alone false) := by
  refine State.fireOn_ran ?_ fires.lanes fires.channels false rfl
  rw [State.fireChosen_frame]
  exact booted.ends

/-- No tile and no kiln is fenced anew. -/
theorem Booted.fireFenced_eq : ((t.fireChosen r false false).fireOn r false m.alone false).fireFenced r = (t.fireChosen r false false).fireOn r false m.alone false := by
  refine State.fireFenced_of_none fires.tiles ?_
  have fences : (t.fireChosen r false false).ledger.fenceTiles = s.ledger.fenceTiles := by
    rw [State.fireChosen_of_slotA (booted.valid fires.valid) (booted.empty fires.empty)]
    exact booted.fenceTiles
  rw [(booted.fireOn_ran fires).fenceTiles]
  exact fences ▸ fires.left

theorem Booted.fired (cause : FiringCause) : FiredSlotA s m
    (((((t.fireChosen r false false).fireOn r false m.alone false).fireFenced r).fireDone r false).recordedFor cause) := by
  rw [booted.fireFenced_eq fires]
  have ran := booted.fireOn_ran fires
  have run := ran.run
  have ended := State.fireDone_ended ((t.fireChosen r false false).fireOn r false m.alone false) r false cause
  have chosen := State.fireChosen_of_slotA (booted.valid fires.valid) (booted.empty fires.empty) r
  obtain ⟨runningB, recovery, valid⟩ := State.fireChosen_update_of_slotA (booted.valid fires.valid) (booted.empty fires.empty) r
  have mould : ((t.fireChosen r false false).fireOn r false m.alone false).mould = ((t.fireChosen r false false).fireMould false m.alone false).mould := by
    rw [run]
  have update : ((t.fireChosen r false false).fireOn r false m.alone false).update = (t.fireChosen r false false).update := by
    rw [run]
    rfl
  have islands : ((t.fireChosen r false false).fireOn r false m.alone false).islands = t.islands := by
    rw [run, chosen]
    rfl
  have host : ((t.fireChosen r false false).fireOn r false m.alone false).host = t.host := by
    rw [run, chosen]
    rfl
  have started := booted.islands fires.islandA fires.islandB
  constructor
  case fired => rw [ended.mould, mould]; rfl
  case runningB => rw [ended.update, update, runningB]
  case valid => rw [ended.update, update, valid]
  case recovery => rw [ended.update, update, recovery, booted.recovery]
  case parts => rw [ended.mould, mould]; rfl
  case wins => rw [ended.mould, mould]; rfl
  case serial => rw [ended.mould, mould]; rfl
  case fallback => rw [ended.mould, mould]; rfl
  case dies =>
    intro d lt
    rw [ended.dies]
    exact ran.dies d lt
  case held => rw [ended.held, islands, started]
  case activeB => rw [ended.islands, islands, started]
  case zero =>
    intro ecc a below
    rw [ended.mem] at ecc
    obtain ⟨bytes, junk⟩ := ran.memory ecc
    have memory : ((t.fireChosen r false false).fireMould false m.alone false).mem = t.mem := by
      rw [chosen]
      rfl
    rw [State.readByte, ended.mem]
    exact booted.readByte (below.trans (State.dramTop_lt _)) (bytes.trans (congrArg _ memory)) (junk.trans (congrArg _ memory))
  case linkTraining =>
    have ready : ((t.fireChosen r false false).fireOn r false m.alone false).dieReady 8 = true := by
      rw [State.dieReady, ran.dies 8 (by decide)]
      rfl
    rw [ended.linkTraining, host, ready, booted.perst, Bool.and_true]
end

/-- A module that has not fired: no mould is in force, and every die is held in reset. -/
structure Unfired (u : State) : Prop where
  fired : u.mould.fired = false
  dies : ∀ d < 10, u.die d = .inReset

/-- Neither slot holds a mould, though the image of slot A, which is VALID, verifies. -/
structure NoMould (s : State) (r : FiringReads) : Prop where
  puf : r.pufFailed = false
  valid : s.update.slotA.state = .valid
  empty : s.update.slotB.state = .empty
  image : r.slotA.imageOk = true
  mouldA : s.update.slotA.mould = none
  mouldB : s.update.slotB.mould = none

/-- What a firing leaves, by what it read. -/
structure FiringLeaves (s : State) (r : FiringReads) (u : State) : Prop where
  still : Still (s.ledger.firingCount + 1) s.ledger.highestSerial u
  recovery : r.slotA.imageOk = false → r.slotB.imageOk = false → u.update.recovery = true ∧ Unfired u
  slotA : ∀ m, FiresSlotA s r m → FiredSlotA s m u
  noMould : NoMould s r → u.faults.mouldsFailed = true ∧ Unfired u

section
variable {s : State} {r : FiringReads} {cause : FiringCause} (caused : s.firingCause = some cause) (test : s.faults.testMode = false)
include caused test

theorem exec_firing_leaves : ∃ u, exec (.firing r) s = .next u ∧ FiringLeaves s r u := by
  have booted := State.fireBoot_booted test r cause
  have chooses (valid : s.update.slotA.state = .valid) (empty : s.update.slotB.state = .empty) (image : r.slotA.imageOk = true) :
      (s.fireBoot r cause).pickSlot r = some (false, false) := State.pickSlot_of_slotA (booted.valid valid) (booted.empty empty) image
  cases pick : (s.fireBoot r cause).pickSlot r with
  | none =>
    refine ⟨_, exec_firing_of_no_image caused pick, { booted.still with }, fun _ _ => ⟨rfl, ?_, fun d _ => booted.die d⟩, fun m fires => ?_, fun none => ?_⟩
    · exact congrArg MouldState.fired booted.mould
    · cases pick.symm.trans (chooses fires.valid fires.empty fires.image)
    · cases pick.symm.trans (chooses none.valid none.empty none.image)
  | some choice =>
    obtain ⟨b, failed⟩ := choice
    have verified : ¬ (r.slotA.imageOk = false ∧ r.slotB.imageOk = false) := fun bad => by
      cases pick.symm.trans (State.pickSlot_of_noImage _ bad.1 bad.2)
    have still := booted.still.fireChosen r b failed
    cases mould : (((s.fireBoot r cause).fireSlot b failed).pickMould b r).1 with
    | none =>
      refine ⟨_, exec_firing_of_no_mould caused pick mould, { still with }, fun badA badB => absurd ⟨badA, badB⟩ verified, fun m fires => ?_,
        fun _ => ⟨rfl, ?_, fun d _ => ?_⟩⟩
      · cases pick.symm.trans (chooses fires.valid fires.empty fires.image)
        cases mould.symm.trans (booted.pickMould_of_fires fires)
      · rw [State.fireChosen_frame]
        exact congrArg MouldState.fired booted.mould
      · rw [State.fireChosen_frame]
        exact booted.die d
    | some found =>
      obtain ⟨m, fallback⟩ := found
      refine ⟨_, exec_firing_of_mould caused pick mould, (State.recordedFor_recorded ..).still (((still.fireOn r b m fallback).fireFenced r).fireDone r b),
        fun badA badB => absurd ⟨badA, badB⟩ verified, fun m' fires => ?_, fun none => ?_⟩
      · cases pick.symm.trans (chooses fires.valid fires.empty fires.image)
        cases mould.symm.trans (booted.pickMould_of_fires fires)
        exact booted.fired fires cause
      · cases pick.symm.trans (chooses none.valid none.empty none.image)
        cases mould.symm.trans (booted.pickMould_of_none none.puf none.valid none.empty none.mouldA none.mouldB)
end

/-- Settles O60: no step of a firing puts anything under way; the slot and the mould it finds decide where it ends. -/
theorem firingSequence : Obligations.FiringSequence := by
  unfold Obligations.FiringSequence
  refine ⟨fun s r none => exec_firing_of_no_cause none r, fun s r cause caused test => ?_⟩
  obtain ⟨u, run, still, recovery, slotA, noMould⟩ := exec_firing_leaves (r := r) caused test
  refine ⟨u, run, still.firingCount, still.highestSerial, still.request, fun q => ⟨still.sq q, still.cq q⟩, still.func, still.testMode, ?_, ?_, ?_⟩
  · intro badA badB
    obtain ⟨recovers, fired, dies⟩ := recovery badA badB
    exact ⟨recovers, fired, dies⟩
  · intro m islandA islandB puf valid empty image mould checkA checkB log install code tiles channels lanes left
    have f := slotA m ⟨islandA, islandB, puf, valid, empty, image, mould, checkA, checkB, log, install, code, tiles, channels, lanes, left⟩
    exact ⟨f.fired, f.runningB, f.valid, f.recovery, f.parts, f.wins, f.serial, f.fallback, f.dies, f.held, f.activeB, f.zero, f.linkTraining⟩
  · intro puf valid empty image mouldA mouldB
    obtain ⟨failed, fired, dies⟩ := noMould ⟨puf, valid, empty, image, mouldA, mouldB⟩
    exact ⟨failed, fired, dies⟩

end Sys2Proof.Machine
end

section
/-! PROOF.  O39, refuted.  The cache of a tile's hearth may hold a good copy of a line that is poisoned at its home: a patrol read, for one, poisons the line at its
home and leaves the copy (R184, R190).  `State.meetsPoison` rightly finds no poison there while the copy lasts (R183, R211), so the premises of the statement hold.
But SLAB_MATMUL reads A before W, and a line of A may take the place of W's copy in their common set (R191); the read of W then misses and gets the poison, and
the command ends with POISON (R115), not OK.  The statement would need that no copy alone shields an input, or that the copies that do last until they
are read. -/
namespace Sys2Proof.Machine
open Sys2Proof

/-! ## How a command of the slab array runs and fails -/

theorem perform_of_runnable {s : State} {t op : Nat} {c : RunCmd} (runs : s.runnable t op = some c) (goesOn : stopsFirst s t c = false)
    (k : BitVec 512 → Nat → Work → State → Done) : perform s t op k = .next (finishCommand s t c (k c.desc (s.tilePart t) c.work s)) := by
  simp [perform, whenRunning, runs, goesOn]

theorem exec_slabMatmul_of_runnable {s : State} {t : Nat} {c : RunCmd} (runs : s.runnable t 0x02 = some c) (goesOn : stopsFirst s t c = false) :
    exec (.slabMatmul t) s = .next (finishCommand s t c (matRun c.desc t c.work (s.slabUsed t c.desc))) :=
  perform_of_runnable runs goesOn (fun d _ w s => matRun d t w (s.slabUsed t d))

theorem finishCommand_ended_of_failed {s : State} {t : Nat} {c : RunCmd} {r : Done} (fails : r.status ≠ stOk) :
    Ended (r.s.tile t) ((finishCommand s t c r).tile t) c r.status := by
  rw [finishCommand, if_neg (fun both => fails both.1)]
  exact endRunning_ended ..

/-- The inputs meet poison once they have been read, whatever they met before (R183). -/
theorem reading_of_meetsPoison {s : State} {g : Agent} {c : Checks} {r : Nat × Nat} (input : r ∈ c.ins)
    (poison : (s.fetchAll g c.ins).meetsPoison g r.1 r.2 = true) (k : State → Done) : reading s g c k = failed (s.fetchAll g c.ins) c.outs stPoison :=
  if_pos (List.any_eq_true.2 ⟨r, input, poison⟩)

theorem matRun_status_of_meetsPoison {d : BitVec 512} {t : Nat} {s : State} {x : Mat} {r : Nat × Nat} (fields : matFields d = some x) (input : r ∈ (matChecks d).ins)
    (poison : (s.fetchAll (.tile t) (matChecks d).ins).meetsPoison (.tile t) r.1 r.2 = true) (w : Work) : (matRun d t w s).status = stPoison := by
  simp only [matRun, fields, reading_of_meetsPoison input poison, failed]

/-- A matrix product one of whose inputs meets poison as it is read ends with POISON, which LAST_ERR keeps (R115, R143). -/
theorem exec_slabMatmul_lastErr_of_meetsPoison {s : State} {t : Nat} {c : RunCmd} {x : Mat} {r : Nat × Nat} (runs : s.runnable t 0x02 = some c)
    (goesOn : stopsFirst s t c = false) (fields : matFields c.desc = some x) (input : r ∈ (matChecks c.desc).ins)
    (poison : ((s.slabUsed t c.desc).fetchAll (.tile t) (matChecks c.desc).ins).meetsPoison (.tile t) r.1 r.2 = true) :
    ∃ u, exec (.slabMatmul t) s = .next u ∧ (u.tile t).lastErr = stPoison := by
  have status := matRun_status_of_meetsPoison fields input poison c.work
  have failed : stPoison ≠ stOk ∧ ¬ (stPoison = stOk ∨ stPoison = stAbandoned) := by decide
  have ended := finishCommand_ended_of_failed (s := s) (t := t) (c := c) (status.trans_ne failed.1)
  rw [status] at ended
  exact ⟨_, exec_slabMatmul_of_runnable runs goesOn, ended.lastErr.trans (if_neg failed.2)⟩

/-! ## The counterexample -/

namespace EvictedOperand

/-- The product of one I8 row of A, at 0x1000, and one of W, at 0x201000, K = 1, into I32 at 0x2000 of tile 0's store: the fields of R120 as byte offset and value. -/
def desc : BitVec 512 :=
  BitVec.ofNat 512 (0x02 + ([(16, 0x1000), (22, 0x201000), (28, 0xD000002000), (42, 1), (44, 1), (46, 1), (48, 0x22), (49, 0x0D), (52, 1), (54, 1)].map
    (fun f : Nat × Nat => f.2 * 256 ^ f.1)).sum)

def cmd : RunCmd := { desc := desc, queue := 2, slot := 0 }

/-- What the descriptor says. -/
def mat : Mat where
  oa := { blk := false, w := 8, sw := 8 }
  ow := { blk := false, w := 8, sw := 8 }
  a := 0x1000
  w := 0x201000
  out := 0xD000002000
  ae := 0
  we := 0
  m := 1
  k := 1
  n := 1
  outFmt := 0xD
  lsb := 0
  rnd := 0
  accum := false

/-- Hearth 0's remote cache: partition 0 has two ways, and both of set 0x40 are taken, the older by W's line 0x8040, the younger by line 0x10040. -/
def cache : Hearth :=
  { rc := [(0x8040, some { way := 0, used := 1 }), (0x10040, some { way := 1, used := 2 })], rcClock := 2, ways := [(0, 1)] }

/-- Tile 0 of partition 0 runs the command; every die is ready and every port up.  Hearth 0 is recorded as a sharer of both lines that it holds (R192). -/
def sound : State where
  mould := { parts := [(0, { tiles := 1, dram := [⟨0, 1⟩] })] }
  links := { dies := (List.range 10).map (fun d => (d, .ready)), ends := (List.range 30).map (fun e => (e, { up := true, width := 3 })) }
  tiles := [(0, { running := some cmd })]
  mem := { ecc := true, dir := [(0x8040, 1), (0x10040, 1)], hearths := [(0, cache)] }

/-- Then the patrol scrubber reads W's line and meets an uncorrectable error (R180, R184). -/
def state : State := sound.eccEvent 0x8040 (.uncorrectable false)

theorem fields : matFields desc = some mat := by decide +kernel

/-- No line has an owner, so none has lost it. -/
theorem ownersHold : state.OwnersHold := by
  intro line
  have shared : owned (state.dirOf line) = false := by
    have listed : ∀ e ∈ state.mem.dir, owned e.2 = false := by decide +kernel
    rcases sget_mem 0 state.mem.dir line with none | entry
    · rw [State.dirOf, none]
      rfl
    · exact listed _ entry
  simp only [State.ownerGone, shared, Bool.false_and]

/-- To the command, before it reads, its output and both operands are free of poison. -/
theorem ranges_clean : ∀ r ∈ mat.outSpan :: mat.inSpans, state.meetsPoison (.tile 0) r.1 r.2 = false := by decide +kernel

/-- The command reads A's line, then W's. -/
theorem reads : (matChecks desc).ins = [(mat.a, 64), (mat.w, 64)] := by decide +kernel

/-- The read of A takes W's copy from the cache, so the read of W that follows brings the poison of W's home. -/
theorem read_of_a_exposes_w : let afterA := (state.slabUsed 0 desc).fetch (.tile 0) mat.a 64
    afterA.copyFor (.tile 0) 0x8040 = none ∧ (afterA.fetch (.tile 0) mat.w 64).meetsPoison (.tile 0) mat.w 64 = true := by decide +kernel

end EvictedOperand

open EvictedOperand

/-- Refutes O39: the read of A evicts the good copy of W's line, and the read of W then meets the poison of its home. -/
theorem not_matmulOfIntegers : ¬ Obligations.MatmulOfIntegers := by
  unfold Obligations.MatmulOfIntegers
  intro claim
  have runs : state.runnable 0 0x02 = some cmd := by decide +kernel
  have goesOn : stopsFirst state 0 cmd = false := rfl
  have admitted : (descVerdict desc 0 (state.tilePart 0) state).1 = stOk := by decide +kernel
  obtain ⟨u, run, ended, -⟩ := claim state 0 cmd mat runs goesOn (by decide +kernel) fields admitted rfl rfl rfl (by decide) (by decide) rfl ownersHold
    ranges_clean
  have input : (mat.w, 64) ∈ (matChecks desc).ins := by simp [reads]
  have met : ((state.slabUsed 0 desc).fetchAll (.tile 0) (matChecks desc).ins).meetsPoison (.tile 0) mat.w 64 = true := by
    rw [reads]
    exact read_of_a_exposes_w.2
  obtain ⟨v, fails, poison⟩ := exec_slabMatmul_lastErr_of_meetsPoison runs goesOn fields input met
  obtain rfl : u = v := Host.Outcome.next.inj (run.symm.trans fails)
  have ok : (u.tile 0).lastErr = (state.tile 0).lastErr := ended.lastErr.trans (if_pos (.inl rfl))
  exact absurd (poison.symm.trans ok) (by decide +kernel)

end Sys2Proof.Machine
end

section
/-! PROOF.  O3 and O4: the machine invariant.  The invariant reads four tables of the state only, its *footprint*.  The files of the model are gone through in their
order, and each function gets one of two lemmas: `f_footprint`, where it leaves the footprint as it was, or `f_ok`, where it changes it and the invariant still
holds.  Every arm of `exec` then gets `execX_good`: its outcome is a state where the invariant holds.  `step_good` puts them together. -/
namespace Sys2Proof.Machine
open Sys2Proof

/-- What the invariant of O3 speaks of: the tiles, the two tables of memory and the fault queues. -/
structure Footprint where
  tiles : Store Tile
  bytes : Store Byte
  poison : Store Bool
  queues : Store (List LedgerRec)

def State.footprint (s : State) : Footprint := ⟨s.tiles, s.mem.bytes, s.mem.poison, s.faults.queues⟩

@[simp] theorem State.footprint_mk (a b c d e) (f : FaultState) (g h i j k tiles) (mem : MemState) (l m n o) :
  State.footprint (State.mk a b c d e f g h i j k tiles mem l m n o) = ⟨tiles, mem.bytes, mem.poison, f.queues⟩ := (rfl)

@[simp] theorem State.footprint_eta (s : State) : Footprint.mk s.tiles s.mem.bytes s.mem.poison s.faults.queues = s.footprint := (rfl)

/-- `t` has the footprint of `s`: a hypothesis on a function argument that `simp` can discharge. -/
structure SameFootprint (s t : State) : Prop where
  footprint : t.footprint = s.footprint

@[simp] theorem sameFootprint_iff {s t : State} : SameFootprint s t ↔ t.footprint = s.footprint :=
  ⟨SameFootprint.footprint, SameFootprint.mk⟩

@[simp] theorem ite_footprint (c : Prop) [Decidable c] (a b : State) :
    (if c then a else b).footprint = if c then a.footprint else b.footprint := apply_ite State.footprint c a b

@[simp] theorem foldl_footprint {α : Type} {f : State → α → State} (hf : ∀ s x, SameFootprint s (f s x)) (l : List α) (s : State) :
    (l.foldl f s).footprint = s.footprint :=
  foldl_keeps State.footprint (fun s x => (hf s x).footprint) l s

/-- `State.Inv` as a statement of the footprint (`State.inv_iff`). -/
structure Footprint.Ok (w : Footprint) : Prop where
  bytes : swf 0 w.bytes = true
  poison : swf false w.poison = true
  queues : ∀ e ∈ w.queues, e.2.length ≤ 64
  tiles : ∀ e ∈ w.tiles, e.2.abandonList.length ≤ 16

theorem State.inv_iff (s : State) : s.Inv ↔ s.footprint.Ok := by
  constructor
  · rintro ⟨h1, h2, h3⟩
    rw [Memory.wf_iff] at h1
    exact ⟨h1.1, h1.2, h2, h3⟩
  · rintro ⟨h1, h2, h3, h4⟩
    exact ⟨by rw [Memory.wf_iff]; exact ⟨h1, h2⟩, h3, h4⟩

/-- What goes from `s` to `t` keeps the invariant: a hypothesis on a function argument that `simp` can discharge. -/
structure Keeps (s t : State) : Prop where
  ok : s.footprint.Ok → t.footprint.Ok

@[simp] theorem keeps_iff {s t : State} : Keeps s t ↔ (s.footprint.Ok → t.footprint.Ok) := ⟨Keeps.ok, Keeps.mk⟩

/-- The invariant after an operation on memory alone. -/
theorem Footprint.Ok.ofMemory {s t : State} (hs : s.footprint.Ok) (hm : Memory.wf s.mem = true → Memory.wf t.mem = true)
    (ht : t.tiles = s.tiles) (hq : t.faults.queues = s.faults.queues) : t.footprint.Ok := by
  obtain ⟨bytes, poison, queues, tiles⟩ := hs
  obtain ⟨bytes', poison'⟩ := (Memory.wf_iff _).1 (hm ((Memory.wf_iff _).2 ⟨bytes, poison⟩))
  refine ⟨bytes', poison', ?_, ?_⟩
  · change ∀ e ∈ t.faults.queues, _
    rw [hq]
    exact queues
  · change ∀ e ∈ t.tiles, _
    rw [ht]
    exact tiles

theorem Coh.ok {s t : State} (h : Coh s t) (hs : s.footprint.Ok) : t.footprint.Ok :=
  hs.ofMemory (Memory.wf_coh h) h.tiles h.queues

@[simp] theorem State.tile_abandonList_le {s : State} (hs : s.footprint.Ok) (t : Nat) : (s.tile t).abandonList.length ≤ 16 := by
  rcases sget_mem ({} : Tile) s.tiles t with h | h
  · show (sget ({} : Tile) s.tiles t).abandonList.length ≤ 16
    rw [h]
    decide
  · exact hs.tiles _ h

@[simp] theorem State.faultQueue_le {s : State} (hs : s.footprint.Ok) (o : Nat) : (s.faultQueue o).length ≤ 64 := by
  rcases sget_mem ([] : List LedgerRec) s.faults.queues o with h | h
  · show (sget ([] : List LedgerRec) s.faults.queues o).length ≤ 64
    rw [h]
    decide
  · exact hs.queues _ h

@[simp] theorem State.setTile_ok {s : State} (hs : s.footprint.Ok) (t : Nat) (x : Tile) (hx : x.abandonList.length ≤ 16) :
    (s.setTile t x).footprint.Ok where
  bytes := hs.bytes
  poison := hs.poison
  queues := hs.queues
  tiles e he := by
    rcases mem_sset he with rfl | he
    · exact hx
    · exact hs.tiles e he

@[simp] theorem foldl_ok {α : Type} {f : State → α → State} (hf : ∀ s x, Keeps s (f s x)) (l : List α) (s : State) (hs : s.footprint.Ok) :
    (l.foldl f s).footprint.Ok := by
  induction l generalizing s with
  | nil => exact hs
  | cons x l ih => exact ih _ ((hf s x).ok hs)

@[simp] theorem foldl_fst_ok {α β : Type} {f : State × β → α → State × β}
    (hf : ∀ r x, Keeps r.1 (f r x).1) (l : List α) (r : State × β) (hs : r.1.footprint.Ok) :
    (l.foldl f r).1.footprint.Ok := by
  induction l generalizing r with
  | nil => exact hs
  | cons x l ih => exact ih _ ((hf r x).ok hs)

@[simp] theorem ite_ok (c : Prop) [Decidable c] (a b : Footprint) :
    (if c then a else b).Ok ↔ if c then a.Ok else b.Ok := by split <;> rfl

/-- The outcome is a next state, and the invariant holds there. -/
def Good (o : Host.Outcome State Fault Refusal) : Prop := ∃ t, o = .next t ∧ t.footprint.Ok

@[simp] theorem good_next (t : State) : Good (.next t) ↔ t.footprint.Ok := by
  simp [Good]

@[simp] theorem good_ite (c : Prop) [Decidable c] (a b : Host.Outcome State Fault Refusal) :
    Good (if c then a else b) ↔ if c then Good a else Good b := by
  split <;> rfl

@[simp] theorem State.setHearth_footprint (s : State) (h : Nat) (x : Hearth) : (s.setHearth h x).footprint = s.footprint := (rfl)
@[simp] theorem State.setVault_footprint (s : State) (v : Nat) (x : Vault) : (s.setVault v x).footprint = s.footprint := (rfl)
@[simp] theorem State.setPortEnd_footprint (s : State) (e : Nat) (x : PortEnd) : (s.setPortEnd e x).footprint = s.footprint := (rfl)
@[simp] theorem State.setDie_footprint (s : State) (d : Nat) (x : DieState) : (s.setDie d x).footprint = s.footprint := (rfl)
@[simp] theorem State.setSq_footprint (s : State) (q : Nat) (x : HostQueue) : (s.setSq q x).footprint = s.footprint := (rfl)
@[simp] theorem State.setCq_footprint (s : State) (q : Nat) (x : HostQueue) : (s.setCq q x).footprint = s.footprint := (rfl)
@[simp] theorem State.setFunc_footprint (s : State) (f : Nat) (x : PcieFunc) : (s.setFunc f x).footprint = s.footprint := (rfl)
@[simp] theorem State.setOp_footprint (s : State) (h : Nat) (x : OpRec) : (s.setOp h x).footprint = s.footprint := (rfl)
@[simp] theorem State.due_footprint (s : State) (c : Completion) : (s.due c).footprint = s.footprint := (rfl)
@[simp] theorem State.setRequest_footprint (s : State) (i : Nat) (x : Request) : (s.setRequest i x).footprint = s.footprint := (rfl)
@[simp] theorem State.setRing_footprint (s : State) (i : Nat) (x : Ring) : (s.setRing i x).footprint = s.footprint := (rfl)
@[simp] theorem State.setPool_footprint (s : State) (p : Nat) (x : Pool) : (s.setPool p x).footprint = s.footprint := (rfl)
@[simp] theorem State.setWare_footprint (s : State) (h : Nat) (x : Ware) : (s.setWare h x).footprint = s.footprint := (rfl)
@[simp] theorem State.setCtx_footprint (s : State) (c : Nat) (x : Ctx) : (s.setCtx c x).footprint = s.footprint := (rfl)
@[simp] theorem State.setWheel_footprint (s : State) (w : Nat) (x : WheelUnit) : (s.setWheel w x).footprint = s.footprint := (rfl)
@[simp] theorem State.setInst_footprint (s : State) (i : Nat) (x : RegInst) : (s.setInst i x).footprint = s.footprint := (rfl)
@[simp] theorem State.occur_footprint (s : State) (n : Nat) : (s.occur n).footprint = s.footprint := (rfl)
@[simp] theorem State.setSession_footprint (s : State) (p k : Nat) (x : Session) : (s.setSession p k x).footprint = s.footprint := (rfl)
@[simp] theorem State.setMgmt_footprint (s : State) (n : Nat) (x : MgmtSession) : (s.setMgmt n x).footprint = s.footprint := (rfl)
@[simp] theorem State.setTilePower_footprint (s : State) (t : Nat) (x : TilePower) : (s.setTilePower t x).footprint = s.footprint := (rfl)
@[simp] theorem State.setTileTherm_footprint (s : State) (t : Nat) (x : TileTherm) : (s.setTileTherm t x).footprint = s.footprint := (rfl)
@[simp] theorem State.setCyc_footprint (s : State) (d : Nat) (x : CycleState) : (s.setCyc d x).footprint = s.footprint := (rfl)
@[simp] theorem State.raise_footprint (s : State) (f : FaultReq) : (s.raise f).footprint = s.footprint := (rfl)
@[simp] theorem State.setSlot_footprint (s : State) (b : Bool) (x : Slot) : (s.setSlot b x).footprint = s.footprint := (rfl)

/-! ## Ops -/

@[simp] theorem State.settlePower_footprint (s : State) (t : Nat) : (s.settlePower t).footprint = s.footprint := by simp [State.settlePower]

@[simp] theorem State.zero_ok (s : State) (a n : Nat) (hs : s.footprint.Ok) : (s.zero a n).footprint.Ok :=
  hs.ofMemory (Memory.wf_zero s a n) rfl rfl

@[simp] theorem State.undefine_ok (s : State) (j : Junk) (hs : s.footprint.Ok) : (s.undefine j).footprint.Ok := by
  refine hs.ofMemory (Memory.wf_undefine s j) ?_ ?_ <;> simp only [State.undefine] <;> split <;> rfl

@[simp] theorem State.freeBytes_ok (s : State) (a n : Nat) (hs : s.footprint.Ok) : (s.freeBytes a n).footprint.Ok :=
  State.undefine_ok _ _ hs

@[simp] theorem State.takeFree_footprint (s : State) : s.takeFree.2.footprint = s.footprint := (rfl)

@[simp] theorem State.boundsFault_footprint (s : State) (p addr : Nat) : (s.boundsFault p addr).footprint = s.footprint := by
  simp [State.boundsFault]

@[simp] theorem State.occurIf_footprint (s : State) (was now : Bool) (src : Nat) : (s.occurIf was now src).footprint = s.footprint := by
  simp [State.occurIf]

@[simp] theorem State.occurFrom_footprint (s : State) (was : Bool) (src : Nat) : (s.occurFrom was src).footprint = s.footprint := by
  simp [State.occurFrom]

@[simp] theorem State.setPevt_footprint (s : State) (p : Nat) (b : BitVec 3) : (s.setPevt p b).footprint = s.footprint := by
  simp [State.setPevt]

@[simp] theorem State.answer_footprint (s : State) (f : Forwarded) (status r0 r1 : Nat) : (s.answer f status r0 r1).footprint = s.footprint :=
  (rfl)

@[simp] theorem State.dropForwarded_footprint (s : State) (q : Nat) : (s.dropForwarded q).footprint = s.footprint := (rfl)
@[simp] theorem State.markServed_footprint (s : State) (q : Nat) : (s.markServed q).footprint = s.footprint := (rfl)

@[simp] theorem onForwarded_footprint (q op : Nat) (s : State) (k : Forwarded → State → State) (hk : ∀ a t, SameFootprint t (k a t)) :
    (onForwarded q op s k).footprint = s.footprint := by
  fun_cases onForwarded q op s k <;> simp [(hk _ _).footprint]

@[simp] theorem onForwarded_ok (q op : Nat) (s : State) (k : Forwarded → State → State) (hk : ∀ a t, Keeps t (k a t)) (hs : s.footprint.Ok) :
    (onForwarded q op s k).footprint.Ok := by
  fun_cases onForwarded q op s k with
  | case1 | case3 | case5 => exact hs
  | case2 => exact (hk _ _).ok (by simpa using hs)
  | case4 => exact (hk _ _).ok (by simpa using hs)

@[simp] theorem State.newHandle_footprint (s : State) (o : OpRec) : (s.newHandle o).2.footprint = s.footprint := (rfl)

@[simp] theorem State.endHandle_footprint (s : State) (h : Nat) (st : OpState) (status r1 : Nat) :
    (s.endHandle h st status r1).footprint = s.footprint := by
  fun_cases State.endHandle s h st status r1 <;> rfl

/-! ## Access -/

@[simp] theorem State.logAccess_footprint (s : State) (i addr cause : Nat) (write : Bool) :
    (s.logAccess i addr cause write).footprint = s.footprint := by
  simp [State.logAccess]

@[simp] theorem State.reply_footprint (s : State) (r : AccessReply) : (s.reply r).footprint = s.footprint := (rfl)

@[simp] theorem State.refuse_footprint (s : State) (m : Master) (addr : Nat) (write : Bool) : (s.refuse m addr write).footprint = s.footprint := by
  fun_cases State.refuse s m addr write <;> simp

@[simp] theorem State.guardFail_footprint (s : State) (m : Master) (addr cause : Nat) : (s.guardFail m addr cause).footprint = s.footprint := by
  simp [State.guardFail]

@[simp] theorem State.failDual_footprint (s : State) (m : Master) (block : Nat) : (s.failDual m block).footprint = s.footprint := by
  fun_cases State.failDual s m block <;> simp

@[simp] theorem State.tileEvent_footprint (s : State) (t : Nat) : (s.tileEvent t).footprint = s.footprint := by simp [State.tileEvent]

@[simp] theorem State.setNumeric_ok (s : State) (t : Nat) (sticky mask : Word) (hs : s.footprint.Ok) : (s.setNumeric t sticky mask).footprint.Ok := by
  simp [hs, State.setNumeric]

@[simp] theorem State.ohmErr_footprint (s : State) (kind code part : Nat) : (s.ohmErr kind code part).footprint = s.footprint := (rfl)

/-! ## Coherence -/

@[simp] theorem State.setDir_footprint (s : State) (line d : Nat) : (s.setDir line d).footprint = s.footprint := (rfl)

@[simp] theorem State.poisonLine_ok (s : State) (line cause : Nat) (hs : s.footprint.Ok) : (s.poisonLine line cause).footprint.Ok :=
  ((Coh.refl s).poisonLine _ _).ok hs

@[simp] theorem State.eccEvent_ok (s : State) (line : Nat) (e : EccEvent) (hs : s.footprint.Ok) : (s.eccEvent line e).footprint.Ok :=
  ((Coh.refl s).eccEvent _ _).ok hs

@[simp] theorem State.wroteBack_ok (s : State) (line : Nat) (c : RcLine) (hs : s.footprint.Ok) : (s.wroteBack line c).footprint.Ok :=
  ((Coh.refl s).wroteBack _ _).ok hs

@[simp] theorem State.dropCopy_ok (s : State) (h line : Nat) (hs : s.footprint.Ok) : (s.dropCopy h line).footprint.Ok :=
  ((Coh.refl s).dropCopy _ _).ok hs

@[simp] theorem State.hit_footprint (s : State) (h line : Nat) : (s.hit h line).footprint = s.footprint := by
  fun_cases State.hit s h line <;> rfl

@[simp] theorem readMiss_ok (s : State) (h line p : Nat) (e : EccEvent) (hs : s.footprint.Ok) : (readMiss s h line p e).footprint.Ok :=
  ((Coh.refl s).readMiss _ _ _ _).ok hs

@[simp] theorem ownershipRequest_ok (s : State) (h line p : Nat) (whole : Bool) (e : EccEvent) (hs : s.footprint.Ok) :
    (ownershipRequest s h line p whole e).footprint.Ok :=
  ((Coh.refl s).ownershipRequest _ _ _ _ _).ok hs

@[simp] theorem homeSide_ok (s : State) (line : Nat) (write : Bool) (hs : s.footprint.Ok) : (homeSide s line write).footprint.Ok :=
  ((Coh.refl s).homeSide _ _).ok hs

@[simp] theorem rcError_ok (s : State) (h line p : Nat) (e : EccEvent) (hs : s.footprint.Ok) : (rcError s h line p e).footprint.Ok := by
  fun_cases rcError s h line p e with
  | case1 | case2 | case3 => simp +zetaDelta [hs]
  | case4 c _ _ x s1 _ s2 =>
    have h2 : s2.footprint.Ok := State.dropCopy_ok s1 _ _ hs
    split <;> simp [h2]
  | case5 c _ _ x s1 =>
    exact readMiss_ok _ _ _ _ _ (State.dropCopy_ok s1 _ _ hs)

@[simp] theorem State.fetch_ok (s : State) (g : Agent) (a n : Nat) (hs : s.footprint.Ok) : (s.fetch g a n).footprint.Ok :=
  ((Coh.refl s).fetch _ _ _).ok hs

@[simp] theorem State.fetchAll_ok (s : State) (g : Agent) (l : List (Nat × Nat)) (hs : s.footprint.Ok) : (s.fetchAll g l).footprint.Ok :=
  ((Coh.refl s).fetchAll _ _).ok hs

@[simp] theorem State.claim_ok (s : State) (g : Agent) (a n : Nat) (hs : s.footprint.Ok) : (s.claim g a n).footprint.Ok :=
  ((Coh.refl s).claim _ _ _).ok hs

@[simp] theorem State.store_ok (s : State) (g : Agent) (a : Nat) (bs : List Byte) (hs : s.footprint.Ok) : (s.store g a bs).1.footprint.Ok :=
  (State.claim_ok s g a bs.length hs).ofMemory (Memory.wf_store _ _ _ _ _ _) rfl rfl

@[simp] theorem State.guardStore_ok (s : State) (g : Agent) (p a : Nat) (bs : List Byte) (hs : s.footprint.Ok) :
    (s.guardStore g p a bs).1.footprint.Ok := by
  fun_cases State.guardStore s g p a bs <;> simp [hs]

@[simp] theorem State.put_ok (s : State) (g : Agent) (a : Nat) (bs : List Byte) (hs : s.footprint.Ok) : (s.put g a bs).footprint.Ok :=
  State.store_ok s g a bs hs

/-! ## Check -/

@[simp] theorem failed_ok (s : State) (outs : List (Nat × Nat)) (st : Nat) (hs : s.footprint.Ok) : (failed s outs st).s.footprint.Ok :=
  foldl_ok (fun t (r : Nat × Nat) => ⟨State.freeBytes_ok t r.1 r.2⟩) outs s hs

@[simp] theorem reading_ok (s : State) (g : Agent) (c : Checks) (k : State → Done) (hk : ∀ t, Keeps t (k t).s) (hs : s.footprint.Ok) :
    (reading s g c k).s.footprint.Ok := by
  simp only [reading]
  split
  · simp [hs]
  · exact (hk _).ok (State.fetchAll_ok _ _ _ hs)

@[simp] theorem writeRows_ok (s : State) (g : Agent) (l : List (Nat × List Byte)) (hs : s.footprint.Ok) : (writeRows s g l).1.footprint.Ok := by
  induction l generalizing s with
  | nil => exact hs
  | cons r l ih => exact ih _ (State.store_ok s g r.1 r.2 hs)

@[simp] theorem finishRows_ok (s : State) (g : Agent) (c : Checks) (rows : List (Nat × List Byte)) (numeric opflags result : Nat)
    (hs : s.footprint.Ok) :
    (finishRows s g c rows numeric opflags result).s.footprint.Ok := by
  simp only [finishRows]
  split <;> simp [hs]

@[simp] theorem piecesWrite_ok (s : State) (g : Agent) (l : List (Nat × List Byte)) (n : Nat) (hs : s.footprint.Ok) :
    (piecesWrite s g l n).1.footprint.Ok := by
  induction l generalizing s n with
  | nil => exact hs
  | cons r l ih =>
    simp only [piecesWrite]
    split
    · exact State.store_ok s g r.1 r.2 hs
    · exact ih _ _ (State.store_ok s g r.1 r.2 hs)

@[simp] theorem Pieces.run_ok (z : Pieces) (s : State) (g : Agent) (p : Nat) (outs : List (Nat × Nat)) (done : Nat) (hs : s.footprint.Ok) :
    (z.run s g p outs done).s.footprint.Ok := by
  simp only [Pieces.run]
  split
  · simp [hs]
  · split <;> simp [hs]

theorem pieceUnit_ok (s : State) (g : Agent) (rows : List (Nat × List Byte)) (fails : Bool) (w : Work) (hs : s.footprint.Ok) :
    ∀ r ∈ pieceUnit s g rows fails w, r.1.footprint.Ok := by
  fun_cases pieceUnit s g rows fails w <;> simp +zetaDelta [hs]

@[simp] theorem State.vecUsed_ok (s : State) (t : Nat) (d : BitVec 512) (hs : s.footprint.Ok) : (s.vecUsed t d).footprint.Ok :=
  State.setTile_ok hs t _ (State.tile_abandonList_le hs t)

/-! ## Slab -/

@[simp] theorem slabLoadRun_ok (d : BitVec 512) (t : Nat) (s : State) (hs : s.footprint.Ok) : (slabLoadRun d t s).s.footprint.Ok :=
  reading_ok _ _ _ _ (fun _ => ⟨fun h => State.setTile_ok h t _ (State.tile_abandonList_le h t)⟩) hs

@[simp] theorem State.setWeights_ok (s : State) (t : Nat) (b : List Byte × List Byte) (hs : s.footprint.Ok) : (s.setWeights t b).footprint.Ok :=
  State.setTile_ok hs t _ (State.tile_abandonList_le hs t)

@[simp] theorem matRun_ok (d : BitVec 512) (t : Nat) (w : Work) (s : State) (hs : s.footprint.Ok) : (matRun d t w s).s.footprint.Ok := by
  unfold matRun
  split
  · exact hs
  · refine reading_ok _ _ _ _ (fun s => ⟨fun h => ?_⟩) hs
    dsimp only
    split <;> simp [h]

theorem matUnit_ok (d : BitVec 512) (t : Nat) (w : Work) (s : State) (hs : s.footprint.Ok) : ∀ r ∈ matUnit d t w s, r.1.footprint.Ok := by
  have h := State.fetchAll_ok s (.tile t) (matChecks d).ins hs
  fun_cases matUnit d t w s <;> simp +zetaDelta [h]

@[simp] theorem convRun_ok (d : BitVec 512) (t : Nat) (w : Work) (s : State) (hs : s.footprint.Ok) : (convRun d t w s).s.footprint.Ok :=
  reading_ok _ _ _ _ (fun _ => ⟨fun h => finishRows_ok _ _ _ _ _ _ _ (State.setWeights_ok _ _ _ h)⟩) hs

theorem convUnit_ok (d : BitVec 512) (t : Nat) (w : Work) (s : State) (hs : s.footprint.Ok) : ∀ r ∈ convUnit d t w s, r.1.footprint.Ok := by
  have h := State.fetchAll_ok s (.tile t) (convChecks d).ins hs
  fun_cases convUnit d t w s <;> simp +zetaDelta [h]

@[simp] theorem State.loadWeights_ok (s : State) (t : Nat) (preloaded : Bool) (d : BitVec 512) (w : Work) (hs : s.footprint.Ok) :
    (s.loadWeights t preloaded d w).footprint.Ok :=
  State.setWeights_ok _ _ _ hs

/-! ## Vector -/

@[simp] theorem Vm.setReg_footprint (m : Vm) (v : Nat) (x : List Word) : (m.setReg v x).s.footprint = m.s.footprint := (rfl)
@[simp] theorem Vm.setSc_footprint (m : Vm) (n : Nat) (x : Word) : (m.setSc n x).s.footprint = m.s.footprint := (rfl)

@[simp] theorem Vm.read_ok (m : Vm) (l : List (Nat × Nat)) (hs : m.s.footprint.Ok) : (m.read l).1.s.footprint.Ok := by
  unfold Vm.read
  split <;> simp [hs]

@[simp] theorem Vm.write_ok (m : Vm) (l : List (Nat × List Byte)) (hs : m.s.footprint.Ok) : (m.write l).1.s.footprint.Ok := by
  simp [hs, Vm.write]

@[simp] theorem Vm.ld_ok (m : Vm) (v arg fmt idx : Nat) (ofs : Int) (hs : m.s.footprint.Ok) : (m.ld v arg fmt idx ofs).1.s.footprint.Ok := by
  unfold Vm.ld
  split
  · exact hs
  · dsimp only
    split <;> simp [hs]

@[simp] theorem Vm.st_ok (m : Vm) (v arg fmt idx : Nat) (ofs : Int) (hs : m.s.footprint.Ok) : (m.st v arg fmt idx ofs).1.s.footprint.Ok := by
  fun_cases Vm.st m v arg fmt idx ofs <;> simp +zetaDelta [hs]

@[simp] theorem Vm.execR_footprint (m : Vm) (i op : Nat) : (m.execR i op).1.s.footprint = m.s.footprint := by
  fun_cases Vm.execR m i op <;> simp +zetaDelta

@[simp] theorem Vm.execCvt_footprint (m : Vm) (i : Nat) : (m.execCvt i).1.s.footprint = m.s.footprint := by
  fun_cases Vm.execCvt m i <;> simp +zetaDelta [apply_ite Vm.s]

@[simp] theorem Vm.execS_footprint (m : Vm) (i op : Nat) : (m.execS i op).1.s.footprint = m.s.footprint := by
  fun_cases Vm.execS m i op <;> rfl

@[simp] theorem Vm.execSS_footprint (m : Vm) (i op : Nat) : (m.execSS i op).1.s.footprint = m.s.footprint := by
  fun_cases Vm.execSS m i op <;> simp +zetaDelta

@[simp] theorem Vm.execTld_ok (m : Vm) (i : Nat) (hs : m.s.footprint.Ok) : (m.execTld i).1.s.footprint.Ok := by
  fun_cases Vm.execTld m i <;> simp +zetaDelta [hs]

@[simp] theorem Vm.execScratch_footprint (m : Vm) (i : Nat) (store : Bool) : (m.execScratch i store).1.s.footprint = m.s.footprint := by
  fun_cases Vm.execScratch m i store <;> simp +zetaDelta

@[simp] theorem Vm.execSM_ok (m : Vm) (i : Nat) (store : Bool) (hs : m.s.footprint.Ok) : (m.execSM i store).1.s.footprint.Ok := by
  fun_cases Vm.execSM m i store <;> simp +zetaDelta [hs]

@[simp] theorem Vm.jump_footprint (m : Vm) (ofs : Int) : (m.jump ofs).1.s.footprint = m.s.footprint := by
  fun_cases Vm.jump m ofs <;> simp +zetaDelta

@[simp] theorem Vm.exec1_ok (m : Vm) (hs : m.s.footprint.Ok) : m.exec1.1.s.footprint.Ok := by
  fun_cases Vm.exec1 m <;> simp +zetaDelta [hs, apply_ite Prod.fst, apply_ite Vm.s]

@[simp] theorem Vm.step_ok (m : Vm) (hs : m.s.footprint.Ok) : m.step.1.s.footprint.Ok := by
  fun_cases Vm.step m <;> simp +zetaDelta [hs]

@[simp] theorem Vm.run_ok (n : Nat) (m : Vm) (hs : m.s.footprint.Ok) : (Vm.run n m).1.s.footprint.Ok := by
  induction n generalizing m with
  | zero => exact hs
  | succ n ih =>
    simp only [Vm.run]
    split
    · exact ih _ (Vm.step_ok m hs)
    · exact Vm.step_ok m hs

@[simp] theorem vecStart_ok (d : BitVec 512) (t p : Nat) (s : State) (hs : s.footprint.Ok) : (vecStart d t p s).s.footprint.Ok :=
  State.setTile_ok hs t _ (State.tile_abandonList_le hs t)

@[simp] theorem vecResume_footprint (d : BitVec 512) (t p : Nat) (w : VecWork) (s : State) : (vecResume d t p w s).s.footprint = s.footprint :=
  (rfl)

@[simp] theorem Vm.spoil_ok (m : Vm) (keep : Bool) (hs : m.s.footprint.Ok) : (m.spoil keep).footprint.Ok := by
  have h : ((m.outs.flatMap (m.s.reachable m.part)).foldl (fun s r => s.freeBytes r.1 r.2) m.s).footprint.Ok :=
    foldl_ok (fun s (r : Nat × Nat) => ⟨State.freeBytes_ok s r.1 r.2⟩) _ _ hs
  have hw (l : Store Byte) (x : MemState) (hx : Memory.wf x = true) : Memory.wf (l.foldl (fun x b => x.writeByte b.1 b.2) x) = true := by
    induction l generalizing x with
    | nil => exact hx
    | cons b l ih => exact ih _ (Memory.wf_writeByte x b.1 b.2 hx)
  unfold Vm.spoil
  dsimp only
  split
  · exact h.ofMemory (hw _ _) rfl rfl
  · exact h

@[simp] theorem vecEnd_ok (counted : Nat) (m : Vm) (e : VEnd) (hs : m.s.footprint.Ok) : (vecEnd counted m e).s.footprint.Ok := by
  have h (keep : Bool) := Vm.spoil_ok m keep hs
  fun_cases vecEnd counted m e with
  | case1 keep c s =>
    have hk : s.footprint.Ok := State.setTile_ok (h false) _ _ (State.tile_abandonList_le (h false) _)
    exact State.setTile_ok hk _ _ (State.tile_abandonList_le hk _)
  | case2 | case3 => simp +zetaDelta [h]
  | case4 => simp +zetaDelta [hs]

@[simp] theorem vecRun_ok (d : BitVec 512) (t p : Nat) (w : Option VecWork) (s : State) (hs : s.footprint.Ok) :
    (vecRun d t p w s).s.footprint.Ok := by
  cases w with
  | none => exact reading_ok _ _ _ _ (fun s => ⟨fun h => vecEnd_ok _ _ _ (Vm.run_ok _ _ (vecStart_ok d t p s h))⟩) hs
  | some w => exact vecEnd_ok _ _ _ (Vm.run_ok _ _ hs)

theorem vecUnit_ok (d : BitVec 512) (t p : Nat) (w : Option VecWork) (s : State) (hs : s.footprint.Ok) :
    ∀ r ∈ vecUnit d t p w s, r.1.footprint.Ok := by
  cases w with
  | none =>
    have h := Vm.step_ok _ (vecStart_ok d t p _ (State.fetchAll_ok s (.tile t) (vecChecks d).ins hs))
    simp only [vecUnit, Option.isNone_none, if_true]
    split
    · simp
    · split <;> simp [h]
  | some w =>
    have h := Vm.step_ok (vecResume d t p w s) hs
    simp only [vecUnit, Option.isNone_some, Bool.false_eq_true, if_false, false_and]
    split <;> simp [h]

/-! ## Sample -/

@[simp] theorem sampleRun_ok (d : BitVec 512) (t p : Nat) (s : State) (hs : s.footprint.Ok) : (sampleRun d t p s).s.footprint.Ok := by
  refine reading_ok _ _ _ _ (fun s => ⟨fun h => ?_⟩) (State.vecUsed_ok _ _ _ hs)
  simp [h, apply_ite Done.s]

/-! ## Vision -/

@[simp] theorem cropRun_ok (d : BitVec 512) (t : Nat) (w : Work) (s : State) (hs : s.footprint.Ok) : (cropRun d t w s).s.footprint.Ok :=
  reading_ok _ _ _ _ (fun _ => ⟨finishRows_ok _ _ _ _ _ _ _⟩) (State.vecUsed_ok _ _ _ hs)

@[simp] theorem boxRun_ok (d : BitVec 512) (t : Nat) (s : State) (hs : s.footprint.Ok) : (boxRun d t s).s.footprint.Ok :=
  reading_ok _ _ _ _ (fun _ => ⟨finishRows_ok _ _ _ _ _ _ _⟩) (State.vecUsed_ok _ _ _ hs)

@[simp] theorem nmsRun_ok (d : BitVec 512) (t : Nat) (w : Work) (s : State) (hs : s.footprint.Ok) : (nmsRun d t w s).s.footprint.Ok :=
  reading_ok _ _ _ _ (fun _ => ⟨finishRows_ok _ _ _ _ _ _ _⟩) (State.vecUsed_ok _ _ _ hs)

/-! ## Attend -/

@[simp] theorem expandUsed_footprint (s : State) (t : Nat) (e : Expand) (n : Nat) (nan : Bool) : (expandUsed s t e n nan).footprint = s.footprint :=
  (rfl)

@[simp] theorem attCount_footprint (s : State) (t : Nat) (e : Expand) (used : List (Nat × Nat × Bool)) (lo hi : Nat) :
    (attCount s t e used lo hi).footprint = s.footprint := by simp [attCount]

@[simp] theorem attRun_ok (d : BitVec 512) (t p : Nat) (w : Work) (s : State) (hs : s.footprint.Ok) : (attRun d t p w s).s.footprint.Ok := by
  refine reading_ok _ _ _ _ (fun s => ⟨fun h => Pieces.run_ok _ _ _ _ _ _ ?_⟩) hs
  simpa using State.fetchAll_ok s _ _ h

/-! ## Move -/

@[simp] theorem moveRun_ok (d : BitVec 512) (t : Nat) (w : Work) (s : State) (hs : s.footprint.Ok) : (moveRun d t w s).s.footprint.Ok :=
  reading_ok _ _ _ _ (fun _ => ⟨finishRows_ok _ _ _ _ _ _ _⟩) hs

@[simp] theorem gatherUsed_footprint (s : State) (t : Nat) (d : BitVec 512) (l : List (Nat × Bool)) :
    (gatherUsed s t d l).footprint = s.footprint := by
  simp [gatherUsed]

@[simp] theorem gatherBody_ok (d : BitVec 512) (g : Agent) (t p keep : Nat) (s : State) (hs : s.footprint.Ok) :
    (gatherBody d g t p keep s).s.footprint.Ok := by
  have h := State.fetchAll_ok s g (gatherReads s g p d) hs
  exact Pieces.run_ok _ _ _ _ _ _ (by simpa using h)

@[simp] theorem gatherRun_ok (d : BitVec 512) (t p : Nat) (w : Work) (s : State) (hs : s.footprint.Ok) : (gatherRun d t p w s).s.footprint.Ok := by
  simp [hs, gatherRun]

@[simp] theorem dmaRun_ok (d : BitVec 512) (t p : Nat) (stop : Bool) (s : State) (hs : s.footprint.Ok) : (dmaRun d t p stop s).s.footprint.Ok := by
  fun_cases dmaRun d t p stop s
  · have h := State.fetchAll_ok s (.engine t) (moveChecks d).ins hs
    exact failed_ok _ _ _ (piecesWrite_ok _ _ _ _ h)
  · exact Pieces.run_ok _ _ _ _ _ _ (State.fetchAll_ok _ _ _ hs)
  · have h := State.fetchAll_ok s (.engine t) (gatherReads s (.engine t) p d) hs
    exact failed_ok _ _ _ (piecesWrite_ok _ _ _ _ (by simpa using h))
  · exact gatherBody_ok _ _ _ _ _ _ hs

@[simp] theorem abandonedOuts_ok (c : RunCmd) (t p : Nat) (s : State) (hs : s.footprint.Ok) : (abandonedOuts c t p s).footprint.Ok := by
  fun_cases abandonedOuts c t p s <;> simp [hs]

/-- A unit of a command that writes piece by piece, after the agent has read. -/
theorem readThenPiece_ok (s : State) (g : Agent) (c : Prop) [Decidable c] (l : List (Nat × Nat)) (rows : List (Nat × List Byte)) (fails : Bool) (w : Work)
    (hs : s.footprint.Ok) :
    ∀ r ∈ (if c then none else pieceUnit (s.fetchAll g l) g rows fails w), r.1.footprint.Ok := by
  split
  · simp
  · exact pieceUnit_ok _ _ _ _ _ (State.fetchAll_ok _ _ _ hs)

theorem commandUnit_ok (d : BitVec 512) (t p : Nat) (w : Work) (s : State) (hs : s.footprint.Ok) : ∀ r ∈ commandUnit d t p w s, r.1.footprint.Ok := by
  have h := fun g l => State.fetchAll_ok s g l hs
  simp only [commandUnit]
  split
  · split <;> simp [hs]
  · exact matUnit_ok d t w s hs
  · exact convUnit_ok d t w s hs
  · rw [Option.forall_mem_map]
    intro r hr
    simpa using readThenPiece_ok _ _ _ _ _ _ _ hs r hr
  · rw [Option.forall_mem_map]
    exact vecUnit_ok d t p w.vec s hs
  · split
    · simp
    · exact readThenPiece_ok _ _ _ _ _ _ _ hs
  · split
    · simp
    · rw [Option.forall_mem_map]
      intro r hr
      simpa using readThenPiece_ok _ _ _ _ _ _ _ hs r hr
  · split <;> simp [hs]
  · rw [Option.forall_mem_map]
    intro r hr
    exact State.vecUsed_ok _ _ _ (readThenPiece_ok _ _ _ _ _ _ _ hs r hr)
  · split <;> simp [hs]
  · rw [Option.forall_mem_map]
    intro r hr
    exact State.vecUsed_ok _ _ _ (readThenPiece_ok _ _ _ _ _ _ _ hs r hr)
  · simp

/-! ## TileOps -/

@[simp] theorem State.setTally_footprint (s : State) (n : Nat) (v : Word) : (s.setTally n v).footprint = s.footprint := (rfl)
@[simp] theorem State.setTallyBad_footprint (s : State) (n : Nat) (b : Bool) : (s.setTallyBad n b).footprint = s.footprint := (rfl)
@[simp] theorem State.pushSignal_footprint (s : State) (g : Signal) : (s.pushSignal g).footprint = s.footprint := (rfl)
@[simp] theorem State.wakeWaiters_footprint (s : State) (n : Nat) : (s.wakeWaiters n).footprint = s.footprint := (rfl)
@[simp] theorem State.dropWaiter_footprint (s : State) (t : Nat) : (s.dropWaiter t).footprint = s.footprint := by simp [State.dropWaiter]
@[simp] theorem State.dropContribution_footprint (s : State) (t : Nat) : (s.dropContribution t).footprint = s.footprint := (rfl)

@[simp] theorem State.tallyMark_footprint (s : State) (h p : Nat) (f : Hearth → Hearth) : (s.tallyMark h p f).footprint = s.footprint := by
  simp [State.tallyMark]

@[simp] theorem State.signalTally_footprint (s : State) (d n v : Nat) : (s.signalTally d n v).1.footprint = s.footprint := by
  fun_cases State.signalTally s d n v <;> simp +zetaDelta

@[simp] theorem State.resetTally_footprint (s : State) (d n : Nat) (v : Word) : (s.resetTally d n v).1.footprint = s.footprint := by
  fun_cases State.resetTally s d n v <;> rfl

@[simp] theorem State.postRecord_footprint (s : State) (r : TileDone) : (s.postRecord r).footprint = s.footprint := (rfl)

/-! What the operations on one tile leave of its abandon list. -/

@[simp] theorem Tile.setQ_abandonList (x : Tile) (q : Nat) (v : TileQueue) : (x.setQ q v).abandonList = x.abandonList := by
  fun_cases Tile.setQ x q v
  rfl

@[simp] theorem Tile.setFrame_abandonList (x : Tile) (f : Nat) (v : Option Frame) : (x.setFrame f v).abandonList = x.abandonList := by
  fun_cases Tile.setFrame x f v <;> rfl

@[simp] theorem Tile.moveOn_abandonList (x : Tile) (c : RunCmd) : (x.moveOn c).abandonList = x.abandonList := by simp [Tile.moveOn]

@[simp] theorem ite_abandonList (c : Prop) [Decidable c] (x y : Tile) :
    (if c then x else y).abandonList = if c then x.abandonList else y.abandonList := apply_ite Tile.abandonList c x y

theorem Tile.give_abandonList (x : Tile) (c : RunCmd) : ∀ y ∈ x.give c, y.abandonList = x.abandonList := by
  fun_cases Tile.give x c <;> simp +zetaDelta

@[simp] theorem breakRestore_abandonList (x : Tile) : (breakRestore x).abandonList = x.abandonList := by
  fun_cases breakRestore x <;> rfl

@[simp] theorem resumeQueue_abandonList (x : Tile) (q : Nat) : (resumeQueue x q).abandonList = x.abandonList := by
  fun_cases resumeQueue x q <;> simp

@[simp] theorem foldl_abandonList {α : Type} {f : Tile → α → Tile} (hf : ∀ x a, (f x a).abandonList = x.abandonList) (l : List α) (x : Tile) :
    (l.foldl f x).abandonList = x.abandonList :=
  foldl_keeps Tile.abandonList hf l x

@[simp] theorem endCommand_ok (s : State) (t : Nat) (c : RunCmd) (st num opf res : Nat) (hs : s.footprint.Ok) :
    (endCommand s t c st num opf res).footprint.Ok := by
  have hl := State.tile_abandonList_le hs t
  simp [endCommand, hs, hl]

@[simp] theorem endRunning_ok (s : State) (t : Nat) (c : RunCmd) (st num opf res : Nat) (hs : s.footprint.Ok) :
    (endRunning s t c st num opf res).footprint.Ok := by
  have h : ((s.dropWaiter t).dropContribution t).footprint.Ok := by simpa using hs
  exact endCommand_ok _ _ _ _ _ _ _ (State.setTile_ok h _ _ (State.tile_abandonList_le h t))

@[simp] theorem finishCommand_ok (s : State) (t : Nat) (c : RunCmd) (r : Done) (hs : r.s.footprint.Ok) : (finishCommand s t c r).footprint.Ok := by
  have hl := State.tile_abandonList_le hs t
  unfold finishCommand
  split
  · simp [hs, hl]
  · exact endRunning_ok _ _ _ _ _ _ _ hs

@[simp] theorem State.slabUsed_ok (s : State) (t : Nat) (d : BitVec 512) (hs : s.footprint.Ok) : (s.slabUsed t d).footprint.Ok :=
  State.setTile_ok hs t _ (State.tile_abandonList_le hs t)

theorem unitOf_ok (s : State) (t : Nat) (c : RunCmd) (hs : s.footprint.Ok) : ∀ r ∈ unitOf s t c, r.footprint.Ok := by
  unfold unitOf
  split
  · simp
  · rw [Option.forall_mem_map]
    intro r hr
    have h := commandUnit_ok _ _ _ _ _ hs r hr
    have ht := State.setTile_ok h t { r.1.tile t with running := some { c with work := r.2 } } (State.tile_abandonList_le h t)
    simp [ht]
  · simp [hs]

@[simp] theorem endAbandoned_ok (s : State) (t : Nat) (c : RunCmd) (hs : s.footprint.Ok) : (endAbandoned s t c).footprint.Ok :=
  endRunning_ok _ _ _ _ _ _ _ (abandonedOuts_ok _ _ _ _ hs)

@[simp] theorem whenRunning_good (s : State) (t op : Nat) (k : RunCmd → State) (hk : ∀ c, Keeps s (k c)) (hs : s.footprint.Ok) :
    Good (whenRunning s t op k) := by
  fun_cases whenRunning s t op k with
  | case1 c => split <;> simp [hs, (hk c).ok]
  | case2 => simpa using hs

@[simp] theorem perform_good (s : State) (t op : Nat) (k : BitVec 512 → Nat → Work → State → Done)
    (hk : ∀ d p w, Keeps s (k d p w s).s) (hs : s.footprint.Ok) : Good (perform s t op k) :=
  whenRunning_good _ _ _ _ (fun c => ⟨fun h => finishCommand_ok _ _ _ _ ((hk c.desc _ c.work).ok h)⟩) hs

@[simp] theorem State.useArray_ok (s : State) (t q : Nat) (d : BitVec 512) (w : Option Work) (hs : s.footprint.Ok) :
    (s.useArray t q d w).footprint.Ok := by
  have hl := State.tile_abandonList_le hs t
  simp [State.useArray, hs, hl]

@[simp] theorem boundary_ok (s : State) (t : Nat) (hs : s.footprint.Ok) : (boundary s t).footprint.Ok := by
  have hl := State.tile_abandonList_le hs t
  fun_cases boundary s t <;> simp +zetaDelta [hs, hl]

@[simp] theorem yieldPoint_ok (s : State) (t : Nat) (hs : s.footprint.Ok) : (yieldPoint s t).footprint.Ok := by
  simp only [yieldPoint]
  split
  · exact hs
  · split
    · exact hs
    · split
      · exact hs
      next r hr =>
      have h := unitOf_ok _ _ _ hs r hr
      have hl := State.tile_abandonList_le h t
      split
      · simp [hs]
      · split
        · simpa using h
        · split
          · split <;> simp [h, hl]
          · simpa using h

@[simp] theorem spillDone_ok (s : State) (t : Nat) (hs : s.footprint.Ok) : (spillDone s t).footprint.Ok := by
  have hl := State.tile_abandonList_le hs t
  fun_cases spillDone s t with
  | case1 x f _ c0 _ _ s1 y c s2 =>
    have h1 : s1.footprint.Ok := State.freeBytes_ok _ _ _ hs
    have h2 : s2.footprint.Ok := by
      unfold s2
      split
      · exact State.setTile_ok (by simpa using h1) _ _ (by simpa [y] using hl)
      · split
        · refine endCommand_ok _ _ _ _ _ _ _ (State.setTile_ok ?_ _ _ hl)
          simpa using abandonedOuts_ok c t (s1.tilePart t) s1 h1
        · exact State.setTile_ok h1 _ _ (by simpa [y] using hl)
    exact boundary_ok _ _ h2
  | case2 => exact hs

@[simp] theorem restoreDone_ok (s : State) (t : Nat) (hs : s.footprint.Ok) : (restoreDone s t).footprint.Ok := by
  have hl := State.tile_abandonList_le hs t
  fun_cases restoreDone s t <;> simp +zetaDelta [hs, hl]

@[simp] theorem flushQueue_ok (s : State) (t q : Nat) (hs : s.footprint.Ok) : (flushQueue s t q).footprint.Ok := by
  have hl := State.tile_abandonList_le hs t
  unfold flushQueue
  extract_lets x _ tq runs drop x1 held x2 drop2
  have h1 : x1.abandonList = x.abandonList := by
    unfold x1
    split
    · split <;> rfl
    · rfl
  have h2 : x2.abandonList = x.abandonList := by
    unfold x2
    generalize held = f
    cases f <;> simp [h1]
  have hd : drop2.footprint.Ok := by
    unfold drop2 drop
    split <;> split <;> simpa using hs
  exact State.setTile_ok hd t _ (by simpa [h2] using hl)

@[simp] theorem ctrlWrite_ok (s : State) (t : Nat) (v : Word) (hs : s.footprint.Ok) : (ctrlWrite s t v).footprint.Ok := by
  unfold ctrlWrite
  extract_lets x s1 s2 x2
  have hx : x.abandonList = (s.tile t).abandonList := by simp [x]
  have h1 : s1.footprint.Ok := State.setTile_ok hs t x (hx ▸ State.tile_abandonList_le hs t)
  have h2 : s2.footprint.Ok := foldl_ok (fun s q => ⟨fun h => by split <;> simp [h]⟩) _ _ h1
  have hx2 : x2.abandonList = (s2.tile t).abandonList := by simp [x2, apply_ite]
  exact State.setTile_ok h2 t _ (by simpa [hx2] using State.tile_abandonList_le h2 t)

@[simp] theorem markAction_footprint (s : State) (t q v : Nat) : (markAction s t q v).footprint = s.footprint := (rfl)

@[simp] theorem tailWrite_ok (s : State) (t q : Nat) (v : Word) (hs : s.footprint.Ok) : (tailWrite s t q v).footprint.Ok := by
  simpa [tailWrite] using State.setTile_ok hs t _ (by simpa using State.tile_abandonList_le hs t)

@[simp] theorem abandonWrite_ok (s : State) (t : Nat) (tag : Word) (hs : s.footprint.Ok) : (abandonWrite s t tag).footprint.Ok := by
  have hl := State.tile_abandonList_le hs t
  unfold abandonWrite
  extract_lets x g own fr en waiting x1 x2 s1
  split
  · exact hs
  · split
    · exact State.setTile_ok hs t _ hl
    next hn =>
      have h2 : x2.abandonList = x.abandonList ++ [g] := by simp [x2, x1]
      have h1 : s1.footprint.Ok := by
        unfold s1
        split <;> simpa using hs
      exact State.setTile_ok h1 t _ (by simp [h2]; omega)

@[simp] theorem State.logAct_footprint (s : State) (k : ActKind) (applied : Bool) : (s.logAct k applied).footprint = s.footprint := (rfl)

@[simp] theorem applyTails_ok (s : State) (t : Nat) (hs : s.footprint.Ok) : (applyTails s t).footprint.Ok := by
  refine foldl_ok (fun s a => ⟨fun h => ?_⟩) _ _ hs
  split
  · split <;> simp [h]
  · exact h

@[simp] theorem State.dropFeeds_footprint (s : State) (t : Nat) (gone : BitVec 512 → Bool) : (s.dropFeeds t gone).footprint = s.footprint :=
  (rfl)

@[simp] theorem State.dropTails_footprint (s : State) (t : Nat) : (s.dropTails t).footprint = s.footprint := (rfl)

@[simp] theorem sendAbandon_ok (s : State) (t tag : Nat) (hs : s.footprint.Ok) : (sendAbandon s t tag).footprint.Ok := by
  have h := applyTails_ok s t hs
  simp [sendAbandon, h]

@[simp] theorem retryAbandons_ok (s : State) (hs : s.footprint.Ok) : (retryAbandons s).footprint.Ok :=
  foldl_ok (fun s (e : Nat × Nat) => ⟨sendAbandon_ok s e.1 e.2⟩) _ _ hs

@[simp] theorem freeAbandoned_ok (s : State) (t f tag : Nat) (hs : s.footprint.Ok) : (freeAbandoned s t f tag).footprint.Ok := by
  have hl := State.tile_abandonList_le hs t
  fun_cases freeAbandoned s t f tag with
  | case1 x fr =>
    refine endCommand_ok _ _ _ _ _ _ _ (State.setTile_ok ?_ _ _ (by simpa [x] using hl))
    simpa using abandonedOuts_ok fr.cmd t (s.tilePart t) s hs
  | case2 | case3 => exact hs

@[simp] theorem abandonActed_ok (s : State) (t tag : Nat) (hs : s.footprint.Ok) : (abandonActed s t tag).footprint.Ok := by
  unfold abandonActed
  split
  · exact hs
  · extract_lets s1 x cmdHas engHas busy
    have h1 : s1.footprint.Ok := freeAbandoned_ok _ _ _ _ (freeAbandoned_ok _ _ _ _ hs)
    split
    · exact h1
    · exact retryAbandons_ok _ (State.setTile_ok h1 t _ (le_trans (List.length_filter_le _ _) (State.tile_abandonList_le h1 t)))

@[simp] theorem handover_ok (s : State) (t : Nat) (hs : s.footprint.Ok) : (handover s t).footprint.Ok := by
  have hl := State.tile_abandonList_le hs t
  fun_cases handover s t with
  | case1 | case2 | case3 => exact hs
  | case4 x _ _ _ _ c _ _ y hy z =>
    have h : z.abandonList = x.abandonList := by
      unfold z
      split <;> simp [Tile.give_abandonList x c y hy]
    exact State.setTile_ok hs t _ (by simpa [h] using hl)

@[simp] theorem startAsync_ok (s : State) (t : Nat) (c : RunCmd) (hs : s.footprint.Ok) : (startAsync s t c).footprint.Ok := by
  have hl := State.tile_abandonList_le hs t
  fun_cases startAsync s t c with
  | case1 x y hy => exact State.setTile_ok hs t _ (by simpa [Tile.give_abandonList x c y hy] using hl)
  | case2 => exact State.setTile_ok hs t _ hl

@[simp] theorem transferRecord_ok (s : State) (d : TileDone) (cpl evt : Bool) (hs : s.footprint.Ok) : (transferRecord s d cpl evt).footprint.Ok := by
  simp [transferRecord, hs]

@[simp] theorem transferDone_ok (s : State) (t e : Nat) (hs : s.footprint.Ok) : (transferDone s t e).footprint.Ok := by
  simp only [transferDone]
  split
  · exact hs
  next tr _ =>
    have h := dmaRun_ok tr.desc t (s.tilePart t) tr.stop s hs
    have hl := State.tile_abandonList_le h t
    simp [h, hl]

@[simp] theorem afterSignal_ok (s : State) (a : After) (ok : Bool) (hs : s.footprint.Ok) : (afterSignal s a ok).footprint.Ok := by
  have hf := fun l st => failed_ok s l st hs
  have hl := State.tile_abandonList_le hs
  unfold afterSignal
  split
  · exact hs
  · simp [hs]
  · split
    · simp [hs, hl]
    · exact hs

theorem State.popSignal_footprint (s : State) (reset : Bool) : ∀ r ∈ s.popSignal reset, r.2.footprint = s.footprint := by
  unfold State.popSignal
  split <;> simp

@[simp] theorem breakTally_ok (s : State) (n : Nat) (e : EccEvent) (hs : s.footprint.Ok) : (breakTally s n e).footprint.Ok := by
  simp only [breakTally]
  split
  · exact hs
  · simpa using hs
  · refine foldl_ok (fun s t => ⟨fun h => ?_⟩) _ _ (by simpa using hs)
    split
    · split <;> simp [h]
    · exact h

/-! ## Memory -/

@[simp] theorem execReadMiss_good (h addr : Nat) (e : EccEvent) (s : State) (hs : s.footprint.Ok) : Good (execReadMiss h addr e s) := by
  simp [hs, execReadMiss]

@[simp] theorem execOwnershipRequest_good (h : Nat) (x : OwnerAsk) (s : State) (hs : s.footprint.Ok) : Good (execOwnershipRequest h x s) := by
  simp [hs, execOwnershipRequest]

@[simp] theorem execWriteBack_good (h addr : Nat) (s : State) (hs : s.footprint.Ok) : Good (execWriteBack h addr s) := by
  fun_cases execWriteBack h addr s <;> simp [hs]

@[simp] theorem execEvictionNotice_good (h addr : Nat) (s : State) (hs : s.footprint.Ok) : Good (execEvictionNotice h addr s) := by
  fun_cases execEvictionNotice h addr s <;> simp [hs]

@[simp] theorem execHomeSideAccess_good (addr : Nat) (write : Bool) (s : State) (hs : s.footprint.Ok) : Good (execHomeSideAccess addr write s) := by
  simp [hs, execHomeSideAccess]

@[simp] theorem execPatrolRead_good (v : Nat) (e : EccEvent) (s : State) (hs : s.footprint.Ok) : Good (execPatrolRead v e s) := by
  simp only [execPatrolRead]
  split <;> simp [hs]

@[simp] theorem execAccountingWindowEnd_good (chan : Nat) (served : List Nat) (queued : BitVec 8) (s : State) (hs : s.footprint.Ok) :
    Good (execAccountingWindowEnd chan served queued s) := by
  simp only [execAccountingWindowEnd]
  split
  · simpa using hs
  · rw [good_next]
    refine foldl_ok (fun s p => ⟨fun h => ?_⟩) _ _ (by simpa using hs)
    split <;> simp [h]

@[simp] theorem State.zeroRange_ok (s : State) (base n : Nat) (hs : s.footprint.Ok) : (s.zeroRange base n).footprint.Ok := by
  simp [hs, State.zeroRange]

@[simp] theorem State.post_footprint (s : State) (m : Master) (block addr : Nat) (v : DWord) (busy : State → State)
    (hbusy : ∀ t, SameFootprint t (busy t)) :
    (s.post m block addr v busy).footprint = s.footprint := by
  fun_cases State.post s m block addr v busy <;> simp_all

@[simp] theorem execHrtRcFlush_good (m : Master) (h : Nat) (v : Word) (s : State) (hs : s.footprint.Ok) : Good (execHrtRcFlush m h v s) := by
  simp [hs, execHrtRcFlush]

@[simp] theorem applyFlush_ok (s : State) (h : Nat) (v : DWord) (hs : s.footprint.Ok) : (applyFlush s h v).footprint.Ok := by
  simp only [applyFlush, State.setHearth_footprint]
  refine foldl_ok (fun s e => ⟨fun h => ?_⟩) _ _ hs
  split
  · split
    · split
      · simp [h]
      · split
        · split <;> simp [h]
        · exact h
    · exact h
  · exact h

@[simp] theorem execHrtTallyValWrite_good (m : Master) (n : Nat) (v : Word) (s : State) (hs : s.footprint.Ok) :
    Good (execHrtTallyValWrite m n v s) := by
  simp [hs, execHrtTallyValWrite]

@[simp] theorem State.tallyStatClear_footprint (s : State) (h : Nat) (v : Word) : (s.tallyStatClear h v).footprint = s.footprint := (rfl)

@[simp] theorem execHrtTallyStatClear_good (m : Master) (h : Nat) (v : Word) (s : State) (hs : s.footprint.Ok) :
    Good (execHrtTallyStatClear m h v s) := by
  simp [hs, execHrtTallyStatClear]

/-! ## Pool -/

@[simp] theorem State.returnBlocks_footprint (s : State) (p : Nat) (bs : List Block) : (s.returnBlocks p bs).footprint = s.footprint := by
  simp [State.returnBlocks]

@[simp] theorem State.writeRegion_ok (s : State) (r : Request) (hs : s.footprint.Ok) : (s.writeRegion r).footprint.Ok := by
  simp only [State.writeRegion]
  exact foldl_ok (fun _ _ => ⟨State.put_ok _ _ _ _⟩) _ _ (foldl_ok (fun _ _ => ⟨State.put_ok _ _ _ _⟩) _ _ (State.put_ok _ _ _ _ hs))

@[simp] theorem State.writeSeqLen_ok (s : State) (r : Request) (n : Nat) (hs : s.footprint.Ok) : (s.writeSeqLen r n).footprint.Ok := by
  unfold State.writeSeqLen
  exact foldl_ok (fun _ _ => ⟨State.put_ok _ _ _ _⟩) _ _ hs

@[simp] theorem State.writeEntries_ok (s : State) (r : Request) (draft : Bool) (n : Nat) (hs : s.footprint.Ok) :
    (s.writeEntries r draft n).footprint.Ok := by
  unfold State.writeEntries
  exact foldl_ok (fun _ _ => ⟨State.put_ok _ _ _ _⟩) _ _ hs

theorem State.reserve_ok (s : State) (i : Nat) (draft : Bool) (last : Nat) (hs : s.footprint.Ok) : ∀ t ∈ s.reserve i draft last, t.footprint.Ok := by
  simp only [State.reserve]
  split
  · simp
  · simp [hs]
  · simp only [Option.mem_some_iff, forall_eq']
    refine State.writeEntries_ok _ _ _ _ (foldl_ok (fun _ _ => ⟨State.put_ok _ _ _ _⟩) _ _ ?_)
    simpa using hs

@[simp] theorem State.rollBack_ok (s : State) (i n : Nat) (hs : s.footprint.Ok) : (s.rollBack i n).footprint.Ok := by
  unfold State.rollBack
  extract_lets r above gone kept s1 s2 s3
  have h1 : s1.footprint.Ok := State.writeSeqLen_ok _ _ _ (by simpa using hs)
  have h2 : s2.footprint.Ok := by
    unfold s2
    split <;> simp [h1]
  have h3 : s3.footprint.Ok := by
    unfold s3
    split <;> simp [h2]
  split <;> simp [h3]

/-! ## Serve -/

@[simp] theorem State.noteStalled_footprint (s : State) (p : Nat) : (s.noteStalled p).footprint = s.footprint := by simp [State.noteStalled]

@[simp] theorem State.unpin_footprint (s : State) (r : Request) : (s.unpin r).footprint = s.footprint := by
  fun_cases State.unpin s r <;> rfl

@[simp] theorem State.reapSession_footprint (s : State) (p k : Nat) : (s.reapSession p k).footprint = s.footprint := by
  simp [State.reapSession]

@[simp] theorem State.pushRing_footprint (s : State) (r : RingRec) : (s.pushRing r).footprint = s.footprint := (rfl)

@[simp] theorem State.retire_footprint (s : State) (i : Nat) : (s.retire i).footprint = s.footprint := by
  fun_cases State.retire s i <;> simp +zetaDelta

@[simp] theorem State.drain_footprint (s : State) (i reason : Nat) : (s.drain i reason).footprint = s.footprint := by simp [State.drain]
@[simp] theorem State.stall_footprint (s : State) (i cause : Nat) : (s.stall i cause).footprint = s.footprint := by simp [State.stall]

theorem State.reserveFor_ok (s : State) (i : Nat) (draft : Bool) (last : Nat) (hs : s.footprint.Ok) :
    ∀ t ∈ s.reserveFor i draft last, t.footprint.Ok := by
  unfold State.reserveFor
  split
  · simp [hs]
  · split
    · simp
    · exact State.reserve_ok s i draft last hs

@[simp] theorem State.resumeStalled_ok (s : State) (p : Nat) (hs : s.footprint.Ok) : (s.resumeStalled p).footprint.Ok := by
  refine foldl_ok (fun s i => ⟨fun h => ?_⟩) _ _ hs
  dsimp only
  split
  · simp [h]
  next t ht =>
    have ht := State.reserveFor_ok _ _ _ _ h t ht
    simp [ht]

@[simp] theorem State.enter_ok (s : State) (i : Nat) (draft : Bool) (last records : Nat) (hs : s.footprint.Ok) :
    (s.enter i draft last records).1.footprint.Ok := by
  unfold State.enter
  split
  · simp [hs]
  next t ht =>
    have ht := State.reserveFor_ok _ _ _ _ hs t ht
    split <;> simp [ht]

@[simp] theorem State.feed_ok (s : State) (t q : Nat) (ds : List (BitVec 512)) (hs : s.footprint.Ok) : (s.feed t q ds).footprint.Ok := by
  have hl := State.tile_abandonList_le hs t
  simp [State.feed, hs, hl]

@[simp] theorem State.feedAll_ok (s : State) (hs : s.footprint.Ok) : s.feedAll.footprint.Ok := by
  unfold State.feedAll
  exact foldl_ok (fun _ _ => ⟨State.feed_ok _ _ _ _⟩) _ _ hs

@[simp] theorem State.noteTagged_footprint (s : State) (t : Nat) (ds : List (BitVec 512)) : (s.noteTagged t ds).footprint = s.footprint := by
  simp [State.noteTagged]

@[simp] theorem State.dispatch_ok (s : State) (h : Nat) (role : Role) (rows : List StepRow) (again : Bool) (hs : s.footprint.Ok) :
    (s.dispatch h role rows again).footprint.Ok := by
  fun_cases State.dispatch s h role rows again with
  | case1 => exact hs
  | case2 w _ tag s1 s2 streams s3 =>
    have h2 : s2.footprint = s.footprint := by simp [s2, s1]
    have h3 : s3.footprint.Ok := foldl_ok (fun s x => ⟨fun h => by split <;> simp [h]⟩) _ _ (h2 ▸ hs)
    simpa using h3

@[simp] theorem State.composeStep_ok (s : State) (h : Nat) (hs : s.footprint.Ok) : (s.composeStep h).footprint.Ok := by
  unfold State.composeStep
  split
  · exact hs
  · split
    · exact hs
    · extract_lets cands r
      have hr : r.1.footprint.Ok := foldl_fst_ok (fun r e => ⟨fun h => by dsimp only; split <;> simp [h]⟩) _ _ hs
      split
      · exact hr
      · exact State.dispatch_ok _ _ _ _ _ hr

@[simp] theorem State.composeOther_ok (s : State) (h : Nat) (hs : s.footprint.Ok) : (s.composeOther h).footprint.Ok := by
  refine foldl_ok (fun s r => ⟨fun h => ?_⟩) _ _ hs
  split
  · exact h
  · split <;> simp [h]

@[simp] theorem State.composeChunk_ok (s : State) (h : Nat) (limit : Option Nat) (hs : s.footprint.Ok) : (s.composeChunk h limit).footprint.Ok := by
  unfold State.composeChunk
  split
  · exact hs
  · split
    · exact hs
    · extract_lets r waits
      have hr : r.1.footprint.Ok := foldl_fst_ok (fun r e => ⟨fun h => by dsimp only; split <;> simp [h]⟩) _ _ hs
      split
      · exact hr
      · exact State.dispatch_ok _ _ _ _ _ hr

@[simp] theorem State.atBoundary_footprint (s : State) (i : Nat) : (s.atBoundary i).footprint = s.footprint := by simp [State.atBoundary]
@[simp] theorem State.reapDrained_footprint (s : State) (p : Nat) : (s.reapDrained p).footprint = s.footprint := by simp [State.reapDrained]

@[simp] theorem State.writeDraftLen_ok (s : State) (r : Request) (n : Nat) (hs : s.footprint.Ok) : (s.writeDraftLen r n).footprint.Ok := by
  unfold State.writeDraftLen
  exact foldl_ok (fun _ _ => ⟨State.put_ok _ _ _ _⟩) _ _ hs

@[simp] theorem State.finishRun_ok (s : State) (h : Nat) (role : Role) (x : StepRun) (hs : s.footprint.Ok) : (s.finishRun h role x).footprint.Ok := by
  unfold State.finishRun
  extract_lets s1
  have h1 : s1.footprint.Ok := foldl_ok (fun s row => ⟨fun h => by dsimp only; split_ifs <;> simp [h]⟩) _ _ hs
  split <;> simp [h1]

@[simp] theorem State.settle_ok (s : State) (h : Nat) (hs : s.footprint.Ok) : (s.settle h).footprint.Ok := by
  unfold State.settle
  split
  · exact hs
  · extract_lets s1
    have h1 : s1.footprint.Ok := by
      refine foldl_ok (fun s r => ⟨fun h => ?_⟩) _ _ hs
      split
      · split <;> simp [h]
      · exact h
    split <;> simp [h1]

@[simp] theorem State.loadPrograms_ok (s : State) (pl : Plan) (t : Nat) (hs : s.footprint.Ok) : (s.loadPrograms pl t).footprint.Ok :=
  State.setTile_ok hs t _ (State.tile_abandonList_le hs t)

@[simp] theorem State.initTallies_footprint (s : State) (pl : Plan) (base : Nat) : (s.initTallies pl base).footprint = s.footprint := by
  simp [State.initTallies]

@[simp] theorem State.layWare_ok (s : State) (h : Nat) (groups : List (List Nat)) (hs : s.footprint.Ok) : (s.layWare h groups).footprint.Ok := by
  fun_cases State.layWare s h groups with
  | case1 => exact hs
  | case2 w _ tiles s1 => exact foldl_ok (fun s t => ⟨State.loadPrograms_ok s _ t⟩) _ _ (by simpa [s1] using hs)

@[simp] theorem State.failWare_footprint (s : State) (h : Nat) : (s.failWare h).footprint = s.footprint := by
  fun_cases State.failWare s h <;> simp

@[simp] theorem State.readyWare_ok (s : State) (h : Nat) (hs : s.footprint.Ok) : (s.readyWare h).1.footprint.Ok := by
  fun_cases State.readyWare s h <;> simp [hs]

@[simp] theorem State.rerunWare_ok (s : State) (h : Nat) (hs : s.footprint.Ok) : (s.rerunWare h).footprint.Ok := by
  unfold State.rerunWare
  split
  · exact hs
  · split
    · exact hs
    · extract_lets rows clear y s1 go
      have hclear (s : State) : (clear s).footprint = s.footprint := by
        simp only [clear]
        split <;> simp
      have hgo (s : State) (role : Role) (l : List StepRow) (h : s.footprint.Ok) : (go s role l).footprint.Ok := by simp [go, h]
      have hy : y.1.footprint.Ok := State.readyWare_ok s h hs
      split
      · split <;> simp [hs, hclear, hy]
      · exact hgo _ _ _ (hgo _ _ _ (by simpa [s1, hclear] using hy))

@[simp] theorem State.ringWrite_ok (s : State) (i : Nat) (bytes : List Byte) (k : BitVec 128) (hs : s.footprint.Ok) :
    (s.ringWrite i bytes k).footprint.Ok := by
  simp [hs, State.ringWrite]

@[simp] theorem State.pushStaged_footprint (s : State) (p : Nat) (x : Staged) : (s.pushStaged p x).footprint = s.footprint := (rfl)
@[simp] theorem State.eraseKey_footprint (s : State) (i : Nat) : (s.eraseKey i).footprint = s.footprint := by simp [State.eraseKey]

@[simp] theorem State.ringTake_ok (s : State) (g : RingRec) (hs : s.footprint.Ok) : (s.ringTake g).footprint.Ok := by
  simp [hs, State.ringTake]

/-! ## Teller -/

theorem State.admitAlloc_ok (s : State) (p i : Nat) (r : Request) (prompt : List Byte) (hs : s.footprint.Ok) :
    ∀ t ∈ s.admitAlloc p i r prompt, t.footprint.Ok := by
  fun_cases State.admitAlloc s p i r prompt <;> simp +zetaDelta [hs]

@[simp] theorem State.beginRequest_footprint (s : State) (p i : Nat) (r : Request) : (s.beginRequest p i r).footprint = s.footprint := by
  unfold State.beginRequest
  extract_lets ring s₁ s₂
  have h₂ : s₂.footprint = s.footprint := by
    simp only [s₂]
    split <;> simp [s₁]
  split
  · exact h₂
  · split <;> simp [h₂]

@[simp] theorem execAdmit_good (q : Nat) (ok : Bool) (s : State) (hs : s.footprint.Ok) : Good (execAdmit q ok s) := by
  rw [execAdmit, good_next]
  split
  · exact hs
  · refine onForwarded_ok _ _ _ _ (fun f s => ⟨fun hs => ?_⟩) hs
    extract_lets p c code u src r chunk bare a got
    have ha : ∀ t ∈ a, t.footprint.Ok := State.admitAlloc_ok _ _ _ _ _ hs
    have hgot : ∀ t ∈ got, t.footprint.Ok := fun t ht => by
      obtain ⟨t', ht', ht⟩ := Option.mem_bind_iff.1 ht
      exact State.reserveFor_ok _ _ _ _ (ha t' ht') t ht
    clear_value a got
    split
    · simpa using hs
    · split
      · simp +zetaDelta [hs]
      · split
        · simpa using hgot _ rfl
        · simpa using ha _ rfl
        · exact hs

@[simp] theorem entryCommand_footprint (q op : Nat) (s : State) (k : Forwarded → Nat → Nat → State → State)
    (hk : ∀ a b c t, SameFootprint t (k a b c t)) :
    (entryCommand q op s k).footprint = s.footprint := by
  simp [entryCommand, (hk _ _ _ _).footprint]

@[simp] theorem entryCommand_ok (q op : Nat) (s : State) (k : Forwarded → Nat → Nat → State → State)
    (hk : ∀ a b c t, Keeps t (k a b c t)) (hs : s.footprint.Ok) :
    (entryCommand q op s k).footprint.Ok := by
  refine onForwarded_ok _ _ _ _ (fun f s => ⟨fun h => ?_⟩) hs
  dsimp only
  split_ifs
  · simpa using h
  · simpa using h
  · simpa using h
  · exact (hk _ _ _ _).ok h

@[simp] theorem execCancel_good (q : Nat) (s : State) (hs : s.footprint.Ok) : Good (execCancel q s) := by simp [hs, execCancel]

@[simp] theorem State.startCancelNow_ok (s : State) (i reason : Nat) (src : Option (Nat × Nat × Nat)) (hs : s.footprint.Ok) :
    (s.startCancelNow i reason src).footprint.Ok := by
  have hsend (s : State) (hs : s.footprint.Ok) (l : List Nat) (g : Nat) : (l.foldl (fun s t => sendAbandon s t g) s).footprint.Ok :=
    foldl_ok (fun s t => ⟨sendAbandon_ok s t g⟩) l s hs
  have h1 (x : Request) : (s.setRequest i x).footprint.Ok := by simpa using hs
  unfold State.startCancelNow
  extract_lets r p s1 tiles s2
  have h2 : s2.footprint.Ok := by
    unfold s2
    split
    · exact hsend _ (h1 _) _ _
    · exact h1 _
  split
  · split
    · exact hsend _ (by simpa using h2) _ _
    · exact h2
  · exact h2

@[simp] theorem execCancelNow_good (q : Nat) (s : State) (hs : s.footprint.Ok) : Good (execCancelNow q s) := by
  rw [execCancelNow, good_next]
  refine entryCommand_ok _ _ _ _ (fun f p i s => ⟨fun h => ?_⟩) hs
  dsimp only
  split <;> simp [h]

@[simp] theorem State.samplePrefill_footprint (s : State) (i : Nat) : (s.samplePrefill i).footprint = s.footprint := by
  simp [State.samplePrefill]

@[simp] theorem State.noteDone_footprint (s : State) (d : TileDone) : (s.noteDone d).footprint = s.footprint := by simp [State.noteDone]
@[simp] theorem State.takeOk_footprint (s : State) (i : Nat) : (s.takeOk i).footprint = s.footprint := by simp [State.takeOk]

@[simp] theorem execCancelNowComplete_good (i : Nat) (s : State) (hs : s.footprint.Ok) : Good (execCancelNowComplete i s) := by
  fun_cases execCancelNowComplete i s <;> simp +zetaDelta [hs]

@[simp] theorem execReqSuspend_good (q : Nat) (s : State) (hs : s.footprint.Ok) : Good (execReqSuspend q s) := by simp [hs, execReqSuspend]
@[simp] theorem execReqResume_good (q : Nat) (s : State) (hs : s.footprint.Ok) : Good (execReqResume q s) := by simp [hs, execReqResume]
@[simp] theorem execRingSet_good (q : Nat) (s : State) (hs : s.footprint.Ok) : Good (execRingSet q s) := by simp [hs, execRingSet]

@[simp] theorem execPoolAdd_good (q : Nat) (s : State) (hs : s.footprint.Ok) : Good (execPoolAdd q s) := by
  rw [execPoolAdd, good_next]
  refine onForwarded_ok _ _ _ _ (fun f s => ⟨fun h => ?_⟩) hs
  dsimp only
  split <;> simp [h]

@[simp] theorem State.endShrink_footprint (s : State) (p : Nat) (r : Nat × Nat × Nat) : (s.endShrink p r).footprint = s.footprint := by
  simp [State.endShrink]

@[simp] theorem execPoolShrink_good (q : Nat) (s : State) (hs : s.footprint.Ok) : Good (execPoolShrink q s) := by simp [hs, execPoolShrink]

@[simp] theorem execPoolShrinkDone_good (handle : Nat) (s : State) (hs : s.footprint.Ok) : Good (execPoolShrinkDone handle s) := by
  fun_cases execPoolShrinkDone handle s <;> simp [hs]

@[simp] theorem State.unloadVersion_footprint (s : State) (w a v : Nat) : (s.unloadVersion w a v).footprint = s.footprint := by
  fun_cases State.unloadVersion s w a v <;> simp +zetaDelta

@[simp] theorem execAdapterPublish_good (q : Nat) (s : State) (hs : s.footprint.Ok) : Good (execAdapterPublish q s) := by
  rw [execAdapterPublish, good_next]
  refine onForwarded_ok _ _ _ _ (fun f s => ⟨fun h => ?_⟩) hs
  extract_lets
  split
  · exact h
  · split
    · exact h
    · extract_lets
      split
      · rw [State.endHandle_footprint]
        exact h
      · split
        · rw [State.unloadVersion_footprint]
          exact h
        · exact h

@[simp] theorem execAdapterUnpin_good (ware adapter version : Nat) (s : State) (hs : s.footprint.Ok) :
    Good (execAdapterUnpin ware adapter version s) := by
  fun_cases execAdapterUnpin ware adapter version s <;> simp [hs]

@[simp] theorem State.planError_ok (s : State) (h : Nat) (role : Role) (x : StepRun) (d : TileDone) (hs : s.footprint.Ok) :
    (s.planError h role x d).footprint.Ok := by
  unfold State.planError
  split
  · exact hs
  next w _ =>
    extract_lets s1 s2 s3 s4
    have h3 : s3.footprint = s.footprint := by simp [s3, s2, s1]
    have h4 : s4.footprint.Ok :=
      foldl_ok (fun s t => ⟨fun h => foldl_ok (fun s g => ⟨sendAbandon_ok s t g⟩) _ _ h⟩) _ _ (h3 ▸ hs)
    exact State.setTile_ok h4 _ _ (by simpa using State.tile_abandonList_le h4 _)

@[simp] theorem execCompletionRecord_good (s : State) (hs : s.footprint.Ok) : Good (execCompletionRecord s) := by
  unfold execCompletionRecord
  split
  · simp [hs]
  · split
    · simp [hs]
    · extract_lets teller s1 s2
      have h1 : s1.footprint = s.footprint := State.noteDone_footprint _ _
      have h2 : s2.footprint.Ok := by
        simp only [s2]
        split
        · simp [h1, hs]
        · split
          · split <;> simp [h1, hs]
          · simp [h1, hs]
      simp [h2]

@[simp] theorem execStepBoundary_good (ware : Nat) (s : State) (hs : s.footprint.Ok) : Good (execStepBoundary ware s) := by
  unfold execStepBoundary
  split
  · simp [hs]
  · extract_lets s1
    have h1 : s1.footprint.Ok := State.settle_ok s ware hs
    split
    · simp [h1]
    next w _ =>
      extract_lets y
      have hy : y.1.footprint.Ok := by
        unfold y
        split <;> simp [h1]
      have hr := State.resumeStalled_ok y.1 w.part hy
      have hc := State.composeStep_ok _ ware (State.composeChunk_ok _ ware none hr)
      simp [h1, hy, hc]

@[simp] theorem execChunkDispatch_good (ware : Nat) (s : State) (hs : s.footprint.Ok) : Good (execChunkDispatch ware s) := by
  have h := State.settle_ok s ware hs
  fun_cases execChunkDispatch ware s <;> simp +zetaDelta [hs, h]

@[simp] theorem execPagesFreed_good (p : Nat) (s : State) (hs : s.footprint.Ok) : Good (execPagesFreed p s) := by simp [hs, execPagesFreed]

@[simp] theorem execZeroWriterDone_good (s : State) (hs : s.footprint.Ok) : Good (execZeroWriterDone s) := by
  fun_cases execZeroWriterDone s <;> simp +zetaDelta [hs]

@[simp] theorem execDeadline_good (i : Nat) (s : State) (hs : s.footprint.Ok) : Good (execDeadline i s) := by
  fun_cases execDeadline i s
  case case3 =>
    rw [good_next]
    exact foldl_ok (fun s t => ⟨fun h => sendAbandon_ok _ _ _ (sendAbandon_ok _ _ _ h)⟩) _ _ (by simpa +zetaDelta using hs)
  all_goals simp +zetaDelta [hs]

@[simp] theorem execRingRecord_good (s : State) (hs : s.footprint.Ok) : Good (execRingRecord s) := by
  fun_cases execRingRecord s <;> simp +zetaDelta [hs]

@[simp] theorem execKeyCacheFill_good (i : Nat) (s : State) (hs : s.footprint.Ok) : Good (execKeyCacheFill i s) := by
  simp [hs, execKeyCacheFill]

@[simp] theorem State.badDoorbell_footprint (s : State) (f p ofs : Nat) : (s.badDoorbell f p ofs).footprint = s.footprint := by
  simp [State.badDoorbell]

@[simp] theorem execRingReadIndex_good (f i : Nat) (v : Word) (s : State) (hs : s.footprint.Ok) : Good (execRingReadIndex f i v s) := by
  simp [hs, execRingReadIndex]

/-! ## WheelOps -/

@[simp] theorem State.setCtxEvt_footprint (s : State) (c : Nat) (b : BitVec 5) : (s.setCtxEvt c b).footprint = s.footprint := by
  simp [State.setCtxEvt]

@[simp] theorem State.wheelErr_footprint (s : State) (w c kind : Nat) : (s.wheelErr w c kind).footprint = s.footprint := (rfl)

@[simp] theorem State.ctxRefused_footprint (s : State) (w c a : Nat) : (s.ctxRefused w c a).footprint = s.footprint := by
  simp [State.ctxRefused]

@[simp] theorem State.ctxStore_ok (s : State) (g : Agent) (w c a : Nat) (bs : List Byte) (hs : s.footprint.Ok) :
    (s.ctxStore g w c a bs).1.footprint.Ok := by
  fun_cases State.ctxStore s g w c a bs <;> simp +zetaDelta [hs]

@[simp] theorem State.loseGap_footprint (s : State) (c : Nat) : (s.loseGap c).footprint = s.footprint := by
  fun_cases State.loseGap s c <;> simp

@[simp] theorem State.putRing_ok (s : State) (g : Agent) (w c base log2 ofs : Nat) (bs : List Byte) (hs : s.footprint.Ok) :
    (s.putRing g w c base log2 ofs bs).1.footprint.Ok := by
  fun_cases State.putRing s g w c base log2 ofs bs <;> simp +zetaDelta [hs]

@[simp] theorem State.nalWrite_ok (s : State) (c : Nat) (nal : List Byte) (ts : Word) (arrival : Nat) (hs : s.footprint.Ok) :
    (s.nalWrite c nal ts arrival).footprint.Ok := by simp [hs, State.nalWrite]

theorem foldl_nalWrite_ok (s : State) (c : Nat) (l : List (List Byte)) (ts : Word) (arrival : Nat) (hs : s.footprint.Ok) :
    (l.foldl (fun s n => s.nalWrite c n ts arrival) s).footprint.Ok :=
  foldl_ok (fun s n => ⟨State.nalWrite_ok s c n ts arrival⟩) l s hs

@[simp] theorem State.releasePacket_ok (s : State) (c : Nat) (ts : Word) (payload : List Byte) (arrival : Nat) (hs : s.footprint.Ok) :
    (s.releasePacket c ts payload arrival).footprint.Ok := by
  unfold State.releasePacket
  extract_lets x whole
  have hwhole (s : State) (l : List (List Byte)) (h : s.footprint.Ok) : (whole s l).footprint.Ok :=
    foldl_nalWrite_ok _ _ _ _ _ (by simpa using h)
  split
  · simpa using hs
  · exact hwhole s _ hs
  · split
    · split
      · exact hwhole _ _ (by simpa using hs)
      · simpa using hs
    · split
      · split <;> simp [hs]
      · split <;> simpa using hs

@[simp] theorem State.releaseHead_ok (s : State) (c arrival : Nat) (hs : s.footprint.Ok) : (s.releaseHead c arrival).footprint.Ok := by
  fun_cases State.releaseHead s c arrival <;> simp [hs]

@[simp] theorem State.makeRoom_ok (s : State) (c n now k : Nat) (hs : s.footprint.Ok) : (s.makeRoom c n now k).footprint.Ok := by
  induction k generalizing s with
  | zero => exact hs
  | succ k ih =>
    simp only [State.makeRoom]
    split
    · exact hs
    · exact ih _ (State.releaseHead_ok _ _ _ (by simpa using hs))

@[simp] theorem State.substitute_ok (s : State) (w c : Nat) (o : Int) (hs : s.footprint.Ok) : (s.substitute w c o).footprint.Ok := by
  simp [hs, State.substitute]

@[simp] theorem State.startPicture_ok (s : State) (w c : Nat) (p : PicStart) (unit : Nat) (ts : Word) (arrival : Nat) (hs : s.footprint.Ok) :
    (s.startPicture w c p unit ts arrival).footprint.Ok := by
  have hsub (x : Ctx) (l : List Int) : (l.foldl (fun s o => s.substitute w c o) (s.setCtx c x)).footprint.Ok :=
    foldl_ok (fun s o => ⟨State.substitute_ok s w c o⟩) _ _ (by simpa using hs)
  fun_cases State.startPicture s w c p unit ts arrival <;> simp +zetaDelta [hs, hsub]

@[simp] theorem State.paintUnits_ok (s : State) (w c u : Nat) (test : Nat → Bool) (new : Nat → Nat → List Byte) (hs : s.footprint.Ok) :
    (s.paintUnits w c u test new).footprint.Ok := by
  unfold State.paintUnits
  exact foldl_ok (fun s pl => ⟨fun h => foldl_ok (fun s y => ⟨State.ctxStore_ok _ _ _ _ _ _⟩) _ _ h⟩) _ _ hs

@[simp] theorem State.storeUnits_ok (s : State) (w c : Nat) (r : UnitRow) (hs : s.footprint.Ok) : (s.storeUnits w c r).footprint.Ok := by
  simp [hs, State.storeUnits]

@[simp] theorem State.conceal_ok (s : State) (w c : Nat) (hs : s.footprint.Ok) : (s.conceal w c).footprint.Ok := by
  simp only [State.conceal, State.setCtx_footprint]
  refine foldl_ok (fun s u => ⟨fun h => ?_⟩) _ _ hs
  split
  · exact h
  · exact State.paintUnits_ok _ _ _ _ _ _ (by split <;> simp [h])

@[simp] theorem State.takeRow_ok (s : State) (w c : Nat) (r : RowReads) (hs : s.footprint.Ok) : (s.takeRow w c r).footprint.Ok := by
  unfold State.takeRow
  extract_lets x t n spans out poison bytes y noSet errs src y' s₁ s₂ s₃ s₄ first s₅ z lost clash s₆ s₇
  have h₄ : s₄.footprint.Ok := by
    have h₃ : s₃.footprint = s.footprint := by simp [s₃, s₂, s₁]
    cases hout : out <;> simp [s₄, hout, h₃, hs]
  have h₅ : s₅.footprint.Ok := by
    simp only [s₅]
    split <;> simp [h₄]
  have h₇ : s₇.footprint.Ok := by
    have h₆ : s₆.footprint.Ok := h₅
    cases hlost : lost <;> simp [s₇, hlost, h₆]
  split
  · exact h₅
  · split
    · exact h₇
    · split
      · simp [h₇]
      · exact h₇

@[simp] theorem State.writePicture_ok (s : State) (w c due : Nat) (hs : s.footprint.Ok) : (s.writePicture w c due).footprint.Ok := by
  unfold State.writePicture
  extract_lets x pic b rows r groups s1 last n
  have hr : r.1.footprint.Ok := by
    refine foldl_fst_ok (fun r y => ⟨fun h => ?_⟩) _ _ hs
    refine foldl_fst_ok (fun r ch => ⟨fun h => ?_⟩) _ _ h
    exact State.put_ok _ _ _ _ h
  simpa [s1] using hr

@[simp] theorem State.endPicture_ok (s : State) (w c : Nat) (hs : s.footprint.Ok) : (s.endPicture w c).footprint.Ok := by
  simp [hs, State.endPicture]

theorem State.output_ok (s : State) (w c : Nat) (ended : Bool) (hs : s.footprint.Ok) : ∀ t ∈ s.output w c ended, t.footprint.Ok := by
  unfold State.output
  split
  · simp [hs]
  · extract_lets s₁ x b due work asks bad busy s₂ s₃ s₄ s₅
    have h₃ : s₃.footprint.Ok := by
      have h₂ : s₂.footprint.Ok := by simp [hs, s₂, s₁]
      cases hbad : bad <;> simp [s₃, hbad, h₂]
    have h₅ : s₅.footprint.Ok := by simp [s₅, s₄, h₃]
    split <;> simp [h₅]

@[simp] theorem State.decodeRow_ok (s : State) (w c : Nat) (r : RowReads) (hs : s.footprint.Ok) : (s.decodeRow w c r).footprint.Ok := by
  unfold State.decodeRow
  extract_lets wait x s₁ first
  have hwait (s : State) : (wait s).footprint = s.footprint := State.setCtx_footprint _ _ _
  have h₁ : s₁.footprint.Ok := by simpa [s₁] using hs
  have hfirst : ∀ t ∈ first, t.footprint.Ok := by
    simp only [first]
    split
    · exact fun t ht => State.output_ok _ _ _ _ h₁ t ht
    · simp [h₁]
  clear_value first s₁
  split
  · simp [hwait, h₁]
  next t =>
    have ht := hfirst t rfl
    split
    · exact ht
    · split
      · simp [hwait, ht]
      next u hu => exact State.output_ok _ _ _ _ (State.takeRow_ok _ _ _ _ ht) u hu

@[simp] theorem State.turnWheel_footprint (s : State) (w : Nat) : (s.turnWheel w).footprint = s.footprint := by
  fun_cases State.turnWheel s w <;> rfl

@[simp] theorem State.encodeRow_ok (s : State) (w c : Nat) (hs : s.footprint.Ok) : (s.encodeRow w c).footprint.Ok := by
  simp [hs, State.encodeRow]

@[simp] theorem State.rowBoundary_ok (s : State) (w : Nat) (r : RowReads) (hs : s.footprint.Ok) : (s.rowBoundary w r).footprint.Ok := by
  simp [hs, State.rowBoundary]

/-! ## Wheels -/

@[simp] theorem ctxCommand_footprint (q op b : Nat) (early : Forwarded → Nat) (s : State) (k : Forwarded → Nat → Nat → State → State)
    (hk : ∀ a b c t, SameFootprint t (k a b c t)) :
    (ctxCommand q op b early s k).footprint = s.footprint := by
  simp [ctxCommand, (hk _ _ _ _).footprint]

@[simp] theorem execStreamOpen_good (q : Nat) (s : State) (hs : s.footprint.Ok) : Good (execStreamOpen q s) := by simp [hs, execStreamOpen]

@[simp] theorem execStreamClose_good (q : Nat) (s : State) (hs : s.footprint.Ok) : Good (execStreamClose q s) := by
  simp [hs, execStreamClose]

@[simp] theorem execStreamClosed_good (c : Nat) (s : State) (hs : s.footprint.Ok) : Good (execStreamClosed c s) := by
  simp [hs, execStreamClosed]

@[simp] theorem execStreamFeed_good (q : Nat) (s : State) (hs : s.footprint.Ok) : Good (execStreamFeed q s) := by simp [hs, execStreamFeed]
@[simp] theorem execStreamKey_good (q : Nat) (s : State) (hs : s.footprint.Ok) : Good (execStreamKey q s) := by simp [hs, execStreamKey]

@[simp] theorem execStreamClass_good (q : Nat) (s : State) (hs : s.footprint.Ok) : Good (execStreamClass q s) := by
  simp [hs, execStreamClass]

@[simp] theorem State.jitStore_ok (s : State) (c n : Nat) (h : Parsed) (now : Nat) (hs : s.footprint.Ok) : (s.jitStore c n h now).footprint.Ok := by
  fun_cases State.jitStore s c n h now <;> simp +zetaDelta [hs]

@[simp] theorem execFrameReceive_good (f : EthFrame) (s : State) (hs : s.footprint.Ok) : Good (execFrameReceive f s) := by
  unfold execFrameReceive
  split
  · simp [hs]
  · extract_lets bad e e' src s₁ s₂ src' s₃ h
    have h₂ : s₂.footprint.Ok := by simp [hs, s₂, s₁]
    have h₃ : s₃.footprint.Ok := by
      simp only [s₃]
      split
      · split <;> exact h₂
      · exact h₂
    clear_value s₃
    split
    · simp [h₂]
    · split
      · simp [h₃]
      · extract_lets x drop n next
        split
        · simp [drop, h₃]
        · split <;> simp [drop, h₃]

@[simp] theorem execJitterGapLost_good (c : Nat) (s : State) (hs : s.footprint.Ok) : Good (execJitterGapLost c s) := by
  simp [hs, execJitterGapLost]

@[simp] theorem execNalRelease_good (c arrival : Nat) (s : State) (hs : s.footprint.Ok) : Good (execNalRelease c arrival s) := by
  simp [hs, execNalRelease]

@[simp] theorem execWheelRowBoundary_good (w : Nat) (r : RowReads) (s : State) (hs : s.footprint.Ok) : Good (execWheelRowBoundary w r s) := by
  simp [hs, execWheelRowBoundary]

@[simp] theorem execBufferTallyPoll_good (c : Nat) (s : State) (hs : s.footprint.Ok) : Good (execBufferTallyPoll c s) := by
  simp [hs, execBufferTallyPoll]

@[simp] theorem execEncodeNalPost_good (c : Nat) (s : State) (hs : s.footprint.Ok) : Good (execEncodeNalPost c s) := by
  simp only [execEncodeNalPost]
  split
  · simp [hs]
  · simp [hs, apply_ite Prod.fst]

/-! ## Structure -/

@[simp] theorem State.beginDrain_footprint (s : State) (a : Amend) : (s.beginDrain a).footprint = s.footprint := (rfl)

@[simp] theorem State.mouldErr_footprint (s : State) (h code : Nat) : (s.mouldErr h code).footprint = s.footprint := by
  simp [State.mouldErr]

@[simp] theorem State.restartAmend_footprint (s : State) : s.restartAmend.footprint = s.footprint := by
  fun_cases State.restartAmend s <;> simp

/-! ## Events -/

@[simp] theorem State.gate_footprint (s : State) (m : Master) (addr : Nat) (write : Bool) (k : State → State) (hk : ∀ t, SameFootprint t (k t)) :
    (s.gate m addr write k).footprint = s.footprint := by
  unfold State.gate
  extract_lets go
  have hgo (s : State) : (go s).footprint = s.footprint := by simp [go, (hk _).footprint]
  split <;> simp [hgo]

@[simp] theorem State.gate_ok (s : State) (m : Master) (addr : Nat) (write : Bool) (k : State → State) (hk : ∀ t, Keeps t (k t))
    (hs : s.footprint.Ok) :
    (s.gate m addr write k).footprint.Ok := by
  unfold State.gate
  extract_lets go
  have hgo (s : State) (h : s.footprint.Ok) : (go s).footprint.Ok := (hk _).ok (by split <;> simp [h])
  split
  · split
    · simpa using hs
    · split <;> simp [hs, hgo]
  · split <;> simp [hs, hgo]
  · exact hgo _ hs

@[simp] theorem State.setVec_footprint (s : State) (k : Nat) (v : Vec) : (s.setVec k v).footprint = s.footprint := (rfl)
@[simp] theorem State.setRoute_footprint (s : State) (x : Nat) (v : Route) : (s.setRoute x v).footprint = s.footprint := (rfl)

@[simp] theorem State.sendMessage_ok (s : State) (k : Nat) (hs : s.footprint.Ok) : (s.sendMessage k).footprint.Ok := by
  simp [hs, State.sendMessage]

@[simp] theorem State.compare_ok (s : State) (k : Nat) (hs : s.footprint.Ok) : (s.compare k).footprint.Ok := by simp [hs, State.compare]

@[simp] theorem State.flushPba_ok (s : State) (f : Nat) (hs : s.footprint.Ok) : (s.flushPba f).footprint.Ok := by
  simp +contextual [hs, State.flushPba]

@[simp] theorem State.wake_ok (s : State) (hs : s.footprint.Ok) : s.wake.footprint.Ok := by simp +contextual [hs, State.wake]

@[simp] theorem execEventOccurrence_good (s : State) (hs : s.footprint.Ok) : Good (execEventOccurrence s) := by
  fun_cases execEventOccurrence s <;> simp +zetaDelta [hs]

@[simp] theorem execCoalesceTimer_good (f e : Nat) (s : State) (hs : s.footprint.Ok) : Good (execCoalesceTimer f e s) := by
  simp [hs, execCoalesceTimer]

@[simp] theorem execCollectorSleep_good (s : State) (hs : s.footprint.Ok) : Good (execCollectorSleep s) := by simp [hs, execCollectorSleep]
@[simp] theorem execCollectorWake_good (s : State) (hs : s.footprint.Ok) : Good (execCollectorWake s) := by simp [hs, execCollectorWake]

@[simp] theorem evcWrite_ok (s : State) (m : Master) (ofs : Nat) (k : Nat → State → State) (hk : ∀ a t, Keeps t (k a t)) (hs : s.footprint.Ok) :
    (evcWrite s m ofs k).footprint.Ok := by
  unfold evcWrite
  split
  · simpa using hs
  · refine State.gate_ok _ _ _ _ _ (fun s => ⟨fun h => ?_⟩) hs
    split
    · exact (hk _ _).ok (State.wake_ok _ h)
    · simpa using h

@[simp] theorem State.serveTally_footprint (s : State) (p : Nat) : (s.serveTally p).footprint = s.footprint := by simp [State.serveTally]
@[simp] theorem State.serve_footprint (s : State) (x : Nat) : (s.serve x).footprint = s.footprint := by simp [State.serve]

@[simp] theorem execEvcPend_good (m : Master) (w : Nat) (v : Word) (s : State) (hs : s.footprint.Ok) : Good (execEvcPend m w v s) := by
  unfold execEvcPend
  extract_lets go
  have hgo (s : State) (mine : Nat → Bool) (h : s.footprint.Ok) : (go s mine).footprint.Ok := by simp [h, go]
  split
  · simp [hs]
  · split
    · simp [hs]
    · rw [good_next]
      refine State.gate_ok _ _ _ _ _ (fun s => ⟨fun h => ?_⟩) hs
      split <;> simp [h, hgo]

@[simp] theorem execEvcAck_good (m : Master) (v : Word) (s : State) (hs : s.footprint.Ok) : Good (execEvcAck m v s) := by
  rw [execEvcAck, good_next]
  refine evcWrite_ok _ _ _ _ (fun f s => ⟨fun h => ?_⟩) hs
  dsimp only
  split <;> simp [h]

@[simp] theorem execEvcRoute_good (m : Master) (src : Nat) (v : Word) (s : State) (hs : s.footprint.Ok) : Good (execEvcRoute m src v s) := by
  simp [hs, execEvcRoute]

@[simp] theorem execEvcCoal_good (m : Master) (e : Nat) (v : Word) (s : State) (hs : s.footprint.Ok) : Good (execEvcCoal m e v s) := by
  rw [execEvcCoal, good_next]
  refine evcWrite_ok _ _ _ _ (fun f s => ⟨fun h => ?_⟩) hs
  dsimp only
  split <;> simp [h]

@[simp] theorem execMsixUnmask_good (f e : Nat) (s : State) (hs : s.footprint.Ok) : Good (execMsixUnmask f e s) := by
  simp [hs, execMsixUnmask]

/-! ## HostOps -/

@[simp] theorem State.setQueue_footprint (s : State) (cq : Bool) (q : Nat) (x : HostQueue) : (s.setQueue cq q x).footprint = s.footprint := by
  simp [State.setQueue]

@[simp] theorem State.writeCompletion_ok (s : State) (k : Completion) (hs : s.footprint.Ok) : (s.writeCompletion k).1.footprint.Ok := by
  unfold State.writeCompletion
  extract_lets x slot r wrap s₁ s₂
  have hr : r.1.footprint.Ok := State.guardStore_ok _ _ _ _ _ hs
  have h₂ : s₂.footprint.Ok := by
    have h₁ : s₁.footprint.Ok := by simpa [s₁] using hr
    simp only [s₂]
    split
    · exact h₁
    · split <;> simp [h₁]
  split <;> simp [hr, h₂]

@[simp] theorem State.releaseStaged_ok (s : State) (p : Nat) (hs : s.footprint.Ok) : (s.releaseStaged p).footprint.Ok := by
  refine foldl_ok (fun s x => ⟨fun h => ?_⟩) _ _ hs
  dsimp only
  split
  · split
    · split <;> simp [h]
    · simp [h]
  · split <;> simp [h]

@[simp] theorem State.startQueue_ok (s : State) (cq : Bool) (q : Nat) (x : HostQueue) (rearm : Bool) (hs : s.footprint.Ok) :
    (s.startQueue cq q x rearm).footprint.Ok := by simp [hs, State.startQueue]

@[simp] theorem State.shutDone_ok (s : State) (cq : Bool) (q : Nat) (hs : s.footprint.Ok) : (s.shutDone cq q).footprint.Ok := by
  simp [hs, State.shutDone]

@[simp] theorem State.cfgWrite_ok (s : State) (cq : Bool) (q v : Nat) (hs : s.footprint.Ok) : (s.cfgWrite cq q v).footprint.Ok := by
  simp [hs, State.cfgWrite]

@[simp] theorem State.forgetFinals_footprint (s : State) (c : Nat) : (s.forgetFinals c).footprint = s.footprint := (rfl)

@[simp] theorem State.baseWrite_footprint (s : State) (cq : Bool) (q : Nat) (v : DWord) : (s.baseWrite cq q v).footprint = s.footprint := by
  simp [State.baseWrite]

@[simp] theorem State.dropApply_footprint (s : State) : s.dropApply.footprint = s.footprint := (rfl)

@[simp] theorem State.beginWrite_footprint (s : State) : s.beginWrite.footprint = s.footprint := by
  fun_cases State.beginWrite s <;> rfl

@[simp] theorem State.installMoved_footprint (s : State) : s.installMoved.footprint = s.footprint := by
  fun_cases State.installMoved s <;> simp +zetaDelta

@[simp] theorem State.unpublish_footprint (s : State) (w a h : Nat) : (s.unpublish w a h).footprint = s.footprint := by
  fun_cases State.unpublish s w a h <;> rfl

@[simp] theorem State.cancelOp_ok (s : State) (h : Nat) (hs : s.footprint.Ok) : (s.cancelOp h).2.footprint.Ok := by
  fun_cases State.cancelOp s h <;> simp +zetaDelta [hs]

@[simp] theorem State.pauseOp_footprint (s : State) (h : Nat) (on : Bool) : (s.pauseOp h on).2.footprint = s.footprint := by
  unfold State.pauseOp
  split
  · rfl
  · split
    · rfl
    · extract_lets s₁ s₂
      have h₁ : s₁.footprint = s.footprint := by
        simp only [s₁]
        split <;> simp
      have h₂ : s₂.footprint = s.footprint := (State.setOp_footprint ..).trans h₁
      split
      · exact h₁
      · dsimp only
        split
        · split
          · exact h₂
          · split <;> simp [h₂]
        · exact h₂

@[simp] theorem State.opProgress_footprint (s : State) (o : OpRec) : (s.opProgress o).2.footprint = s.footprint := by
  fun_cases State.opProgress s o <;> rfl

@[simp] theorem opCommand_footprint (q op : Nat) (s : State) (k : Nat → State → Nat × Nat × Nat × State)
    (hk : ∀ h s, SameFootprint s (k h s).2.2.2) : (opCommand q op s k).footprint = s.footprint := by
  refine onForwarded_footprint _ _ _ _ (fun f s => ⟨?_⟩)
  dsimp only
  split
  · simp
  · split
    · simp
    · exact (State.answer_footprint ..).trans (hk _ s).footprint

@[simp] theorem opCommand_ok (q op : Nat) (s : State) (k : Nat → State → Nat × Nat × Nat × State)
    (hk : ∀ h s, Keeps s (k h s).2.2.2) (hs : s.footprint.Ok) : (opCommand q op s k).footprint.Ok := by
  refine onForwarded_ok _ _ _ _ (fun f s => ⟨fun h => ?_⟩) hs
  dsimp only
  split
  · simpa using h
  · split
    · simpa using h
    · simpa using (hk _ s).ok h

@[simp] theorem State.cancelOps_ok (s : State) (f : Nat) (amends : Bool) (hs : s.footprint.Ok) : (s.cancelOps f amends).footprint.Ok := by
  refine foldl_ok (fun s e => ⟨fun h => ?_⟩) _ _ hs
  extract_lets mine
  split
  · exact h
  · split
    · exact h
    · split
      · exact h
      · extract_lets s₁ r
        have hr : r.2.footprint.Ok := by simp [h, r, s₁, apply_ite Prod.snd]
        split <;> simp [hr]

@[simp] theorem State.killRequests_ok (s : State) (p reason : Nat) (which : Nat → Bool) (hs : s.footprint.Ok) :
    (s.killRequests p reason which).footprint.Ok := by
  simp +contextual [hs, State.killRequests]

@[simp] theorem State.forgetCancels_footprint (s : State) (p : Nat) : (s.forgetCancels p).footprint = s.footprint := by
  simp [State.forgetCancels]

@[simp] theorem State.closeContexts_footprint (s : State) (which : Nat → Bool) (evt : BitVec 5) :
    (s.closeContexts which evt).footprint = s.footprint := by
  simp [State.closeContexts]

@[simp] theorem State.closeSession_ok (s : State) (p k : Nat) (hs : s.footprint.Ok) : (s.closeSession p k).footprint.Ok := by
  fun_cases State.closeSession s p k <;> simp +zetaDelta [hs]

@[simp] theorem State.closeSessions_ok (s : State) (p : Nat) (hs : s.footprint.Ok) : (s.closeSessions p).footprint.Ok := by
  simp +contextual [hs, State.closeSessions]

@[simp] theorem State.resetQueues_footprint (s : State) (p : Nat) (whole : Bool) : (s.resetQueues p whole).footprint = s.footprint := (rfl)
@[simp] theorem State.resetViews_footprint (s : State) (f : Nat) : (s.resetViews f).footprint = s.footprint := (rfl)

@[simp] theorem State.flrOne_ok (s : State) (reason : Nat → Nat) (whole : Bool) (f : Nat) (hs : s.footprint.Ok) :
    (s.flrOne reason whole f).footprint.Ok := by
  unfold State.flrOne
  extract_lets p s1 s2 s3 _ s4 s5 s6 _ s7 s8
  have h2 : s2.footprint = s.footprint := by simp [s2, s1]
  have h5 : s5.footprint.Ok := by
    have h (i : State) (hi : i.footprint.Ok) : ((i.requestsOf p).foldl (fun s e => s.killRequests p (reason e.1) (· == e.1)) i).footprint.Ok :=
      foldl_ok (fun s e => ⟨State.killRequests_ok s _ _ _⟩) _ _ hi
    simpa [s5] using h s4 (by simpa [s4, s3, h2] using hs)
  have h8 : s8.footprint.Ok := State.cancelOps_ok _ _ _ (by simpa [s7, s6] using h5)
  split
  · simpa [h2] using hs
  · split <;> simp [h8]

@[simp] theorem State.flr_ok (s : State) (f : Nat) (hs : s.footprint.Ok) : (s.flr f).footprint.Ok := by simp +contextual [hs, State.flr]
@[simp] theorem State.dropHostRecords_footprint (s : State) : s.dropHostRecords.footprint = s.footprint := (rfl)

@[simp] theorem State.endHostRings_ok (s : State) (hs : s.footprint.Ok) : s.endHostRings.footprint.Ok := by
  simp +contextual [hs, State.endHostRings]

@[simp] theorem State.pcieReset_ok (s : State) (hs : s.footprint.Ok) : s.pcieReset.footprint.Ok := by simp +contextual [hs, State.pcieReset]

@[simp] theorem State.funcReturns_ok (s : State) (f : Nat) (hs : s.footprint.Ok) : (s.funcReturns f).footprint.Ok := by
  simp [hs, State.funcReturns]

@[simp] theorem State.plansLaid_ok (s : State) (hs : s.footprint.Ok) : s.plansLaid.footprint.Ok := by
  have h (l : List (Nat × Ware)) (i : State) (hi : i.footprint.Ok) : (l.foldl (fun s e =>
      if e.2.isImage then s else (e.2.tiles.filter (fun t => s.faults.fenceBack.getLsbD t)).foldl (fun s t => s.loadPrograms e.2.plan t) s)
      i).footprint.Ok := by
    refine foldl_ok (fun s e => ⟨fun h => ?_⟩) l i hi
    split
    · exact h
    · exact foldl_ok (fun s t => ⟨State.loadPrograms_ok s _ t⟩) _ _ h
  simpa [State.plansLaid] using h s.teller.wares s hs

@[simp] theorem State.placeWare_ok (s : State) (p : Nat) (f : WareForm) (w : WareReads) (x : List (List Nat) × Nat × List (Nat × Nat))
    (hs : s.footprint.Ok) :
    (s.placeWare p f w x).2.footprint.Ok := by
  unfold State.placeWare
  extract_lets h tiles rec' s1 s2
  have h1 : s1.footprint.Ok := foldl_ok (fun s (r : Nat × Nat) => ⟨State.freeBytes_ok s r.1 r.2⟩) _ _ hs
  show s2.footprint.Ok
  unfold s2
  split
  · exact h1
  · exact foldl_ok (fun s t => ⟨State.loadPrograms_ok s _ t⟩) _ _ (by simpa using State.plansLaid_ok _ h1)

@[simp] theorem State.dropWare_ok (s : State) (h : Nat) (hs : s.footprint.Ok) : (s.dropWare h).footprint.Ok := by
  fun_cases State.dropWare s h with
  | case1 => exact hs
  | case2 w _ s1 s2 =>
    have h1 : s1.footprint.Ok := by
      refine foldl_ok (fun s e => ⟨fun h => ?_⟩) _ _ hs
      exact foldl_ok (fun s t => ⟨sendAbandon_ok s t e.2.tag⟩) _ _ h
    have h2 : s2.footprint.Ok := by
      refine foldl_ok (fun s r => ⟨?_⟩) _ _ h1
      exact State.zeroRange_ok s r.1 r.2
    simpa using h2

/-! ## Host -/

@[simp] theorem queueAccess_good (s : State) (f : Nat) (cq : Bool) (q r : Nat) (k : Nat → State → State)
    (hk : ∀ a t, Keeps t (k a t)) (hs : s.footprint.Ok) :
    Good (queueAccess s f cq q r k) := by
  fun_cases queueAccess s f cq q r k <;> simp_all

@[simp] theorem execSqTailDoorbell_good (f q : Nat) (v : Word) (s : State) (hs : s.footprint.Ok) : Good (execSqTailDoorbell f q v s) := by
  simp [hs, execSqTailDoorbell]

@[simp] theorem execCqHeadDoorbell_good (f q : Nat) (v : Word) (s : State) (hs : s.footprint.Ok) : Good (execCqHeadDoorbell f q v s) := by
  refine queueAccess_good _ _ _ _ _ _ (fun p s => ⟨fun h => ?_⟩) hs
  dsimp only
  split <;> simp [h]

@[simp] theorem execQueueCfgWrite_good (f : Nat) (cq : Bool) (q : Nat) (v : Word) (s : State) (hs : s.footprint.Ok) :
    Good (execQueueCfgWrite f cq q v s) :=
  queueAccess_good _ _ _ _ _ _ (fun _ s => ⟨State.cfgWrite_ok s cq q v.toNat⟩) hs

@[simp] theorem execQueueBaseWrite_good (f : Nat) (cq : Bool) (q : Nat) (v : DWord) (s : State) (hs : s.footprint.Ok) :
    Good (execQueueBaseWrite f cq q v s) := by
  simp [hs, execQueueBaseWrite]

@[simp] theorem execSqFetch_good (q : Nat) (r : FetchReply) (s : State) (hs : s.footprint.Ok) : Good (execSqFetch q r s) := by
  simp [hs, execSqFetch]

@[simp] theorem execCompletionPost_good (s : State) (hs : s.footprint.Ok) : Good (execCompletionPost s) := by
  fun_cases execCompletionPost s <;> simp +zetaDelta [hs]

@[simp] theorem State.refuseRange_footprint (s : State) (f : Forwarded) (code p a : Nat) (outside : Bool) :
    (s.refuseRange f code p a outside).footprint = s.footprint := by simp [State.refuseRange]

@[simp] theorem execWareLoad_good (q : Nat) (s : State) (hs : s.footprint.Ok) : Good (execWareLoad q s) := by simp [hs, execWareLoad]

@[simp] theorem execWareLoadDone_good (handle : Nat) (w : WareReads) (s : State) (hs : s.footprint.Ok) : Good (execWareLoadDone handle w s) := by
  fun_cases execWareLoadDone handle w s <;> simp +zetaDelta [hs]

@[simp] theorem execWareUnload_good (q : Nat) (s : State) (hs : s.footprint.Ok) : Good (execWareUnload q s) := by
  rw [execWareUnload, good_next]
  refine onForwarded_ok _ _ _ _ (fun f s => ⟨fun h => ?_⟩) hs
  dsimp only
  split <;> simp [h]

@[simp] theorem unitCommand_footprint (q op : Nat) (kind : OpKind) (s : State) (k : Nat → Nat → Nat → Nat → State → State)
    (hk : ∀ a b c d t, SameFootprint t (k a b c d t)) :
    (unitCommand q op kind s k).footprint = s.footprint := by
  simp [unitCommand, (hk _ _ _ _ _).footprint]

@[simp] theorem unitCommand_ok (q op : Nat) (kind : OpKind) (s : State) (k : Nat → Nat → Nat → Nat → State → State)
    (hk : ∀ a b c d t, Keeps t (k a b c d t)) (hs : s.footprint.Ok) :
    (unitCommand q op kind s k).footprint.Ok := by
  refine onForwarded_ok _ _ _ _ (fun f s => ⟨fun h => ?_⟩) hs
  dsimp only
  split
  · simpa using h
  · simpa using (hk _ _ _ _ _).ok (by simpa using h)

@[simp] theorem execScrub_good (q : Nat) (s : State) (hs : s.footprint.Ok) : Good (execScrub q s) := by simp [hs, execScrub]

@[simp] theorem execMemTest_good (q : Nat) (s : State) (hs : s.footprint.Ok) : Good (execMemTest q s) := by
  rw [execMemTest, good_next]
  exact unitCommand_ok _ _ _ _ _ (fun _ _ a n s => ⟨State.freeBytes_ok s a _⟩) hs

@[simp] theorem execLongOperationDone_good (handle : Nat) (failing : List Nat) (s : State) (hs : s.footprint.Ok) :
    Good (execLongOperationDone handle failing s) := by
  unfold execLongOperationDone
  split
  · simp [hs]
  next o _ =>
    split
    · simp [hs]
    · split
      · split <;> simp [hs]
      · split
        · extract_lets n lines s1 s2
          have h1 : s1.footprint.Ok := State.freeBytes_ok _ _ _ (State.zero_ok _ _ _ hs)
          have h2 : s2.footprint.Ok := by
            unfold s2
            split
            · exact foldl_ok (fun s l => ⟨State.poisonLine_ok s l 5⟩) _ _ h1
            · exact h1
          simp [h2]
        · simp [hs]

@[simp] theorem execOpQuery_good (q : Nat) (s : State) (hs : s.footprint.Ok) : Good (execOpQuery q s) := by
  rw [execOpQuery, good_next]
  refine opCommand_ok _ _ _ _ (fun h s => ⟨fun hs => ?_⟩) hs
  split <;> simp [hs]

@[simp] theorem execOpSuspend_good (q : Nat) (s : State) (hs : s.footprint.Ok) : Good (execOpSuspend q s) := by simp [hs, execOpSuspend]
@[simp] theorem execOpResume_good (q : Nat) (s : State) (hs : s.footprint.Ok) : Good (execOpResume q s) := by simp [hs, execOpResume]

@[simp] theorem execOpCancel_good (q : Nat) (s : State) (hs : s.footprint.Ok) : Good (execOpCancel q s) := by
  rw [execOpCancel, good_next]
  exact opCommand_ok _ _ _ _ (fun h s => ⟨State.cancelOp_ok s h⟩) hs

@[simp] theorem execFlr_good (f : Nat) (s : State) (hs : s.footprint.Ok) : Good (execFlr f s) := by simp [hs, execFlr]
@[simp] theorem State.setLevel_footprint (s : State) (n : Nat) (on : Bool) : (s.setLevel n on).footprint = s.footprint := (rfl)

@[simp] theorem execPerstN_good (asserted refclk : Bool) (s : State) (hs : s.footprint.Ok) : Good (execPerstN asserted refclk s) := by
  simp [hs, execPerstN]

@[simp] theorem execHotReset_good (s : State) (hs : s.footprint.Ok) : Good (execHotReset s) := by simp [hs, execHotReset]

@[simp] theorem execLinkDown_good (d : LinkDown) (s : State) (hs : s.footprint.Ok) : Good (execLinkDown d s) := by
  fun_cases execLinkDown d s <;> simp [hs]

@[simp] theorem execLinkDownTimeout_good (s : State) (hs : s.footprint.Ok) : Good (execLinkDownTimeout s) := by
  simp [hs, execLinkDownTimeout]

@[simp] theorem execRefclkLost_good (s : State) (hs : s.footprint.Ok) : Good (execRefclkLost s) := by simp [hs, execRefclkLost]

@[simp] theorem execLinkRetry_good (refclk : Bool) (s : State) (hs : s.footprint.Ok) : Good (execLinkRetry refclk s) := by
  simp [hs, execLinkRetry]

@[simp] theorem execPcieLinkUp_good (s : State) (hs : s.footprint.Ok) : Good (execPcieLinkUp s) := by
  unfold execPcieLinkUp
  split
  · rw [good_next]
    exact foldl_ok (fun s f => ⟨State.funcReturns_ok s f⟩) _ _ hs
  · simpa using hs

@[simp] theorem State.logMse_footprint (s : State) (f : Nat) : (s.logMse f).footprint = s.footprint := by simp [State.logMse]

@[simp] theorem execConfigSpaceWrite_good (f : Nat) (w : ConfigWrite) (s : State) (hs : s.footprint.Ok) : Good (execConfigSpaceWrite f w s) := by
  have h : (((List.range 8).map (· + 1)).foldl (State.flrOne · (fun _ => 0x05) false) s).footprint.Ok :=
    foldl_ok (fun s f => ⟨State.flrOne_ok s _ _ f⟩) _ _ hs
  fun_cases execConfigSpaceWrite f w s <;> simp +zetaDelta [hs, h]

@[simp] theorem execStreamPortLink_good (port : Nat) (up : Bool) (s : State) (hs : s.footprint.Ok) : Good (execStreamPortLink port up s) := by
  simp [hs, execStreamPortLink]

@[simp] theorem execMgmtPortLink_good (port : Nat) (up : Bool) (s : State) (hs : s.footprint.Ok) : Good (execMgmtPortLink port up s) := by
  simp [hs, execMgmtPortLink]

@[simp] theorem execMgmtFrameForward_good (port : Nat) (forUs broadcast : Bool) (frame : List Byte) (s : State) (hs : s.footprint.Ok) :
    Good (execMgmtFrameForward port forUs broadcast frame s) := by
  simp [hs, execMgmtFrameForward]

@[simp] theorem State.bar4Refused_footprint (s : State) (f : Nat) (b : Bar4) (write : Bool) : (s.bar4Refused f b write).footprint = s.footprint := by
  fun_cases State.bar4Refused s f b write <;> simp

@[simp] theorem execBar4Write_good (f ofs : Nat) (data : List Byte) (ep : Bool) (s : State) (hs : s.footprint.Ok) :
    Good (execBar4Write f ofs data ep s) := by
  unfold execBar4Write
  split
  · simp [hs]
  · split
    next l =>
      extract_lets s₁ s₂
      have h₁ : s₁.footprint.Ok := by simpa [s₁] using hs
      have h₂ : s₂.footprint.Ok := by
        simp only [s₂]
        split <;> simp [h₁]
      split
      · simp [hs]
      · split
        · rw [good_next]
          exact foldl_ok (fun s ln => ⟨fun h => by simp [h]⟩) _ _ h₁
        · rw [good_next]
          split
          · exact h₂
          · split
            · simp [h₂]
            · exact foldl_ok (fun s e => ⟨State.put_ok s _ _ _⟩) _ _ h₂
    · simp [hs]

@[simp] theorem execBar4Read_good (f ofs len : Nat) (s : State) (hs : s.footprint.Ok) : Good (execBar4Read f ofs len s) := by
  have h (l : List Nat) : (l.foldl (fun s ln => homeSide s ln false) s).footprint.Ok :=
    foldl_ok (fun s ln => ⟨homeSide_ok s ln false⟩) _ _ hs
  fun_cases execBar4Read f ofs len s <;> simp +zetaDelta [hs, h]

/-! ## Ledger -/

@[simp] theorem State.note_footprint (s : State) (typ : Nat) (detail : List Byte) : (s.note typ detail).footprint = s.footprint := (rfl)

@[simp] theorem State.noteFault_footprint (s : State) (r : LedgerRec) : (s.noteFault r).2.footprint = s.footprint := by
  fun_cases State.noteFault s r <;> rfl

@[simp] theorem State.writeTail_footprint (s : State) : s.writeTail.footprint = s.footprint := (rfl)
@[simp] theorem State.readLedger_footprint (s : State) (lostA lostB : Nat) : (s.readLedger lostA lostB).footprint = s.footprint := (rfl)

@[simp] theorem execLedgerTailWrite_good (s : State) (hs : s.footprint.Ok) : Good (execLedgerTailWrite s) := by
  simp [hs, execLedgerTailWrite]

@[simp] theorem execLedgerWindowEnd_good (s : State) (hs : s.footprint.Ok) : Good (execLedgerWindowEnd s) := by
  simp [hs, execLedgerWindowEnd]

@[simp] theorem execLedgerReadDone_good (s : State) (hs : s.footprint.Ok) : Good (execLedgerReadDone s) := by
  fun_cases execLedgerReadDone s <;> simp [hs]

/-! ## Resets -/

@[simp] theorem State.dropRuns_footprint (s : State) (p : Nat) : (s.dropRuns p).footprint = s.footprint := (rfl)

@[simp] theorem State.partitionReset_ok (s : State) (p : Nat) (hs : s.footprint.Ok) : (s.partitionReset p).footprint.Ok := by
  unfold State.partitionReset
  split
  · exact hs
  · extract_lets s1 s2 s3 s4
    have h2 : s2.footprint.Ok := by simp [s2, s1, hs]
    have h3 : s3.footprint.Ok := by
      refine foldl_ok (fun s t => ⟨fun h => ?_⟩) _ _ h2
      split
      · exact foldl_ok (fun s q => ⟨flushQueue_ok s t q⟩) _ _ (by simpa using h)
      · exact h
    have h4 : s4.footprint.Ok := by simp [s4, h3]
    split <;> simp [h4]

@[simp] theorem State.loseTile_ok (s : State) (t : Nat) (engines : Bool) (hs : s.footprint.Ok) : (s.loseTile t engines).footprint.Ok := by
  have hl := State.tile_abandonList_le hs t
  simp [State.loseTile, hs]

@[simp] theorem State.breakRun_ok (s : State) (h : Nat) (lost : Nat → Bool) (hs : s.footprint.Ok) : (s.breakRun h lost).footprint.Ok := by
  unfold State.breakRun
  extract_lets cut
  split
  · exact hs
  · extract_lets runs w'
    split
    · exact hs
    · refine foldl_ok (fun s x => ⟨fun h => ?_⟩) _ _ (by simpa using hs)
      refine foldl_ok (fun s t => ⟨fun h => ?_⟩) _ _ h
      exact foldl_ok (fun s g => ⟨sendAbandon_ok s t g⟩) _ _ h

@[simp] theorem State.breakRuns_ok (s : State) (lost : Nat → Bool) (hs : s.footprint.Ok) : (s.breakRuns lost).footprint.Ok := by
  refine foldl_ok (fun s e => ⟨fun h => ?_⟩) _ _ hs
  split
  · extract_lets s₁
    have h₁ : s₁.footprint.Ok := State.breakRun_ok s _ _ h
    split <;> simp [h₁]
  · exact h

@[simp] theorem State.failWares_footprint (s : State) (which : Ware → Bool) : (s.failWares which).footprint = s.footprint := by
  simp [State.failWares]

@[simp] theorem State.noteFence_footprint (s : State) (kind i : Nat) (on : Bool) : (s.noteFence kind i on).footprint = s.footprint := (rfl)
@[simp] theorem State.fenceChan_footprint (s : State) (c : Nat) : (s.fenceChan c).footprint = s.footprint := (rfl)
@[simp] theorem State.stopWheel_footprint (s : State) (w : Nat) : (s.stopWheel w).footprint = s.footprint := by simp [State.stopWheel]
@[simp] theorem State.resetWheel_footprint (s : State) (w : Nat) : (s.resetWheel w).footprint = s.footprint := by simp [State.resetWheel]
@[simp] theorem State.fenceWheel_footprint (s : State) (w : Nat) : (s.fenceWheel w).footprint = s.footprint := by simp [State.fenceWheel]

@[simp] theorem State.downEnd_footprint (s : State) (e : Nat) (fresh : Bool) : (s.downEnd e fresh).footprint = s.footprint := by
  simp [State.downEnd]

@[simp] theorem State.downPorts_footprint (s : State) (d : Nat) : (s.downPorts d).footprint = s.footprint := by simp [State.downPorts]
@[simp] theorem State.dropHomed_footprint (s : State) (d : Nat) : (s.dropHomed d).footprint = s.footprint := by simp [State.dropHomed]

@[simp] theorem State.loseCopies_ok (s : State) (h : Nat) (hs : s.footprint.Ok) : (s.loseCopies h).footprint.Ok := by
  unfold State.loseCopies
  extract_lets dirty s1
  have h1 : s1.footprint.Ok := by
    refine foldl_ok (fun s e => ⟨fun h => ?_⟩) _ _ hs
    exact h.ofMemory (Memory.wf_writeBytes _ _ _) rfl rfl
  split <;> simp [h1]

@[simp] theorem State.losePosted_footprint (s : State) (block : Nat) : (s.losePosted block).footprint = s.footprint := by
  simp [State.losePosted]

@[simp] theorem State.amendDie_footprint (s : State) (k : Nat) (hearth : Bool) : (s.amendDie k hearth).footprint = s.footprint := by
  fun_cases State.amendDie s k hearth <;> simp

@[simp] theorem State.loseKiln_ok (s : State) (k : Nat) (hearth : Bool) (hs : s.footprint.Ok) : (s.loseKiln k hearth).footprint.Ok := by
  have h : ((List.range 8).foldl (fun s i => s.loseTile (8 * k + i) hearth) (s.amendDie k hearth)).footprint.Ok :=
    foldl_ok (fun s i => ⟨State.loseTile_ok s _ _⟩) _ _ (by simpa using hs)
  exact State.breakRuns_ok _ _ h

@[simp] theorem State.loseHearth_ok (s : State) (h : Nat) (hs : s.footprint.Ok) : (s.loseHearth h).footprint.Ok := by
  unfold State.loseHearth
  extract_lets far s1 s2 s3 s4 s5 s6 m s7 s8
  have h1 : s1.footprint.Ok := by
    refine foldl_ok (fun s t => ⟨fun h => ?_⟩) _ _ hs
    split
    · split <;> simp [h]
    · simpa using h
  have h6 : s6.footprint.Ok := by simp [s6, s5, s4, s3, s2, h1]
  have h7 : s7.footprint = s6.footprint := by simp [s7, m]
  simp [s8, h7, h6]

@[simp] theorem State.loseContexts_footprint (s : State) : s.loseContexts.footprint = s.footprint := by simp [State.loseContexts]

@[simp] theorem State.loseVault_ok (s : State) (v : Nat) (hs : s.footprint.Ok) : (s.loseVault v).footprint.Ok := by
  have hparts (l : List (Nat × PartRec)) : (l.foldl (fun s e => s.partitionReset e.1) s).footprint.Ok :=
    foldl_ok (fun s (e : Nat × PartRec) => ⟨State.partitionReset_ok s e.1⟩) _ _ hs
  unfold State.loseVault
  extract_lets parts s1 s2 _ s3 s4 s5 s6 s7 s8 _ s9
  have h3 : s3.footprint.Ok := by simpa [s3, s2] using hparts parts
  have h4 : s4.footprint.Ok := by
    refine foldl_ok (fun s e => ⟨fun h => ?_⟩) _ _ h3
    refine foldl_ok (fun s r => ⟨fun h => ?_⟩) _ _ h
    exact State.freeBytes_ok _ _ _ (State.zero_ok _ _ _ h)
  have h6 : s6.footprint.Ok := by simpa [s6, s5] using h4
  split
  · have h8 : s8.footprint = s6.footprint := by simp [s8, s7]
    simpa [h8] using h6
  · have h9 : s9.footprint = s6.footprint := by simp [s9]
    simpa [h9] using h6

@[simp] theorem State.loseDie_ok (s : State) (d : Nat) (hs : s.footprint.Ok) : (s.loseDie d).footprint.Ok := by simp [hs, State.loseDie]

@[simp] theorem State.requestReset_footprint (s : State) (d : Nat) : (s.requestReset d).footprint = s.footprint := by
  simp [State.requestReset]

@[simp] theorem State.countWithin_footprint (s : State) (key span : Nat) : (s.countWithin key span).2.footprint = s.footprint := (rfl)
@[simp] theorem State.fenceDie_ok (s : State) (d : Nat) (hs : s.footprint.Ok) : (s.fenceDie d).footprint.Ok := by simp [hs, State.fenceDie]

@[simp] theorem State.fenceTile_ok (s : State) (t : Nat) (hs : s.footprint.Ok) : (s.fenceTile t).footprint.Ok := by
  unfold State.fenceTile
  extract_lets m _ _ s1 s2 s3
  have h1 : s1.footprint.Ok := hs
  have h3 : s3.footprint.Ok := by simp [s3, s2, h1]
  split <;> simp [h3]

@[simp] theorem State.checkRoutes_ok (s : State) (j : Nat) (hs : s.footprint.Ok) : (s.checkRoutes j).footprint.Ok := by
  unfold State.checkRoutes
  exact foldl_ok (fun s d => ⟨State.fenceDie_ok s d⟩) _ _ (by split <;> simp [hs])

@[simp] theorem State.stampReset_footprint (s : State) (d : Nat) : (s.stampReset d).footprint = s.footprint := (rfl)

@[simp] theorem State.startReset_ok (s : State) (d : Nat) (st : DieState) (hs : s.footprint.Ok) : (s.startReset d st).footprint.Ok := by
  simp [hs, State.startReset]

@[simp] theorem State.stopDies_ok (s : State) (hs : s.footprint.Ok) : s.stopDies.footprint.Ok  where
  bytes := hs.bytes
  poison := hs.poison
  queues := hs.queues
  tiles := by simp [State.stopDies, State.footprint]

/-! ## Links -/

@[simp] theorem State.bothEnds_footprint (s : State) (j : Nat) (f : PortEnd → PortEnd) : (s.bothEnds j f).footprint = s.footprint := (rfl)
@[simp] theorem State.closePort_footprint (s : State) (j : Nat) (shut : Bool) : (s.closePort j shut).footprint = s.footprint := (rfl)

@[simp] theorem State.fencePort_ok (s : State) (j : Nat) (shut : Bool) (hs : s.footprint.Ok) : (s.fencePort j shut).footprint.Ok := by
  simp [hs, State.fencePort]

@[simp] theorem State.restartPort_footprint (s : State) (j : Nat) : (s.restartPort j).footprint = s.footprint := (rfl)

@[simp] theorem State.retrainPort_ok (s : State) (j : Nat) (hs : s.footprint.Ok) : (s.retrainPort j).footprint.Ok := by
  simp [hs, State.retrainPort]

@[simp] theorem State.writeRetrain_ok (s : State) (e : Nat) (hs : s.footprint.Ok) : (s.writeRetrain e).footprint.Ok := by
  simp [hs, State.writeRetrain]

@[simp] theorem State.writeEn_ok (s : State) (e : Nat) (on : Bool) (hs : s.footprint.Ok) : (s.writeEn e on).footprint.Ok := by
  simp [hs, State.writeEn]

@[simp] theorem State.endShutdowns_ok (s : State) (hs : s.footprint.Ok) : s.endShutdowns.footprint.Ok := by
  unfold State.endShutdowns
  refine foldl_ok (fun s j => ⟨fun h => ?_⟩) _ _ hs
  dsimp only
  split
  · split <;> simp [h]
  · exact h

@[simp] theorem State.failLane_ok (s : State) (e lane : Nat) (hs : s.footprint.Ok) : (s.failLane e lane).footprint.Ok := by
  fun_cases State.failLane s e lane <;> simp +zetaDelta [hs]

@[simp] theorem State.handToRepair_ok (s : State) (e g : Nat) (hs : s.footprint.Ok) : (s.handToRepair e g).footprint.Ok := by
  fun_cases State.handToRepair s e g <;> simp [hs]

@[simp] theorem execFlitReceive_good (e g : Nat) (f : Flit) (s : State) (hs : s.footprint.Ok) : Good (execFlitReceive e g f s) := by
  fun_cases execFlitReceive e g f s with
  | case1 => simpa using hs
  | case2 o x _ y seen s1 r lost lanes =>
    have h1 : s1.footprint.Ok := by simpa [s1] using hs
    rw [good_next]
    exact foldl_ok (fun s l => ⟨State.failLane_ok s e l⟩) _ _ (State.handToRepair_ok _ _ _ h1)

@[simp] theorem execNakReplay_good (e g seq : Nat) (s : State) (hs : s.footprint.Ok) : Good (execNakReplay e g seq s) := by
  simp [hs, execNakReplay]

@[simp] theorem execLaneFail_good (e lane : Nat) (s : State) (hs : s.footprint.Ok) : Good (execLaneFail e lane s) := by
  simp [hs, execLaneFail]

@[simp] theorem execRepairDone_good (e : Nat) (s : State) (hs : s.footprint.Ok) : Good (execRepairDone e s) := by simp [hs, execRepairDone]

@[simp] theorem execNarrowingDone_good (e : Nat) (s : State) (hs : s.footprint.Ok) : Good (execNarrowingDone e s) := by
  simp [hs, execNarrowingDone]

@[simp] theorem State.endTraining_ok (s : State) (j : Nat) (a b : LaneTest) (hs : s.footprint.Ok) : (s.endTraining j a b).footprint.Ok := by
  simp [hs, State.endTraining]

@[simp] theorem execPortTrained_good (port : Nat) (a b : LaneTest) (s : State) (hs : s.footprint.Ok) : Good (execPortTrained port a b s) := by
  simp [hs, execPortTrained]

@[simp] theorem execRootClockLost_good (crystal : Bool) (s : State) (hs : s.footprint.Ok) : Good (execRootClockLost crystal s) := by
  simp [hs, execRootClockLost]

@[simp] theorem execRootClockReturn_good (s : State) (hs : s.footprint.Ok) : Good (execRootClockReturn s) := by
  simp [hs, execRootClockReturn]

@[simp] theorem execForwardedClockLoss_good (d : Nat) (s : State) (hs : s.footprint.Ok) : Good (execForwardedClockLoss d s) := by
  simp [hs, execForwardedClockLoss]

@[simp] theorem execForwardedClockReturn_good (d : Nat) (s : State) (hs : s.footprint.Ok) : Good (execForwardedClockReturn d s) := by
  simp [hs, execForwardedClockReturn]

@[simp] theorem State.resetDies_footprint (s : State) (v : Nat) : (s.resetDies v).footprint = s.footprint := by simp [State.resetDies]

@[simp] theorem execDieReset_good (s : State) (hs : s.footprint.Ok) : Good (execDieReset s) := by
  fun_cases execDieReset s <;> simp +zetaDelta [hs]

@[simp] theorem State.layPlans_ok (s : State) (k : Nat) (hs : s.footprint.Ok) : (s.layPlans k).footprint.Ok := by
  unfold State.layPlans
  refine foldl_ok (fun s e => ⟨fun h => ?_⟩) _ _ (State.plansLaid_ok _ hs)
  split
  · exact h
  · exact foldl_ok (fun s t => ⟨State.loadPrograms_ok s _ t⟩) _ _ h

@[simp] theorem State.layStores_ok (s : State) (h : Nat) (hs : s.footprint.Ok) : (s.layStores h).footprint.Ok := by
  unfold State.layStores
  refine foldl_ok (fun s w => ⟨fun hw => ?_⟩) _ _ hs
  extract_lets s1
  have h1 : s1.footprint.Ok := foldl_ok (fun s r => ⟨fun h => by split <;> simp [h]⟩) _ _ hw
  split
  · exact h1
  · exact foldl_ok (fun s e => ⟨fun h => by split <;> simp [h]⟩) _ _ h1

@[simp] theorem State.coldTiles_footprint (s : State) (k : Nat) : (s.coldTiles k).footprint = s.footprint := by simp [State.coldTiles]

@[simp] theorem execDieReady_good (d : Nat) (tilesFailed : BitVec 32) (s : State) (hs : s.footprint.Ok) : Good (execDieReady d tilesFailed s) := by
  have hfence (s : State) (h : s.footprint.Ok) : ((List.range 8).foldl (fun s i =>
      if tilesFailed.getLsbD (8 * d + i) then s.fenceTile (8 * d + i) else s) s).footprint.Ok :=
    foldl_ok (fun s i => ⟨fun h => by split <;> simp [h]⟩) _ _ h
  unfold execDieReady
  extract_lets s1 _ s2 bit
  have h1 : s1.footprint.Ok := by simpa [s1] using hs
  have h2 : s2.footprint.Ok := by
    unfold s2
    split
    · exact hfence _ (by simp [h1])
    · split
      · simp [h1]
      · split <;> simpa using h1
  split
  · simp [hs]
  · rw [good_next]
    split <;> exact h2

@[simp] theorem State.tapIr_footprint (s : State) (n code : Nat) (ok : Bool) : (s.tapIr n code ok).footprint = s.footprint := by
  simp [State.tapIr]

@[simp] theorem execIdcode_good (tap : Nat) (s : State) (hs : s.footprint.Ok) : Good (execIdcode tap s) := by simp [hs, execIdcode]

@[simp] theorem execSamplePreload_good (tap : Nat) (s : State) (hs : s.footprint.Ok) : Good (execSamplePreload tap s) := by
  simp [hs, execSamplePreload]

@[simp] theorem execExtest_good (tap : Nat) (s : State) (hs : s.footprint.Ok) : Good (execExtest tap s) := by simp [hs, execExtest]
@[simp] theorem execClamp_good (tap : Nat) (s : State) (hs : s.footprint.Ok) : Good (execClamp tap s) := by simp [hs, execClamp]
@[simp] theorem execHighz_good (tap : Nat) (s : State) (hs : s.footprint.Ok) : Good (execHighz tap s) := by simp [hs, execHighz]
@[simp] theorem execIjtag_good (tap : Nat) (s : State) (hs : s.footprint.Ok) : Good (execIjtag tap s) := by simp [hs, execIjtag]

@[simp] theorem execBypass_good (tap code : Nat) (s : State) (hs : s.footprint.Ok) : Good (execBypass tap code s) := by
  simp [hs, execBypass]

@[simp] theorem execTapReset_good (s : State) (hs : s.footprint.Ok) : Good (execTapReset s) := by simp [hs, execTapReset]

@[simp] theorem execInstrumentWrite_good (inst : Nat) (v : DWord) (s : State) (hs : s.footprint.Ok) : Good (execInstrumentWrite inst v s) := by
  simp [hs, execInstrumentWrite]

/-! ## Clock -/

@[simp] theorem idle_ok (s : State) (hs : s.footprint.Ok) : (idle s).footprint.Ok := by simp [hs, idle]

/-! ## Faults -/

@[simp] theorem State.pulse_footprint (s : State) : s.pulse.footprint = s.footprint := by simp [State.pulse]

@[simp] theorem State.applyCap_footprint (s : State) (w view : Nat) : (s.applyCap w view).footprint = s.footprint := by
  simp [State.applyCap]

@[simp] theorem State.endPause_footprint (s : State) : s.endPause.footprint = s.footprint := by
  fun_cases State.endPause s <;> simp

@[simp] theorem State.loseIslands_footprint (s : State) : s.loseIslands.footprint = s.footprint := (rfl)

@[simp] theorem State.leaveActive_footprint (s : State) (src : Nat) (st : IslState) : (s.leaveActive src st).footprint = s.footprint := by
  simp [State.leaveActive]

@[simp] theorem State.abandonReturn_footprint (s : State) : s.abandonReturn.footprint = s.footprint := by simp [State.abandonReturn]

@[simp] theorem State.islandReset_footprint (s : State) (b : Bool) (src : Nat) : (s.islandReset b src).footprint = s.footprint := by
  simp [State.islandReset]

@[simp] theorem State.chipReset_footprint (s : State) (src : Nat) (injected : Bool) : (s.chipReset src injected).footprint = s.footprint := by
  simp [State.chipReset]

@[simp] theorem State.reactDie_footprint (s : State) (d : Nat) : (s.reactDie d).footprint = s.footprint := by simp [State.reactDie]

@[simp] theorem State.blockReset_ok (s : State) (n : Nat) (hs : s.footprint.Ok) : (s.blockReset n).footprint.Ok := by
  simp [hs, State.blockReset]

@[simp] theorem State.react_ok (s : State) (c n owner : Nat) (injected : Bool) (hs : s.footprint.Ok) : (s.react c n owner injected).footprint.Ok := by
  simp [hs, State.react]

@[simp] theorem State.fenceByHistory_ok (s : State) (n : Nat) (record : Bool) (hs : s.footprint.Ok) : (s.fenceByHistory n record).footprint.Ok := by
  simp [hs, State.fenceByHistory]

/-- A queue is written with at most 64 records. -/
@[simp] theorem State.setFaultQueue_ok (s : State) (o : Nat) (l : List LedgerRec) (hl : l.length ≤ 64) (hs : s.footprint.Ok) :
    (s.setFaultQueue o l).footprint.Ok := by
  have h : ({ s with faults := { s.faults with queues := sset [] s.faults.queues o l } } : State).footprint.Ok := {
    bytes := hs.bytes
    poison := hs.poison
    tiles := hs.tiles
    queues e he := by
      rcases mem_sset he with rfl | he
      · exact hl
      · exact hs.queues e he }
  simpa [State.setFaultQueue] using h

@[simp] theorem State.record_ok (s : State) (f : FaultReq) (hs : s.footprint.Ok) : (s.record f).footprint.Ok := by
  unfold State.record
  extract_lets n o _ s1 q detail s2 e r w s3 _ s4 t
  have h1 : s1.footprint.Ok := hs
  have hq : q.length ≤ 64 := State.faultQueue_le h1 o
  have h2 : s2.footprint.Ok := State.setFaultQueue_ok _ _ _ (by simpa using hq) h1
  have h3 : s3.footprint.Ok := by simp [s3, w, h1]
  have h4 : s4.footprint.Ok := by
    unfold s4
    split
    next hl => exact State.setFaultQueue_ok _ _ _ (by simpa using hl) h3
    · exact h3
  split
  · exact hs
  · unfold t
    split <;> simp [h2, h4]

@[simp] theorem State.detect_ok (s : State) (f : FaultReq) (hs : s.footprint.Ok) : (s.detect f).footprint.Ok := by
  fun_cases State.detect s f <;> simp [hs]

@[simp] theorem execFaultRecord_good (detected : Option FaultReq) (s : State) (hs : s.footprint.Ok) : Good (execFaultRecord detected s) := by
  fun_cases execFaultRecord detected s <;> simp [hs]

@[simp] theorem State.ackHead_ok (s : State) (o seq : Nat) (hs : s.footprint.Ok) : (s.ackHead o seq).footprint.Ok := by
  have hq := State.faultQueue_le hs o
  fun_cases State.ackHead s o seq with
  | case1 r rest h =>
    rw [h] at hq
    exact State.setFaultQueue_ok _ _ _ (by simp at hq; omega) hs
  | case2 | case3 => exact hs

@[simp] theorem State.ackFault_ok (s : State) (m : Master) (seq : Nat) (hs : s.footprint.Ok) : (s.ackFault m seq).footprint.Ok := by
  have h := State.ackHead_ok s 8 seq hs
  have hq := (List.length_filter_le (fun r : LedgerRec => !(r.seq == seq && r.cls == 0)) ((s.ackHead 8 seq).faultQueue 8)).trans
    (State.faultQueue_le h 8)
  have hf := State.setFaultQueue_ok _ 8 _ hq h
  fun_cases State.ackFault s m seq with
  | case1 => exact State.ackHead_ok _ _ _ hs
  | case2 | case4 => exact h
  | case6 => exact hf
  | case3 | case5 | case7 | case8 => exact hs

@[simp] theorem execFltAck_good (m : Master) (v : Word) (s : State) (hs : s.footprint.Ok) : Good (execFltAck m v s) := by
  unfold execFltAck
  split
  · simp [hs]
  · rw [good_next]
    exact State.gate_ok _ _ _ _ _ (fun s => ⟨fun h => State.ackFault_ok _ _ _ (by simpa using h)⟩) hs

@[simp] theorem execClassCAutoAck_good (seq : Nat) (s : State) (hs : s.footprint.Ok) : Good (execClassCAutoAck seq s) := by
  have hq := (List.length_filter_le (fun r : LedgerRec => !(r.seq == seq && r.cls == 0)) (s.faultQueue 8)).trans (State.faultQueue_le hs 8)
  have h := State.setFaultQueue_ok s 8 _ hq hs
  unfold execClassCAutoAck
  split
  · simpa using hs
  · split
    · simpa using h
    · simpa using hs

@[simp] theorem State.clearStat_footprint (s : State) (w v : Nat) : (s.clearStat w v).footprint = s.footprint := by simp [State.clearStat]

@[simp] theorem pfWrite_footprint (s : State) (m : Master) (addr : Nat) (k : State → State) (hk : ∀ t, SameFootprint t (k t)) :
    (pfWrite s m addr k).footprint = s.footprint := by
  fun_cases pfWrite s m addr k <;> simp_all

@[simp] theorem execFltSrcStatClear_good (m : Master) (w : Nat) (v : Word) (s : State) (hs : s.footprint.Ok) :
    Good (execFltSrcStatClear m w v s) := by
  simp [hs, execFltSrcStatClear]

@[simp] theorem execFltNPulseEnd_good (s : State) (hs : s.footprint.Ok) : Good (execFltNPulseEnd s) := by simp [hs, execFltNPulseEnd]
@[simp] theorem execHbeatToggle_good (s : State) (hs : s.footprint.Ok) : Good (execHbeatToggle s) := by simp [hs, execHbeatToggle]
@[simp] theorem execHealthStrobe_good (s : State) (hs : s.footprint.Ok) : Good (execHealthStrobe s) := by simp [hs, execHealthStrobe]
@[simp] theorem execStrobeTimeout_good (s : State) (hs : s.footprint.Ok) : Good (execStrobeTimeout s) := by simp [hs, execStrobeTimeout]

@[simp] theorem execMcGroupResumed_good (g : Nat) (s : State) (hs : s.footprint.Ok) : Good (execMcGroupResumed g s) := by
  simp [hs, execMcGroupResumed]

@[simp] theorem State.unfence_footprint (s : State) (kind i : Nat) : (s.unfence kind i).footprint = s.footprint := by
  fun_cases State.unfence s kind i <;> rfl

@[simp] theorem State.fenceCmd_ok (s : State) (m : Master) (v : Nat) (hs : s.footprint.Ok) : (s.fenceCmd m v).footprint.Ok := by
  fun_cases State.fenceCmd s m v <;> simp +zetaDelta [hs]

@[simp] theorem State.injectCmd_footprint (s : State) (m : Master) (v : Nat) : (s.injectCmd m v).footprint = s.footprint := by
  simp [State.injectCmd]

/-! ## Power -/

@[simp] theorem State.startRamp_footprint (s : State) : s.startRamp.footprint = s.footprint := (rfl)
@[simp] theorem State.setCap_footprint (s : State) (w view : Nat) : (s.setCap w view).footprint = s.footprint := by simp [State.setCap]
@[simp] theorem execCapTimeout_good (s : State) (hs : s.footprint.Ok) : Good (execCapTimeout s) := by simp [hs, execCapTimeout]
@[simp] theorem State.allOff_ok (s : State) (hs : s.footprint.Ok) : s.allOff.footprint.Ok := State.stopDies_ok s hs
@[simp] theorem State.holdUp_ok (s : State) (hs : s.footprint.Ok) : s.holdUp.footprint.Ok := by simp [hs, State.holdUp]

@[simp] theorem execPowerSample_good (r : PowerReads) (s : State) (hs : s.footprint.Ok) : Good (execPowerSample r s) := by
  simp [hs, execPowerSample]

@[simp] theorem execRailOutOfRange_good (d : Nat) (above : Bool) (s : State) (hs : s.footprint.Ok) : Good (execRailOutOfRange d above s) := by
  simp [hs, execRailOutOfRange]

@[simp] theorem execDvfsStep_good (d : DvfsMove) (s : State) (hs : s.footprint.Ok) : Good (execDvfsStep d s) := by
  fun_cases execDvfsStep d s <;> simp +zetaDelta [hs]

@[simp] theorem execPwrBrakeN_good (asserted : Bool) (s : State) (hs : s.footprint.Ok) : Good (execPwrBrakeN asserted s) := by
  simp [hs, execPwrBrakeN]

@[simp] theorem execBrakeRampStep_good (s : State) (hs : s.footprint.Ok) : Good (execBrakeRampStep s) := by simp [hs, execBrakeRampStep]

@[simp] theorem State.coolDown_ok (s : State) (cause : Nat) (hs : s.footprint.Ok) : (s.coolDown cause).footprint.Ok := by
  have h (i : State) (hi : i.footprint.Ok) : ((List.range 8).foldl (fun s p => s.killRequests p 0x09 (fun _ => true)) i).footprint.Ok :=
    foldl_ok (fun s p => ⟨State.killRequests_ok s p _ _⟩) _ _ hi
  fun_cases State.coolDown s cause with
  | case1 => exact hs
  | case2 _ s1 s2 s3 =>
    have h1 : s1.footprint = s.footprint := by simp [s1]
    simp [s3, s2, h, h1, hs]

@[simp] theorem State.coolReturn_footprint (s : State) (cause : Nat) : (s.coolReturn cause).footprint = s.footprint := by
  simp [State.coolReturn]

@[simp] theorem execCoolOk_good (s : State) (hs : s.footprint.Ok) : Good (execCoolOk s) := by simp [hs, execCoolOk]
@[simp] theorem execCoolOkTimeout_good (s : State) (hs : s.footprint.Ok) : Good (execCoolOkTimeout s) := by simp [hs, execCoolOkTimeout]
@[simp] theorem execCoolOkReturn_good (s : State) (hs : s.footprint.Ok) : Good (execCoolOkReturn s) := by simp [hs, execCoolOkReturn]
@[simp] theorem execPwrFailN_good (s : State) (hs : s.footprint.Ok) : Good (execPwrFailN s) := by simp [hs, execPwrFailN]

/-! ## Islands -/

@[simp] theorem execControlCycleEnd_good (s : State) (hs : s.footprint.Ok) : Good (execControlCycleEnd s) := by
  simp [hs, execControlCycleEnd]

@[simp] theorem State.takeControl_footprint (s : State) (b : Bool) : (s.takeControl b).footprint = s.footprint := by
  simp [State.takeControl]

@[simp] theorem execStateCopy_good (crcOk : Bool) (s : State) (hs : s.footprint.Ok) : Good (execStateCopy crcOk s) := by
  simp [hs, execStateCopy]

@[simp] theorem execCopyAckMissed_good (s : State) (hs : s.footprint.Ok) : Good (execCopyAckMissed s) := by simp [hs, execCopyAckMissed]

@[simp] theorem execSwitchOver_good (src : Nat) (s : State) (hs : s.footprint.Ok) : Good (execSwitchOver src s) := by
  simp [hs, execSwitchOver]

@[simp] theorem State.replayLog_ok (s : State) (hs : s.footprint.Ok) : s.replayLog.footprint.Ok := by
  refine foldl_ok (fun s a => ⟨fun h => ?_⟩) _ _ hs
  split
  · split <;> simp [h]
  · exact h

@[simp] theorem State.noteSwitch_footprint (s : State) (from_ to_ : Bool) (src : Nat) (planned : Bool) :
    (s.noteSwitch from_ to_ src planned).footprint = s.footprint := (rfl)

@[simp] theorem execSwitchOverDone_good (s : State) (hs : s.footprint.Ok) : Good (execSwitchOverDone s) := by
  fun_cases execSwitchOverDone s <;> simp +zetaDelta [hs]

@[simp] theorem execIslandReset_good (b : Bool) (s : State) (hs : s.footprint.Ok) : Good (execIslandReset b s) := by
  simp [hs, execIslandReset]

@[simp] theorem execHandBack_good (s : State) (hs : s.footprint.Ok) : Good (execHandBack s) := by simp [hs, execHandBack]

@[simp] theorem execNoIslandTimeout_good (s : State) (hs : s.footprint.Ok) : Good (execNoIslandTimeout s) := by
  simp [hs, execNoIslandTimeout]

@[simp] theorem State.asyCtrl_footprint (s : State) (v : Nat) : (s.asyCtrl v).footprint = s.footprint := by simp [State.asyCtrl]

/-! ## Thermal -/

@[simp] theorem State.samplePair_footprint (s : State) (t : Nat) (a b : Int) : (s.samplePair t a b).footprint = s.footprint := by
  simp [State.samplePair]

@[simp] theorem State.sampleStore_footprint (s : State) (t : Nat) (v : Option Int) : (s.sampleStore t v).footprint = s.footprint := by
  simp [State.sampleStore]

@[simp] theorem State.judgeTile_footprint (s : State) (t : Nat) : (s.judgeTile t).footprint = s.footprint := by simp [State.judgeTile]
@[simp] theorem State.shutDie_ok (s : State) (d : Nat) (hs : s.footprint.Ok) : (s.shutDie d).footprint.Ok := by simp [hs, State.shutDie]
@[simp] theorem State.judgeFlow_footprint (s : State) : s.judgeFlow.footprint = s.footprint := by simp [State.judgeFlow]

@[simp] theorem execTachWindow_good (hz : Nat) (s : State) (hs : s.footprint.Ok) : Good (execTachWindow hz s) := by
  simp [hs, execTachWindow]

@[simp] theorem execCoolingStepChange_good (step : Nat) (s : State) (hs : s.footprint.Ok) : Good (execCoolingStepChange step s) := by
  simp [hs, execCoolingStepChange]

@[simp] theorem execFlowLostTimeout_good (s : State) (hs : s.footprint.Ok) : Good (execFlowLostTimeout s) := by
  simp [hs, execFlowLostTimeout]

@[simp] theorem State.sampleBoard_footprint (s : State) (r : TempReads) : (s.sampleBoard r).footprint = s.footprint := by
  unfold State.sampleBoard
  extract_lets therm power t s₁
  have h₁ : s₁.footprint = s.footprint := by
    simp only [s₁]
    split
    · rfl
    · simp [t]
  split
  · exact h₁
  · split <;> simp [h₁]

@[simp] theorem execTemperatureSample_good (r : TempReads) (s : State) (hs : s.footprint.Ok) : Good (execTemperatureSample r s) := by
  unfold execTemperatureSample
  extract_lets s1 s2 s3 therm s4 s5 hot mint s6 s7
  split
  · simp [hs]
  · rw [good_next]
    have h1 : s1.footprint.Ok := by simpa [s1] using hs
    have h2 : s2.footprint.Ok := by
      refine foldl_ok (fun s t => ⟨fun h => ?_⟩) _ _ h1
      dsimp only
      split
      · simp [h]
      · split <;> simp [h]
    have h3 : s3.footprint.Ok := by
      refine foldl_ok (fun s t => ⟨fun h => ?_⟩) _ _ h2
      dsimp only
      split
      · simp [h]
      · split
        · split <;> simp [h]
        · exact h
    have h4 : s4.footprint.Ok := by simpa [s4] using h3
    have h5 : s5.footprint.Ok := by
      refine foldl_ok (fun s t => ⟨fun h => ?_⟩) _ _ h4
      rwa [State.judgeTile_footprint]
    have h7 : s7.footprint.Ok := by
      have h6 : s6.footprint.Ok := foldl_ok (fun s d => ⟨State.shutDie_ok s d⟩) _ _ h5
      simpa [s7] using h6
    split <;> simp [h7]

@[simp] theorem execThrottleStep_good (t : Nat) (s : State) (hs : s.footprint.Ok) : Good (execThrottleStep t s) := by
  simp [hs, execThrottleStep]

@[simp] theorem execShutdownRecovery_good (d : Nat) (s : State) (hs : s.footprint.Ok) : Good (execShutdownRecovery d s) := by
  simp [hs, execShutdownRecovery]

@[simp] theorem State.judgeLife_footprint (s : State) : s.judgeLife.footprint = s.footprint := by simp [State.judgeLife]

@[simp] theorem execCycleSample_good (s : State) (hs : s.footprint.Ok) : Good (execCycleSample s) := by
  rw [execCycleSample, good_next, State.judgeLife_footprint]
  refine foldl_ok (fun s d => ⟨fun h => ?_⟩) _ _ hs
  split
  · exact h
  · extract_lets
    split <;> exact h

@[simp] theorem execThermalCycle_good (s : State) (hs : s.footprint.Ok) : Good (execThermalCycle s) := by simp [hs, execThermalCycle]

/-! ## Sideband -/

@[simp] theorem State.noteSideband_footprint (s : State) (n : Nat) (long : Bool) : (s.noteSideband n long).footprint = s.footprint := (rfl)

@[simp] theorem State.enterTest_ok (s : State) (hs : s.footprint.Ok) : s.enterTest.footprint.Ok := by
  fun_cases State.enterTest s with
  | case1 => exact hs
  | case2 _ s1 => exact foldl_ok (fun s p => ⟨State.closeSessions_ok s p⟩) _ _ (by simpa [s1] using hs)

@[simp] theorem State.leaveTest_footprint (s : State) : s.leaveTest.footprint = s.footprint := by simp [State.leaveTest]

@[simp] theorem execTestEn_good (asserted : Bool) (s : State) (hs : s.footprint.Ok) : Good (execTestEn asserted s) := by
  simp [hs, execTestEn]

@[simp] theorem execSidebandLongHold_good (n : Nat) (s : State) (hs : s.footprint.Ok) : Good (execSidebandLongHold n s) := by
  simp [hs, execSidebandLongHold]

@[simp] theorem State.act_ok (s : State) (n : Nat) (hs : s.footprint.Ok) : (s.act n).footprint.Ok := by
  unfold State.act
  extract_lets run
  have hrun {o : Host.Outcome State Fault Refusal} (h : Good o) : (run o).footprint.Ok := by
    obtain ⟨t, rfl, ht⟩ := h
    exact ht
  split
  · split
    · exact hs
    · exact hrun (execPerstN_good true s.host.refclkPresent s hs)
  · exact hrun (execPwrFailN_good s hs)
  · exact hrun (execPwrBrakeN_good true s hs)
  · exact hrun (execCoolOk_good s hs)
  · simpa using hs
  · exact hs

@[simp] theorem execChatter_good (n : Nat) (s : State) (hs : s.footprint.Ok) : Good (execChatter n s) := by simp [hs, execChatter]

@[simp] theorem execChatterEnd_good (n : Nat) (s : State) (hs : s.footprint.Ok) : Good (execChatterEnd n s) := by
  unfold execChatterEnd
  split
  · simp [hs]
  · split <;> simp [hs]

@[simp] theorem State.clearSbEvt_footprint (s : State) (v : Nat) : (s.clearSbEvt v).footprint = s.footprint := (rfl)

@[simp] theorem execSmbusClockLowTimeout_good (s : State) (hs : s.footprint.Ok) : Good (execSmbusClockLowTimeout s) := by
  simp [hs, execSmbusClockLowTimeout]

/-! ## Mould -/

@[simp] theorem State.startAmend_footprint (s : State) (h : Nat) (b : List Byte) (poison : Bool) (v : Verdict) :
    (s.startAmend h b poison v).footprint = s.footprint := by
  fun_cases State.startAmend s h b poison v <;> simp

@[simp] theorem imageCommand_footprint (q op : Nat) (kind : OpKind) (s : State) (k : Nat → List Byte → Bool → State → State)
    (hk : ∀ h b p s, SameFootprint s (k h b p s)) : (imageCommand q op kind s k).footprint = s.footprint := by
  refine onForwarded_footprint _ _ _ _ (fun f s => ⟨?_⟩)
  dsimp only
  split
  · simp
  · rw [(hk _ _ _ _).footprint]
    rfl

@[simp] theorem execAmend_good (q : Nat) (v : Verdict) (s : State) (hs : s.footprint.Ok) : Good (execAmend q v s) := by simp [hs, execAmend]

@[simp] theorem State.assignWays_ok (s : State) (parts : List (Nat × PartRec)) (hs : s.footprint.Ok) : (s.assignWays parts).footprint.Ok := by
  refine foldl_ok (fun s h => ⟨fun hs => ?_⟩) _ _ hs
  extract_lets x ways y owner moved s1
  have h1 : s1.footprint.Ok := foldl_ok (fun s l => ⟨State.dropCopy_ok s h l⟩) _ _ hs
  simpa using h1

@[simp] theorem State.assignShares_footprint (s : State) : s.assignShares.footprint = s.footprint := (rfl)

@[simp] theorem execAmendFence_good (s : State) (hs : s.footprint.Ok) : Good (execAmendFence s) := by
  fun_cases execAmendFence s <;> simp +zetaDelta [hs]

@[simp] theorem State.clearReleased_ok (s : State) (o n : PartRec) (hs : s.footprint.Ok) : (s.clearReleased o n).footprint.Ok := by
  unfold State.clearReleased
  extract_lets s1 s2
  have h1 : s1.footprint.Ok := by
    refine foldl_ok (fun s t => ⟨fun h => ?_⟩) _ _ hs
    split
    · exact State.zeroRange_ok _ _ _ (State.setTile_ok (by simpa using h) _ _ (by decide))
    · exact h
  have h2 : s2.footprint.Ok := foldl_ok (fun s u => ⟨State.zeroRange_ok s _ _⟩) _ _ h1
  exact h2

@[simp] theorem execAmendScrubDone_good (s : State) (hs : s.footprint.Ok) : Good (execAmendScrubDone s) := by
  fun_cases execAmendScrubDone s with
  | case1 | case2 => simpa using hs
  | case3 a _ now _ _ s1 =>
    have h1 : s1.footprint.Ok := foldl_ok (fun s e => ⟨State.clearReleased_ok s _ _⟩) _ _ hs
    simpa using h1

@[simp] theorem State.noteMould_footprint (s : State) (serial kind : Nat) : (s.noteMould serial kind).footprint = s.footprint := (rfl)
@[simp] theorem State.grantTo_footprint (s : State) (x : Image) (p : Nat) : (s.grantTo x p).footprint = s.footprint := (rfl)
@[simp] theorem State.endAmend_footprint (s : State) (a : Amend) : (s.endAmend a).footprint = s.footprint := by simp [State.endAmend]

@[simp] theorem execAmendGrant_good (s : State) (hs : s.footprint.Ok) : Good (execAmendGrant s) := by
  fun_cases execAmendGrant s <;> simp +zetaDelta [hs]

@[simp] theorem State.startInstall_footprint (s : State) (h : Nat) (b : List Byte) (poison : Bool) (v : Verdict) :
    (s.startInstall h b poison v).footprint = s.footprint := by
  fun_cases State.startInstall s h b poison v <;> simp

@[simp] theorem execMouldInstall_good (q : Nat) (v : Verdict) (s : State) (hs : s.footprint.Ok) : Good (execMouldInstall q v s) := by
  simp [hs, execMouldInstall]

@[simp] theorem execMouldInstallWriteDone_good (readBackOk : Bool) (s : State) (hs : s.footprint.Ok) :
    Good (execMouldInstallWriteDone readBackOk s) := by
  fun_cases execMouldInstallWriteDone readBackOk s <;> simp +zetaDelta [hs]

/-! ## Security -/

@[simp] theorem State.hallTaken_footprint (s : State) : s.hallTaken.footprint = s.footprint := (rfl)

@[simp] theorem execHallmark_good (q : Nat) (s : State) (hs : s.footprint.Ok) : Good (execHallmark q s) := by
  unfold execHallmark
  split
  · simpa using hs
  · rw [good_next]
    refine onForwarded_ok _ _ _ _ (fun f s => ⟨fun h => ?_⟩) hs
    dsimp only
    split
    · split <;> simp [h]
    · simp [h]

@[simp] theorem State.kexFailed_footprint (s : State) (f : Forwarded) (p : Nat) : (s.kexFailed f p).footprint = s.footprint := (rfl)

@[simp] theorem execSessionOpen_good (q : Nat) (ok : Bool) (s : State) (hs : s.footprint.Ok) : Good (execSessionOpen q ok s) := by
  rw [execSessionOpen, good_next]
  refine onForwarded_ok _ _ _ _ (fun f s => ⟨fun h => ?_⟩) hs
  dsimp only
  split
  · split <;> simp [h]
  · split <;> simp [h]

@[simp] theorem slotCommand_footprint (q op b : Nat) (s : State) (k : Forwarded → Nat → Nat → State → State)
    (hk : ∀ a b c t, SameFootprint t (k a b c t)) :
    (slotCommand q op b s k).footprint = s.footprint := by
  simp [slotCommand, (hk _ _ _ _).footprint]

@[simp] theorem slotCommand_ok (q op b : Nat) (s : State) (k : Forwarded → Nat → Nat → State → State)
    (hk : ∀ a b c t, Keeps t (k a b c t)) (hs : s.footprint.Ok) :
    (slotCommand q op b s k).footprint.Ok := by
  refine onForwarded_ok _ _ _ _ (fun f s => ⟨fun h => ?_⟩) hs
  dsimp only
  split
  · simpa using h
  · exact (hk _ _ _ _).ok h

@[simp] theorem execSessionConfirm_good (q : Nat) (_confirmOk : Bool) (s : State) (hs : s.footprint.Ok) :
    Good (execSessionConfirm q _confirmOk s) := by
  simp [hs, execSessionConfirm]

@[simp] theorem execSessionClose_good (q : Nat) (s : State) (hs : s.footprint.Ok) : Good (execSessionClose q s) := by
  rw [execSessionClose, good_next]
  exact slotCommand_ok _ _ _ _ _ (fun f p k s => ⟨fun h => by simp [h]⟩) hs

@[simp] theorem execOpeningTimeout_good (p slot : Nat) (s : State) (hs : s.footprint.Ok) : Good (execOpeningTimeout p slot s) := by
  simp [hs, execOpeningTimeout]

@[simp] theorem State.closeMgmt_footprint (s : State) : s.closeMgmt.footprint = s.footprint := (rfl)

@[simp] theorem State.ohmCtrl_ok (s : State) (v : Nat) (hs : s.footprint.Ok) : (s.ohmCtrl v).footprint.Ok := by
  have h : ((List.range 8).foldl (fun s p => if bit v p then s.closeSessions p else s) s).footprint.Ok :=
    foldl_ok (fun s p => ⟨fun h => by split <;> simp [h]⟩) _ _ hs
  unfold State.ohmCtrl
  dsimp only
  split <;> simp [h]

/-! ## Registers -/

@[simp] theorem after_ok (s : State) (o : Host.Outcome State Fault Refusal) (h : Good o) : (after s o).footprint.Ok := by
  obtain ⟨t, rfl, ht⟩ := h
  exact ht

@[simp] theorem State.clearPevt_footprint (s : State) (p v : Nat) : (s.clearPevt p v).footprint = s.footprint := by simp [State.clearPevt]

@[simp] theorem State.msixWrite_ok (s : State) (f e k v : Nat) (hs : s.footprint.Ok) : (s.msixWrite f e k v).footprint.Ok := by
  simp [hs, State.msixWrite]

@[simp] theorem State.dropHeld_footprint (s : State) (i : Nat) : (s.dropHeld i).footprint = s.footprint := by
  fun_cases State.dropHeld s i <;> simp

@[simp] theorem State.writeIdx_footprint (s : State) (i v : Nat) : (s.writeIdx i v).footprint = s.footprint := by simp [State.writeIdx]
@[simp] theorem State.writeReq_footprint (s : State) (i v : Nat) : (s.writeReq i v).footprint = s.footprint := by simp [State.writeReq]
@[simp] theorem State.writeDone_footprint (s : State) (i v : Nat) : (s.writeDone i v).footprint = s.footprint := by simp [State.writeDone]

@[simp] theorem State.clearLogged_footprint (s : State) (i v : Nat) : (s.clearLogged i v).footprint = s.footprint := by
  simp [State.clearLogged]

@[simp] theorem State.regEffect_ok (s : State) (m : Master) (r : Reg) (v : Nat) (hs : s.footprint.Ok) : (s.regEffect m r v).footprint.Ok := by
  have hl := State.tile_abandonList_le hs
  fun_cases State.regEffect s m r v <;> simp +zetaDelta [hs, hl]

@[simp] theorem State.disarm_footprint (s : State) (m : Master) (block : Nat) : (s.disarm m block).footprint = s.footprint := (rfl)

@[simp] theorem State.failPair_footprint (s : State) (m : Master) (block : Nat) : (s.failPair m block).footprint = s.footprint := by
  fun_cases State.failPair s m block <;> simp

@[simp] theorem State.applyWrite_ok (s : State) (m : Master) (a : Nat) (r : Reg) (v : Nat) (hs : s.footprint.Ok) :
    (s.applyWrite m a r v).footprint.Ok := by
  fun_cases State.applyWrite s m a r v <;> simp [hs]

@[simp] theorem State.pairSecond_ok (s : State) (x : RegAccess) (p : Armed) (hs : s.footprint.Ok) : (s.pairSecond x p).footprint.Ok := by
  fun_cases State.pairSecond s x p <;> simp +zetaDelta [hs]

@[simp] theorem State.guarded_ok (s : State) (x : RegAccess) (a g : Nat) (r : Reg) (hs : s.footprint.Ok) : (s.guarded x a g r).footprint.Ok := by
  simp [hs, State.guarded]

@[simp] theorem State.logAddr_footprint (s : State) (l : RegLoc) : (s.logAddr l).2.footprint = s.footprint := by
  unfold State.logAddr
  split <;> simp

@[simp] theorem State.plainWrite_ok (s : State) (x : RegAccess) (a : Nat) (hs : s.footprint.Ok) : (s.plainWrite x a).footprint.Ok := by
  fun_cases State.plainWrite s x a <;> simp [hs]

@[simp] theorem State.writeReg_ok (s : State) (x : RegAccess) (hs : s.footprint.Ok) : (s.writeReg x).footprint.Ok := by
  unfold State.writeReg
  extract_lets m l a
  have hl : l.2.footprint.Ok := by simpa [l] using hs
  split
  · exact hs
  · split
    · simpa using hs
    · refine State.gate_ok _ _ _ _ _ (fun s => ⟨fun h => ?_⟩) hl
      split
      · simpa using h
      · split
        · split <;> simp [h]
        · simp [h]

@[simp] theorem State.readReg_ok (s : State) (m : Master) (loc : RegLoc) (wide : Bool) (hs : s.footprint.Ok) :
    (s.readReg m loc wide).footprint.Ok := by
  unfold State.readReg
  extract_lets l a
  have hl : l.2.footprint.Ok := by simpa [l] using hs
  split
  · exact hs
  · refine State.gate_ok _ _ _ _ _ (fun s => ⟨fun h => ?_⟩) hl
    split
    · simpa using h
    · split
      · simpa using h
      · simp only [State.reply_footprint]
        split <;> simp [h]

@[simp] theorem onReg_good (x : RegAccess) (f : Reg → Bool) (s : State) (hs : s.footprint.Ok) : Good (onReg x f s) := by simp [hs, onReg]

@[simp] theorem execUnimplementedAccess_good (x : RegAccess) (write : Bool) (s : State) (hs : s.footprint.Ok) :
    Good (execUnimplementedAccess x write s) := by
  simp [hs, execUnimplementedAccess]

@[simp] theorem execRetrain_good (x : RegAccess) (s : State) (hs : s.footprint.Ok) : Good (execRetrain x s) := by simp [hs, execRetrain]
@[simp] theorem execPortEn_good (x : RegAccess) (s : State) (hs : s.footprint.Ok) : Good (execPortEn x s) := by simp [hs, execPortEn]

@[simp] theorem execMntDieReset_good (x : RegAccess) (s : State) (hs : s.footprint.Ok) : Good (execMntDieReset x s) := by
  simp [hs, execMntDieReset]

@[simp] theorem execFence_good (x : RegAccess) (s : State) (hs : s.footprint.Ok) : Good (execFence x s) := by simp [hs, execFence]
@[simp] theorem execUnfence_good (x : RegAccess) (s : State) (hs : s.footprint.Ok) : Good (execUnfence x s) := by simp [hs, execUnfence]

@[simp] theorem execFltInject_good (x : RegAccess) (s : State) (hs : s.footprint.Ok) : Good (execFltInject x s) := by
  simp [hs, execFltInject]

@[simp] theorem execStandbyReset_good (x : RegAccess) (s : State) (hs : s.footprint.Ok) : Good (execStandbyReset x s) := by
  simp [hs, execStandbyReset]

@[simp] theorem execReturnNow_good (x : RegAccess) (s : State) (hs : s.footprint.Ok) : Good (execReturnNow x s) := by
  simp [hs, execReturnNow]

@[simp] theorem execSwap_good (x : RegAccess) (s : State) (hs : s.footprint.Ok) : Good (execSwap x s) := by simp [hs, execSwap]
@[simp] theorem execPwrCap_good (x : RegAccess) (s : State) (hs : s.footprint.Ok) : Good (execPwrCap x s) := by simp [hs, execPwrCap]

@[simp] theorem execCloseSess_good (x : RegAccess) (s : State) (hs : s.footprint.Ok) : Good (execCloseSess x s) := by
  simp [hs, execCloseSess]

@[simp] theorem execCloseMgmt_good (x : RegAccess) (s : State) (hs : s.footprint.Ok) : Good (execCloseMgmt x s) := by
  simp [hs, execCloseMgmt]

@[simp] theorem execPairArm_good (x : RegAccess) (s : State) (hs : s.footprint.Ok) : Good (execPairArm x s) := by simp [hs, execPairArm]

@[simp] theorem execPairComplete_good (x : RegAccess) (s : State) (hs : s.footprint.Ok) : Good (execPairComplete x s) := by
  fun_cases execPairComplete x s <;> simp [hs]

@[simp] theorem execPairTimeout_good (m : Master) (block : Nat) (s : State) (hs : s.footprint.Ok) : Good (execPairTimeout m block s) := by
  simp [hs, execPairTimeout]

@[simp] theorem execDualWrite_good (x : RegAccess) (s : State) (hs : s.footprint.Ok) : Good (execDualWrite x s) := by
  fun_cases execDualWrite x s <;> simp [hs]

@[simp] theorem execPostedWriteApplied_good (block : Nat) (s : State) (hs : s.footprint.Ok) : Good (execPostedWriteApplied block s) := by
  fun_cases execPostedWriteApplied block s <;> simp +zetaDelta [hs]

@[simp] theorem execFltLdgSel_good (m : Master) (v : Word) (s : State) (hs : s.footprint.Ok) : Good (execFltLdgSel m v s) := by
  unfold execFltLdgSel
  extract_lets a
  split
  · simpa using hs
  · rw [good_next]
    exact State.gate_ok _ _ _ _ _ (fun s => ⟨fun h => by split <;> simp [h]⟩) hs

@[simp] theorem accWrite_good (s : State) (m : Master) (ofs : Nat) (k : Nat → State → State) (hk : ∀ a t, Keeps t (k a t)) (hs : s.footprint.Ok) :
    Good (accWrite s m ofs k) := by
  fun_cases accWrite s m ofs k <;> simp_all

@[simp] theorem execMntIdx_good (m : Master) (v : Word) (s : State) (hs : s.footprint.Ok) : Good (execMntIdx m v s) := by
  simp [hs, execMntIdx]

@[simp] theorem State.datRead_ok (s : State) (m : Master) (o : Nat) (hs : s.footprint.Ok) : (s.datRead m o).footprint.Ok := by
  fun_cases State.datRead s m o <;> simp +zetaDelta [hs]

@[simp] theorem State.datWrite_ok (s : State) (m : Master) (o : Nat) (v : Word) (hs : s.footprint.Ok) : (s.datWrite m o v).footprint.Ok := by
  unfold State.datWrite
  extract_lets i held s₁ inst s₂ own one second
  clear_value held
  have h₁ : s₁.footprint = s.footprint := by
    simp only [s₁]
    split
    · split <;> simp
    · rfl
  have h₂ : s₂.footprint.Ok := by simpa [s₂, h₁] using hs
  have hone (s : State) (h : s.footprint.Ok) : (one s).footprint.Ok := State.writeReg_ok _ _ h
  split
  · split
    · simp [h₂]
    · split
      · exact hone _ h₂
      · split
        · simp [h₂]
        · split
          · split
            · exact State.writeReg_ok _ _ h₂
            · exact hone _ h₂
          · exact hone _ h₂
  · exact hone _ h₂

@[simp] theorem State.datAccess_ok (s : State) (m : Master) (write : Bool) (v : Word) (hs : s.footprint.Ok) :
    (s.datAccess m write v).footprint.Ok := by
  simp [hs, State.datAccess]

@[simp] theorem execMntDat_good (m : Master) (write : Bool) (v : Word) (s : State) (hs : s.footprint.Ok) : Good (execMntDat m write v s) := by
  unfold execMntDat
  split
  · simpa using hs
  · rw [good_next]
    exact State.gate_ok _ _ _ _ _ (fun s => ⟨State.datAccess_ok s m write v⟩) hs

@[simp] theorem State.busWrite_ok (s : State) (x : RegAccess) (hs : s.footprint.Ok) : (s.busWrite x).footprint.Ok := by
  unfold State.busWrite
  split
  · exact State.gate_ok _ _ _ _ _ (fun s => ⟨State.datAccess_ok s _ _ _⟩) hs
  · exact State.writeReg_ok _ _ hs

@[simp] theorem State.busRead_ok (s : State) (m : Master) (loc : RegLoc) (wide : Bool) (hs : s.footprint.Ok) :
    (s.busRead m loc wide).footprint.Ok := by
  unfold State.busRead
  split
  · exact State.gate_ok _ _ _ _ _ (fun s => ⟨State.datAccess_ok s _ _ _⟩) hs
  · exact State.readReg_ok _ _ _ _ hs

@[simp] theorem execRegisterWrite_good (x : RegAccess) (s : State) (hs : s.footprint.Ok) : Good (execRegisterWrite x s) := by
  simp [hs, execRegisterWrite]

@[simp] theorem execMntMbxReq_good (m : Master) (v : Word) (s : State) (hs : s.footprint.Ok) : Good (execMntMbxReq m v s) := by
  simp [hs, execMntMbxReq]

@[simp] theorem execMntMbxDone_good (m : Master) (v : Word) (s : State) (hs : s.footprint.Ok) : Good (execMntMbxDone m v s) := by
  simp [hs, execMntMbxDone]

@[simp] theorem sampleSel_good (s : State) (m : Master) (sel : Nat) (f : Nat → Nat × List Nat) (hs : s.footprint.Ok) :
    Good (sampleSel s m sel f) := by
  simp [hs, sampleSel]

@[simp] theorem execTileCountersSel_good (m : Master) (s : State) (hs : s.footprint.Ok) : Good (execTileCountersSel m s) := by
  simp [hs, execTileCountersSel]

@[simp] theorem execVaultBwSel_good (m : Master) (s : State) (hs : s.footprint.Ok) : Good (execVaultBwSel m s) := by
  simp [hs, execVaultBwSel]

@[simp] theorem execPendingSel_good (m : Master) (s : State) (hs : s.footprint.Ok) : Good (execPendingSel m s) := by
  simp [hs, execPendingSel]

@[simp] theorem execExpandMacSel_good (m : Master) (s : State) (hs : s.footprint.Ok) : Good (execExpandMacSel m s) := by
  simp [hs, execExpandMacSel]

@[simp] theorem execIdentitySel_good (m : Master) (s : State) (hs : s.footprint.Ok) : Good (execIdentitySel m s) := by
  simp [hs, execIdentitySel]

@[simp] theorem execSessionSlotsSel_good (m : Master) (s : State) (hs : s.footprint.Ok) : Good (execSessionSlotsSel m s) := by
  simp [hs, execSessionSlotsSel]

@[simp] theorem execMgmtSessionsSel_good (m : Master) (s : State) (hs : s.footprint.Ok) : Good (execMgmtSessionsSel m s) := by
  simp [hs, execMgmtSessionsSel]

@[simp] theorem execMailboxValid_good (m : Master) (s : State) (hs : s.footprint.Ok) : Good (execMailboxValid m s) := by
  fun_cases execMailboxValid m s <;> simp +zetaDelta [hs]

@[simp] theorem State.setVoted_footprint (s : State) (r : Reg) (v : Nat) : (s.setVoted r v).footprint = s.footprint := by
  fun_cases State.setVoted s r v <;> rfl

@[simp] theorem State.setShown_footprint (s : State) (a : Nat) (r : Reg) (v : Nat) : (s.setShown a r v).footprint = s.footprint := (rfl)

@[simp] theorem execVoteCompare_good (field : VotedField) (a b c : DWord) (s : State) (hs : s.footprint.Ok) :
    Good (execVoteCompare field a b c s) := by
  fun_cases execVoteCompare field a b c s
  case case7 => rwa [good_next]
  all_goals simp +zetaDelta [hs]

@[simp] theorem execVoteReload_good (field : VotedField) (s : State) (hs : s.footprint.Ok) : Good (execVoteReload field s) := by
  simp [hs, execVoteReload]

/-! ## Management -/

@[simp] theorem State.send_footprint (s : State) (h : MsgHdr) (typ : Nat) (body : List Byte) : (s.send h typ body).footprint = s.footprint :=
  (rfl)

@[simp] theorem State.sendErr_footprint (s : State) (h : MsgHdr) (typ code : Nat) (own : List Byte) :
    (s.sendErr h typ code own).footprint = s.footprint :=
  (rfl)

@[simp] theorem State.sendRefused_footprint (s : State) (h : MsgHdr) (typ code : Nat) : (s.sendRefused h typ code).footprint = s.footprint :=
  (rfl)

@[simp] theorem State.authFailed_footprint (s : State) : s.authFailed.footprint = s.footprint := (rfl)
@[simp] theorem State.replayed_footprint (s : State) : s.replayed.footprint = s.footprint := (rfl)
@[simp] theorem State.closePeer_footprint (s : State) (n : Nat) : (s.closePeer n).footprint = s.footprint := (rfl)

@[simp] theorem openMsg_footprint (typ : Nat) (h : MsgHdr) (fmt : Bool) (s : State) (k : State → State) (hk : ∀ t, SameFootprint t (k t)) :
    (openMsg typ h fmt s k).footprint = s.footprint := by
  fun_cases openMsg typ h fmt s k <;> simp_all

@[simp] theorem openMsg_ok (typ : Nat) (h : MsgHdr) (fmt : Bool) (s : State) (k : State → State) (hk : ∀ t, Keeps t (k t)) (hs : s.footprint.Ok) :
    (openMsg typ h fmt s k).footprint.Ok := by
  fun_cases openMsg typ h fmt s k <;> simp_all

@[simp] theorem sessionMsg_footprint (typ : Nat) (admin : Bool) (h : MsgHdr) (fmt : Bool) (s : State) (k : Nat → State → State)
    (hk : ∀ a t, SameFootprint t (k a t)) :
    (sessionMsg typ admin h fmt s k).footprint = s.footprint := by
  unfold sessionMsg
  split
  · rfl
  · simp [(hk _ _).footprint]

@[simp] theorem sessionMsg_ok (typ : Nat) (admin : Bool) (h : MsgHdr) (fmt : Bool) (s : State) (k : Nat → State → State)
    (hk : ∀ a t, Keeps t (k a t)) (hs : s.footprint.Ok) :
    (sessionMsg typ admin h fmt s k).footprint.Ok := by
  fun_cases sessionMsg typ admin h fmt s k
  case case6 => exact (hk _ _).ok (by simpa +zetaDelta using hs)
  all_goals simp +zetaDelta [hs]

@[simp] theorem msgRow_good (s : State) (k : State → State) (hk : ∀ t, Keeps t (k t)) (hs : s.footprint.Ok) : Good (msgRow s k) := by
  fun_cases msgRow s k <;> simp_all

@[simp] theorem execDiscover_good (h : MsgHdr) (body : List Byte) (s : State) (hs : s.footprint.Ok) : Good (execDiscover h body s) := by
  simp [hs, execDiscover]

@[simp] theorem execIdentityGet_good (h : MsgHdr) (body : List Byte) (s : State) (hs : s.footprint.Ok) : Good (execIdentityGet h body s) := by
  simp [hs, execIdentityGet]

@[simp] theorem execKexInit_good (h : MsgHdr) (body : List Byte) (ok : Bool) (s : State) (hs : s.footprint.Ok) : Good (execKexInit h body ok s) := by
  refine msgRow_good _ _ (fun s => ⟨fun h1 => openMsg_ok _ _ _ _ _ (fun s => ⟨fun h2 => ?_⟩) h1⟩) hs
  split
  · simpa using h2
  · extract_lets
    split
    · simpa using h2
    · split
      · simpa using h2
      · split
        · simpa using h2
        · split <;> simpa +zetaDelta using h2

@[simp] theorem execKexConfirm_good (h : MsgHdr) (body : List Byte) (ok : Bool) (s : State) (hs : s.footprint.Ok) :
    Good (execKexConfirm h body ok s) := by
  refine msgRow_good _ _ (fun s => ⟨fun h1 => openMsg_ok _ _ _ _ _ (fun s => ⟨fun h2 => ?_⟩) h1⟩) hs
  split
  · simpa using h2
  · split <;> simpa using h2

@[simp] theorem execRegRead_good (h : MsgHdr) (body : List Byte) (s : State) (hs : s.footprint.Ok) : Good (execRegRead h body s) := by
  refine msgRow_good _ _ (fun s => ⟨fun h1 => sessionMsg_ok _ _ _ _ _ _ (fun n s => ⟨fun h2 => ?_⟩) h1⟩) hs
  extract_lets wide s₁
  have h₁ : s₁.footprint.Ok := State.busRead_ok _ _ _ _ h2
  split <;> simpa using h₁

@[simp] theorem execRegWrite_good (h : MsgHdr) (body : List Byte) (s : State) (hs : s.footprint.Ok) : Good (execRegWrite h body s) := by
  refine msgRow_good _ _ (fun s => ⟨fun h1 => sessionMsg_ok _ _ _ _ _ _ (fun n s => ⟨fun h2 => ?_⟩) h1⟩) hs
  extract_lets wide a v write bad s1 s2
  have h1 : s1.footprint.Ok := State.busWrite_ok _ _ h2
  have h3 : s2.footprint.Ok := by
    unfold s2
    split
    · exact State.busWrite_ok _ _ h1
    · split
      · exact State.busWrite_ok _ _ h1
      · exact h1
  split <;> simpa using h3

@[simp] theorem execHallmarkGet_good (h : MsgHdr) (body : List Byte) (s : State) (hs : s.footprint.Ok) : Good (execHallmarkGet h body s) := by
  unfold execHallmarkGet
  extract_lets nonce scope piece asks
  split
  · simpa using hs
  · refine msgRow_good _ _ (fun s => ⟨fun h1 => sessionMsg_ok _ _ _ _ _ _ (fun n s => ⟨fun h2 => ?_⟩) h1⟩) hs
    extract_lets fresh
    split <;> simp [h2, fresh]

@[simp] theorem execPowerCap_good (h : MsgHdr) (body : List Byte) (s : State) (hs : s.footprint.Ok) : Good (execPowerCap h body s) := by
  simp [hs, execPowerCap]

@[simp] theorem execTestToken_good (h : MsgHdr) (body : List Byte) (sigOk : Bool) (s : State) (hs : s.footprint.Ok) :
    Good (execTestToken h body sigOk s) := by
  refine msgRow_good _ _ (fun s => ⟨fun h1 => sessionMsg_ok _ _ _ _ _ _ (fun n s => ⟨fun h2 => ?_⟩) h1⟩) hs
  dsimp only
  split <;> simp [h2]

@[simp] theorem execBlockPut_good (h : MsgHdr) (body : List Byte) (s : State) (hs : s.footprint.Ok) : Good (execBlockPut h body s) := by
  simp [hs, execBlockPut]

@[simp] theorem stagedImage_good (typ : Nat) (kind : OpKind) (h : MsgHdr) (body : List Byte) (s : State) (running : State → Bool)
    (start : Nat → List Byte → State → State)
    (hstart : ∀ a b t, Keeps t (start a b t)) (hs : s.footprint.Ok) :
    Good (stagedImage typ kind h body s running start) := by
  refine msgRow_good _ _ (fun s => ⟨fun h1 => sessionMsg_ok _ _ _ _ _ _ (fun n s => ⟨fun h2 => ?_⟩) h1⟩) hs
  extract_lets o r s1 
  have h3 : s1.footprint.Ok := (hstart _ _ _).ok (by simpa [r] using h2)
  split
  · simpa using h2
  · split
    · simpa using h2
    · split <;> simpa using h3

@[simp] theorem execAmendMsg_good (h : MsgHdr) (body : List Byte) (v : Verdict) (s : State) (hs : s.footprint.Ok) :
    Good (execAmendMsg h body v s) := by
  simp [hs, execAmendMsg]

@[simp] theorem execMouldInstallMsg_good (h : MsgHdr) (body : List Byte) (v : Verdict) (s : State) (hs : s.footprint.Ok) :
    Good (execMouldInstallMsg h body v s) := by
  simp [hs, execMouldInstallMsg]

@[simp] theorem execOp_good (h : MsgHdr) (body : List Byte) (s : State) (hs : s.footprint.Ok) : Good (execOp h body s) := by
  refine msgRow_good _ _ (fun s => ⟨fun h1 => sessionMsg_ok _ _ _ _ _ _ (fun n s => ⟨fun h2 => ?_⟩) h1⟩) hs
  split
  · simpa using h2
  · split
    · split <;> simp [h2]
    · simp [h2, apply_ite Prod.snd]

@[simp] theorem execFaultAck_good (h : MsgHdr) (body : List Byte) (s : State) (hs : s.footprint.Ok) : Good (execFaultAck h body s) := by
  refine msgRow_good _ _ (fun s => ⟨fun h1 => sessionMsg_ok _ _ _ _ _ _ (fun n s => ⟨fun h2 => ?_⟩) h1⟩) hs
  simpa using State.ackFault_ok _ _ _ h2

@[simp] theorem State.settings_footprint (s : State) (f : Slot → Slot) : (s.settings f).footprint = s.footprint := by
  fun_cases State.settings s f <;> rfl

@[simp] theorem execSetAddr_good (h : MsgHdr) (body : List Byte) (s : State) (hs : s.footprint.Ok) : Good (execSetAddr h body s) := by
  simp [hs, execSetAddr]

@[simp] theorem execRevoke_good (h : MsgHdr) (body : List Byte) (s : State) (hs : s.footprint.Ok) : Good (execRevoke h body s) := by
  simp [hs, execRevoke]

@[simp] theorem execClose_good (h : MsgHdr) (body : List Byte) (s : State) (hs : s.footprint.Ok) : Good (execClose h body s) := by
  simp [hs, execClose]

@[simp] theorem execMgmtSessionIdle_good (n : Nat) (s : State) (hs : s.footprint.Ok) : Good (execMgmtSessionIdle n s) := by
  simp [hs, execMgmtSessionIdle]

/-! ## Update -/

@[simp] theorem State.noteFirmware_footprint (s : State) (event : Nat) (b : Bool) (version code : Nat) :
    (s.noteFirmware event b version code).footprint = s.footprint := (rfl)

@[simp] theorem State.fwErr_footprint (s : State) (code : Nat) : (s.fwErr code).footprint = s.footprint := (rfl)
@[simp] theorem State.dropDelta_footprint (s : State) : s.dropDelta.footprint = s.footprint := (rfl)

@[simp] theorem State.forwardDelta_footprint (s : State) : s.forwardDelta.footprint = s.footprint := by
  fun_cases State.forwardDelta s <;> rfl

@[simp] theorem fwMsg_good (typ : Nat) (h : MsgHdr) (fmt open0 : Bool) (s : State) (k : Option Nat → State → State)
    (hk : ∀ a t, Keeps t (k a t)) (hs : s.footprint.Ok) :
    Good (fwMsg typ h fmt open0 s k) := by
  fun_cases fwMsg typ h fmt open0 s k <;> simp_all

@[simp] theorem State.fwRefused_footprint (s : State) (h : MsgHdr) (typ code : Nat) : (s.fwRefused h typ code).footprint = s.footprint :=
  (rfl)

@[simp] theorem execFwBegin_good (h : MsgHdr) (body : List Byte) (s : State) (hs : s.footprint.Ok) : Good (execFwBegin h body s) := by
  simp [hs, execFwBegin]

@[simp] theorem execFwPut_good (h : MsgHdr) (body : List Byte) (s : State) (hs : s.footprint.Ok) : Good (execFwPut h body s) := by
  simp [hs, execFwPut]

@[simp] theorem execFwReceptionTimeout_good (s : State) (hs : s.footprint.Ok) : Good (execFwReceptionTimeout s) := by
  simp [hs, execFwReceptionTimeout]

@[simp] theorem execFwEnd_good (h : MsgHdr) (body : List Byte) (digestOk sigOk : Bool) (s : State) (hs : s.footprint.Ok) :
    Good (execFwEnd h body digestOk sigOk s) := by
  refine fwMsg_good _ _ _ _ _ _ (fun n s => ⟨fun h2 => ?_⟩) hs
  extract_lets o b
  split
  · simpa using h2
  · split
    · simpa using h2
    · split <;> simp +zetaDelta [h2]

@[simp] theorem State.applyFailed_footprint (s : State) (d : Delta) (code : Nat) : (s.applyFailed d code).footprint = s.footprint := by
  simp [State.applyFailed]

@[simp] theorem execFwApplyDone_good (targetOk flashOk : Bool) (components : List (BitVec 256)) (s : State) (hs : s.footprint.Ok) :
    Good (execFwApplyDone targetOk flashOk components s) := by
  fun_cases execFwApplyDone targetOk flashOk components s <;> simp [hs]

@[simp] theorem execRecoveryImageWritten_good (s : State) (hs : s.footprint.Ok) : Good (execRecoveryImageWritten s) := by
  simp [hs, execRecoveryImageWritten]

@[simp] theorem execFwStatus_good (h : MsgHdr) (body : List Byte) (s : State) (hs : s.footprint.Ok) : Good (execFwStatus h body s) := by
  refine msgRow_good _ _ (fun s => ⟨fun h1 => sessionMsg_ok _ _ _ _ _ _ (fun n s => ⟨fun h2 => ?_⟩) h1⟩) hs
  rw [State.send_footprint]
  split <;> simp [h2]

@[simp] theorem State.startHold_footprint (s : State) (b revert : Bool) : (s.startHold b revert).footprint = s.footprint := (rfl)

@[simp] theorem execActivate_good (h : MsgHdr) (body : List Byte) (imageOk : Bool) (s : State) (hs : s.footprint.Ok) :
    Good (execActivate h body imageOk s) := by
  simp [hs, execActivate]

@[simp] theorem State.holdWares_footprint (s : State) (on : Bool) : (s.holdWares on).footprint = s.footprint := (rfl)

@[simp] theorem State.endHold_footprint (s : State) : s.endHold.footprint = s.footprint := by
  fun_cases State.endHold s <;> simp +zetaDelta

@[simp] theorem State.holdFailed_footprint (s : State) : s.holdFailed.footprint = s.footprint := by simp [State.holdFailed]

@[simp] theorem execActivateHoldAttempt_good (s : State) (hs : s.footprint.Ok) : Good (execActivateHoldAttempt s) := by
  simp [hs, execActivateHoldAttempt]

@[simp] theorem State.switchIslands_footprint (s : State) : s.switchIslands.footprint = s.footprint := (rfl)
@[simp] theorem State.measure_footprint (s : State) (x : Slot) : (s.measure x).footprint = s.footprint := (rfl)

@[simp] theorem execActivateSwitch_good (s : State) (hs : s.footprint.Ok) : Good (execActivateSwitch s) := by
  have hc (i : State) (hi : i.footprint.Ok) : ((List.range 8).foldl (fun s p => s.closeSessions p) i).footprint.Ok :=
    foldl_ok (fun s p => ⟨State.closeSessions_ok s p⟩) _ _ hi
  fun_cases execActivateSwitch s <;> simp +zetaDelta [hs, hc]

@[simp] theorem execConfirm_good (h : MsgHdr) (body : List Byte) (s : State) (hs : s.footprint.Ok) : Good (execConfirm h body s) := by
  simp [hs, execConfirm]

@[simp] theorem execRevert_good (h : MsgHdr) (body : List Byte) (s : State) (hs : s.footprint.Ok) : Good (execRevert h body s) := by
  simp [hs, execRevert]

@[simp] theorem execConfirmWindowExpiry_good (s : State) (hs : s.footprint.Ok) : Good (execConfirmWindowExpiry s) := by
  simp [hs, execConfirmWindowExpiry]

/-! ## Firing -/

@[simp] theorem State.bare_ok (s : State) (cause : FiringCause) (hs : s.footprint.Ok) : (s.bare cause).footprint.Ok  where
  bytes := swf_filter 0 _ _ hs.bytes
  poison := rfl
  queues := by simp [State.bare, State.footprint]
  tiles := by simp [State.bare, State.footprint]

@[simp] theorem State.bootIslands_footprint (s : State) (a b : Bool) : (s.bootIslands a b).footprint = s.footprint := by
  fun_cases State.bootIslands s a b <;> rfl

@[simp] theorem State.bootOhmis_footprint (s : State) (r : FiringReads) : (s.bootOhmis r).footprint = s.footprint := by
  unfold State.bootOhmis
  extract_lets _ s1 s2 s3 s4 s5
  have h : s5.footprint = s.footprint := by
    have h2 : s2.footprint = s.footprint := by simp [s2, s1]
    have h3 : s3.footprint = s.footprint := by
      unfold s3
      split <;> simp [h2]
    have h4 : s4.footprint = s.footprint := by
      unfold s4
      split <;> simp [h3]
    unfold s5
    split <;> simp [h4]
  rw [← h]
  split <;> rfl

@[simp] theorem State.fireSlot_footprint (s : State) (b failed : Bool) : (s.fireSlot b failed).footprint = s.footprint := by
  simp [State.fireSlot]

@[simp] theorem State.fireMould_footprint (s : State) (b : Bool) (m : FiredMould) (fallback : Bool) :
    (s.fireMould b m fallback).footprint = s.footprint :=
  (rfl)

@[simp] theorem State.fireFences_footprint (s : State) (bad : BitVec 48) : (s.fireFences bad).footprint = s.footprint := by
  simp [State.fireFences]

@[simp] theorem State.fireLinks_ok (s : State) (r : FiringReads) (hs : s.footprint.Ok) : (s.fireLinks r).footprint.Ok := by
  unfold State.fireLinks
  extract_lets test _ s1 s2
  have h2 : s2.footprint.Ok := by simpa [s2, s1] using hs
  refine foldl_ok (fun s j => ⟨fun h => ?_⟩) _ _ h2
  exact State.endTraining_ok _ _ _ _ (by simpa using h)

@[simp] theorem State.fireMemory_ok (s : State) (hs : s.footprint.Ok) : s.fireMemory.footprint.Ok := by simp [hs, State.fireMemory]
@[simp] theorem State.firePower_footprint (s : State) : s.firePower.footprint = s.footprint := by simp [State.firePower]

@[simp] theorem execFiring_good (r : FiringReads) (s : State) (hs : s.footprint.Ok) : Good (execFiring r s) := by
  have hfence (i : State) (hi : i.footprint.Ok) : ((List.range 32).foldl (fun s t =>
      if r.badTiles.getLsbD t && !s.ledger.fenceTiles.getLsbD t then s.fenceTile t else s) i).footprint.Ok :=
    foldl_ok (fun s t => ⟨fun h => by split <;> simp [h]⟩) _ _ hi
  have hkilns (i : State) (hi : i.footprint.Ok) : ((List.range 4).foldl (fun s k =>
      if (List.range 8).all (fun i => s.faults.fenceTiles.getLsbD (8 * k + i)) then s.fenceDie k else s) i).footprint.Ok :=
    foldl_ok (fun s k => ⟨fun h => by split <;> simp [h]⟩) _ _ hi
  unfold execFiring
  split
  · simpa using hs
  next cause _ =>
    extract_lets test tail count s1 _ s2 _ s3 s4 s5 _
    have h1 : s1.footprint.Ok := State.bare_ok _ _ (by simpa using hs)
    have h5 : s5.footprint.Ok := by
      have h3 : s3.footprint = s1.footprint := by
        unfold s3
        split <;> simp [s2]
      have h4 : s4.footprint = s1.footprint := by
        unfold s4
        split <;> simp [h3]
      simpa [s5, h4] using h1
    split
    · rwa [good_next]
    · extract_lets s6 p s7 _ s8 _
      have h8 : s8.footprint.Ok := by
        have h7 : s7.footprint.Ok := by
          unfold s7
          split <;> simp [s6, h5]
        exact h7
      split
      · rwa [good_next]
      · extract_lets s9 s10 s11 s12 s13 _ _ s14 s15 s16 _
        have h11 : s11.footprint.Ok := by
          have h9 : s9.footprint.Ok := by simpa [s9] using h8
          have h10 : s10.footprint.Ok := by
            unfold s10
            split <;> simp [h9]
          have hm := State.fireMemory_ok _ (State.fireLinks_ok (s10.fireFences r.badChannels) r (by simpa using h10))
          exact State.assignWays_ok _ _ (by simpa using hm)
        have h15 : s15.footprint.Ok := hkilns _ (hfence _ h11)
        have h16 : s16.footprint.Ok := State.record_ok _ _ h15
        split
        · exact (good_next _).2 h16
        · exact (good_next _).2 h15

/-! ## TileCmds -/

@[simp] theorem execSlabLoad_good (t : Nat) (s : State) (hs : s.footprint.Ok) : Good (execSlabLoad t s) := by
  refine whenRunning_good _ _ _ _ (fun c => ⟨fun h => finishCommand_ok _ _ _ _ ?_⟩) hs
  have h1 := slabLoadRun_ok c.desc t s h
  dsimp only
  split
  · exact State.setTile_ok h1 t _ (State.tile_abandonList_le h1 t)
  · exact h1

@[simp] theorem execSlabMatmul_good (t : Nat) (s : State) (hs : s.footprint.Ok) : Good (execSlabMatmul t s) :=
  perform_good _ _ _ _ (fun _ _ _ => ⟨fun h => matRun_ok _ _ _ _ (State.slabUsed_ok _ _ _ h)⟩) hs

@[simp] theorem execSlabConv_good (t : Nat) (s : State) (hs : s.footprint.Ok) : Good (execSlabConv t s) :=
  perform_good _ _ _ _ (fun _ _ _ => ⟨fun h => convRun_ok _ _ _ _ (State.slabUsed_ok _ _ _ h)⟩) hs

@[simp] theorem execAttend_good (t : Nat) (s : State) (hs : s.footprint.Ok) : Good (execAttend t s) :=
  perform_good _ _ _ _ (fun _ _ _ => ⟨fun h => attRun_ok _ _ _ _ _ (State.slabUsed_ok _ _ _ h)⟩) hs

@[simp] theorem execVecRun_good (t : Nat) (s : State) (hs : s.footprint.Ok) : Good (execVecRun t s) := by simp [hs, execVecRun]

@[simp] theorem execMove_good (t : Nat) (s : State) (hs : s.footprint.Ok) : Good (execMove t s) := by
  refine whenRunning_good _ _ _ _ (fun c => ⟨fun h => ?_⟩) hs
  split
  · exact startAsync_ok _ _ _ h
  · exact finishCommand_ok _ _ _ _ (moveRun_ok _ _ _ _ h)

@[simp] theorem execGatherPages_good (t : Nat) (s : State) (hs : s.footprint.Ok) : Good (execGatherPages t s) := by
  refine whenRunning_good _ _ _ _ (fun c => ⟨fun h => ?_⟩) hs
  split
  · exact startAsync_ok _ _ _ h
  · exact finishCommand_ok _ _ _ _ (gatherRun_ok _ _ _ _ _ h)

@[simp] theorem execReduce_good (t : Nat) (s : State) (hs : s.footprint.Ok) : Good (execReduce t s) := by
  unfold execReduce
  split
  · simpa using hs
  · next c _ =>
    extract_lets x p ck n s₁ peers reds _ mine all have_ reds₁ out reds₂
    have h₁ : s₁.footprint.Ok := State.fetch_ok _ _ _ _ hs
    split
    · exact (good_next _).2 (finishCommand_ok _ _ _ _ (failed_ok _ _ _ h₁))
    · split
      · exact (good_next _).2 (finishCommand_ok _ _ _ _ (failed_ok _ _ _ h₁))
      · exact (good_next _).2 (State.setTile_ok h₁ t _ (State.tile_abandonList_le h₁ t))

@[simp] theorem execReduceResult_good (t : Nat) (s : State) (hs : s.footprint.Ok) : Good (execReduceResult t s) := by
  fun_cases execReduceResult t s <;> simp +zetaDelta [hs, apply_ite Done.s]

@[simp] theorem execTallyWait_good (t : Nat) (s : State) (hs : s.footprint.Ok) : Good (execTallyWait t s) := by
  fun_cases execTallyWait t s <;> simp [hs]

@[simp] theorem execWaitRegistration_good (t : Nat) (s : State) (hs : s.footprint.Ok) : Good (execWaitRegistration t s) := by
  fun_cases execWaitRegistration t s <;> simp +zetaDelta [hs]

@[simp] theorem execTallyWake_good (t : Nat) (s : State) (hs : s.footprint.Ok) : Good (execTallyWake t s) := by
  fun_cases execTallyWake t s <;> simp [hs]

@[simp] theorem execWaitTimeout_good (t : Nat) (s : State) (hs : s.footprint.Ok) : Good (execWaitTimeout t s) := by
  fun_cases execWaitTimeout t s <;> simp [hs]

@[simp] theorem execTallySignal_good (t : Nat) (s : State) (hs : s.footprint.Ok) : Good (execTallySignal t s) := by
  fun_cases execTallySignal t s <;> simp [hs]

@[simp] theorem execYield_good (t : Nat) (s : State) (hs : s.footprint.Ok) : Good (execYield t s) := by
  unfold execYield
  split
  · next c _ =>
    refine (good_next _).2 (finishCommand_ok _ _ _ _ ?_)
    dsimp only
    split
    · exact State.setTile_ok hs t _ (State.tile_abandonList_le hs t)
    · exact hs
  · simpa using hs

@[simp] theorem execCedeExpiry_good (t q : Nat) (s : State) (hs : s.footprint.Ok) : Good (execCedeExpiry t q s) := by
  simp [hs, execCedeExpiry]

@[simp] theorem execSample_good (t : Nat) (s : State) (hs : s.footprint.Ok) : Good (execSample t s) := by simp [hs, execSample]
@[simp] theorem execCropResize_good (t : Nat) (s : State) (hs : s.footprint.Ok) : Good (execCropResize t s) := by simp [hs, execCropResize]
@[simp] theorem execBoxDecode_good (t : Nat) (s : State) (hs : s.footprint.Ok) : Good (execBoxDecode t s) := by simp [hs, execBoxDecode]
@[simp] theorem execNms_good (t : Nat) (s : State) (hs : s.footprint.Ok) : Good (execNms t s) := by simp [hs, execNms]

@[simp] theorem execEndStream_good (t : Nat) (s : State) (hs : s.footprint.Ok) : Good (execEndStream t s) := by
  fun_cases execEndStream t s <;> simp [hs]

@[simp] theorem tileWrite_good (s : State) (m : Master) (t ofs : Nat) (k : State → State) (hk : ∀ t, Keeps t (k t)) (hs : s.footprint.Ok) :
    Good (tileWrite s m t ofs k) := by
  fun_cases tileWrite s m t ofs k <;> simp_all

@[simp] theorem execKlnTqTail_good (m : Master) (t q : Nat) (v : Word) (s : State) (hs : s.footprint.Ok) : Good (execKlnTqTail m t q v s) := by
  unfold execKlnTqTail
  split
  · exact tileWrite_good _ _ _ _ _ (fun s => ⟨tailWrite_ok s t q v⟩) hs
  · simpa using hs

@[simp] theorem execQueueEn_good (m : Master) (t : Nat) (v : Word) (s : State) (hs : s.footprint.Ok) : Good (execQueueEn m t v s) :=
  tileWrite_good _ _ _ _ _ (fun s => ⟨ctrlWrite_ok s t v⟩) hs

@[simp] theorem execFlush_good (m : Master) (t : Nat) (v : Word) (s : State) (hs : s.footprint.Ok) : Good (execFlush m t v s) :=
  tileWrite_good _ _ _ _ _ (fun s => ⟨ctrlWrite_ok s t v⟩) hs

@[simp] theorem execResume_good (m : Master) (t : Nat) (v : Word) (s : State) (hs : s.footprint.Ok) : Good (execResume m t v s) :=
  tileWrite_good _ _ _ _ _ (fun s => ⟨ctrlWrite_ok s t v⟩) hs

@[simp] theorem execKlnAbandon_good (m : Master) (t : Nat) (tag : Word) (s : State) (hs : s.footprint.Ok) : Good (execKlnAbandon m t tag s) :=
  tileWrite_good _ _ _ _ _ (fun s => ⟨abandonWrite_ok s t tag⟩) hs

@[simp] theorem execAbandonActed_good (t tag : Nat) (s : State) (hs : s.footprint.Ok) : Good (execAbandonActed t tag s) := by
  simp [hs, execAbandonActed]

@[simp] theorem execYieldPoint_good (t : Nat) (s : State) (hs : s.footprint.Ok) : Good (execYieldPoint t s) := by simp [hs, execYieldPoint]
@[simp] theorem execSpillDone_good (t : Nat) (s : State) (hs : s.footprint.Ok) : Good (execSpillDone t s) := by simp [hs, execSpillDone]

@[simp] theorem execRestoreDone_good (t : Nat) (s : State) (hs : s.footprint.Ok) : Good (execRestoreDone t s) := by
  simp [hs, execRestoreDone]

@[simp] theorem execCommandBoundary_good (t : Nat) (s : State) (hs : s.footprint.Ok) : Good (execCommandBoundary t s) := by
  simp [hs, execCommandBoundary]

@[simp] theorem execDmaHandover_good (t : Nat) (s : State) (hs : s.footprint.Ok) : Good (execDmaHandover t s) := by
  simp [hs, execDmaHandover]

@[simp] theorem execDmaTransferDone_good (t e : Nat) (s : State) (hs : s.footprint.Ok) : Good (execDmaTransferDone t e s) := by
  simp [hs, execDmaTransferDone]

@[simp] theorem execSignalAtHome_good (s : State) (hs : s.footprint.Ok) : Good (execSignalAtHome s) := by
  unfold execSignalAtHome
  split
  · next g t ht =>
    have h : t.footprint = s.footprint := State.popSignal_footprint s false (g, t) ht
    exact (good_next _).2 (afterSignal_ok _ _ _ (by simpa [h] using hs))
  · simpa using hs

@[simp] theorem execResetAtHome_good (s : State) (hs : s.footprint.Ok) : Good (execResetAtHome s) := by
  unfold execResetAtHome
  split
  · next g t ht =>
    have h : t.footprint = s.footprint := State.popSignal_footprint s true (g, t) ht
    exact (good_next _).2 (afterSignal_ok _ _ _ (by simpa [h] using hs))
  · simpa using hs

@[simp] theorem execTallyBroken_good (r : TallyRead) (s : State) (hs : s.footprint.Ok) : Good (execTallyBroken r s) := by
  simp [hs, execTallyBroken]

/-! ## Dispatch -/

@[simp] theorem exec_good (i : Instr) (s : State) (hs : s.footprint.Ok) : Good (exec i s) := by
  simp only [exec]
  split <;> simp [hs]

theorem Good.ok {o : Host.Outcome State Fault Refusal} {t : State} (h : Good o) (ht : o = .next t) : t.footprint.Ok := by
  subst ht
  exact (good_next t).1 h

theorem step_good (s : State) (hs : s.footprint.Ok) : Good (step s) := by
  cases hp : s.pending with
  | nil =>
    rw [step_of_pending_nil hp]
    exact (good_next _).2 (idle_ok s hs)
  | cons c rest =>
    rw [step_of_pending_cons hp]
    exact exec_good c { s with pending := rest } hs

/-- Settles O3: a step is `idle` or one arm of `exec`, and each of them keeps the footprint `Ok` (`step_good`). -/
theorem stepKeepsInvariant : Obligations.StepKeepsInvariant := by
  intro s t hs ht
  rw [State.inv_iff] at hs ⊢
  exact (step_good s hs).ok ht

/-- Settles O4: at reset every table of the footprint is empty. -/
theorem resetSatisfiesInvariant : Obligations.ResetSatisfiesInvariant :=
  (State.inv_iff _).2 ⟨rfl, rfl, by simp [State.footprint, State.reset], by simp [State.footprint, State.reset]⟩

end Sys2Proof.Machine
end

section
/-! PROOF.  O35.  On a tile where nothing runs and whose frames are empty, a write of the queue registers changes the tile's queues alone: `Tile.Requeues` says how
each queue comes out, and `Puts` that the rest of the state stands. -/
namespace Sys2Proof.Machine
open Sys2Proof

variable {s u w : State} {t : Nat} {x y z : Tile}

/-! ## A state with one tile put anew -/

/-- `u` is `s` with tile `t` standing as `x`. -/
structure Puts (s : State) (t : Nat) (x : Tile) (u : State) : Prop where
  here : u.tile t = x
  others : ∀ j, j ≠ t → u.tile j = s.tile j
  rest : u = { s with tiles := u.tiles }

theorem puts_self (s : State) (t : Nat) : Puts s t (s.tile t) s := ⟨rfl, fun _ _ => rfl, rfl⟩

theorem puts_setTile (s : State) (t : Nat) (x : Tile) : Puts s t x (s.setTile t x) where
  here := sget_sset_same _ _ _ _
  others _ hj := sget_sset_ne _ _ _ hj
  rest := rfl

theorem Puts.trans (h : Puts s t x u) (h' : Puts u t y w) : Puts s t y w where
  here := h'.here
  others j hj := (h'.others j hj).trans (h.others j hj)
  rest := by rw [h'.rest, h.rest]

/-! ## A tile with its queues put anew -/

/-- `y` is `x` but for its queues, of which queue `k` comes out as `f k` makes it. -/
structure Tile.Requeues (x y : Tile) (f : Nat → TileQueue → TileQueue) : Prop where
  rest : y = { x with queues := y.queues }
  queue : ∀ k, y.q k = f k (x.q k)

/-- `f` on queue `q` alone. -/
def onQueue (q : Nat) (f : TileQueue → TileQueue) (k : Nat) (tq : TileQueue) : TileQueue := if k = q then f tq else tq

/-- `f` on the queues below `n`. -/
def onQueues (n : Nat) (f : Nat → TileQueue → TileQueue) (k : Nat) (tq : TileQueue) : TileQueue := if k < n then f k tq else tq

theorem Tile.Requeues.quiet {f : Nat → TileQueue → TileQueue} (h : x.Requeues y f) : y.quiet = x.quiet := by
  rw [h.rest]
  rfl

theorem Tile.Requeues.trans {f g : Nat → TileQueue → TileQueue} (h : x.Requeues y f) (h' : y.Requeues z g) : x.Requeues z (fun k tq => g k (f k tq)) where
  rest := by rw [h'.rest, h.rest]
  queue k := by rw [h'.queue, h.queue]

theorem Tile.requeues_setQ (x : Tile) (q : Nat) (f : TileQueue → TileQueue) : x.Requeues (x.setQ q (f (x.q q))) (onQueue q f) where
  rest := rfl
  queue k := by
    rw [Tile.setQ_q, onQueue]
    split
    · next h => rw [h]
    · rfl

theorem Tile.requeues_self (x : Tile) (q : Nat) {f : TileQueue → TileQueue} (h : f (x.q q) = x.q q) : x.Requeues x (onQueue q f) where
  rest := rfl
  queue k := by
    rw [onQueue]
    split
    · next hk => rw [hk, h]
    · rfl

/-- One more queue: below `n`, then `n`. -/
theorem Tile.Requeues.next {n : Nat} {f : Nat → TileQueue → TileQueue} (h : x.Requeues y (onQueues n f)) (h' : y.Requeues z (onQueue n (f n))) :
    x.Requeues z (onQueues (n + 1) f) where
  rest := (h.trans h').rest
  queue k := by
    rw [(h.trans h').queue]
    unfold onQueue onQueues
    rcases Nat.lt_trichotomy k n with hk | rfl | hk
    · rw [if_neg (by omega), if_pos hk, if_pos (by omega)]
    · simp
    · rw [if_neg (by omega), if_neg (by omega), if_neg (by omega)]

theorem foldl_requeues {step : Tile → Nat → Tile} {f : Nat → TileQueue → TileQueue} (h : ∀ x q, Tile.Requeues x (step x q) (onQueue q (f q))) (n : Nat) (x : Tile) :
    x.Requeues ((List.range n).foldl step x) (onQueues n f) := by
  induction n with
  | zero => exact ⟨rfl, fun _ => rfl⟩
  | succ n ih =>
    rw [List.range_succ, List.foldl_append]
    exact ih.next (h _ _)

/-! ## The writes on a quiet tile (R136, R142) -/

/-- FLUSH: emptied and no longer halted. -/
def TileQueue.flushed (tq : TileQueue) : TileQueue := { tq with halted := false, marked := [], head := tq.tail }

/-- RESUME: a halted queue passes its head. -/
def TileQueue.resumed (tq : TileQueue) : TileQueue :=
  if tq.halted then { tq with halted := false, head := (tq.head + 1) % 64, marked := tq.marked.filter (fun m => m ≠ tq.head) } else tq

theorem flushQueue_of_quiet (quiet : (s.tile t).quiet = true) (q : Nat) :
    flushQueue s t q = s.setTile t ((s.tile t).setQ q ((s.tile t).q q).flushed) := by
  obtain ⟨running, -, -, frame0, frame1⟩ := (Tile.quiet_iff _).1 quiet
  simp [flushQueue, running, Tile.frameOf, frame0, frame1, TileQueue.flushed]

theorem foldl_flushQueue_of_quiet (quiet : (s.tile t).quiet = true) (asked : Nat → Bool) (n : Nat) :
    ∃ y, Puts s t y ((List.range n).foldl (fun s q => if asked q then flushQueue s t q else s) s) ∧
      (s.tile t).Requeues y (onQueues n (fun q tq => if asked q then tq.flushed else tq)) := by
  induction n with
  | zero => exact ⟨_, puts_self s t, rfl, fun _ => rfl⟩
  | succ n ih =>
    obtain ⟨y, puts, queues⟩ := ih
    rw [List.range_succ, List.foldl_append, List.foldl_cons, List.foldl_nil]
    split
    · next h =>
      rw [flushQueue_of_quiet (by rw [puts.here, queues.quiet, quiet]), puts.here]
      exact ⟨_, puts.trans (puts_setTile _ _ _), queues.next (by simpa [h] using y.requeues_setQ n TileQueue.flushed)⟩
    · next h => exact ⟨y, puts, queues.next (y.requeues_self n (by simp [h]))⟩

theorem resumeQueue_requeues (x : Tile) (q : Nat) : x.Requeues (resumeQueue x q) (onQueue q TileQueue.resumed) := by
  unfold resumeQueue
  extract_lets tq
  split
  · next h =>
    have resumed := x.requeues_setQ q TileQueue.resumed
    rwa [TileQueue.resumed, if_pos h] at resumed
  · next h => exact x.requeues_self q (by simp [TileQueue.resumed, h, tq])

/-- A queue of a quiet tile after a write of KLN_TQ_CTRL. -/
def TileQueue.controlled (v : Word) (q : Nat) (tq : TileQueue) : TileQueue :=
  let tq := { tq with en := v.getLsbD q }
  let tq := if v.getLsbD (4 + q) then tq.flushed else tq
  if v.getLsbD (8 + q) then tq.resumed else tq

theorem breakRestore_of_quiet (quiet : x.quiet = true) : breakRestore x = x := by
  obtain ⟨-, -, restoring, -, -⟩ := (Tile.quiet_iff _).1 quiet
  rw [breakRestore, restoring]

theorem ctrlWrite_of_quiet (quiet : (s.tile t).quiet = true) (v : Word) :
    ∃ y, Puts s t y (ctrlWrite s t v) ∧ (s.tile t).Requeues y (onQueues 4 (TileQueue.controlled v)) := by
  unfold ctrlWrite
  extract_lets x s₁ s₂ y
  have enabled : (s.tile t).Requeues x (onQueues 4 fun q tq => { tq with en := v.getLsbD q }) :=
    foldl_requeues (f := fun q tq => { tq with en := v.getLsbD q }) (fun x q => x.requeues_setQ q _) 4 _
  have put₁ : Puts s t x s₁ := puts_setTile s t x
  obtain ⟨z, put₂, flushed⟩ := foldl_flushQueue_of_quiet (s := s₁) (t := t) (by rw [put₁.here, enabled.quiet, quiet]) (fun q => v.getLsbD (4 + q)) 4
  rw [put₁.here] at flushed
  have resumed : z.Requeues y (onQueues 4 fun q tq => if v.getLsbD (8 + q) then tq.resumed else tq) := by
    unfold y
    rw [put₂.here]
    refine foldl_requeues (fun x q => ?_) 4 z
    split
    · simpa using resumeQueue_requeues x q
    · exact x.requeues_self q (by simp)
  have all := (enabled.trans flushed).trans resumed
  refine ⟨y, ?_, all.rest, fun k => ?_⟩
  · rw [breakRestore_of_quiet (by rw [all.quiet, quiet])]
    exact (put₁.trans put₂).trans (puts_setTile _ t y)
  · rw [all.queue]
    unfold onQueues TileQueue.controlled
    split <;> rfl

theorem markAction_rest (s : State) (t q v : Nat) : markAction s t q v = { s with islands := (markAction s t q v).islands } := rfl

theorem tailWrite_of_quiet (quiet : (s.tile t).quiet = true) (q : Nat) (v : Word) :
    ∃ u, tailWrite s t q v = { u with islands := (tailWrite s t q v).islands } ∧ Puts s t ((s.tile t).setQ q { (s.tile t).q q with tail := v.toNat % 64 }) u := by
  refine ⟨s.setTile t (breakRestore ((s.tile t).setQ q { (s.tile t).q q with tail := v.toNat % 64 })), markAction_rest _ t q _, ?_⟩
  rw [breakRestore_of_quiet]
  · exact puts_setTile _ _ _
  · exact quiet

theorem abandonWrite_of_full {tag : Word} (given : tag ≠ 0) (full : 16 ≤ (s.tile t).abandonList.length) :
    abandonWrite s t tag = s.setTile t { s.tile t with abandonFull := true } := by
  simp only [abandonWrite, if_neg given, if_pos full]

/-- A tag joins the list of a quiet tile: what waits in the queues is marked, and no queue moves. -/
theorem abandonWrite_of_quiet {tag : Word} (quiet : (s.tile t).quiet = true) (given : tag ≠ 0) (room : (s.tile t).abandonList.length < 16) :
    ∃ y, Puts s t y (abandonWrite s t tag) ∧ y.abandonList = (s.tile t).abandonList ++ [tag.toNat] ∧ y.abandonFull = false ∧ y.lastAbandon = tag ∧
      ∀ k, (y.q k).head = ((s.tile t).q k).head ∧ (y.q k).tail = ((s.tile t).q k).tail ∧ (y.q k).slots = ((s.tile t).q k).slots := by
  obtain ⟨running, -, -, frame0, frame1⟩ := (Tile.quiet_iff _).1 quiet
  unfold abandonWrite
  extract_lets x g own fr en waiting x₁ x₂ s₁
  rw [if_neg given, if_neg (Nat.not_le.2 room)]
  have idle : s₁ = s := by simp [s₁, waiting, x, running]
  have marked : x₁.Requeues x₂ (onQueues 4 fun q tq => { tq with marked := tq.marked ++ tagSlots tq g (own q) }) :=
    foldl_requeues (f := fun q tq => { tq with marked := tq.marked ++ tagSlots tq g (own q) }) (fun x q => x.requeues_setQ q _) 4 x₁
  refine ⟨x₂, idle ▸ puts_setTile s₁ t x₂, by rw [marked.rest], by rw [marked.rest], by rw [marked.rest], fun k => ?_⟩
  rw [marked.queue, onQueues, show x₁.q k = (s.tile t).q k from rfl]
  split <;> exact ⟨rfl, rfl, rfl⟩

/-! ## Who may write, and what a write interrupts (R395, R397) -/

theorem failDual_rest (s : State) (m : Master) (b : Nat) :
    s.failDual m b = { s with reg := (s.failDual m b).reg, faults := (s.failDual m b).faults } := by
  unfold State.failDual
  split
  · unfold State.guardFail State.logAccess State.occurIf
    extract_lets
    split
    · split <;> rfl
    · rfl
  · rfl

theorem failDual_tile (s : State) (m : Master) (b t : Nat) : (s.failDual m b).tile t = s.tile t := by
  rw [failDual_rest]
  rfl

theorem tileWrite_of_mint {m : Master} (standby : s.isStandby m = false) (mint : s.isMint m = true) (ht : t < 32) (ready : s.dieReady (t / 8) = true) (ofs : Nat)
    (k : State → State) : tileWrite s m t ofs k = .next ((k (s.failDual m (addrBlock (tqAddr t ofs)))).reply .accepted) := by
  simp [tileWrite, standby, mint, ht, ready]

theorem tileWrite_refused {m : Master} (standby : s.isStandby m = false) (barred : s.isMint m = false ∨ s.dieReady (t / 8) = false) (ofs : Nat)
    (k : State → State) : tileWrite s m t ofs k = .next (s.refuse m (tqAddr t ofs) true) := by
  rcases barred with h | h <;> simp [tileWrite, standby, h]

/-- The registers of one tile lie in one block. -/
theorem addrBlock_tqAddr {ofs : Nat} (h : ofs < 0x1000) : addrBlock (tqAddr t ofs) = addrBlock (tqAddr t 0) := by
  unfold addrBlock tqAddr dieWindow
  omega

/-! ## The tile queue registers (R106, R136, R142) -/

section
variable {m : Master} (standby : s.isStandby m = false) (mint : s.isMint m = true) (ht : t < 32) (ready : s.dieReady (t / 8) = true) (quiet : (s.tile t).quiet = true)
include standby mint ht ready

/-- A write that changes the tile's queues alone, after it has interrupted a dual write. -/
theorem tileWrite_puts {ofs : Nat} (hofs : ofs < 0x1000) {k : State → State} (put : Puts (s.failDual m (addrBlock (tqAddr t 0))) t y (k (s.failDual m (addrBlock (tqAddr t 0))))) :
    ∃ u, tileWrite s m t ofs k = .next u ∧ u.tile t = y ∧ (∀ j, j ≠ t → u.tile j = s.tile j) ∧ u.reg.reply = .accepted ∧
      u = { s.failDual m (addrBlock (tqAddr t 0)) with tiles := u.tiles, reg := u.reg } := by
  rw [tileWrite_of_mint standby mint ht ready, addrBlock_tqAddr hofs]
  refine ⟨_, rfl, put.here, fun j hj => (put.others j hj).trans (failDual_tile _ _ _ _), rfl, ?_⟩
  rw [put.rest]
  rfl

include quiet

theorem tqTail_written {q : Nat} (hq : q < 4) (v : Word) : ∃ u, exec (.klnTqTail m t q v) s = .next u ∧ (u.tile t).q q = { (s.tile t).q q with tail := v.toNat % 64 } ∧
    (∀ k, k ≠ q → (u.tile t).q k = (s.tile t).q k) ∧ (∀ j, j ≠ t → u.tile j = s.tile j) ∧ u.reg.reply = .accepted ∧
    u = { s.failDual m (addrBlock (tqAddr t 0)) with tiles := u.tiles, islands := u.islands, reg := u.reg } := by
  change ∃ u, execKlnTqTail m t q v s = _ ∧ _
  rw [execKlnTqTail, if_pos hq, tileWrite_of_mint standby mint ht ready, addrBlock_tqAddr (by omega)]
  obtain ⟨u, tail, put⟩ := tailWrite_of_quiet (s := s.failDual m (addrBlock (tqAddr t 0))) (t := t) (by rw [failDual_tile, quiet]) q v
  rw [failDual_tile] at put
  refine ⟨_, rfl, ?_⟩
  rw [tail]
  refine ⟨?_, fun k hk => ?_, fun j hj => (put.others j hj).trans (failDual_tile _ _ _ _), rfl, ?_⟩
  · change (u.tile t).q q = _
    rw [put.here, Tile.setQ_q, if_pos rfl]
  · change (u.tile t).q k = _
    rw [put.here, Tile.setQ_q, if_neg hk]
  · rw [put.rest]
    rfl

/-- A write of KLN_TQ_CTRL, whichever command it stands for. -/
theorem tqCtrl_written (v : Word) : ∃ u, tileWrite s m t 0 (fun s => ctrlWrite s t v) = .next u ∧
    (∀ q < 4, (u.tile t).q q = ((s.tile t).q q).controlled v q) ∧ (∀ j, j ≠ t → u.tile j = s.tile j) ∧ u.reg.reply = .accepted ∧
    u = { s.failDual m (addrBlock (tqAddr t 0)) with tiles := u.tiles, reg := u.reg } := by
  obtain ⟨y, put, queues⟩ := ctrlWrite_of_quiet (s := s.failDual m (addrBlock (tqAddr t 0))) (t := t) (by rw [failDual_tile, quiet]) v
  obtain ⟨u, run, here, rest⟩ := tileWrite_puts standby mint ht ready (ofs := 0) (k := fun s => ctrlWrite s t v) (by decide) put
  refine ⟨u, run, fun q hq => ?_, rest⟩
  rw [here, queues.queue, failDual_tile, onQueues, if_pos hq]

theorem abandon_listed {tag : Word} (given : tag ≠ 0) (room : (s.tile t).abandonList.length < 16) : ∃ u, exec (.klnAbandon m t tag) s = .next u ∧
    (u.tile t).abandonList = (s.tile t).abandonList ++ [tag.toNat] ∧ (u.tile t).abandonFull = false ∧ (u.tile t).lastAbandon = tag ∧
    (∀ q < 4, ((u.tile t).q q).head = ((s.tile t).q q).head ∧ ((u.tile t).q q).tail = ((s.tile t).q q).tail ∧ ((u.tile t).q q).slots = ((s.tile t).q q).slots) ∧
    u.reg.reply = .accepted ∧ u = { s.failDual m (addrBlock (tqAddr t 0)) with tiles := u.tiles, reg := u.reg } := by
  obtain ⟨y, put, list, full, last, queues⟩ :=
    abandonWrite_of_quiet (s := s.failDual m (addrBlock (tqAddr t 0))) (t := t) (by rw [failDual_tile, quiet]) given (by rw [failDual_tile]; exact room)
  simp only [failDual_tile] at list queues
  obtain ⟨u, run, here, -, rest⟩ := tileWrite_puts standby mint ht ready (ofs := 0x58) (k := fun s => abandonWrite s t tag) (by decide) put
  exact ⟨u, run, here ▸ list, here ▸ full, here ▸ last, fun q _ => here ▸ queues q, rest⟩

end

theorem controlled_enable {v : Word} (h : ∀ k < 8, v.getLsbD (4 + k) = false) {q : Nat} (hq : q < 4) (tq : TileQueue) :
    tq.controlled v q = { tq with en := v.getLsbD q } := by
  have flush := h q (by omega)
  have resume := h (4 + q) (by omega)
  rw [← Nat.add_assoc] at resume
  simp [TileQueue.controlled, flush, resume]

theorem controlled_flush {v : Word} (h : ∀ k < 4, v.getLsbD (8 + k) = false) {q : Nat} (hq : q < 4) (tq : TileQueue) : tq.controlled v q =
    if v.getLsbD (4 + q) then { tq with en := v.getLsbD q, halted := false, marked := [], head := tq.tail } else { tq with en := v.getLsbD q } := by
  simp only [TileQueue.controlled, h q hq]
  rfl

theorem controlled_resume {v : Word} (h : ∀ k < 4, v.getLsbD (4 + k) = false) {q : Nat} (hq : q < 4) (tq : TileQueue) : tq.controlled v q =
    if v.getLsbD (8 + q) && tq.halted then
      { tq with en := v.getLsbD q, halted := false, head := (tq.head + 1) % 64, marked := tq.marked.filter (fun k => k ≠ tq.head) }
    else { tq with en := v.getLsbD q } := by
  simp only [TileQueue.controlled, h q hq, TileQueue.resumed]
  cases v.getLsbD (8 + q) <;> cases tq.halted <;> simp

/-! ## The slot window (R106) -/

theorem dfld_testBit (d : BitVec 512) (b n i : Nat) : (dfld d b n).testBit i = (decide (i < 8 * n) && d.toNat.testBit (8 * b + i)) := by
  rw [dfld, bits, Nat.testBit_mod_two_pow, Nat.testBit_shiftRight]

/-- A number taken apart at the field of `w` bits from bit `lo`. -/
theorem field_split (x lo w : Nat) : x = 2 ^ lo * (2 ^ w * (x / 2 ^ lo / 2 ^ w) + x / 2 ^ lo % 2 ^ w) + x % 2 ^ lo := by
  rw [Nat.div_add_mod, Nat.div_add_mod]

theorem dset_testBit (d : BitVec 512) (b n v : Nat) {i : Nat} (hi : i < 512) :
    (dset d b n v).toNat.testBit i = if 8 * b ≤ i ∧ i < 8 * b + 8 * n then v.testBit (i - 8 * b) else d.toNat.testBit i := by
  have low : d.toNat % 2 ^ (8 * b) < 2 ^ (8 * b) := Nat.mod_lt _ (Nat.two_pow_pos _)
  have field : v % 2 ^ (8 * n) < 2 ^ (8 * n) := Nat.mod_lt _ (Nat.two_pow_pos _)
  have split := field_split d.toNat (8 * b) (8 * n)
  have value : d.toNat - dfld d b n * 2 ^ (8 * b) + v % 2 ^ (8 * n) * 2 ^ (8 * b) =
      2 ^ (8 * b) * (2 ^ (8 * n) * (d.toNat / 2 ^ (8 * b) / 2 ^ (8 * n)) + v % 2 ^ (8 * n)) + d.toNat % 2 ^ (8 * b) := by
    rw [dfld, bits, Nat.shiftRight_eq_div_pow]
    simp only [Nat.mul_add, Nat.mul_comm _ (2 ^ (8 * b))] at split ⊢
    omega
  rw [dset, BitVec.toNat_ofNat, Nat.testBit_mod_two_pow, value, Nat.testBit_two_pow_mul_add _ low, Nat.testBit_two_pow_mul_add _ field, Nat.testBit_mod_two_pow,
    Nat.testBit_mod_two_pow, Nat.testBit_div_two_pow, Nat.testBit_div_two_pow]
  by_cases below : i < 8 * b
  · simp [below, hi, Nat.not_le.2 below]
  · by_cases inside : i - 8 * b < 8 * n
    · simp [hi, below, inside, show 8 * b ≤ i by omega, show i < 8 * b + 8 * n by omega]
    · simp [hi, below, inside, show ¬ i < 8 * b + 8 * n by omega, show i - 8 * b - 8 * n + 8 * n + 8 * b = i by omega]

/-- A field that is set reads back, where it fits in the descriptor. -/
theorem dfld_dset_same (d : BitVec 512) {b n v : Nat} (fits : b + n ≤ 64) (hv : v < 2 ^ (8 * n)) : dfld (dset d b n v) b n = v := by
  refine Nat.eq_of_testBit_eq (fun i => ?_)
  rw [dfld_testBit]
  by_cases inside : i < 8 * n
  · rw [dset_testBit _ _ _ _ (by omega), if_pos ⟨by omega, by omega⟩]
    simp [inside]
  · rw [Nat.testBit_lt_two_pow (Nat.lt_of_lt_of_le hv (Nat.pow_le_pow_right (by decide) (by omega)))]
    simp [inside]

/-- A field that is set leaves every other. -/
theorem dfld_dset_of_disjoint (d : BitVec 512) {b n c m : Nat} (v : Nat) (fits : c + m ≤ 64) (apart : c + m ≤ b ∨ b + n ≤ c) :
    dfld (dset d b n v) c m = dfld d c m := by
  refine Nat.eq_of_testBit_eq (fun i => ?_)
  rw [dfld_testBit, dfld_testBit]
  by_cases inside : i < 8 * m
  · rw [dset_testBit _ _ _ _ (by omega), if_neg (by omega)]
  · simp [inside]

/-- The slot windows of a kiln's eight tiles. -/
theorem kilnReg_slot (d : Nat) {o : Nat} (inside : o < 0x20000) (aligned : o % 8 = 0) :
    kilnReg d (0x1000000 + o) = some (.slot (8 * d + o / 0x4000) (o % 0x4000 / 0x1000) (o % 0x1000 / 0x40) (o % 0x40 / 8)) := by
  have outside (base n : Nat) (h : base + n ≤ 0x1000000) : inBlock (0x1000000 + o) base n = none := if_neg (by omega)
  have window : inBlock (0x1000000 + o) 0x1000000 0x20000 = some o := by
    rw [inBlock, if_pos (by omega), Nat.add_sub_cancel_left]
  simp only [kilnReg, outside 0x100000 0x8000 (by decide), outside 0x200000 0x8000 (by decide), outside 0x300000 0x8000 (by decide), window, if_pos aligned]

/-- The address of word `n` of slot `k` of queue `q` of tile `t`. -/
theorem regAt_slot {a t q k n : Nat} (ht : t < 32) (hq : q < 4) (hk : k < 64) (hn : n < 8)
    (ha : a = dieWindow (t / 8) + 0x1000000 + t % 8 * 0x4000 + q * 0x1000 + k * 0x40 + n * 8) : regAt a = some (.slot t q k n) := by
  obtain ⟨o, ho⟩ : ∃ o, o = t % 8 * 0x4000 + q * 0x1000 + k * 0x40 + n * 8 := ⟨_, rfl⟩
  have die : (a - dieWindow 0) / 0x10000000 = t / 8 := by
    unfold dieWindow at *
    omega
  have offset : (a - dieWindow 0) % 0x10000000 = 0x1000000 + o := by
    unfold dieWindow at *
    omega
  have window : ¬ (a < dieWindow 0 ∨ a % 8 ≠ 0) := by
    unfold dieWindow at *
    omega
  simp only [regAt, if_neg window, die, offset]
  rw [if_pos (by omega), kilnReg_slot _ (by omega) (by omega), Option.some.injEq, Reg.slot.injEq]
  omega

theorem accReg_slot {x : RegAccess} {t q k n : Nat} (ht : t < 32) (hq : q < 4) (hk : k < 64) (hn : n < 8)
    (loc : x.loc = .window (dieWindow (t / 8) + 0x1000000 + t % 8 * 0x4000 + q * 0x1000 + k * 0x40 + n * 8)) : accReg? x = some (.slot t q k n) := by
  obtain ⟨a, ha⟩ : ∃ a, a = dieWindow (t / 8) + 0x1000000 + t % 8 * 0x4000 + q * 0x1000 + k * 0x40 + n * 8 := ⟨_, rfl⟩
  have inside : dieWindow 0 ≤ a ∧ a < dieWindow 11 := by
    unfold dieWindow at *
    omega
  have aligned : a % 8 = 0 := by
    unfold dieWindow at *
    omega
  rw [accReg?, loc, ← ha, locAddr, if_pos inside, Option.bind_some, locate, if_neg (by omega), aligned, Nat.sub_zero, regAt_slot ht hq hk hn ha]
  rfl

/-- The tile after a write of word `n` of slot `k` of queue `q`. -/
def Tile.withWord (x : Tile) (q k n : Nat) (v : DWord) : Tile :=
  x.setQ q { x.q q with slots := sset 0 (x.q q).slots k (dset (sget 0 (x.q q).slots k) (8 * n) 8 v.toNat) }

theorem Tile.withWord_queue (x : Tile) (q k n : Nat) (v : DWord) : (x.withWord q k n v).q q = { x.q q with slots := ((x.withWord q k n v).q q).slots } := by
  rw [Tile.withWord, Tile.setQ_q, if_pos rfl]

theorem Tile.withWord_slot (x : Tile) (q k n : Nat) (v : DWord) (j : Nat) : sget 0 ((x.withWord q k n v).q q).slots j =
    if j = k then dset (sget 0 (x.q q).slots k) (8 * n) 8 v.toNat else sget 0 (x.q q).slots j := by
  rw [Tile.withWord, Tile.setQ_q, if_pos rfl]
  exact sget_sset _ _ _ _ _

/-- A write of a word of a slot that reaches it (R106). -/
theorem registerWrite_slot {s : State} {x : RegAccess} {t q k n : Nat} (wide : x.wide = true) (h : Reaches s x (.slot t q k n)) :
    exec (.registerWrite x) s = .next ((s.reply .accepted).setTile t ((s.tile t).withWord q k n x.value)) := by
  have known := h.reg
  cases ha : locAddr x.loc with
  | none => simp [accReg?, ha] at known
  | some a =>
    obtain ⟨hi, place, write⟩ := writeReg_reaches h ha
    have low : hi = false := by
      unfold locate at place
      split at place
      · cases place
      · split at place
        · cases place
        · simp only [wide, Bool.true_or, if_true] at place
          split at place
          · simp_all
          · cases place
    have bus : s.busWrite x = s.writeReg x := by
      simp [State.busWrite, State.reachesDat, known]
    have whole : writeHalf (.slot t q k n) hi x.wide (s.regValue x.master (.slot t q k n)) (accVal x).toNat = x.value.toNat := by
      have wideReg : (Reg.slot t q k n).wide = true := rfl
      simp [writeHalf, wideReg, low, wide, accVal, Nat.mod_eq_of_lt x.value.isLt]
    change Host.Outcome.next (s.busWrite x) = _
    rw [bus, write]
    simp only [Reg.group, whole]
    rfl

/-! ## The statement -/

/-- The slot windows: where they lie, what a write does and who reaches them. -/
theorem slot_written {s : State} {x : RegAccess} {t q k n : Nat} (hn : n < 8) (wide : x.wide = true) (h : Reaches s x (.slot t q k n)) :
    ∃ u, exec (.registerWrite x) s = .next u ∧ u.reg.reply = .accepted ∧ dfld (sget 0 ((u.tile t).q q).slots k) (8 * n) 8 = x.value.toNat ∧
      (∀ j, j < 8 → j ≠ n → dfld (sget 0 ((u.tile t).q q).slots k) (8 * j) 8 = dfld (sget 0 ((s.tile t).q q).slots k) (8 * j) 8) ∧
      (∀ j, j ≠ k → sget 0 ((u.tile t).q q).slots j = sget 0 ((s.tile t).q q).slots j) ∧ (∀ i, i ≠ q → (u.tile t).q i = (s.tile t).q i) ∧
      ((u.tile t).q q = { (s.tile t).q q with slots := ((u.tile t).q q).slots }) ∧ (∀ i, i ≠ t → u.tile i = s.tile i) ∧
      u = { s with tiles := u.tiles, reg := u.reg } := by
  have put := puts_setTile (s.reply .accepted) t ((s.tile t).withWord q k n x.value)
  refine ⟨_, registerWrite_slot wide h, rfl, ?_, fun j hj hne => ?_, fun j hj => ?_, fun i hi => ?_, ?_, put.others, rfl⟩ <;> rw [put.here]
  · rw [Tile.withWord_slot, if_pos rfl, dfld_dset_same _ (by omega) x.value.isLt]
  · rw [Tile.withWord_slot, if_pos rfl, dfld_dset_of_disjoint _ _ (by omega) (by omega)]
  · rw [Tile.withWord_slot, if_neg hj]
  · rw [Tile.withWord, Tile.setQ_q, if_neg hi]
  · exact Tile.withWord_queue _ _ _ _ _

/-- Settles O35: the writes of a quiet tile's registers one by one, then the slot window, then who is refused. -/
theorem tileQueueRegisters : Obligations.TileQueueRegisters := by
  refine ⟨fun s m t standby mint ht ready quiet => ⟨?tail, ?enable, ?flush, ?resume, ?listed, ?full, ?none⟩, ?window, ?slot, fun _ _ _ _ _ _ => ⟨rfl, rfl⟩, ?refused⟩
  case tail => exact fun q v hq => tqTail_written standby mint ht ready quiet hq v
  case enable =>
    intro v h
    obtain ⟨u, run, queues, rest⟩ := tqCtrl_written standby mint ht ready quiet v
    exact ⟨u, run, fun q hq => (queues q hq).trans (controlled_enable h hq _), rest⟩
  case flush =>
    intro v h
    obtain ⟨u, run, queues, rest⟩ := tqCtrl_written standby mint ht ready quiet v
    exact ⟨u, run, fun q hq => (queues q hq).trans (controlled_flush h hq _), rest⟩
  case resume =>
    intro v h
    obtain ⟨u, run, queues, rest⟩ := tqCtrl_written standby mint ht ready quiet v
    exact ⟨u, run, fun q hq => (queues q hq).trans (controlled_resume h hq _), rest⟩
  case listed => exact fun tag given room => abandon_listed standby mint ht ready quiet given room
  case full =>
    intro tag given full
    change execKlnAbandon m t tag s = _
    rw [execKlnAbandon, tileWrite_of_mint standby mint ht ready, addrBlock_tqAddr (by decide), abandonWrite_of_full given (by rwa [failDual_tile]), failDual_tile]
  case none =>
    change execKlnAbandon m t 0 s = _
    rw [execKlnAbandon, tileWrite_of_mint standby mint ht ready, addrBlock_tqAddr (by decide)]
    rfl
  case window => exact fun x t q k n ht hq hk hn _ loc => accReg_slot ht hq hk hn loc
  case slot => exact fun s x t q k n hn wide h => slot_written hn wide h
  case refused =>
    intro s m t q v standby barred hq
    have refused := tileWrite_refused standby barred
    refine ⟨?_, refused 0 (ctrlWrite · t v), refused 0 (ctrlWrite · t v), refused 0 (ctrlWrite · t v), refused 0x58 (abandonWrite · t v)⟩
    change execKlnTqTail m t q v s = _
    rw [execKlnTqTail, if_pos hq, refused]

end Sys2Proof.Machine
end

section
/-! PROOF.  O37.  Every computing command is `finishCommand` of what its work leaves (`computes_run`), and every command with a yield point ahead that is to stop is
`endAbandoned` (`stopping_run`); the end itself is `endRunning`, or the signal of the DONE_TALLY. -/
namespace Sys2Proof.Machine
open Sys2Proof

variable {s : State} {t : Nat} {c : RunCmd}

/-! ## How a command ends -/

/-- Without a signal to send, the command is over. -/
theorem finishCommand_over {r : Done} (noSignal : r.status ≠ stOk ∨ dDoneEn c.desc = false) :
    finishCommand s t c r = endRunning r.s t c r.status r.numeric r.opflags r.result := by
  rw [finishCommand, if_neg]
  rintro ⟨ok, signal⟩
  simp_all

theorem endRunning_leaves (s : State) (t : Nat) (c : RunCmd) (st num opf res : Nat) : Ended (s.tile t) ((endRunning s t c st num opf res).tile t) c st ∧
    (endRunning s t c st num opf res).teller.records = s.teller.records ++ recordOf t c st num opf res ∧
    ∀ a, (endRunning s t c st num opf res).readByte a = s.readByte a :=
  ⟨endRunning_ended .., endRunning_records .., fun _ => endRunning_readByte ..⟩

/-- The signal of the DONE_TALLY leaves for the home, and the command waits for it (R130). -/
theorem finishCommand_signals {r : Done} (ok : r.status = stOk) (signal : dDoneEn c.desc = true) :
    ∃ x, ((finishCommand s t c r).tile t).running = some x ∧ x.wait = .signal ∧
      (finishCommand s t c r).mem.signals = r.s.mem.signals ++ [{ src := 4 + t / 8, tally := dTally c.desc, value := dAdd c.desc, after := .command t }] ∧
      ∀ a, (finishCommand s t c r).readByte a = r.s.readByte a := by
  rw [finishCommand, if_pos ⟨ok, signal⟩]
  extract_lets _ x u
  have kept : u.mem.signals = r.s.mem.signals := by
    show (r.s.dropWaiter t).mem.signals = _
    rw [State.dropWaiter_frame]
  have bytes (a : Nat) : u.readByte a = r.s.readByte a := State.dropWaiter_readByte r.s t a
  clear_value u
  exact ⟨x, congrArg Tile.running (sget_sset_same _ _ _ _), rfl, kept ▸ rfl, bytes⟩

/-! ## Which commands run and which stop -/

theorem whenRunning_of_stopsFirst {op : Nat} (runs : s.runnable t op = some c) (stops : stopsFirst s t c = true) (k : RunCmd → State) :
    whenRunning s t op k = .next (endAbandoned s t c) := by
  simp [whenRunning, runs, stops]

/-- A computing command with its opcode and what its work leaves. -/
def computes (s : State) (t : Nat) (c : RunCmd) : List (Instr × Nat × Done) :=
  [(.slabMatmul t, 0x02, matRun c.desc t c.work (s.slabUsed t c.desc)), (.slabConv t, 0x03, convRun c.desc t c.work (s.slabUsed t c.desc)),
    (.attend t, 0x04, attRun c.desc t (s.tilePart t) c.work (s.slabUsed t c.desc)), (.vecRun t, 0x05, vecRun c.desc t (s.tilePart t) c.work.vec s),
    (.sample t, 0x0C, sampleRun c.desc t (s.tilePart t) s), (.cropResize t, 0x0D, cropRun c.desc t c.work s), (.boxDecode t, 0x0E, boxRun c.desc t s),
    (.nms t, 0x0F, nmsRun c.desc t c.work s), (.endStream t, 0x10, { s := s, result := dfld c.desc 16 2 })]

theorem execEndStream_of_runnable (runs : s.runnable t 0x10 = some c) : execEndStream t s =
    if (s.tile t).streaming c.queue then .next s else .next (finishCommand s t c { s := s, result := dfld c.desc 16 2 }) := by
  simp only [execEndStream, runs]

theorem computes_run : ∀ p ∈ computes s t c, s.runnable t p.2.1 = some c → (p.2.1 = 0x10 → (s.tile t).streaming c.queue = false) →
    (p.2.1 ≠ 0x10 → stopsFirst s t c = false) → exec p.1 s = .next (finishCommand s t c p.2.2) := by
  simp only [computes, List.forall_mem_cons, List.not_mem_nil, false_imp_iff, implies_true, and_true]
  refine ⟨?_, ?_, ?_, ?_, ?_, ?_, ?_, ?_, ?stream⟩
  case stream =>
    intro runs streams _
    exact (execEndStream_of_runnable runs).trans (if_neg (by simp [streams trivial]))
  all_goals intro runs _ goesOn
  · exact perform_of_runnable runs (goesOn (by decide)) (fun d _ w s => matRun d t w (s.slabUsed t d))
  · exact perform_of_runnable runs (goesOn (by decide)) (fun d _ w s => convRun d t w (s.slabUsed t d))
  · exact perform_of_runnable runs (goesOn (by decide)) (fun d p w s => attRun d t p w (s.slabUsed t d))
  · exact perform_of_runnable runs (goesOn (by decide)) (fun d p w s => vecRun d t p w.vec s)
  · exact perform_of_runnable runs (goesOn (by decide)) (fun d p _ s => sampleRun d t p s)
  · exact perform_of_runnable runs (goesOn (by decide)) (fun d _ w s => cropRun d t w s)
  · exact perform_of_runnable runs (goesOn (by decide)) (fun d _ _ s => boxRun d t s)
  · exact perform_of_runnable runs (goesOn (by decide)) (fun d _ w s => nmsRun d t w s)

/-- The commands that have yield points, with their opcodes. -/
def stoppable (t : Nat) : List (Instr × Nat) :=
  [(.slabLoad t, 0x01), (.slabMatmul t, 0x02), (.slabConv t, 0x03), (.attend t, 0x04), (.vecRun t, 0x05), (.move t, 0x06), (.gatherPages t, 0x07),
    (.sample t, 0x0C), (.cropResize t, 0x0D), (.boxDecode t, 0x0E), (.nms t, 0x0F)]

theorem stopping_run (stops : stopsFirst s t c = true) : ∀ p ∈ stoppable t, s.runnable t p.2 = some c → exec p.1 s = .next (endAbandoned s t c) := by
  simp only [stoppable, List.forall_mem_cons, List.not_mem_nil, false_imp_iff, implies_true, and_true]
  refine ⟨?_, ?_, ?_, ?_, ?_, ?_, ?_, ?_, ?_, ?_, ?_⟩
  all_goals
    intro runs
    exact whenRunning_of_stopsFirst runs stops _

/-! ## YIELD (R131) -/

/-- The state in which a YIELD ends: with MODE 1 its queue cedes. -/
def State.yielded (s : State) (t : Nat) (c : RunCmd) : State :=
  if dfld c.desc 16 1 = 1 then s.setTile t ((s.tile t).setQ c.queue { (s.tile t).q c.queue with ceding := true, cedeLeft := dfld c.desc 18 2 }) else s

theorem execYield_of_runnable (runs : s.runnable t 0x0B = some c) (quiet : dDoneEn c.desc = false) :
    execYield t s = .next (endRunning (s.yielded t c) t c stOk 0 0 0) := by
  simp only [execYield, runs]
  rw [finishCommand_over (.inr quiet)]
  rfl

theorem State.yielded_records (s : State) (t : Nat) (c : RunCmd) : (s.yielded t c).teller = s.teller := by
  unfold State.yielded
  split <;> rfl

theorem yield_runs (runs : s.runnable t 0x0B = some c) (quiet : dDoneEn c.desc = false) : ∃ u, exec (.yield t) s = .next u ∧ (u.tile t).running = none ∧
    (dfld c.desc 16 1 = 1 → c.flushed = false → (u.tile t).q c.queue = { (s.tile t).q c.queue with ceding := true, cedeLeft := dfld c.desc 18 2, head := (c.slot + 1) % 64, marked := ((s.tile t).q c.queue).marked.filter (fun m => m ≠ c.slot) }) ∧
    (dfld c.desc 16 1 ≠ 1 → Ended (s.tile t) (u.tile t) c stOk) ∧ u.teller.records = s.teller.records ++ recordOf t c stOk 0 0 0 := by
  refine ⟨_, execYield_of_runnable runs quiet, ?_⟩
  obtain ⟨ended, records, -⟩ := endRunning_leaves (s.yielded t c) t c stOk 0 0 0
  refine ⟨ended.idle, fun cedes going => ?_, fun keeps => ?_, by rw [records, State.yielded_records]⟩
  · rw [ended.queue, going, State.yielded, if_pos cedes]
    simp
  · rwa [show s.yielded t c = s from if_neg keeps] at ended ⊢

/-- Settles O37: `computes_run`, `stopping_run` and `yield_runs` with the two ways in which a command ends. -/
theorem commandsRunAndEnd : Obligations.CommandsRunAndEnd := by
  intro s t c
  refine ⟨fun p hp runs streams goesOn => ?_, ?stop, fun runs streams => ?_, yield_runs⟩
  · have run := computes_run p hp runs streams goesOn
    refine ⟨fun noSignal => ⟨_, run.trans (by rw [finishCommand_over noSignal]), endRunning_leaves ..⟩, fun ok signal => ?_⟩
    obtain ⟨x, waits⟩ := finishCommand_signals (s := s) (t := t) ok signal
    exact ⟨_, x, run, waits⟩
  case stop =>
    intro stops _ p hp runs
    exact ⟨_, stopping_run stops p hp runs, endRunning_leaves ..⟩
  · exact (execEndStream_of_runnable runs).trans (if_pos streams)

end Sys2Proof.Machine
end

section
/-! PROOF.  O38, refuted, for the reason that refutes O39.  A hearth's cache may hold a good copy of a line that is poisoned at its home (R184, R190), and
`State.meetsPoison` rightly finds no poison there while the copy lasts (R183, R211).  MOVE reads its source before it writes, and the line of the source may take the
place of the copy of DST's line in their common set (R191): the write then asks for ownership of a line it no longer holds, gets the home's poison, and a byte-masked
write into it ends with POISON (R115, R183), not OK.  The statement would need that no copy alone shields the destination. -/
namespace Sys2Proof.Machine
open Sys2Proof

/-! ## How a MOVE runs -/

theorem exec_move_of_runnable {s : State} {t : Nat} {c : RunCmd} (runs : s.runnable t 0x06 = some c) (goesOn : stopsFirst s t c = false)
    (sync : dAsync c.desc = false) : exec (.move t) s = .next (finishCommand s t c (moveRun c.desc t c.work s)) := by
  change execMove t s = _
  simp [execMove, whenRunning, runs, goesOn, sync]

/-- A MOVE whose work meets poison ends with POISON, which LAST_ERR keeps (R115, R143). -/
theorem exec_move_lastErr_of_poison {s : State} {t : Nat} {c : RunCmd} (runs : s.runnable t 0x06 = some c) (goesOn : stopsFirst s t c = false)
    (sync : dAsync c.desc = false) (poison : (moveRun c.desc t c.work s).status = stPoison) : ∃ u, exec (.move t) s = .next u ∧ (u.tile t).lastErr = stPoison := by
  have failed : stPoison ≠ stOk ∧ ¬ (stPoison = stOk ∨ stPoison = stAbandoned) := by decide
  have ended := finishCommand_ended_of_failed (s := s) (t := t) (c := c) (poison.trans_ne failed.1)
  rw [poison] at ended
  exact ⟨_, exec_move_of_runnable runs goesOn sync, ended.lastErr.trans (if_neg failed.2)⟩

/-- No owner is recorded, so none has lost its line. -/
theorem ownersHold_of_unowned {s : State} (listed : ∀ e ∈ s.mem.dir, owned e.2 = false) : s.OwnersHold := by
  intro line
  have unowned : owned (s.dirOf line) = false := by
    rcases sget_mem 0 s.mem.dir line with none | entry
    · rw [State.dirOf, none]
      rfl
    · exact listed _ entry
  simp only [State.ownerGone, unowned, Bool.false_and]

/-! ## The counterexample -/

namespace EvictedDestination

/-- MOVE of one row of one byte from 0x1000 to 0x201000: the fields of R125 as byte offset and value. -/
def desc : BitVec 512 :=
  BitVec.ofNat 512 (0x06 + ([(16, 0x1000), (22, 0x201000), (28, 1), (32, 1)].map (fun f : Nat × Nat => f.2 * 256 ^ f.1)).sum)

def cmd : RunCmd := { desc := desc, queue := 2, slot := 0 }

/-- The memory of `EvictedOperand.state`: of the set that the source's line 0x40 shares, both ways are taken, the older by a good copy of the destination's line
0x8040, whose home a patrol read has found poisoned. -/
def state : State := { EvictedOperand.state with tiles := [(0, { running := some cmd })] }

theorem ownersHold : state.OwnersHold := ownersHold_of_unowned (by decide +kernel)

/-- To the command, before it reads, source and destination are free of poison. -/
theorem ranges_clean : ∀ r ∈ (moveChecks desc).ins ++ (moveChecks desc).outs, state.meetsPoison (.tile 0) r.1 r.2 = false := by decide +kernel

/-- The read of the source takes the destination's copy from the cache, so the write of one byte of the line meets the poison of its home. -/
theorem write_meets_poison : (state.fetchAll (.tile 0) (moveChecks desc).ins).copyFor (.tile 0) 0x8040 = none ∧
    (moveRun desc 0 {} state).status = stPoison := by decide +kernel

end EvictedDestination

open EvictedDestination

/-- Refutes O38: the read of the source evicts the good copy of the destination's line, and the write then meets the poison of its home. -/
theorem not_movesAndTransfers : ¬ Obligations.MovesAndTransfers := by
  unfold Obligations.MovesAndTransfers
  rintro ⟨move, -⟩
  have runs : state.runnable 0 0x06 = some cmd := by decide +kernel
  have goesOn : stopsFirst state 0 cmd = false := rfl
  have admitted : (descVerdict desc 0 (state.tilePart 0) state).1 = stOk := by decide +kernel
  have sync : dAsync desc = false := by decide +kernel
  obtain ⟨u, run, ended, -⟩ := move state 0 cmd runs sync (by decide +kernel) admitted goesOn rfl ownersHold ranges_clean
  obtain ⟨v, fails, poison⟩ := exec_move_lastErr_of_poison runs goesOn sync write_meets_poison.2
  obtain rfl : u = v := Host.Outcome.next.inj (run.symm.trans fails)
  have ok : (u.tile 0).lastErr = (state.tile 0).lastErr := ended.lastErr.trans (if_pos (.inl rfl))
  exact absurd (poison.symm.trans ok) (by decide +kernel)

end Sys2Proof.Machine
end

section
/-! PROOF.  O40, refuted, for the reason that refutes O38 and O39.  A hearth's cache may hold a good copy of a line that is poisoned at its home (R184, R190), and
`State.meetsPoison` rightly finds no poison there while the copy lasts (R183, R211).  A REDUCE reads its source line by line; where the source is longer than 2 MiB, its
first and its last line share a set of the cache (R190, R191), and the read of the first may take the place of the last one's good copy.  Its read then misses and
gets the home's poison, and the REDUCE ends with POISON (R115) where the statement has it wait.  `Exposed` is what the long read keeps from its first line on. -/
namespace Sys2Proof.Machine
open Sys2Proof

/-! ## A poisoned line that no good copy shields stays so under reads (R183, R190, R211) -/

/-- Line `L` is poisoned at its home, and every copy of it is held poisoned. -/
structure Exposed (L : Nat) (s : State) : Prop where
  home : s.mem.poisoned L = true
  copies : ∀ k c, (s.hearth k).line L = some c → c.poisoned = true

theorem answered_held {s : State} {hm : Home} {l k : Nat} {c : RcLine} (h : s.answered hm l k = some c) : (s.hearth k).line l = some c := by
  unfold State.answered at h
  split at h
  · next held =>
    split at h
    · rw [held, h]
    · cases h
  · cases h

namespace Exposed

variable {L : Nat} {s : State} (h : Exposed L s)
include h

/-- An update that leaves poison and caches. -/
theorem of_same {t : State} (poison : t.mem.poison = s.mem.poison) (hearths : t.mem.hearths = s.mem.hearths) : Exposed L t where
  home := by rw [MemState.poisoned, poison]; exact h.home
  copies k c hc := h.copies k c (by rw [← hc, State.hearth, State.hearth, hearths])

theorem setHearth {k : Nat} {x : Hearth} (hx : ∀ c, x.line L = some c → c.poisoned = true) : Exposed L (s.setHearth k x) where
  home := h.home
  copies j c hc := by
    rw [State.setHearth_hearth] at hc
    split at hc
    · exact hx c hc
    · exact h.copies j c hc

/-- One entry of a cache put anew. -/
theorem setLine {k l : Nat} {x : Hearth} {c : Option RcLine} (hx : x.rc = (s.hearth k).rc) (hc : l = L → ∀ e ∈ c, e.poisoned = true) :
    Exposed L (s.setHearth k (x.setLine l c)) :=
  h.setHearth (fun e he => by
    rw [Hearth.setLine, Hearth.line] at he
    by_cases same : L = l
    · rw [same, sget_sset_same] at he
      exact hc same.symm e he
    · rw [sget_sset_ne _ _ _ same, hx] at he
      exact h.copies k e he)

theorem setDir (l d : Nat) : Exposed L (s.setDir l d) := h.of_same rfl rfl
theorem raise (f : FaultReq) : Exposed L (s.raise f) := h.of_same rfl rfl

theorem setPoison {l : Nat} {v : Bool} (hl : l = L → v = true) : Exposed L { s with mem := s.mem.setPoison l v } where
  home := by
    rw [MemState.poisoned, MemState.setPoison, sget_sset]
    split
    · next same => exact hl same.symm
    · exact h.home
  copies := h.copies

theorem poisonLine (l cause : Nat) : Exposed L (s.poisonLine l cause) := by
  have marked : Exposed L { s with mem := s.mem.setPoison l true } := h.setPoison (fun _ => rfl)
  unfold State.poisonLine
  extract_lets u
  split
  · exact marked.of_same rfl rfl
  · exact marked

/-- A copy that is given back clears the home's poison only where it is good. -/
theorem wroteBack {l : Nat} {c : RcLine} (hc : l = L → c.poisoned = true) : Exposed L (s.wroteBack l c) := by
  unfold State.wroteBack
  split
  · next good =>
    refine h.setPoison (fun same => ?_)
    simp [hc same] at good
  · exact h

theorem lostOwner (l o : Nat) : Exposed L (s.lostOwner l o) := (h.poisonLine l 2).raise _

/-- A copy whose line is given up or shared. -/
theorem gaveBack {k l : Nat} {c : RcLine} {e : Option RcLine} (held : (s.hearth k).line l = some c) (he : ∀ d ∈ e, d.poisoned = c.poisoned) :
    Exposed L ((s.setHearth k ((s.hearth k).setLine l e)).wroteBack l c) := by
  have poisoned (same : l = L) : c.poisoned = true := h.copies k c (same ▸ held)
  exact (h.setLine rfl (fun same d hd => (he d hd).trans (poisoned same))).wroteBack poisoned

theorem dropCopy (k l : Nat) : Exposed L (s.dropCopy k l) := by
  unfold State.dropCopy
  split
  · exact h
  · next c held =>
    have dropped := h.gaveBack (e := none) held (by simp)
    extract_lets u d
    split
    · exact dropped.setDir _ _
    · split
      · split
        · exact dropped.setDir _ _
        · exact dropped
      · exact dropped.setDir _ _

theorem hit (k l : Nat) : Exposed L (s.hit k l) := by
  unfold State.hit
  extract_lets x
  split
  · exact h
  · next c held => exact h.setLine rfl (fun same e he => by cases he; exact h.copies k c (same ▸ held))

/-- A line filled into a cache, where `L` itself comes poisoned. -/
theorem fill {k l p : Nat} {dirty poisoned : Bool} (hp : l = L → poisoned = true) : Exposed L (s.fill k l p dirty poisoned) := by
  unfold State.fill
  extract_lets x used entry
  split
  · exact h.setLine rfl (fun same e he => by cases he; exact hp same)
  · dsimp only
    split
    · exact h.setLine rfl (fun same e he => by cases he; exact hp same)
    · split
      · exact h
      · exact (h.dropCopy _ _).setLine rfl (fun same e he => by cases he; exact hp same)

/-- A miss that the home answers: it gives the line as poisoned as it is. -/
theorem filled (k l p d : Nat) : Exposed L ((s.setDir l d).fill k l p false (s.mem.poisoned l)) :=
  (h.setDir l d).fill (fun same => same ▸ h.home)

theorem recalled (hm : Home) (l o : Nat) (keep : Bool) : Exposed L (s.recall hm l o keep) := by
  unfold State.recall
  split
  · next c held =>
    refine (h.gaveBack (answered_held held) (fun d hd => ?_)).setDir _ _
    cases keep <;> cases hd
    rfl
  · exact (h.lostOwner _ _).setDir _ _

omit h in
theorem foldl {α : Type} {f : State → α → State} (hf : ∀ s a, Exposed L s → Exposed L (f s a)) (l : List α) (s : State) (h : Exposed L s) :
    Exposed L (l.foldl f s) := by
  induction l generalizing s with
  | nil => exact h
  | cons a r ih => exact ih _ (hf s a h)

theorem snoop (hm : Home) (l k : Nat) : Exposed L (s.snoop hm l k) := by
  refine foldl (fun s j h => ?_) _ _ h
  split
  · exact h
  · split
    · next c held =>
      split
      · exact h.gaveBack (answered_held held) (fun d hd => by cases hd; rfl)
      · exact h
    · exact h

theorem dirRead (l : Nat) (hm : Home) : Exposed L (s.dirRead l hm).2 := by
  unfold State.dirRead
  extract_lets d
  split
  · exact h
  · exact h.raise _

theorem homeSide (l : Nat) : Exposed L (homeSide s l false) := by
  unfold Sys2Proof.Machine.homeSide
  split
  · exact h
  · next hm _ =>
    have read := h.dirRead l hm
    simp only [Bool.false_eq_true, if_false]
    split
    · exact h
    · split
      · split
        · exact read.recalled _ _ _ _
        · exact read.setDir _ _
      · exact h.snoop _ _ _

theorem readMiss (k l p : Nat) : Exposed L (readMiss s k l p .clean) := by
  unfold Sys2Proof.Machine.readMiss
  split
  · exact h
  · next hm home =>
    split
    · exact h.fill (fun _ => rfl)
    · have clean : s.eccEvent l .clean = s := by simp [State.eccEvent]
      have read := h.dirRead l hm
      simp only [clean]
      split
      · refine filled ?_ k l p _
        split
        · split
          · exact (read.lostOwner _ _).setDir _ _
          · exact read.recalled _ _ _ _
        · exact read
      · have snooped := h.snoop hm l k
        exact snooped.fill (fun same => same ▸ snooped.home)

theorem readLine (k p l : Nat) : Exposed L (s.readLine k p l) := by
  unfold State.readLine
  split
  · exact h.homeSide _
  · split
    · exact h.hit _ _
    · exact h.readMiss _ _ _

/-- No read clears the poison. -/
theorem fetch (g : Agent) (a n : Nat) : Exposed L (s.fetch g a n) := by
  unfold State.fetch
  split
  · exact foldl (fun _ l h => h.readLine _ _ l) _ _ h
  · exact foldl (fun _ l h => h.homeSide l) _ _ h
  · exact foldl (fun _ l h => h.homeSide l) _ _ h

/-- A range with the line meets poison. -/
theorem meetsPoison {g : Agent} {a n : Nat} (inside : lineIn a n L = true) : s.meetsPoison g a n = true := by
  have room : 0 < n := by
    simp only [lineIn, Bool.and_eq_true, decide_eq_true_eq] at inside
    exact inside.1.1
  have marked : (L, true) ∈ s.mem.poison := by
    rcases sget_mem false s.mem.poison L with none | entry
    · exact absurd (none.symm.trans h.home) (by decide)
    · rwa [show sget false s.mem.poison L = true from h.home] at entry
  have unshielded : s.goodOwner L = false := by
    unfold State.goodOwner
    split
    · next hm _ =>
      simp only [List.any_eq_false]
      intro k _
      split
      · next c held => simp [h.copies k c (answered_held held)]
      · simp
    · rfl
  simp only [State.meetsPoison, room, decide_true, Bool.true_and, Bool.or_eq_true]
  cases copy : s.copyFor g L with
  | none => exact .inl (.inl (.inl (List.any_eq_true.2 ⟨_, marked, by simp [inside, copy, unshielded]⟩)))
  | some c =>
    refine .inl (.inr ?_)
    unfold State.copyFor at copy
    split at copy
    · next k cache =>
      rcases sget_mem none (s.hearth k.1).rc L with none | entry
      · exact absurd (none.symm.trans copy) (by simp)
      · simp only [Hearth.holdsPoison, List.any_eq_true]
        refine ⟨_, entry, ?_⟩
        rw [show sget none (s.hearth k.1).rc L = some c from copy]
        simp [inside, h.copies k.1 c copy]
    · cases copy

omit h in
/-- A tile's read that exposes the line with the first of its lines. -/
theorem fetch_of_first {t k p a n : Nat} (cache : s.cacheOf (.tile t) = some (k, p)) (room : 0 < n) (first : Exposed L (s.readLine k p (a / 64))) :
    Exposed L (s.fetch (.tile t) a n) := by
  obtain ⟨m, lines⟩ : ∃ m, (a % 64 + n + 63) / 64 = m + 1 := ⟨(a % 64 + n + 63) / 64 - 1, by omega⟩
  simp only [State.fetch, cache, linesOf, lines, List.range_succ_eq_map, List.map_cons, List.foldl_cons, Nat.add_zero]
  exact foldl (fun _ l h => h.readLine _ _ l) _ _ first

omit h in
/-- To find a line exposed, its copies are looked up in the caches that a state lists. -/
theorem of_listed (home : s.mem.poisoned L = true) (listed : ∀ e ∈ s.mem.hearths, ∀ c ∈ e.2.line L, c.poisoned = true) : Exposed L s where
  home := home
  copies k c held := by
    rcases sget_mem ({} : Hearth) s.mem.hearths k with none | entry
    · rw [State.hearth, none] at held
      cases held
    · exact listed _ entry c held

end Exposed

/-! ## How a REDUCE fails -/

section
variable {s : State} {t : Nat} {c : RunCmd} (runs : s.runnable t 0x08 = some c)
  (poison : (s.fetch (.tile t) (redFields c.desc).src ((redFields c.desc).count * (redFields c.desc).esz)).meetsPoison (.tile t) (redFields c.desc).src
    ((redFields c.desc).count * (redFields c.desc).esz) = true)
include runs poison

theorem execReduce_of_poison : execReduce t s =
    let read := s.fetch (.tile t) (redFields c.desc).src ((redFields c.desc).count * (redFields c.desc).esz)
    .next (finishCommand read t c (failed read (redChecks c.desc s t (s.tilePart t)).outs stPoison)) := by
  simp only [execReduce, runs, poison, if_true]

/-- A REDUCE whose source meets poison as it is read is over (R115, R127). -/
theorem exec_reduce_idle_of_poison : ∃ u, exec (.reduce t) s = .next u ∧ (u.tile t).running = none := by
  refine ⟨_, execReduce_of_poison runs poison, (finishCommand_ended_of_failed ?_).idle⟩
  exact (by decide : stPoison ≠ stOk)

end

/-! ## The counterexample -/

namespace EvictedSource

/-- REDUCE of 524289 I32 sums over tile 0 alone, from 0x1000: the fields of R127 as byte offset and value. -/
def desc : BitVec 512 :=
  BitVec.ofNat 512 (0x08 + ([(16, 0x1000), (22, 0x401000), (28, 1), (32, 524289), (36, 0x0D), (40, 9)].map (fun f : Nat × Nat => f.2 * 256 ^ f.1)).sum)

def cmd : RunCmd := { desc := desc, queue := 2, slot := 0 }

/-- The memory of `EvictedOperand.state`: of the set that the source's first line 0x40 shares, both ways are taken, the older by a good copy of the source's last
line 0x8040, whose home a patrol read has found poisoned. -/
def state : State := { EvictedOperand.state with tiles := [(0, { running := some cmd })] }

theorem source : (redFields cmd.desc).src = 0x1000 ∧ (redFields cmd.desc).count * (redFields cmd.desc).esz = 0x200004 := by decide +kernel

theorem ownersHold : state.OwnersHold := ownersHold_of_unowned (by decide +kernel)

/-- Before it is read, the source is free of poison. -/
theorem source_clean : state.meetsPoison (.tile 0) 0x1000 0x200004 = false := by decide +kernel

/-- The read of the first line takes the last one's copy from the cache. -/
theorem first_read_exposes_last : Exposed 0x8040 (state.readLine 0 0 0x40) :=
  .of_listed (by decide +kernel) (by decide +kernel)

theorem read_meets_poison : (state.fetch (.tile 0) 0x1000 0x200004).meetsPoison (.tile 0) 0x1000 0x200004 = true :=
  (Exposed.fetch_of_first (by decide +kernel) (by decide) first_read_exposes_last).meetsPoison (by decide)

end EvictedSource

open EvictedSource

/-- Refutes O40: the read of the source's first line evicts the good copy of its last, and the read of the last then meets the poison of its home. -/
theorem not_reductionsAndWaits : ¬ Obligations.ReductionsAndWaits := by
  unfold Obligations.ReductionsAndWaits
  rintro ⟨reduce, -⟩
  have runs : state.runnable 0 0x08 = some cmd := by decide +kernel
  have clean := source_clean
  have poison := read_meets_poison
  rw [← source.1, ← source.2] at clean poison
  obtain ⟨contributes, -⟩ := reduce state 0 cmd runs (by decide +kernel) ownersHold clean
  have noPeers : state.mem.reductions = [] := by decide +kernel
  obtain ⟨u, run, waits, -⟩ := contributes (fun k peer => by simp [noPeers] at peer)
  obtain ⟨v, fails, idle⟩ := exec_reduce_idle_of_poison runs poison
  obtain rfl : u = v := Host.Outcome.next.inj (run.symm.trans fails)
  rw [idle] at waits
  cases waits

end Sys2Proof.Machine
end

section
/-! PROOF.  The rules of coherence traffic: `Moved` says what the operations that raise no fault can change, `Filled` what a line brought into a cache leaves,
`Sheds` what becomes of the copies of a line that a home collects, `Recalled` how an owner answers a read, and `Accrues` what such traffic never takes back. -/
namespace Sys2Proof.Machine
open Sys2Proof

/-! ## Directory states, poison and copies as they are written -/

@[simp] theorem State.setDir_dirOf (s : State) (l d k : Nat) : (s.setDir l d).dirOf k = if k = l then d else s.dirOf k := sget_sset ..
@[simp] theorem State.setDir_hearth (s : State) (l d k : Nat) : (s.setDir l d).hearth k = s.hearth k := rfl
@[simp] theorem State.setDir_poisoned (s : State) (l d k : Nat) : (s.setDir l d).mem.poisoned k = s.mem.poisoned k := rfl
@[simp] theorem State.raise_vault (s : State) (f : FaultReq) (k : Nat) : (s.raise f).vault k = s.vault k := rfl
@[simp] theorem State.raise_hearth (s : State) (f : FaultReq) (k : Nat) : (s.raise f).hearth k = s.hearth k := rfl
@[simp] theorem State.setHearth_dirOf (s : State) (h l : Nat) (x : Hearth) : (s.setHearth h x).dirOf l = s.dirOf l := rfl
@[simp] theorem Hearth.setLine_line (x : Hearth) (l k : Nat) (c : Option RcLine) : (x.setLine l c).line k = if k = l then c else x.line k := sget_sset ..

@[simp] theorem State.wroteBack_hearth (s : State) (l k : Nat) (c : RcLine) : (s.wroteBack l c).hearth k = s.hearth k := by
  unfold State.wroteBack
  split <;> rfl
@[simp] theorem State.wroteBack_dirOf (s : State) (l k : Nat) (c : RcLine) : (s.wroteBack l c).dirOf k = s.dirOf k := by
  unfold State.wroteBack
  split <;> rfl

/-- A copy that is given back poisons nothing. -/
theorem State.wroteBack_poisoned {s : State} {l k : Nat} {c : RcLine} (poisoned : (s.wroteBack l c).mem.poisoned k = true) : s.mem.poisoned k = true := by
  unfold State.wroteBack at poisoned
  split at poisoned
  · rw [MemState.poisoned_setPoison] at poisoned
    split at poisoned
    · cases poisoned
    · exact poisoned
  · exact poisoned

/-! ## What moves where no fault is raised -/

/-- `t` is `s` after coherence traffic that raises no fault: poison, directory states, the exports of pages and the hearths have moved. -/
structure Moved (s t : State) : Prop where
  frame : t = { s with mem := { s.mem with poison := t.mem.poison, dir := t.mem.dir, exports := t.mem.exports, hearths := t.mem.hearths } }

namespace Moved

theorem refl (s : State) : Moved s s := ⟨rfl⟩

theorem trans {s t u : State} (h : Moved s t) (k : Moved t u) : Moved s u := ⟨k.frame.trans (by rw [h.frame])⟩

theorem mem {s t : State} (h : Moved s t) : t = { s with mem := t.mem } := by rw [h.frame]
theorem faults {s t : State} (h : Moved s t) : t.faults = s.faults := by rw [h.frame]
theorem vault {s t : State} (h : Moved s t) (v : Nat) : t.vault v = s.vault v := by rw [h.frame]; rfl
theorem zeroJobs {s t : State} (h : Moved s t) : t.mem.zeroJobs = s.mem.zeroJobs := by rw [h.frame]
theorem home {s t : State} (h : Moved s t) (a : Nat) : t.home a = s.home a := by rw [h.frame]; rfl
theorem ecc {s t : State} (h : Moved s t) : t.mem.ecc = s.mem.ecc := by rw [h.frame]
theorem readByte {s t : State} (h : Moved s t) (a : Nat) : t.readByte a = s.readByte a := by rw [h.frame]; rfl

variable {s t : State} (h : Moved s t)
include h

theorem setHearth (k : Nat) (x : Hearth) : Moved s (t.setHearth k x) := h.trans ⟨rfl⟩
theorem setDir (l d : Nat) : Moved s (t.setDir l d) := h.trans ⟨rfl⟩
theorem wroteBack (l : Nat) (c : RcLine) : Moved s (t.wroteBack l c) := by
  unfold State.wroteBack
  split
  · exact h.trans ⟨rfl⟩
  · exact h

theorem dropCopy (k l : Nat) : Moved s (t.dropCopy k l) := by
  unfold State.dropCopy
  split
  · exact h
  next c _ =>
    have dropped := (h.setHearth k ((t.hearth k).setLine l none)).wroteBack l c
    dsimp only
    split
    · exact dropped.setDir _ _
    · split
      · split
        · exact dropped.setDir _ _
        · exact dropped
      · exact dropped.setDir _ _

theorem fill (k l p : Nat) (d b : Bool) : Moved s (t.fill k l p d b) := by
  unfold State.fill
  dsimp only
  split
  · exact h.setHearth _ _
  · split
    · exact h.setHearth _ _
    · split
      · exact h
      · exact (h.dropCopy _ _).setHearth _ _

omit h in
theorem foldl {α : Type} {f : State → α → State} (hf : ∀ {t} a, Moved s t → Moved s (f t a)) (l : List α) {t : State} (h : Moved s t) : Moved s (l.foldl f t) := by
  induction l generalizing t with
  | nil => exact h
  | cons a l ih => exact ih (hf a h)

end Moved

/-! ## A copy leaves its hearth (R193) -/

section
variable (s : State) {h l : Nat}

theorem State.dropCopy_of_none (absent : (s.hearth h).line l = none) : s.dropCopy h l = s := by
  simp only [State.dropCopy, absent]

/-- A copy that is dropped leaves its own hearth, and no other line there or elsewhere is touched. -/
theorem State.dropCopy_hearth (h l k : Nat) (held : ((s.hearth h).line l).isSome) :
    (s.dropCopy h l).hearth k = if k = h then (s.hearth h).setLine l none else s.hearth k := by
  obtain ⟨c, held⟩ := Option.isSome_iff_exists.1 held
  simp only [State.dropCopy, held, apply_ite (State.hearth · k), State.setDir_hearth, State.wroteBack_hearth, State.setHearth_hearth, ite_self]

theorem State.dropCopy_hearth_of_ne {k : Nat} (h l : Nat) (hk : k ≠ h) : (s.dropCopy h l).hearth k = s.hearth k := by
  cases held : (s.hearth h).line l with
  | none => rw [s.dropCopy_of_none held]
  | some c => rw [s.dropCopy_hearth h l k (by rw [held]; rfl), if_neg hk]

theorem State.dropCopy_line (h l k : Nat) : ((s.dropCopy h l).hearth h).line k = if k = l then none else (s.hearth h).line k := by
  cases held : (s.hearth h).line l with
  | none =>
    rw [s.dropCopy_of_none held]
    split
    · next same => rw [same, held]
    · rfl
  | some c => simp [s.dropCopy_hearth h l h (by rw [held]; rfl)]

theorem State.dropCopy_self (h l : Nat) : ((s.dropCopy h l).hearth h).line l = none := by rw [State.dropCopy_line, if_pos rfl]

theorem State.dropCopy_dirOf_of_ne {k : Nat} (h l : Nat) (hk : k ≠ l) : (s.dropCopy h l).dirOf k = s.dirOf k := by
  unfold State.dropCopy
  split
  · rfl
  · simp [apply_ite (State.dirOf · k), hk]

/-- The owner's copy leaves the line to nobody. -/
theorem State.dropCopy_dirOf_of_dirty {c : RcLine} (held : (s.hearth h).line l = some c) (dirty : c.dirty = true) : (s.dropCopy h l).dirOf l = 0 := by
  simp [State.dropCopy, held, dirty]

/-- A clean copy leaves the holders. -/
theorem State.dropCopy_dirOf_of_clean {c : RcLine} (held : (s.hearth h).line l = some c) (clean : c.dirty = false) (shared : owned (s.dirOf l) = false) :
    (s.dropCopy h l).dirOf l = Nat.xor (s.dirOf l) (if bit (s.dirOf l) h then 2 ^ h else 0) := by
  simp [State.dropCopy, held, clean, shared]

end

theorem bit_eq_testBit (v b : Nat) : bit v b = v.testBit b := by
  simp [bit, Nat.testBit_eq_decide_div_mod_eq, Nat.shiftRight_eq_div_pow, Bool.beq_eq_decide_eq]

/-- The holders without hearth h. -/
theorem bit_without (d h k : Nat) : bit (Nat.xor d (if bit d h then 2 ^ h else 0)) k = if k = h then false else bit d k := by
  simp only [bit_eq_testBit]
  show (d ^^^ _).testBit k = _
  rw [Nat.testBit_xor]
  by_cases same : k = h
  · subst same
    cases d.testBit k <;> simp
  · cases d.testBit h <;> simp [same, Ne.symm same]

/-! ## A line is brought into a cache (R190, R191) -/

/-- `t` is `s` with a copy of line l in hearth h, for which at most another line's copy has left that hearth. -/
structure Filled (h l : Nat) (dirty poisoned : Bool) (s t : State) : Prop where
  moved : Moved s t
  copy : ∃ c, (t.hearth h).line l = some c ∧ c.dirty = dirty ∧ c.poisoned = poisoned
  others : ∀ k, k ≠ h → t.hearth k = s.hearth k
  dir : t.dirOf l = s.dirOf l

theorem State.filled_setLine {s : State} {h l : Nat} {x : Hearth} {c : RcLine} {dirty poisoned : Bool} (hd : c.dirty = dirty) (hp : c.poisoned = poisoned) :
    Filled h l dirty poisoned s (s.setHearth h (x.setLine l (some c))) where
  moved := (Moved.refl s).setHearth ..
  copy := ⟨c, by simp, hd, hp⟩
  others k hk := by simp [hk]
  dir := rfl

/-- The copy that makes room is of another line, or the line's own place is empty already. -/
theorem Filled.of_dropCopy {s t : State} {h l v : Nat} {dirty poisoned : Bool} (absent : (s.hearth h).line l = none)
    (f : Filled h l dirty poisoned (s.dropCopy h v) t) : Filled h l dirty poisoned s t where
  moved := ((Moved.refl s).dropCopy h v).trans f.moved
  copy := f.copy
  others k hk := by rw [f.others k hk, s.dropCopy_hearth_of_ne h v hk]
  dir := by
    rw [f.dir]
    by_cases same : l = v
    · rw [s.dropCopy_of_none (same ▸ absent)]
    · exact s.dropCopy_dirOf_of_ne h v same

/-- A loop whose every round finds something finds nothing only where it makes no round. -/
theorem eq_nil_of_foldl_eq_none {α β : Type} {f : Option β → α → Option β} (finds : ∀ m a, f m a ≠ none) {l : List α} {m : Option β}
    (missed : l.foldl f m = none) : l = [] := by
  obtain rfl | ⟨before, last, rfl⟩ := l.eq_nil_or_concat
  · rfl
  · rw [List.concat_eq_append, List.foldl_append] at missed
    exact absurd missed (finds _ _)

/-- A line is brought in: to its place, where the hearth holds it already; to a free way; or to the way of the least recently used line. -/
theorem State.fill_filled {s : State} {h l p : Nat} (room : ((s.hearth h).line l).isSome ∨ s.hasWays h p = true) (dirty poisoned : Bool) :
    Filled h l dirty poisoned s (s.fill h l p dirty poisoned) := by
  unfold State.fill
  extract_lets x used entry
  split
  · exact State.filled_setLine rfl rfl
  next absent =>
    have ways : 0 < (x.wayRange p).2 := by
      rcases room with held | ways
      · rw [show (s.hearth h).line l = none from absent] at held
        cases held
      · simp only [State.hasWays, Bool.and_eq_true, decide_eq_true_eq] at ways
        exact ways.2
    dsimp only
    split
    · exact State.filled_setLine rfl rfl
    next full =>
      split
      next nothing =>
        have free := eq_nil_of_foldl_eq_none (fun m e => by
          cases m with
          | none => exact Option.some_ne_none e
          | some k => dsimp only; split <;> exact Option.some_ne_none _) nothing
        rw [free] at full
        exact absurd rfl (List.find?_eq_none.1 full (x.wayRange p).1 (List.mem_map.2 ⟨0, List.mem_range.2 ways, rfl⟩))
      next vl vc _ => exact .of_dropCopy absent (State.filled_setLine rfl rfl)

/-! ## A home collects the copies of a line (R193, R210) -/

theorem Coh.hearthUp {s t : State} (h : Coh s t) : t.hearthUp = s.hearthUp := by
  have links : t.links = s.links := by rw [h.rest]
  funext hm k
  simp only [State.hearthUp, State.die, State.reach_of_links links, links]

/-- `t` is `s` after coherence traffic that leaves hearth h alone and brings no copy of line l into any hearth. -/
structure Sheds (h l : Nat) (s t : State) : Prop where
  coh : Coh s t
  own : t.hearth h = s.hearth h
  gone : ∀ k, (s.hearth k).line l = none → (t.hearth k).line l = none

namespace Sheds

variable {h l : Nat} {s t : State}

theorem refl (h l : Nat) (s : State) : Sheds h l s s := ⟨.refl s, rfl, fun _ absent => absent⟩

theorem trans {u : State} (a : Sheds h l s t) (b : Sheds h l t u) : Sheds h l s u :=
  ⟨a.coh.trans b.coh, b.own.trans a.own, fun k absent => b.gone k (a.gone k absent)⟩

theorem of_hearths (coh : Coh s t) (hearths : ∀ k, t.hearth k = s.hearth k) : Sheds h l s t :=
  ⟨coh, hearths h, fun k absent => by rw [hearths, absent]⟩

theorem dropCopy (s : State) {k : Nat} (hk : k ≠ h) : Sheds h l s (s.dropCopy k l) where
  coh := (Coh.refl s).dropCopy k l
  own := s.dropCopy_hearth_of_ne k l (Ne.symm hk)
  gone j absent := by
    by_cases same : j = k
    · rw [same, s.dropCopy_line, if_pos rfl]
    · rw [s.dropCopy_hearth_of_ne k l same, absent]

/-- What the other hearths are asked for, they still answer. -/
theorem answers (a : Sheds h l s t) {hm : Home} {k : Nat} (answer : s.hearthUp hm k = true ∨ (s.hearth k).line l = none) :
    t.hearthUp hm k = true ∨ (t.hearth k).line l = none := by
  rw [a.coh.hearthUp]
  exact answer.imp_right (a.gone k)

end Sheds

theorem State.poisonLine_hearth (s : State) (l cause k : Nat) : (s.poisonLine l cause).hearth k = s.hearth k := by
  unfold State.poisonLine
  dsimp only
  split <;> rfl

theorem State.lostOwner_hearth (s : State) (l o k : Nat) : (s.lostOwner l o).hearth k = s.hearth k := s.poisonLine_hearth l 2 k

theorem State.dirRead_hearth (s : State) (l k : Nat) (hm : Home) : (s.dirRead l hm).2.hearth k = s.hearth k := by
  unfold State.dirRead
  dsimp only
  split <;> rfl

theorem State.answered_eq (s : State) (hm : Home) (l k : Nat) : s.answered hm l k = if s.hearthUp hm k then (s.hearth k).line l else none := by
  unfold State.answered
  cases (s.hearth k).line l <;> simp

/-- An owner that the line is recalled from is invalidated. -/
theorem State.recall_sheds (s : State) (hm : Home) (l : Nat) {h o : Nat} (ho : o ≠ h) : Sheds h l s (s.recall hm l o false) := by
  have coh := (Coh.refl s).recalled hm l o false
  unfold State.recall at coh ⊢
  split at coh
  · refine ⟨coh, ?_, fun k absent => ?_⟩
    · simp [Ne.symm ho]
    · by_cases same : k = o <;> simp [same, absent]
  · exact .of_hearths coh (fun k => by rw [State.setDir_hearth, State.lostOwner_hearth])

section
variable (s : State) (hm : Home) (l h : Nat)

/-- Hearth k's turn in an invalidation. -/
def State.invalidate (s : State) (k : Nat) : State := if k = h || (s.answered hm l k).isNone then s else s.dropCopy k l

theorem State.invalidateOthers_eq : s.invalidateOthers hm l h = (List.range 4).foldl (State.invalidate hm l h) s := rfl

theorem State.invalidate_sheds (k : Nat) : Sheds h l s (s.invalidate hm l h k) := by
  unfold State.invalidate
  split
  · exact .refl ..
  next asked =>
    simp only [Bool.or_eq_true, decide_eq_true_eq, not_or] at asked
    exact .dropCopy s asked.1

theorem State.invalidate_line {k : Nat} (hk : k ≠ h) (up : s.hearthUp hm k = true) : ((s.invalidate hm l h k).hearth k).line l = none := by
  unfold State.invalidate
  split
  next silent => simpa [hk, State.answered_eq, up] using silent
  · rw [State.dropCopy_line, if_pos rfl]

theorem State.invalidations_shed (ks : List Nat) (s : State) : Sheds h l s (ks.foldl (State.invalidate hm l h) s) := by
  induction ks generalizing s with
  | nil => exact .refl ..
  | cons k ks ih => exact (s.invalidate_sheds hm l h k).trans (ih _)

theorem State.invalidateOthers_sheds : Sheds h l s (s.invalidateOthers hm l h) := State.invalidations_shed ..

/-- No other hearth that answers keeps a copy. -/
theorem State.invalidateOthers_line {k : Nat} (hk : k < 4) (other : k ≠ h) (answer : s.hearthUp hm k = true ∨ (s.hearth k).line l = none) :
    ((s.invalidateOthers hm l h).hearth k).line l = none := by
  rcases answer with up | absent
  · obtain ⟨before, after, turns⟩ := List.append_of_mem (List.mem_range.2 hk)
    rw [State.invalidateOthers_eq, turns, List.foldl_append, List.foldl_cons]
    have earlier := State.invalidations_shed hm l h before s
    exact (State.invalidations_shed hm l h after _).gone k (State.invalidate_line _ hm l h other (by rw [earlier.coh.hearthUp, up]))
  · exact (s.invalidateOthers_sheds hm l h).gone k absent

end

/-! ## An owner is recalled for a read (R193) -/

/-- `t` is `s` once hearth k has given its copy c of line l back and keeps it clean. -/
structure Recalled (k l : Nat) (c : RcLine) (s t : State) : Prop where
  moved : Moved s t
  dir : t.dirOf l = 2 ^ k
  hearth : ∀ j, t.hearth j = if j = k then (s.hearth k).setLine l (some { c with dirty := false, stale := [] }) else s.hearth j

theorem Recalled.copy {k l : Nat} {c : RcLine} {s t : State} (h : Recalled k l c s t) : (t.hearth k).line l = some { c with dirty := false, stale := [] } := by
  simp [h.hearth]

theorem State.recall_recalled {s : State} {hm : Home} {k l : Nat} {c : RcLine} (up : s.hearthUp hm k = true) (held : (s.hearth k).line l = some c) :
    Recalled k l c s (s.recall hm l k true) := by
  have answer : s.answered hm l k = some c := by simp [State.answered_eq, up, held]
  simp only [State.recall, answer, if_true]
  exact ⟨(((Moved.refl s).setHearth _ _).wroteBack _ _).setDir _ _, by simp, fun j => by simp⟩

/-! ## The transactions at a home in directory mode -/

@[simp] theorem State.eccEvent_clean (s : State) (l : Nat) : s.eccEvent l .clean = s := by
  simp [State.eccEvent]

theorem State.dirRead_of_valid {s : State} {l : Nat} (valid : dirValid (s.dirOf l) = true) (hm : Home) : s.dirRead l hm = (s.dirOf l, s) := by
  simp [State.dirRead, valid]

theorem dirValid_owner {k : Nat} (hk : k < 4) : dirValid (16 + k) = true ∧ owned (16 + k) = true ∧ (16 + k) % 4 = k := by
  simp [dirValid, owned]
  omega

/-- A miss of hearth h that the line's home answers, in directory mode, once the line has been read there: the owner it has is asked for it. -/
def State.missed (s : State) (hm : Home) (h l p : Nat) : State :=
  let r := s.dirRead l hm
  let t := if owned r.1 then (if r.1 % 4 = h then (r.2.lostOwner l h).setDir l 0 else r.2.recall hm l (r.1 % 4) true) else r.2
  (t.setDir l ((if owned r.1 then t.dirOf l else r.1) ||| 2 ^ h)).fill h l p false (t.mem.poisoned l)

/-- An ownership request of hearth h before the holders are invalidated: an owner has been asked for the line. -/
def State.ownerAsked (s : State) (hm : Home) (h l : Nat) : State :=
  let r := s.dirRead l hm
  if owned r.1 then (if r.1 % 4 = h then (if ((r.2.hearth h).line l).isSome then r.2 else r.2.lostOwner l h) else r.2.recall hm l (r.1 % 4) false) else r.2

/-- A home-side write before the holders are invalidated: an owner that does not answer has been found out. -/
def State.ownerSought (s : State) (hm : Home) (l : Nat) : State :=
  let r := s.dirRead l hm
  if owned r.1 ∧ (r.2.answered hm l (r.1 % 4)).isNone then r.2.lostOwner l (r.1 % 4) else r.2

section
variable {s : State} {h l : Nat} {hm : Home} (home : s.home (l * 64) = some hm) (directory : s.directory hm = true)

include home directory in
theorem readMiss_of_directory (up : s.homeUpFor (4 + h) hm = true) (p : Nat) (e : EccEvent) : readMiss s h l p e = (s.eccEvent l e).missed hm h l p := by
  have mode : (s.eccEvent l e).directory hm = true := by
    rw [← directory]
    unfold State.directory
    rw [((Coh.refl s).eccEvent l e).mem]
  simp only [readMiss, home, up, mode, Bool.not_true, Bool.false_eq_true, if_false, if_true]
  rfl

theorem State.missed_of_shared (valid : dirValid (s.dirOf l) = true) (shared : owned (s.dirOf l) = false) (hm : Home) (h p : Nat) :
    s.missed hm h l p = (s.setDir l (s.dirOf l ||| 2 ^ h)).fill h l p false (s.mem.poisoned l) := by
  simp [State.missed, State.dirRead_of_valid valid, shared]

theorem State.missed_of_owner {k : Nat} (hk : k < 4) (other : k ≠ h) (owner : s.dirOf l = 16 + k) (hm : Home) (p : Nat) :
    s.missed hm h l p = ((s.recall hm l k true).setDir l ((s.recall hm l k true).dirOf l ||| 2 ^ h)).fill h l p false
      ((s.recall hm l k true).mem.poisoned l) := by
  obtain ⟨valid, isOwned, mod⟩ := dirValid_owner hk
  rw [← owner] at valid isOwned mod
  simp [State.missed, State.dirRead_of_valid valid, isOwned, mod, other]

include home directory in
theorem ownershipRequest_of_directory (up : s.homeUpFor (4 + h) hm = true) (p : Nat) (whole : Bool) :
    ∃ poisoned, ownershipRequest s h l p whole .clean = (((s.ownerAsked hm h l).invalidateOthers hm l h).setDir l (16 + h)).fill h l p true poisoned := by
  simp only [ownershipRequest, home, up, directory, State.eccEvent_clean, ite_self, Bool.not_true, Bool.false_eq_true, if_false, if_true]
  exact ⟨_, rfl⟩

include home directory in
theorem homeSide_write_of_directory (ready : s.die hm.die = .ready) : homeSide s l true = ((s.ownerSought hm l).invalidateOthers hm l 4).setDir l 0 := by
  simp only [homeSide, home, ready, directory, bne_self_eq_false, Bool.false_eq_true, if_false, if_true]
  rfl

include home directory in
theorem homeSide_read_of_owner (ready : s.die hm.die = .ready) {k : Nat} (hk : k < 4) (owner : s.dirOf l = 16 + k) :
    homeSide s l false = s.recall hm l k true := by
  obtain ⟨valid, isOwned, mod⟩ := dirValid_owner hk
  rw [← owner] at valid isOwned mod
  simp [homeSide, home, ready, directory, State.dirRead_of_valid valid, isOwned, mod]

theorem State.dirRead_sheds (s : State) (hm : Home) (h l : Nat) : Sheds h l s (s.dirRead l hm).2 :=
  .of_hearths ((Coh.refl s).dirRead l hm) (s.dirRead_hearth l · hm)

theorem State.lostOwner_sheds (s : State) (h l o : Nat) : Sheds h l s (s.lostOwner l o) :=
  .of_hearths ((Coh.refl s).lostOwner l o) (s.lostOwner_hearth l o)

theorem State.ownerAsked_sheds (s : State) (hm : Home) (h l : Nat) : Sheds h l s (s.ownerAsked hm h l) := by
  refine (s.dirRead_sheds hm h l).trans ?_
  unfold State.ownerAsked
  extract_lets r
  split
  · split
    · split
      · exact .refl ..
      · exact State.lostOwner_sheds ..
    next other => exact State.recall_sheds _ hm l other
  · exact .refl ..

theorem State.ownerSought_sheds (s : State) (hm : Home) (h l : Nat) : Sheds h l s (s.ownerSought hm l) := by
  refine (s.dirRead_sheds hm h l).trans ?_
  unfold State.ownerSought
  extract_lets r
  split
  · exact State.lostOwner_sheds ..
  · exact .refl ..

end

/-! ## What has been counted and raised stays (R180, R215) -/

/-- `t` holds the corrected errors that vaults have counted in `s`, and the faults raised there. -/
structure Accrues (s t : State) : Prop where
  ce : ∀ v, (t.vault v).ceCount = (s.vault v).ceCount
  raised : ∀ f ∈ s.faults.raised, f ∈ t.faults.raised

namespace Accrues

variable {s t : State}

theorem refl (s : State) : Accrues s s := ⟨fun _ => rfl, fun _ h => h⟩
theorem trans {u : State} (a : Accrues s t) (b : Accrues t u) : Accrues s u :=
  ⟨fun v => (b.ce v).trans (a.ce v), fun f h => b.raised f (a.raised f h)⟩
theorem of_moved (h : Moved s t) : Accrues s t := ⟨fun v => by rw [h.vault], fun f hf => by rwa [h.faults]⟩
theorem raise (s : State) (f : FaultReq) : Accrues s (s.raise f) := ⟨fun _ => rfl, fun _ h => by simp [h]⟩
theorem setDir (s : State) (l d : Nat) : Accrues s (s.setDir l d) := .of_moved ((Moved.refl s).setDir l d)
theorem poisonLine (s : State) (l cause : Nat) : Accrues s (s.poisonLine l cause) := by
  unfold State.poisonLine
  extract_lets u
  split
  · refine ⟨fun v => ?_, fun _ h => h⟩
    rw [State.setVault_vault]
    split
    next same => rw [same]; rfl
    · rfl
  · exact ⟨fun _ => rfl, fun _ h => h⟩
theorem lostOwner (s : State) (l o : Nat) : Accrues s (s.lostOwner l o) := (poisonLine s l 2).trans (raise _ _)
theorem dirRead (s : State) (l : Nat) (hm : Home) : Accrues s (s.dirRead l hm).2 := by
  unfold State.dirRead
  dsimp only
  split
  · exact refl s
  · exact raise _ _
theorem recalled (s : State) (hm : Home) (l o : Nat) (keep : Bool) : Accrues s (s.recall hm l o keep) := by
  unfold State.recall
  split
  · exact .of_moved ((((Moved.refl s).setHearth _ _).wroteBack _ _).setDir _ _)
  · exact (lostOwner s l o).trans (setDir _ _ _)

theorem missed (s : State) (hm : Home) (h l p : Nat) : Accrues s (s.missed hm h l p) := by
  refine (dirRead s l hm).trans ?_
  unfold State.missed
  extract_lets r t
  refine Accrues.trans (t := t) ?_ (.of_moved (((Moved.refl t).setDir ..).fill ..))
  unfold t
  split
  · split
    · exact (lostOwner ..).trans (setDir ..)
    · exact recalled ..
  · exact refl _

end Accrues

/-- The read of a line at its vault meets a corrected error. -/
theorem State.eccEvent_corrected {s : State} {l v ch : Nat} (home : s.home (l * 64) = some (.vault v ch)) (ecc : s.mem.ecc = true) :
    s.eccEvent l .corrected = (s.setVault v { s.vault v with ceCount := satAdd (2 ^ 32 - 1) (s.vault v).ceCount 1 }).raise { source := 133 + ch, addr := l * 64 } := by
  simp [State.eccEvent, home, ecc]

end Sys2Proof.Machine
end

section
/-! PROOF.  O42.  Each command of the statement with the state in which it ends, and what the rules of the traffic say of that state. -/
namespace Sys2Proof.Machine
open Sys2Proof

/-! ## The reads and writes of a line (R190-R193) -/

theorem State.hasWays_of_hearth {s t : State} {h : Nat} (same : t.hearth h = s.hearth h) (p : Nat) : t.hasWays h p = s.hasWays h p := by
  simp only [State.hasWays, same]

theorem Coh.frame {s t : State} (h : Coh s t) : t = { s with mem := t.mem, faults := t.faults } := by rw [h.rest]

theorem mayCache_iff {s : State} {h a : Nat} : s.mayCache h a = true ↔
    h < 4 ∧ s.dieReady (4 + h) = true ∧ s.cacheable h a = true ∧ s.hasWays h (s.addrPart a) = true := by
  simp [State.mayCache, and_assoc]

section
variable {s : State} {h a : Nat} (may : s.mayCache h a = true)
include may

theorem exec_readMiss_of_absent (absent : (s.hearth h).line (a / 64) = none) (e : EccEvent) :
    exec (.readMiss h a e) s = .next (readMiss s h (a / 64) (s.addrPart a) e) := by
  show execReadMiss h a e s = _
  simp [execReadMiss, may, absent]

theorem exec_readMiss_of_held {c : RcLine} (held : (s.hearth h).line (a / 64) = some c) (e : EccEvent) :
    exec (.readMiss h a e) s = .next (rcError s h (a / 64) (s.addrPart a) e) := by
  show execReadMiss h a e s = _
  simp [execReadMiss, may, held]

theorem exec_ownershipRequest (whole : Bool) (e : EccEvent) :
    exec (.ownershipRequest h ⟨a, whole, e⟩) s = .next (ownershipRequest s h (a / 64) (s.addrPart a) whole e) :=
  if_pos may

/-- A line brought into the hearth of a state that has left that hearth as it was. -/
theorem fill_of_mayCache {t : State} (same : t.hearth h = s.hearth h) (dirty poisoned : Bool) :
    Filled h (a / 64) dirty poisoned t (t.fill h (a / 64) (s.addrPart a) dirty poisoned) := by
  obtain ⟨-, -, -, ways⟩ := mayCache_iff.1 may
  exact State.fill_filled (.inr ((State.hasWays_of_hearth same _).trans ways)) dirty poisoned

/-- The home does not answer (R210). -/
theorem readMiss_lost {hm : Home} (home : s.home (a / 64 * 64) = some hm) (down : s.homeUpFor (4 + h) hm = false) (absent : (s.hearth h).line (a / 64) = none) :
    ∃ u, exec (.readMiss h a .clean) s = .next u ∧ Filled h (a / 64) false true s u := by
  refine ⟨_, (exec_readMiss_of_absent may absent _).trans ?_, fill_of_mayCache may rfl false true⟩
  simp only [readMiss, home, down, Bool.not_false, if_true]

section
variable {hm : Home} (home : s.home (a / 64 * 64) = some hm) (up : s.homeUpFor (4 + h) hm = true) (directory : s.directory hm = true)
include home up directory

theorem exec_readMiss_of_directory (absent : (s.hearth h).line (a / 64) = none) (e : EccEvent) :
    exec (.readMiss h a e) s = .next ((s.eccEvent (a / 64) e).missed hm h (a / 64) (s.addrPart a)) := by
  rw [exec_readMiss_of_absent may absent, readMiss_of_directory home directory up]

/-- No hearth owns the line. -/
theorem readMiss_shared (absent : (s.hearth h).line (a / 64) = none) (valid : dirValid (s.dirOf (a / 64)) = true) (shared : owned (s.dirOf (a / 64)) = false) :
    ∃ u, exec (.readMiss h a .clean) s = .next u ∧
      Filled h (a / 64) false (s.mem.poisoned (a / 64)) (s.setDir (a / 64) (s.dirOf (a / 64) ||| 2 ^ h)) u := by
  refine ⟨_, exec_readMiss_of_directory may home up directory absent _, ?_⟩
  rw [State.eccEvent_clean, State.missed_of_shared valid shared]
  refine fill_of_mayCache may ?_ _ _
  rfl

/-- Another hearth owns the line and answers. -/
theorem readMiss_owned {k : Nat} {c : RcLine} (hk : k < 4) (other : k ≠ h) (asks : s.hearthUp hm k = true) (absent : (s.hearth h).line (a / 64) = none)
    (owner : s.dirOf (a / 64) = 16 + k) (held : (s.hearth k).line (a / 64) = some c) :
    ∃ u t, exec (.readMiss h a .clean) s = .next u ∧ Recalled k (a / 64) c s t ∧
      Filled h (a / 64) false (t.mem.poisoned (a / 64)) (t.setDir (a / 64) (2 ^ k ||| 2 ^ h)) u := by
  have recalled := State.recall_recalled asks held
  refine ⟨_, _, exec_readMiss_of_directory may home up directory absent _, recalled, ?_⟩
  rw [State.eccEvent_clean, State.missed_of_owner hk other owner, recalled.dir]
  exact fill_of_mayCache may (by simp [recalled.hearth, Ne.symm other]) _ _

/-- Every other hearth answers or holds nothing. -/
theorem ownershipRequest_owns (whole : Bool) (answers : ∀ k < 4, k ≠ h → s.hearthUp hm k = true ∨ (s.hearth k).line (a / 64) = none) :
    ∃ (u t : State) (poisoned : Bool), exec (.ownershipRequest h ⟨a, whole, .clean⟩) s = .next u ∧ Coh s u ∧ (∀ k < 4, k ≠ h → (t.hearth k).line (a / 64) = none) ∧
      Filled h (a / 64) true poisoned (t.setDir (a / 64) (16 + h)) u := by
  obtain ⟨poisoned, e⟩ := ownershipRequest_of_directory home directory up (s.addrPart a) whole
  have asked := s.ownerAsked_sheds hm h (a / 64)
  refine ⟨_, (s.ownerAsked hm h (a / 64)).invalidateOthers hm (a / 64) h, poisoned, exec_ownershipRequest may whole _, (Coh.refl s).ownershipRequest .., fun k hk other => ?_, ?_⟩
  · exact State.invalidateOthers_line _ hm (a / 64) h hk other (asked.answers (answers k hk other))
  · rw [e]
    refine fill_of_mayCache may ?_ _ _
    exact (asked.trans (State.invalidateOthers_sheds _ hm (a / 64) h)).own

/-- The line's own error at its vault (R180). -/
theorem readMiss_corrected {v ch : Nat} (vault : hm = .vault v ch) (absent : (s.hearth h).line (a / 64) = none) :
    ∃ u, exec (.readMiss h a .corrected) s = .next u ∧ Coh s u ∧ (u.vault v).ceCount = satAdd (2 ^ 32 - 1) (s.vault v).ceCount 1 ∧
      { source := 133 + ch, addr := a / 64 * 64 } ∈ u.faults.raised := by
  subst vault
  have met := State.eccEvent_corrected home directory
  have coh := (Coh.refl s).readMiss h (a / 64) (s.addrPart a) .corrected
  rw [readMiss_of_directory home directory up] at coh
  refine ⟨_, exec_readMiss_of_directory may home up directory absent _, coh, ?_⟩
  obtain ⟨ce, raised⟩ := Accrues.missed (s.eccEvent (a / 64) .corrected) (.vault v ch) h (a / 64) (s.addrPart a)
  exact ⟨(ce v).trans (by simp [met]), raised _ (by simp [met])⟩

end
end

theorem exec_homeSideAccess (a : Nat) (write : Bool) (s : State) : exec (.homeSideAccess a write) s = .next (homeSide s (a / 64) write) := rfl

theorem ready_of_homeUpFor {s : State} {d : Nat} {hm : Home} (up : s.homeUpFor d hm = true) : s.die hm.die = .ready := by
  simp only [State.homeUpFor, Bool.and_eq_true, beq_iff_eq] at up
  exact up.1

/-- A home-side write leaves no copy where every hearth answers. -/
theorem homeSide_write {s : State} {l : Nat} {hm : Home} (home : s.home (l * 64) = some hm) (ready : s.die hm.die = .ready) (directory : s.directory hm = true)
    (answers : ∀ k < 4, s.hearthUp hm k = true ∨ (s.hearth k).line l = none) :
    Coh s (homeSide s l true) ∧ (homeSide s l true).dirOf l = 0 ∧ ∀ k < 4, ((homeSide s l true).hearth k).line l = none := by
  refine ⟨(Coh.refl s).homeSide l true, ?_⟩
  rw [homeSide_write_of_directory home directory ready]
  refine ⟨by simp, fun k hk => ?_⟩
  rw [State.setDir_hearth]
  exact State.invalidateOthers_line _ hm l 4 hk (by omega) ((s.ownerSought_sheds hm 4 l).answers (answers k hk))

/-! ## A copy's own error (R180, R185, R213) -/

section
variable {s : State} {h l : Nat} {c : RcLine} (held : (s.hearth h).line l = some c)

/-- A copy in which a corrected error has been counted. -/
def State.copyCorrected (s : State) (h l : Nat) : State :=
  (s.setHearth h { s.hearth h with ceCount := satAdd (2 ^ 32 - 1) (s.hearth h).ceCount 1 }).raise { source := 68 + h, addr := l * 64 }

/-- An uncorrectable error of a copy has been counted, and the copy is gone. -/
def State.copyLost (s : State) (h l : Nat) : State :=
  (s.setHearth h { s.hearth h with ueCount := satAdd (2 ^ 32 - 1) (s.hearth h).ueCount 1 }).dropCopy h l

include held in
theorem rcError_corrected (p : Nat) : rcError s h l p .corrected = (s.copyCorrected h l).hit h l := by
  simp only [rcError, held]
  rfl

theorem State.hit_faults (s : State) (h l : Nat) : (s.hit h l).faults = s.faults := by
  unfold State.hit
  dsimp only
  split <;> rfl

theorem State.hit_ceCount (s : State) (h l : Nat) : ((s.hit h l).hearth h).ceCount = (s.hearth h).ceCount := by
  unfold State.hit
  dsimp only
  split
  · rfl
  · simp [Hearth.setLine]

theorem State.copyLost_moved (s : State) (h l : Nat) : Moved s (s.copyLost h l) := ((Moved.refl s).setHearth _ _).dropCopy h l

theorem State.copyLost_line (s : State) (h l : Nat) : ((s.copyLost h l).hearth h).line l = none := State.dropCopy_self _ h l

/-- Giving a copy up poisons nothing. -/
theorem State.dropCopy_poisoned {s : State} {h l k : Nat} (poisoned : (s.dropCopy h l).mem.poisoned k = true) : s.mem.poisoned k = true := by
  cases held : (s.hearth h).line l with
  | none => rwa [s.dropCopy_of_none held] at poisoned
  | some c =>
    simp only [State.dropCopy, held, apply_ite (fun u : State => u.mem.poisoned k), State.setDir_poisoned, ite_self] at poisoned
    exact State.wroteBack_poisoned (s := s.setHearth h _) poisoned

theorem Moved.poisonable {s t : State} (m : Moved s t) (l : Nat) : t.poisonable l = s.poisonable l := by
  rw [State.poisonable, State.poisonable, m.home, m.ecc]

include held in
theorem rcError_uncorrectable (dirty : c.dirty = true) (p : Nat) (b : Bool) : rcError s h l p (.uncorrectable b) =
    (if s.poisonable l then (s.copyLost h l).poisonLine l 3 else (s.copyLost h l).freeBytes (l * 64) 64).raise
      { source := 72 + h, owner := p, addr := l * 64 } := by
  rw [← (s.copyLost_moved h l).poisonable]
  simp only [rcError, held, dirty, if_true]
  rfl

theorem State.poisonLine_poisoned (s : State) (l cause : Nat) : (s.poisonLine l cause).mem.poisoned l = true := by
  have marked : (s.mem.setPoison l true).poisoned l = true := by rw [MemState.poisoned_setPoison, if_pos rfl]
  unfold State.poisonLine
  dsimp only
  split <;> exact marked

theorem State.poisonLine_lastCause {s : State} {l v ch : Nat} (home : s.home (l * 64) = some (.vault v ch)) (cause : Nat) :
    ((s.poisonLine l cause).vault v).lastCause = cause := by
  have same : ({ s with mem := s.mem.setPoison l true } : State).home (l * 64) = some (.vault v ch) := home
  simp only [State.poisonLine, same, State.setVault_vault, if_true]

end

section
variable {s : State} {h a : Nat} (may : s.mayCache h a = true) {c : RcLine} (held : (s.hearth h).line (a / 64) = some c)
include may held

/-- A corrected error of a copy counts at its hearth. -/
theorem readMiss_copyCorrected : ∃ u, exec (.readMiss h a .corrected) s = .next u ∧ Coh s u ∧
    (u.hearth h).ceCount = satAdd (2 ^ 32 - 1) (s.hearth h).ceCount 1 ∧ u.faults.raised = s.faults.raised ++ [{ source := 68 + h, addr := a / 64 * 64 }] := by
  refine ⟨_, (exec_readMiss_of_held may held _).trans (congrArg _ (rcError_corrected held _)), (((Coh.refl s).setHearth _ _).raise _).hit _ _, ?_, ?_⟩
  · rw [State.hit_ceCount]
    simp [State.copyCorrected]
  · rw [State.hit_faults]
    rfl

/-- An uncorrectable error of a dirty copy, where its line cannot be poisoned. -/
theorem readMiss_copyFreed (dirty : c.dirty = true) (free : s.poisonable (a / 64) = false) (b : Bool) :
    exec (.readMiss h a (.uncorrectable b)) s = .next (((s.copyLost h (a / 64)).freeBytes (a / 64 * 64) 64).raise
      { source := 72 + h, owner := s.addrPart a, addr := a / 64 * 64 }) := by
  rw [exec_readMiss_of_held may held, rcError_uncorrectable held dirty, free]
  rfl

/-- An uncorrectable error of a dirty copy, where its line can be poisoned. -/
theorem readMiss_copyPoisons (dirty : c.dirty = true) (poisons : s.poisonable (a / 64) = true) (b : Bool) :
    exec (.readMiss h a (.uncorrectable b)) s = .next (((s.copyLost h (a / 64)).poisonLine (a / 64) 3).raise
      { source := 72 + h, owner := s.addrPart a, addr := a / 64 * 64 }) := by
  rw [exec_readMiss_of_held may held, rcError_uncorrectable held dirty, poisons]
  rfl

end

theorem State.freeBytes_mem (s : State) (a n : Nat) : (s.freeBytes a n).mem = { s.mem with bytes := (s.freeBytes a n).mem.bytes, junk := (s.freeBytes a n).mem.junk } := by
  unfold State.freeBytes State.undefine
  split <;> rfl

theorem State.freeBytes_hearth (s : State) (a n k : Nat) : (s.freeBytes a n).hearth k = s.hearth k := by
  rw [State.hearth, State.freeBytes_mem]
  rfl

theorem State.freeBytes_poisoned (s : State) (a n k : Nat) : (s.freeBytes a n).mem.poisoned k = s.mem.poisoned k := by
  rw [State.freeBytes_mem]
  rfl

/-! ## A hearth gives a copy up (R193) -/

theorem exec_writeBack {s : State} {h a : Nat} {c : RcLine} (hh : h < 4) (held : (s.hearth h).line (a / 64) = some c) (dirty : c.dirty = true) :
    exec (.writeBack h a) s = .next (s.dropCopy h (a / 64)) := by
  show execWriteBack h a s = _
  simp [execWriteBack, held, hh, dirty]

theorem exec_evictionNotice {s : State} {h a : Nat} {c : RcLine} (hh : h < 4) (held : (s.hearth h).line (a / 64) = some c) (clean : c.dirty = false) :
    exec (.evictionNotice h a) s = .next (s.dropCopy h (a / 64)) := by
  show execEvictionNotice h a s = _
  simp [execEvictionNotice, held, hh, clean]

/-- Settles O42: a home in directory mode by `Filled`, `Recalled` and the copies that `State.invalidateOthers` leaves; a copy's error by `State.copyLost`; and
what leaves a hearth by `State.dropCopy`. -/
theorem directoryCoherence : Obligations.DirectoryCoherence := by
  refine ⟨fun s h a hm may home up directory => ⟨fun absent valid shared => ?_, fun k c hk other asks absent owner held => ?_, fun whole answers => ?_,
    fun answers => ?_, fun k c hk asks owner held => ?_, fun v ch vault absent => ?_⟩, fun s h a hm may home down absent => ?_,
    fun s h a c may held => ⟨?_, fun b dirty free => ?_, fun b dirty poisons => ?_⟩, fun s h a c hh held => ⟨fun dirty => ?_, fun clean shared => ?_⟩⟩
  · obtain ⟨u, run, filled⟩ := readMiss_shared may home up directory absent valid shared
    obtain ⟨c, copy, clean, poison⟩ := filled.copy
    have moved := ((Moved.refl s).setDir _ _).trans filled.moved
    exact ⟨u, c, run, by simp [filled.dir], copy, clean, poison, filled.others, moved.readByte, moved.mem⟩
  · obtain ⟨u, t, run, recalled, filled⟩ := readMiss_owned may home up directory hk other asks absent owner held
    obtain ⟨d, copy, clean, -⟩ := filled.copy
    have moved := (recalled.moved.setDir _ _).trans filled.moved
    exact ⟨u, d, run, by simp [filled.dir], by rw [filled.others k other]; exact recalled.copy, copy, clean, moved.readByte, moved.mem⟩
  · obtain ⟨u, t, poisoned, run, coh, gone, filled⟩ := ownershipRequest_owns may home up directory whole answers
    obtain ⟨c, copy, dirty, -⟩ := filled.copy
    exact ⟨u, c, run, by simp [filled.dir], copy, dirty, fun k hk other => by rw [filled.others k other]; exact gone k hk other, coh.readByte, coh.frame⟩
  · obtain ⟨coh, dir, gone⟩ := homeSide_write home (ready_of_homeUpFor up) directory answers
    exact ⟨_, exec_homeSideAccess a true s, dir, gone, coh.readByte, coh.frame⟩
  · have recalled := State.recall_recalled asks held
    rw [← homeSide_read_of_owner home directory (ready_of_homeUpFor up) hk owner] at recalled
    exact ⟨_, exec_homeSideAccess a false s, recalled.dir, recalled.copy, recalled.moved.readByte, recalled.moved.mem⟩
  · obtain ⟨u, run, coh, ce, raised⟩ := readMiss_corrected may home up directory vault absent
    exact ⟨u, run, ce, raised, coh.readByte⟩
  · obtain ⟨u, run, filled⟩ := readMiss_lost may home down absent
    obtain ⟨c, copy, -, poisoned⟩ := filled.copy
    exact ⟨u, c, run, copy, poisoned, filled.dir, filled.moved.readByte, filled.moved.mem⟩
  · obtain ⟨u, run, coh, ce, raised⟩ := readMiss_copyCorrected may held
    exact ⟨u, run, ce, raised, coh.readByte⟩
  · refine ⟨_, readMiss_copyFreed may held dirty free b, ?_, fun poisoned => ?_, by simp, fun x outside => ?_⟩
    · rw [State.raise_hearth, State.freeBytes_hearth, State.copyLost_line]
    · rw [State.raise_mem, State.freeBytes_poisoned] at poisoned
      exact State.dropCopy_poisoned (s := s.setHearth h _) poisoned
    · exact (State.readByte_freeBytes _ outside).trans ((s.copyLost_moved h _).readByte x)
  · have lost := s.copyLost_moved h (a / 64)
    refine ⟨_, readMiss_copyPoisons may held dirty poisons b, ?_, State.poisonLine_poisoned .., fun v ch home => ?_, by simp, ?_⟩
    · rw [State.raise_hearth, State.poisonLine_hearth, State.copyLost_line]
    · exact State.poisonLine_lastCause ((lost.home _).trans home) 3
    · exact (((((Coh.refl s).setHearth _ _).dropCopy _ _).poisonLine _ _).raise _).readByte
  · have moved := (Moved.refl s).dropCopy h (a / 64)
    exact ⟨_, exec_writeBack hh held dirty, s.dropCopy_self h _, s.dropCopy_dirOf_of_dirty held dirty, fun k => s.dropCopy_hearth_of_ne h _,
      moved.readByte, moved.mem⟩
  · have moved := (Moved.refl s).dropCopy h (a / 64)
    have dir := s.dropCopy_dirOf_of_clean held clean shared
    exact ⟨_, exec_evictionNotice hh held clean, s.dropCopy_self h _, by rw [dir, bit_without, if_pos rfl],
      fun k _ other => by rw [dir, bit_without, if_neg other], fun k => s.dropCopy_hearth_of_ne h _, moved.readByte, moved.mem⟩

end Sys2Proof.Machine
end

section
/-! PROOF.  O43.  A clean patrol read is one update of its vault; a zero writer's job is `State.zeroRange` (`State.jobDone`); and the rounds of a window's end, one for
each partition, are gone through once (`Windowed`): the vault's counts are then those of `Vault.counts`, in which each partition's own round alone moves its own. -/
namespace Sys2Proof.Machine
open Sys2Proof

/-! ## Loops -/

theorem foldl_keeps_of_mem {α β γ : Type} (g : β → γ) {f : β → α → β} {l : List α} (keeps : ∀ x ∈ l, ∀ b, g (f b x) = g b) (b : β) :
    g (l.foldl f b) = g b := by
  induction l generalizing b with
  | nil => rfl
  | cons x l ih =>
    rw [List.foldl_cons, ih (fun y hy => keeps y (List.mem_cons_of_mem _ hy)), keeps x List.mem_cons_self]

/-- What only the round of `a` moves is as that round leaves it, where the loop comes to `a` once. -/
theorem foldl_visits_once {α β γ : Type} (g : β → γ) {f : β → α → β} {a : α} (others : ∀ b x, x ≠ a → g (f b x) = g b) {l : List α} (once : l.Nodup)
    (visited : a ∈ l) (b : β) : ∃ b', g b' = g b ∧ g (l.foldl f b) = g (f b' a) := by
  obtain ⟨before, after, rfl⟩ := List.append_of_mem visited
  obtain ⟨-, tail, apart⟩ := List.nodup_append.1 once
  have keeps {l : List α} (absent : a ∉ l) (b : β) : g (l.foldl f b) = g b :=
    foldl_keeps_of_mem g (fun x hx b => others b x (fun same => absent (same ▸ hx))) b
  refine ⟨before.foldl f b, keeps (fun h => apart a h a List.mem_cons_self rfl) b, ?_⟩
  rw [List.foldl_append, List.foldl_cons, keeps (List.nodup_cons.1 tail).1]

/-! ## Patrol (R184) -/

/-- A vault whose patrol has read a line of its `lines`. -/
def Vault.patrolled (x : Vault) (lines : Nat) : Vault :=
  if lines ≤ x.patrolLine + 1 then { x with patrolLine := 0, passes := (x.passes + 1) % 65536 } else { x with patrolLine := x.patrolLine + 1 }

theorem exec_patrolRead_clean {s : State} {v : Nat} (vault : v < 2) (on : (s.vault v).patrolOff = false) (ecc : s.mem.ecc = true)
    (ready : s.dieReady (8 + v) = true) (lines : s.vaultLines v ≠ 0) (served : s.chanPaused (s.patrolLine v (s.vault v).patrolLine * 64) = false) :
    exec (.patrolRead v .clean) s = .next (s.setVault v ((s.vault v).patrolled (s.vaultLines v))) := by
  have runs : ¬ (2 ≤ v ∨ (s.vault v).patrolOff ∨ !s.mem.ecc ∨ !s.dieReady (8 + v) ∨ s.vaultLines v = 0 ∨
      s.chanPaused (s.patrolLine v (s.vault v).patrolLine * 64)) := by
    simp [on, ecc, ready, lines, served, vault]
  refine (if_neg runs).trans ?_
  simp only [State.eccEvent_clean, Vault.patrolled]

theorem exec_patrolRead_off {s : State} {v : Nat} (off : (s.vault v).patrolOff = true) (e : EccEvent) : exec (.patrolRead v e) s = .next s :=
  if_pos (.inr (.inl off))

/-! ## Accounting windows (R187, R215) -/

section
variable (chan : Nat) (served : List Nat) (queued : BitVec 8)

/-- Partition p had requests queued and was served below its BW_MIN. -/
def State.wentShort (s : State) (p : Nat) : Bool :=
  match s.part? p with
  | some r => queued.getLsbD p && decide (served.getD p 0 * 48 < r.bwMin * 80000)
  | none => false

theorem State.wentShort_of_part {s : State} {p : Nat} {r : PartRec} (part : s.part? p = some r) (served : List Nat) (queued : BitVec 8) :
    s.wentShort served queued p = (queued.getLsbD p && decide (served.getD p 0 * 48 < r.bwMin * 80000)) := by
  simp [State.wentShort, part]

/-- Who has nothing queued does not go short. -/
theorem State.wentShort_of_idle {s : State} {served : List Nat} {queued : BitVec 8} (idle : ∀ p r, s.part? p = some r → queued.getLsbD p = false) (p : Nat) :
    s.wentShort served queued p = false := by
  cases part : s.part? p with
  | none => simp [State.wentShort, part]
  | some r => simp [State.wentShort_of_part part, idle p r part]

/-- The round of partition p in a window's end. -/
def windowRound (s : State) (p : Nat) : State :=
  match s.part? p with
  | none => s
  | some r =>
    let b := (served[p]?).getD 0
    let short := queued.getLsbD p && decide (b * 48 < r.bwMin * 80000)
    let s := s.setVault (chan / 24) (windowPart b short p (s.vault (chan / 24)))
    if short then s.raise { source := 229 + chan } else s

/-- A vault as channel `chan` opens or joins its window. -/
def Vault.windowOf (x : Vault) : Vault :=
  if x.windowDone.contains chan then { x with windowDone := [chan], counted := [] } else { x with windowDone := x.windowDone ++ [chan] }

theorem exec_accountingWindowEnd {chan : Nat} (hc : chan < 48) (served : List Nat) (queued : BitVec 8) (s : State) :
    exec (.accountingWindowEnd chan served queued) s =
      .next ((List.range 8).foldl (windowRound chan served queued) (s.setVault (chan / 24) ((s.vault (chan / 24)).windowOf chan))) :=
  if_neg (by omega)

/-- What the round of partition p does to the counts of its vault. -/
def State.windowCounts (s : State) (x : Vault) (p : Nat) : Vault :=
  if (s.part? p).isSome then windowPart (served.getD p 0) (s.wentShort served queued p) p x else x

/-- `t` is `s` after the rounds of the partitions `l`: the vault's counts have moved, and each partition that went short has raised the channel's source. -/
structure Windowed (s : State) (l : List Nat) (t : State) : Prop where
  frame : t = { s with mem := { s.mem with vaults := t.mem.vaults }, faults := { s.faults with raised := t.faults.raised } }
  raised : t.faults.raised = s.faults.raised ++ (l.filter (s.wentShort served queued)).map (fun _ => { source := 229 + chan })
  vault : t.vault (chan / 24) = l.foldl (s.windowCounts served queued) (s.vault (chan / 24))
  others : ∀ v, v ≠ chan / 24 → t.vault v = s.vault v

variable {chan served queued}

theorem Windowed.round {s t : State} {l : List Nat} (h : Windowed chan served queued s l t) (p : Nat) :
    Windowed chan served queued s (l ++ [p]) (windowRound chan served queued t p) := by
  have part : t.part? p = s.part? p := by rw [h.frame]; rfl
  obtain ⟨frame, raised, vault, others⟩ := h
  unfold windowRound
  rw [part]
  cases found : s.part? p with
  | none =>
    have short : s.wentShort served queued p = false := by simp [State.wentShort, found]
    exact ⟨frame, by simpa [short] using raised, by simp [vault, State.windowCounts, found], others⟩
  | some r =>
    have short : (queued.getLsbD p && decide ((served[p]?).getD 0 * 48 < r.bwMin * 80000)) = s.wentShort served queued p := by
      simp [State.wentShort, found]
    simp only [short]
    have counts : windowPart ((served[p]?).getD 0) (s.wentShort served queued p) p (t.vault (chan / 24)) =
        (l ++ [p]).foldl (s.windowCounts served queued) (s.vault (chan / 24)) := by
      simp [vault, State.windowCounts, found]
    rw [counts]
    cases hs : s.wentShort served queued p
    · exact ⟨by rw [frame]; rfl, by simpa [hs] using raised, by simp, fun v hv => by simp [hv, others v hv]⟩
    · exact ⟨by rw [frame]; rfl, by simp [hs, raised], by simp, fun v hv => by simp [hv, others v hv]⟩

theorem Windowed.rounds (s : State) (l : List Nat) : Windowed chan served queued s l (l.foldl (windowRound chan served queued) s) := by
  induction l using List.reverseRecOn with
  | nil => exact ⟨rfl, by simp, rfl, fun _ _ => rfl⟩
  | append_singleton l p ih =>
    rw [List.foldl_append]
    exact ih.round p

/-- The counts of partition p in a vault: bytes served, shortfalls, and whether it is counted short in the window. -/
def Vault.counts (x : Vault) (p : Nat) : DWord × Nat × Bool := (sget 0 x.bwBytes p, sget 0 x.bwShort p, sget false x.counted p)

/-- Such counts after a round with `b` bytes served. -/
def roundCounts (b : Nat) (short : Bool) (c : DWord × Nat × Bool) : DWord × Nat × Bool :=
  (c.1 + BitVec.ofNat 64 b, if short && !c.2.2 then satAdd (2 ^ 32 - 1) c.2.1 1 else c.2.1, short || c.2.2)

theorem windowPart_counts_self (b : Nat) (short : Bool) (p : Nat) (x : Vault) : (windowPart b short p x).counts p = roundCounts b short (x.counts p) := by
  unfold windowPart Vault.counts roundCounts
  cases short <;> cases counted : sget false x.counted p <;> simp [counted]

theorem windowPart_counts_of_ne (b : Nat) (short : Bool) {p q : Nat} (x : Vault) (h : q ≠ p) : (windowPart b short q x).counts p = x.counts p := by
  have apart : p ≠ q := fun same => h same.symm
  unfold windowPart Vault.counts
  split <;> split <;> simp only [sget_sset_ne _ _ _ apart]

/-- The counts of partition p after its round: those of before where the structure does not have it. -/
def State.countsAfter (s : State) (served : List Nat) (queued : BitVec 8) (p : Nat) (c : DWord × Nat × Bool) : DWord × Nat × Bool :=
  if (s.part? p).isSome then roundCounts (served.getD p 0) (s.wentShort served queued p) c else c

/-- After a window's end, the counts of each partition are those of its own round. -/
theorem Windowed.counts {s t : State} (h : Windowed chan served queued s (List.range 8) t) {p : Nat} (hp : p < 8) :
    (t.vault (chan / 24)).counts p = s.countsAfter served queued p ((s.vault (chan / 24)).counts p) := by
  rw [h.vault]
  obtain ⟨x, before, after⟩ := foldl_visits_once (fun x : Vault => x.counts p) (f := s.windowCounts served queued) (fun x q hq => by
    unfold State.windowCounts
    split
    · exact windowPart_counts_of_ne _ _ x hq
    · rfl) List.nodup_range (List.mem_range.2 hp) (s.vault (chan / 24))
  rw [after, ← before]
  unfold State.windowCounts State.countsAfter
  split
  · exact windowPart_counts_self ..
  · rfl

theorem Vault.windowOf_counts (x : Vault) (chan p : Nat) : (x.windowOf chan).counts p =
    (sget 0 x.bwBytes p, sget 0 x.bwShort p, !x.windowDone.contains chan && sget false x.counted p) := by
  unfold Vault.windowOf
  cases x.windowDone.contains chan <;> rfl

/-- The end of a channel's window (R187, R215). -/
theorem window_ends (s : State) {chan : Nat} (served : List Nat) (queued : BitVec 8) (hc : chan < 48) :
    ∃ u, exec (.accountingWindowEnd chan served queued) s = .next u ∧
    (∀ p < 8, (u.vault (chan / 24)).counts p = s.countsAfter served queued p (((s.vault (chan / 24)).windowOf chan).counts p)) ∧
    u.faults.raised = s.faults.raised ++ ((List.range 8).filter (s.wentShort served queued)).map (fun _ => { source := 229 + chan }) ∧
    (∀ v, v ≠ chan / 24 → u.vault v = s.vault v) ∧
    u = { s with mem := u.mem, faults := { s.faults with raised := u.faults.raised } } := by
  have rounds := Windowed.rounds (chan := chan) (served := served) (queued := queued)
    (s.setVault (chan / 24) ((s.vault (chan / 24)).windowOf chan)) (List.range 8)
  refine ⟨_, exec_accountingWindowEnd hc served queued s, ?_⟩
  generalize (List.range 8).foldl _ _ = u at rounds ⊢
  refine ⟨fun p hp => ?_, rounds.raised, fun v hv => ?_, ?_⟩
  · rw [rounds.counts hp, State.setVault_vault, if_pos rfl]
    rfl
  · rw [rounds.others v hv, State.setVault_vault, if_neg hv]
  · rw [rounds.frame]
    rfl

end

/-! ## Zero writers (R207, R499) -/

/-- Before a range is zeroed, cached copies leave and directory states fall. -/
theorem State.zeroRange_eq (s : State) (a n : Nat) : ∃ t, Moved s t ∧ s.zeroRange a n = t.zero a n := by
  refine ⟨_, ?_, rfl⟩
  exact Moved.foldl (fun _ m => m.setDir _ _) _ (Moved.foldl (fun _ m => m.setHearth _ _) _ (.refl s))

/-- The state in which the oldest job's range has been zeroed. -/
def State.jobDone (s : State) (j : ZeroJob) (rest : List ZeroJob) : State := ({ s with mem := { s.mem with zeroJobs := rest } } : State).zeroRange j.base j.bytes

theorem State.jobDone_leaves (s : State) (j : ZeroJob) (rest : List ZeroJob) : s.jobDone j rest = { s with mem := (s.jobDone j rest).mem } ∧
    (s.jobDone j rest).mem.zeroJobs = rest ∧ ∀ a, (s.jobDone j rest).readByte a = if j.base ≤ a ∧ a < j.base + j.bytes then 0 else s.readByte a := by
  obtain ⟨t, moved, e⟩ := State.zeroRange_eq { s with mem := { s.mem with zeroJobs := rest } } j.base j.bytes
  refine ⟨?_, ?_, fun a => State.readByte_zeroRange ..⟩
  · rw [State.jobDone, e, State.zero, moved.mem]
  · exact (congrArg (·.mem.zeroJobs) e).trans moved.zeroJobs

section
variable {s : State} {j : ZeroJob} {rest : List ZeroJob} (jobs : s.mem.zeroJobs = j :: rest)
  (runs : j.handle = 0 ∨ (s.op? j.handle).map (·.state) = some OpState.running)
include jobs runs

/-- The oldest job, which runs, is over: a freed pool block is free again. -/
theorem exec_zeroWriterDone : ∃ u, exec .zeroWriterDone s = .next u ∧ u.mem = (s.jobDone j rest).mem ∧ (j.purpose = 0 → u = s.jobDone j rest) ∧
    ∀ b, j.purpose = 2 → ((s.jobDone j rest).pool j.part).zeroing.find? (fun b => b.addr = j.base) = some b →
      u = (s.jobDone j rest).setPool j.part
        (({ (s.jobDone j rest).pool j.part with zeroing := ((s.jobDone j rest).pool j.part).zeroing.erase b } : Pool).give b) := by
  have first : (j.handle == 0 || ((s.op? j.handle).map (·.state)) == some OpState.running) = true := by simpa using runs
  show ∃ u, execZeroWriterDone s = .next u ∧ _
  simp only [execZeroWriterDone, jobs, List.find?_cons, first, List.erase_cons_head]
  rw [← State.jobDone]
  generalize s.jobDone j rest = z
  split
  next freed =>
    split
    next b found => exact ⟨_, rfl, rfl, fun h => by simp [h] at freed, fun _ _ h => by cases found.symm.trans h; rfl⟩
    next missing => exact ⟨_, rfl, rfl, fun _ => rfl, fun _ _ h => by cases missing.symm.trans h⟩
  next kept =>
    split
    next scrub =>
      split
      · exact ⟨_, rfl, rfl, fun h => by simp [h] at scrub, fun _ h => absurd h kept⟩
      · exact ⟨_, rfl, rfl, fun _ => rfl, fun _ h => absurd h kept⟩
    · exact ⟨_, rfl, rfl, fun _ => rfl, fun _ h => absurd h kept⟩

end

/-- Settles O43: `exec_patrolRead_clean`, `window_ends` and `exec_zeroWriterDone`, clause by clause. -/
theorem patrolWindowsAndZeroWriters : Obligations.PatrolWindowsAndZeroWriters := by
  refine ⟨fun s v vault on ecc ready lines served => ?_, fun s v e off => exec_patrolRead_off off e, fun s chan served queued hc => ?_,
    fun s j rest jobs runs => ?_⟩
  · exact ⟨_, exec_patrolRead_clean vault on ecc ready lines served, by rw [State.setVault_vault, if_pos rfl, Vault.patrolled],
      fun k hk => by rw [State.setVault_vault, if_neg hk], ((Coh.refl s).setVault _ _).readByte, rfl⟩
  · obtain ⟨u, run, counts, raised, others, frame⟩ := window_ends s served queued hc
    refine ⟨u, run, fun p hp => ?_, fun p r hp part => ⟨fun short => ?_, ?_⟩, fun idle => ?_, others, ?_⟩
    · have own := congrArg Prod.fst (counts p hp)
      rw [Vault.windowOf_counts] at own
      refine own.trans ?_
      unfold State.countsAfter
      cases (s.part? p) <;> simp [roundCounts]
    · rw [raised]
      exact List.mem_append_right _ (List.mem_map.2 ⟨p, List.mem_filter.2 ⟨List.mem_range.2 hp, (State.wentShort_of_part part ..).trans short⟩, rfl⟩)
    · have own := congrArg (·.2.1) (counts p hp)
      rw [Vault.windowOf_counts, State.countsAfter, part, State.wentShort_of_part part] at own
      refine own.trans ?_
      simp only [Option.isSome_some, if_true, roundCounts]
      congr 1
      cases queued.getLsbD p && decide (served.getD p 0 * 48 < r.bwMin * 80000) <;> cases (s.vault (chan / 24)).windowDone.contains chan <;> simp
    · have none : (List.range 8).filter (s.wentShort served queued) = [] :=
        List.filter_eq_nil_iff.2 (fun p _ => by simp [State.wentShort_of_idle idle])
      rw [congrArg State.faults frame, raised, none]
      simp
    · rw [frame]
  · obtain ⟨frame, jobsLeft, bytes⟩ := s.jobDone_leaves j rest
    obtain ⟨u, run, mem, keeps, frees⟩ := exec_zeroWriterDone jobs runs
    refine ⟨u, run, by rw [mem, jobsLeft], fun a => ?_, fun h => ?_, fun b h found => ?_⟩
    · rw [State.readByte, mem]
      exact bytes a
    · rw [keeps h]
      exact frame
    · have pool : (s.jobDone j rest).pool j.part = s.pool j.part := by rw [frame]; rfl
      have freed := frees b h (by rwa [pool])
      rw [pool] at freed
      refine ⟨by rw [freed, State.setPool_pool, if_pos rfl], ?_⟩
      rw [freed, frame]
      rfl

end Sys2Proof.Machine
end

section
/-! PROOF.  What the operations on a tally do at its home: the value that is added or set, the waits that wake, and the mark of an overflow or a broken value. -/
namespace Sys2Proof.Machine
open Sys2Proof

/-! ## Tables whose values are mapped -/

theorem sget_map {α : Type} (d : α) (f : α → α) (keeps : f d = d) (m : Store α) (k : Nat) : sget d (m.map (fun e => (e.1, f e.2))) k = f (sget d m k) := by
  induction m with
  | nil => exact keeps.symm
  | cons e r ih =>
    obtain ⟨k', v⟩ := e
    rw [List.map_cons, sget_cons, sget_cons, ih]
    split <;> rfl

/-! ## Tallies as they are written (R201) -/

@[simp] theorem State.setTally_tally (s : State) (n k : Nat) (v : Word) : (s.setTally n v).tally k = if k = n then v else s.tally k := sget_sset ..
@[simp] theorem State.setTallyBad_tallyBad (s : State) (n k : Nat) (b : Bool) : (s.setTallyBad n b).tallyBad k = if k = n then b else s.tallyBad k := sget_sset ..
@[simp] theorem State.setTally_tallyBad (s : State) (n k : Nat) (v : Word) : (s.setTally n v).tallyBad k = s.tallyBad k := rfl
@[simp] theorem State.setTallyBad_tally (s : State) (n k : Nat) (b : Bool) : (s.setTallyBad n b).tally k = s.tally k := rfl

theorem State.homeUp_of_links {s t : State} (h : t.links = s.links) : t.homeUp = s.homeUp := by
  funext d n
  simp only [State.homeUp, State.dieReady, State.die, State.reach_of_links h, h]

/-! ## Waits that wake (R203) -/

/-- A wait once tally n has reached `v`. -/
def Waiter.wokenBy (w : Waiter) (n v : Nat) : Waiter := { w with woken := w.woken || (decide (w.tally = n) && decide (w.threshold ≤ v)) }

theorem State.wakeWaiters_eq (s : State) (n : Nat) : s.wakeWaiters n = s.setHearth (tallyHome n) { s.hearth (tallyHome n) with
    waiters := (s.hearth (tallyHome n)).waiters.map (fun e => (e.1, e.2.map (·.wokenBy n (s.tally n).toNat))) } := by
  unfold State.wakeWaiters
  dsimp only
  congr 3
  funext ⟨t, w⟩
  cases w with
  | none => rfl
  | some w =>
    by_cases met : w.tally = n ∧ w.threshold ≤ (s.tally n).toNat
    · simp [Waiter.wokenBy, met]
    · have short : (decide (w.tally = n) && decide (w.threshold ≤ (s.tally n).toNat)) = false := by simpa using met
      simp [Waiter.wokenBy, met, short]

theorem State.wakeWaiters_waiter {s : State} {n t : Nat} {w : Waiter} (waits : (s.hearth (tallyHome n)).waiter t = some w) :
    ((s.wakeWaiters n).hearth (tallyHome n)).waiter t = some (w.wokenBy n (s.tally n).toNat) := by
  rw [State.wakeWaiters_eq, State.setHearth_hearth, if_pos rfl]
  refine (sget_map none (Option.map (fun w : Waiter => w.wokenBy n (s.tally n).toNat)) rfl _ t).trans ?_
  exact congrArg _ waits

/-- Only waits move. -/
theorem State.wakeWaiters_hearth (s : State) (n k : Nat) :
    (s.wakeWaiters n).hearth k = { s.hearth k with waiters := ((s.wakeWaiters n).hearth k).waiters } := by
  rw [State.wakeWaiters_eq, State.setHearth_hearth]
  split
  next same => rw [same]
  · rfl

/-! ## The mark of a tally's event (R202, R205, R413, R414) -/

/-- A hearth that notes partition p among the contributors; the system tag is none. -/
def Hearth.noting (x : Hearth) (p : Nat) : Hearth := { x with contrib := if p < 8 then x.contrib ||| BitVec.ofNat 8 (2 ^ p) else x.contrib }

theorem Hearth.noting_contrib (x : Hearth) {p : Nat} (hp : p < 8) : (x.noting p).contrib.getLsbD p = true := by
  show (if p < 8 then _ else _ : BitVec 8).getLsbD p = true
  rw [if_pos hp, BitVec.getLsbD_or, BitVec.getLsbD_ofNat, Nat.testBit_two_pow_self]
  simp [hp]

section
variable (s : State) (h p : Nat) (f : Hearth → Hearth)

theorem State.tallyMark_eq : s.tallyMark h p f =
    let t := s.setHearth h ((f (s.hearth h)).noting p)
    if p < 8 then t.occurIf (s.tallyLevel p) (t.tallyLevel p) (1088 + p) else t := rfl

theorem State.tallyMark_frame : s.tallyMark h p f = { s with mem := { s.mem with hearths := (s.tallyMark h p f).mem.hearths }, reg := (s.tallyMark h p f).reg } := by
  rw [State.tallyMark_eq]
  dsimp only
  split
  · rw [State.occurIf_frame]
    rfl
  · rfl

theorem State.occurIf_hearth (was now : Bool) (src k : Nat) : (s.occurIf was now src).hearth k = s.hearth k := by
  rw [State.occurIf_frame]
  rfl

theorem State.tallyMark_hearth (k : Nat) : (s.tallyMark h p f).hearth k = if k = h then (f (s.hearth h)).noting p else s.hearth k := by
  simp only [State.tallyMark_eq, apply_ite (State.hearth · k), State.occurIf_hearth, State.setHearth_hearth, ite_self]

end

/-- A hearth that answers, with an overflow or a broken tally of partition p noted, makes the partition's tally event pending. -/
theorem State.srcPending_of_contrib {s : State} {h p : Nat} (hh : h < 4) (hp : p < 8) (ready : s.dieReady (4 + h) = true)
    (level : ((s.hearth h).ovf || (s.hearth h).broken) = true) (contrib : (s.hearth h).contrib.getLsbD p = true) : s.srcPending (1088 + p) = true := by
  unfold State.srcPending
  rw [if_neg (by omega), if_neg (by omega), if_neg (by omega), if_pos (by omega), Nat.add_sub_cancel_left]
  exact List.any_eq_true.2 ⟨h, List.mem_range.2 hh, by rw [ready, level, contrib]; rfl⟩

/-! ## SIGNAL and RESET at the home (R201, R202, R205) -/

/-- The state in which `v` has been added to tally n, before waits wake: an overflow is noted. -/
def State.tallyAdded (s : State) (n v : Nat) : State :=
  let t := s.setTally n (BitVec.ofNat 32 (min ((s.tally n).toNat + v) (2 ^ 32 - 1)))
  if 2 ^ 32 ≤ (s.tally n).toNat + v then t.tallyMark (tallyHome n) (t.tallyPart n) (fun h => { h with ovf := true, lastOvf := n % 4096 }) else t

/-- The state in which tally n has been set, its waits woken. -/
def State.tallyReset (s : State) (n : Nat) (v : Word) : State := ((s.setTally n v).setTallyBad n false).wakeWaiters n

section
variable {s : State} {d n : Nat}

theorem State.signalTally_of_up (up : s.homeUp d n = true) (good : s.tallyBad n = false) (v : Nat) :
    s.signalTally d n v = ((s.tallyAdded n v).wakeWaiters n, true) := by
  simp only [State.signalTally, up, good, Bool.not_true, Bool.or_self, Bool.false_eq_true, if_false]
  rfl

theorem State.signalTally_of_dropped (dropped : s.homeUp d n = false ∨ s.tallyBad n = true) (v : Nat) : s.signalTally d n v = (s, false) := by
  rcases dropped with down | bad
  · simp [State.signalTally, down]
  · simp [State.signalTally, bad]

theorem State.resetTally_of_up (up : s.homeUp d n = true) (v : Word) : s.resetTally d n v = (s.tallyReset n v, true) := by
  simp [State.resetTally, State.tallyReset, up]

theorem State.resetTally_of_down (down : s.homeUp d n = false) (v : Word) : s.resetTally d n v = (s, false) := by
  simp [State.resetTally, down]

end

section
variable (s : State) (n v : Nat)

theorem State.tallyAdded_frame : s.tallyAdded n v = { s with
    mem := { s.mem with tallies := (s.tallyAdded n v).mem.tallies, hearths := (s.tallyAdded n v).mem.hearths }, reg := (s.tallyAdded n v).reg } := by
  unfold State.tallyAdded
  dsimp only
  split
  · rw [State.tallyMark_frame]
    rfl
  · rfl

theorem State.tallyAdded_tally (k : Nat) :
    (s.tallyAdded n v).tally k = if k = n then BitVec.ofNat 32 (min ((s.tally n).toNat + v) (2 ^ 32 - 1)) else s.tally k := by
  unfold State.tallyAdded
  dsimp only
  split
  · rw [State.tallyMark_frame]
    exact State.setTally_tally ..
  · exact State.setTally_tally ..

theorem State.tallyAdded_toNat : ((s.tallyAdded n v).tally n).toNat = min ((s.tally n).toNat + v) (2 ^ 32 - 1) := by
  rw [State.tallyAdded_tally, if_pos rfl, BitVec.toNat_ofNat]
  omega

/-- Where the sum overflows, its hearth notes the tally and its partition. -/
theorem State.tallyAdded_hearth (k : Nat) : (s.tallyAdded n v).hearth k = if 2 ^ 32 ≤ (s.tally n).toNat + v ∧ k = tallyHome n then
    { s.hearth k with ovf := true, lastOvf := n % 4096 }.noting (s.tallyPart n) else s.hearth k := by
  unfold State.tallyAdded
  extract_lets t
  split
  next overflows =>
    rw [State.tallyMark_hearth]
    by_cases home : k = tallyHome n
    · subst home
      rw [if_pos rfl, if_pos ⟨overflows, rfl⟩]
      rfl
    · rw [if_neg home, if_neg (fun both => home both.2)]
      rfl
  next fits =>
    rw [if_neg (fun both => fits both.1)]
    rfl

end

/-! ## The operation on its way (R198, R205) -/

/-- Other operations are on their way. -/
def State.withSignals (s : State) (l : List Signal) : State := { s with mem := { s.mem with signals := l } }

/-- The oldest operation of a kind is taken, whatever waits before it of the other kind. -/
theorem State.popSignal_oldest {s : State} {g : Signal} {pre post : List Signal} {r : Bool} (route : s.mem.signals = pre ++ g :: post)
    (earlier : ∀ k ∈ pre, k.reset = !r) (kind : g.reset = r) : s.popSignal r = some (g, s.withSignals (pre ++ post)) := by
  have skips : ∀ k ∈ pre, ¬ (k.reset == r) = true := fun k hk => by rw [earlier k hk]; cases r <;> decide
  have found : s.mem.signals.find? (fun g => g.reset == r) = some g := by
    rw [route, List.find?_append, List.find?_eq_none.2 skips, Option.none_or, List.find?_cons_of_pos (by simp [kind])]
  have rest : s.mem.signals.eraseP (fun g => g.reset == r) = pre ++ post := by
    rw [route, List.eraseP_append_right _ skips, List.eraseP_cons_of_pos (by simp [kind])]
  simp only [State.popSignal, found, rest]
  rfl

theorem failed_tile (s : State) (outs : List (Nat × Nat)) (st j : Nat) : (failed s outs st).s.tile j = s.tile j := by
  unfold failed
  exact foldl_keeps (fun u : State => u.tile j) (fun u r => State.freeBytes_tile u r.1 r.2 j) outs s

/-- The command that sent the operation ends with what its home answers. -/
theorem afterSignal_ended {s : State} {t : Nat} {c : RunCmd} (runs : (s.tile t).running = some c) (waits : c.wait = .signal)
    (last : dOp c.desc ≠ 0x0A ∨ c.unit ≠ 0 ∨ dDoneEn c.desc = false) (ok : Bool) :
    Ended (s.tile t) ((afterSignal s (.command t) ok).tile t) c (if ok then stOk else stHw) := by
  simp only [afterSignal, runs, waits, ne_eq, not_true_eq_false, if_false]
  cases ok with
  | false =>
    simp only [Bool.not_false, if_true, Bool.false_eq_true, if_false]
    have ended := endRunning_ended (failed s (descOuts c.desc t (s.tilePart t) s ++ c.work.outs.flatMap (s.reachable (s.tilePart t))) stHw).s t c stHw 0 0 0
    rwa [failed_tile] at ended
  | true =>
    have noMore : ¬ (dOp c.desc = 0x0A ∧ c.unit = 0 ∧ dDoneEn c.desc = true) := by
      rintro ⟨op, first, done⟩
      simp [op, first, done] at last
    simp only [Bool.not_true, Bool.false_eq_true, if_false, if_true, noMore]
    exact endRunning_ended ..

/-! ## A broken value ends the waits on it (R205) -/

/-- What the end of a wait leaves of the memory's tallies, of the faults, and of a hearth. -/
def Hearth.unwaited (x : Hearth) : Hearth := { x with waiters := [] }

section
variable (s : State) (t : Nat)

theorem State.dropWaiter_waiter_of_ne {j : Nat} (hj : j ≠ t) (k : Nat) : ((s.dropWaiter t).hearth k).waiter j = (s.hearth k).waiter j := by
  refine foldl_keeps (fun u : State => (u.hearth k).waiter j) (fun u h => ?_) (List.range 4) s
  dsimp only
  rw [State.setHearth_hearth]
  split
  next same =>
    rw [same]
    exact sget_sset_ne none (u.hearth h).waiters none hj
  · rfl

theorem State.dropWaiter_unwaited (k : Nat) : ((s.dropWaiter t).hearth k).unwaited = (s.hearth k).unwaited := by
  refine foldl_keeps (fun u : State => (u.hearth k).unwaited) (fun u h => ?_) (List.range 4) s
  dsimp only
  rw [State.setHearth_hearth]
  split
  next same => rw [same]; rfl
  · rfl

variable (c : RunCmd) (st num opf res : Nat)

theorem endCommand_faults : (endCommand s t c st num opf res).faults = s.faults := by
  have numeric (u : State) (a b : Word) : (u.setNumeric t a b).faults = u.faults := by rw [State.setNumeric_frame]
  have event (u : State) : (u.tileEvent t).faults = u.faults := by rw [State.tileEvent_frame]
  have record (u : State) (r : TileDone) : (u.postRecord r).faults = u.faults := rfl
  simp only [endCommand, apply_ite State.faults, record, event, numeric, State.setTile_faults, ite_self]

theorem endCommand_links : (endCommand s t c st num opf res).links = s.links := by rw [(endCommand_schedulesAt s t c st num opf res).frame]

/-- A command that ends takes its wait and its contribution from the hearths, and nothing else from memory. -/
theorem endRunning_mem : (endRunning s t c st num opf res).mem = { s.mem with
    hearths := (s.dropWaiter t).mem.hearths, reductions := (endRunning s t c st num opf res).mem.reductions } := by
  unfold endRunning
  rw [(endCommand_schedulesAt ..).mem, State.setTile_mem]
  show ((s.dropWaiter t).dropContribution t).mem = _
  unfold State.dropContribution
  rw [State.dropWaiter_frame]

theorem endRunning_faults : (endRunning s t c st num opf res).faults = s.faults := by
  unfold endRunning
  rw [endCommand_faults, State.setTile_faults]
  show (s.dropWaiter t).faults = s.faults
  rw [State.dropWaiter_frame]

theorem endRunning_links : (endRunning s t c st num opf res).links = s.links := by
  unfold endRunning
  rw [endCommand_links, State.setTile_links]
  show (s.dropWaiter t).links = s.links
  rw [State.dropWaiter_frame]

theorem endRunning_hearth (k : Nat) : (endRunning s t c st num opf res).hearth k = (s.dropWaiter t).hearth k := by
  rw [State.hearth, endRunning_mem]
  rfl

end

/-- The wait of tile t on tally n, where its home h holds one, ends with HW_FAULT. -/
def State.failWait (h n : Nat) (s : State) (t : Nat) : State :=
  match (s.hearth h).waiter t, (s.tile t).running with
  | some w, some c => if w.tally = n then endRunning s t c stHw 0 0 0 else s
  | _, _ => s

/-- The state in which tally n is broken and has been marked, before the waits on it end. -/
def State.brokenMarked (s : State) (n : Nat) : State :=
  let t := (s.setTallyBad n true).tallyMark (tallyHome n) (s.tallyPart n)
    (fun x => { x with broken := true, lastBroken := n % 4096, ueCount := satAdd (2 ^ 32 - 1) x.ueCount 1 })
  t.raise { source := 76 + tallyHome n, owner := t.tallyPart n, addr := hearthAddr (tallyHome n) (0x10000 + n % 4096 * 8) }

theorem breakTally_uncorrectable (s : State) (n : Nat) (b : Bool) :
    breakTally s n (.uncorrectable b) = (List.range 32).foldl (State.failWait (tallyHome n) n) (s.brokenMarked n) := rfl

section
variable (h n : Nat)

/-- A wait that fails is the end of a command, or nothing. -/
theorem State.failWait_cases (s : State) (t : Nat) : s.failWait h n t = s ∨ ∃ c, s.failWait h n t = endRunning s t c stHw 0 0 0 := by
  unfold State.failWait
  split
  next c _ _ =>
    split
    · exact .inr ⟨c, rfl⟩
    · exact .inl rfl
  · exact .inl rfl

/-- What the failed waits leave: tallies, faults, links, and of the hearths everything but the waits. -/
structure WaitsFailed (s u : State) : Prop where
  tallies : u.mem.tallies = s.mem.tallies
  broken : u.mem.talliesBroken = s.mem.talliesBroken
  faults : u.faults = s.faults
  links : u.links = s.links
  hearths : ∀ k, (u.hearth k).unwaited = (s.hearth k).unwaited

theorem WaitsFailed.refl (s : State) : WaitsFailed s s := ⟨rfl, rfl, rfl, rfl, fun _ => rfl⟩
theorem WaitsFailed.trans {s u v : State} (a : WaitsFailed s u) (b : WaitsFailed u v) : WaitsFailed s v :=
  ⟨b.tallies.trans a.tallies, b.broken.trans a.broken, b.faults.trans a.faults, b.links.trans a.links, fun k => (b.hearths k).trans (a.hearths k)⟩

theorem State.failWait_leaves (s : State) (t : Nat) : WaitsFailed s (s.failWait h n t) := by
  rcases s.failWait_cases h n t with e | ⟨c, e⟩
  · rw [e]
    exact .refl s
  · rw [e]
    exact ⟨by rw [endRunning_mem], by rw [endRunning_mem], endRunning_faults .., endRunning_links ..,
      fun k => by rw [endRunning_hearth, State.dropWaiter_unwaited]⟩

theorem State.failWaits_leave (s : State) (ts : List Nat) : WaitsFailed s (ts.foldl (State.failWait h n) s) := by
  induction ts generalizing s with
  | nil => exact .refl s
  | cons t ts ih => exact (s.failWait_leaves h n t).trans (ih _)

/-- The wait of one tile and its command are no other tile's. -/
theorem State.failWait_of_ne (s : State) {t j : Nat} (hj : t ≠ j) :
    ((s.failWait h n t).tile j, ((s.failWait h n t).hearth h).waiter j) = (s.tile j, (s.hearth h).waiter j) := by
  rcases s.failWait_cases h n t with e | ⟨c, e⟩
  · rw [e]
  · rw [e, endRunning_tile_of_ne _ _ _ _ _ _ _ (Ne.symm hj), endRunning_hearth, State.dropWaiter_waiter_of_ne _ _ (Ne.symm hj)]

theorem State.failWait_ended {s : State} {t : Nat} {c : RunCmd} {w : Waiter} (waits : (s.hearth h).waiter t = some w) (on : w.tally = n)
    (runs : (s.tile t).running = some c) : Ended (s.tile t) ((s.failWait h n t).tile t) c stHw := by
  unfold State.failWait
  rw [waits, runs]
  simp only [on, if_true]
  exact endRunning_ended ..

/-- Every wait on the tally fails. -/
theorem State.failWaits_ended {s : State} {t : Nat} {c : RunCmd} {w : Waiter} (ht : t < 32) (waits : (s.hearth h).waiter t = some w) (on : w.tally = n)
    (runs : (s.tile t).running = some c) : Ended (s.tile t) (((List.range 32).foldl (State.failWait h n) s).tile t) c stHw := by
  obtain ⟨u, before, after⟩ := foldl_visits_once (fun u : State => (u.tile t, (u.hearth h).waiter t)) (f := State.failWait h n)
    (fun u j hj => u.failWait_of_ne h n hj) List.nodup_range (List.mem_range.2 ht) s
  obtain ⟨tile, waiter⟩ := Prod.mk.inj before
  rw [(Prod.mk.inj after).1, ← tile]
  exact State.failWait_ended h n (waiter.trans waits) on (tile ▸ runs)

end

end Sys2Proof.Machine
end

section
/-! PROOF.  Tallies at their homes (O41).  Each operation at a home has one equation (the oldest SIGNAL or RESET, the mint's two writes, an error of the value), and its lemmas say what it leaves of the value, of the hearth's marks and of the waits. -/
namespace Sys2Proof.Machine
open Sys2Proof

/-! ## SIGNAL (R201, R202, R205) -/

@[simp] theorem State.wakeWaiters_tally (s : State) (n k : Nat) : (s.wakeWaiters n).tally k = s.tally k := rfl
@[simp] theorem State.wakeWaiters_tallyBad (s : State) (n k : Nat) : (s.wakeWaiters n).tallyBad k = s.tallyBad k := rfl

/-- The state in which a SIGNAL of `v` has been applied to tally n. -/
def State.tallySignalled (s : State) (n v : Nat) : State := (s.tallyAdded n v).wakeWaiters n

section
variable (s : State) (n v : Nat)

theorem State.tallySignalled_frame : s.tallySignalled n v = { s with
    mem := { s.mem with tallies := (s.tallySignalled n v).mem.tallies, hearths := (s.tallySignalled n v).mem.hearths }, reg := (s.tallySignalled n v).reg } := by
  unfold State.tallySignalled
  rw [State.wakeWaiters_eq, State.tallyAdded_frame]
  rfl

theorem State.tallySignalled_hearth (k : Nat) : ∃ ws, (s.tallySignalled n v).hearth k = { (s.tallyAdded n v).hearth k with waiters := ws } :=
  ⟨_, State.wakeWaiters_hearth ..⟩

theorem State.tallyAdded_waiter (k t : Nat) : ((s.tallyAdded n v).hearth k).waiter t = (s.hearth k).waiter t := by
  rw [State.tallyAdded_hearth]
  split <;> rfl

theorem State.tallySignalled_waiter {s : State} {n t : Nat} {w : Waiter} (v : Nat) (waits : (s.hearth (tallyHome n)).waiter t = some w) :
    ((s.tallySignalled n v).hearth (tallyHome n)).waiter t = some (w.wokenBy n ((s.tallySignalled n v).tally n).toNat) :=
  State.wakeWaiters_waiter ((s.tallyAdded_waiter n v _ t).trans waits)

theorem State.tallySignalled_ovf : ((s.tallySignalled n v).hearth (tallyHome n)).ovf =
    ((s.hearth (tallyHome n)).ovf || decide (2 ^ 32 ≤ (s.tally n).toNat + v)) := by
  obtain ⟨ws, e⟩ := s.tallySignalled_hearth n v (tallyHome n)
  rw [e, State.tallyAdded_hearth]
  by_cases overflows : 2 ^ 32 ≤ (s.tally n).toNat + v
  · rw [if_pos ⟨overflows, rfl⟩, decide_eq_true overflows, Bool.or_true]
    rfl
  · rw [if_neg (fun both => overflows both.1), decide_eq_false overflows, Bool.or_false]

/-- An overflow is noted, and its partition's event is pending where the home answers. -/
theorem State.tallySignalled_overflow {s : State} {n v : Nat} (overflows : 2 ^ 32 ≤ (s.tally n).toNat + v) (ready : s.dieReady (4 + tallyHome n) = true) :
    ((s.tallySignalled n v).hearth (tallyHome n)).lastOvf = n % 4096 ∧
      (n < 16384 → s.tallyPart n < 8 → (s.tallySignalled n v).srcPending (1088 + s.tallyPart n) = true) := by
  obtain ⟨ws, e⟩ := s.tallySignalled_hearth n v (tallyHome n)
  rw [State.tallyAdded_hearth, if_pos ⟨overflows, rfl⟩] at e
  refine ⟨by rw [e]; rfl, fun hn hp => ?_⟩
  have home : tallyHome n < 4 := by unfold tallyHome; omega
  have up : (s.tallySignalled n v).dieReady (4 + tallyHome n) = true := by
    rw [State.tallySignalled_frame]
    exact ready
  refine State.srcPending_of_contrib home hp up (by rw [e]; rfl) ?_
  rw [e]
  exact Hearth.noting_contrib { s.hearth (tallyHome n) with ovf := true, lastOvf := n % 4096 } hp

end

section
variable {s : State} {g : Signal} {pre post : List Signal} (route : s.mem.signals = pre ++ g :: post)
include route

theorem exec_signalAtHome_of_oldest (earlier : ∀ k ∈ pre, k.reset = true) (kind : g.reset = false) : exec .signalAtHome s =
    .next (afterSignal ((s.withSignals (pre ++ post)).signalTally g.src g.tally g.value).1 g.after ((s.withSignals (pre ++ post)).signalTally g.src g.tally g.value).2) := by
  show execSignalAtHome s = _
  simp only [execSignalAtHome, State.popSignal_oldest (r := false) route earlier kind]

theorem exec_resetAtHome_of_oldest (earlier : ∀ k ∈ pre, k.reset = false) (kind : g.reset = true) : exec .resetAtHome s =
    .next (afterSignal ((s.withSignals (pre ++ post)).resetTally g.src g.tally (BitVec.ofNat 32 g.value)).1 g.after
      ((s.withSignals (pre ++ post)).resetTally g.src g.tally (BitVec.ofNat 32 g.value)).2) := by
  show execResetAtHome s = _
  simp only [execResetAtHome, State.popSignal_oldest (r := true) route earlier kind]

end

theorem State.withSignals_homeUp (s : State) (l : List Signal) : (s.withSignals l).homeUp = s.homeUp := State.homeUp_of_links rfl

/-- A SIGNAL leaves the tiles, and answers whether it was applied. -/
theorem State.signalTally_answers (s : State) (d n v : Nat) :
    (∀ j, (s.signalTally d n v).1.tile j = s.tile j) ∧ (s.signalTally d n v).2 = (s.homeUp d n && !s.tallyBad n) := by
  by_cases applied : s.homeUp d n = true ∧ s.tallyBad n = false
  · obtain ⟨up, good⟩ := applied
    rw [State.signalTally_of_up up good, up, good]
    refine ⟨fun j => ?_, rfl⟩
    show (s.tallySignalled n v).tile j = s.tile j
    rw [State.tallySignalled_frame]
    rfl
  · have dropped : s.homeUp d n = false ∨ s.tallyBad n = true := by
      cases up : s.homeUp d n <;> simp_all
    rw [State.signalTally_of_dropped dropped]
    exact ⟨fun _ => rfl, by rcases dropped with h | h <;> simp [h]⟩

theorem State.resetTally_answers (s : State) (d n : Nat) (v : Word) :
    (∀ j, (s.resetTally d n v).1.tile j = s.tile j) ∧ (s.resetTally d n v).2 = s.homeUp d n := by
  cases up : s.homeUp d n
  · rw [State.resetTally_of_down up]
    exact ⟨fun _ => rfl, rfl⟩
  · rw [State.resetTally_of_up up]
    exact ⟨fun _ => rfl, rfl⟩

/-! ## RESET (R201, R213) -/

section
variable (s : State) (n : Nat) (v : Word)

theorem State.tallyReset_tally (k : Nat) : (s.tallyReset n v).tally k = if k = n then v else s.tally k := by
  rw [State.tallyReset, State.wakeWaiters_tally, State.setTallyBad_tally, State.setTally_tally]

theorem State.tallyReset_tallyBad (k : Nat) : (s.tallyReset n v).tallyBad k = if k = n then false else s.tallyBad k := by
  rw [State.tallyReset, State.wakeWaiters_tallyBad, State.setTallyBad_tallyBad, State.setTally_tallyBad]

theorem State.tallyReset_waiter {s : State} {n t : Nat} {w : Waiter} (v : Word) (waits : (s.hearth (tallyHome n)).waiter t = some w) :
    ((s.tallyReset n v).hearth (tallyHome n)).waiter t = some (w.wokenBy n v.toNat) := by
  refine (State.wakeWaiters_waiter (s := (s.setTally n v).setTallyBad n false) waits).trans ?_
  rw [State.setTallyBad_tally, State.setTally_tally, if_pos rfl]

end

/-! ## The mint's writes (R212, R213, R397) -/

theorem failDual_mem (s : State) (m : Master) (b : Nat) : (s.failDual m b).mem = s.mem := by rw [failDual_rest]
theorem failDual_links (s : State) (m : Master) (b : Nat) : (s.failDual m b).links = s.links := by rw [failDual_rest]
theorem failDual_hearth (s : State) (m : Master) (b k : Nat) : (s.failDual m b).hearth k = s.hearth k := by
  rw [State.hearth, failDual_mem, State.hearth]

section
variable {s : State} {m : Master} (active : s.isStandby m = false)
include active

theorem exec_hrtTallyValWrite_of_mint {n : Nat} (mint : s.isMint m = true) (hn : n < 16384) (up : s.homeUp 10 n = true) (v : Word) :
    exec (.hrtTallyValWrite m n v) s =
      .next (((s.failDual m (addrBlock (hearthAddr (tallyHome n) (0x10000 + n % 4096 * 8)))).tallyReset n v).reply .accepted) := by
  have reached : (s.failDual m (addrBlock (hearthAddr (tallyHome n) (0x10000 + n % 4096 * 8)))).homeUp 10 n = true := by
    rw [State.homeUp_of_links (failDual_links ..), up]
  show execHrtTallyValWrite m n v s = _
  simp only [execHrtTallyValWrite, active, mint, hn, up, Bool.false_eq_true, if_false, and_self, if_true, State.resetTally_of_up reached]

theorem exec_hrtTallyStatClear_of_mint {h : Nat} (mint : s.isMint m = true) (hh : h < 4) (ready : s.dieReady (4 + h) = true) (v : Word) :
    exec (.hrtTallyStatClear m h v) s = .next (((s.failDual m (addrBlock (hearthAddr h 0x28))).tallyStatClear h v).reply .accepted) := by
  show execHrtTallyStatClear m h v s = _
  simp only [execHrtTallyStatClear, active, mint, hh, ready, Bool.false_eq_true, if_false, and_self, if_true]

theorem exec_hrtTally_of_refused (barred : s.isMint m = false) (h n : Nat) (v : Word) :
    exec (.hrtTallyValWrite m n v) s = .next (s.refuse m (hearthAddr (tallyHome n) (0x10000 + n % 4096 * 8)) true) ∧
    exec (.hrtTallyStatClear m h v) s = .next (s.refuse m (hearthAddr h 0x28) true) := by
  constructor
  · show execHrtTallyValWrite m n v s = _
    simp [execHrtTallyValWrite, active, barred]
  · show execHrtTallyStatClear m h v s = _
    simp [execHrtTallyStatClear, active, barred]

end

theorem State.tallyStatClear_hearth (s : State) (h k : Nat) (v : Word) : (s.tallyStatClear h v).hearth k = if k = h then
    { s.hearth h with
      ovf := (s.hearth h).ovf && !v.getLsbD 0
      broken := (s.hearth h).broken && !v.getLsbD 1
      contrib := if (s.hearth h).ovf && !v.getLsbD 0 || (s.hearth h).broken && !v.getLsbD 1 then (s.hearth h).contrib else 0 } else s.hearth k :=
  State.setHearth_hearth ..

/-! ## An error of a value (R205) -/

theorem exec_tallyBroken_of_ready {s : State} {n : Nat} (hn : n < 16384) (ready : s.dieReady (4 + tallyHome n) = true) (e : EccEvent) :
    exec (.tallyBroken ⟨n, e⟩) s = .next (breakTally s n e) :=
  if_pos ⟨hn, ready⟩

section
variable (s : State) (n : Nat)

theorem State.brokenMarked_frame : s.brokenMarked n = { s with
    mem := { (s.setTallyBad n true).mem with hearths := (s.brokenMarked n).mem.hearths }
    reg := (s.brokenMarked n).reg
    faults := { s.faults with raised := s.faults.raised ++ [{ source := 76 + tallyHome n, owner := s.tallyPart n, addr := hearthAddr (tallyHome n) (0x10000 + n % 4096 * 8) }] } } := by
  unfold State.brokenMarked
  rw [State.tallyMark_frame]
  rfl

theorem State.brokenMarked_hearth (k : Nat) : (s.brokenMarked n).hearth k = if k = tallyHome n then
    { s.hearth k with broken := true, lastBroken := n % 4096, ueCount := satAdd (2 ^ 32 - 1) (s.hearth k).ueCount 1 }.noting (s.tallyPart n) else s.hearth k := by
  unfold State.brokenMarked
  rw [State.raise_hearth, State.tallyMark_hearth]
  split
  next home => subst home; rfl
  · rfl

end

/-! ## The oldest SIGNAL and the oldest RESET -/

section
variable {s : State} {g : Signal} {pre post : List Signal} (route : s.mem.signals = pre ++ g :: post)
include route

theorem exec_signalAtHome_of_up (earlier : ∀ k ∈ pre, k.reset = true) (kind : g.reset = false) (alone : g.after = .nothing)
    (up : s.homeUp g.src g.tally = true) (good : s.tallyBad g.tally = false) :
    exec .signalAtHome s = .next ((s.withSignals (pre ++ post)).tallySignalled g.tally g.value) := by
  rw [exec_signalAtHome_of_oldest route earlier kind, State.signalTally_of_up (s := s.withSignals (pre ++ post)) (s.withSignals_homeUp _ ▸ up) good, alone]
  rfl

theorem exec_signalAtHome_of_dropped (earlier : ∀ k ∈ pre, k.reset = true) (kind : g.reset = false) (alone : g.after = .nothing)
    (dropped : s.homeUp g.src g.tally = false ∨ s.tallyBad g.tally = true) : exec .signalAtHome s = .next (s.withSignals (pre ++ post)) := by
  rw [exec_signalAtHome_of_oldest route earlier kind, State.signalTally_of_dropped (s := s.withSignals (pre ++ post)) (s.withSignals_homeUp _ ▸ dropped), alone]
  rfl

theorem exec_resetAtHome_of_up (earlier : ∀ k ∈ pre, k.reset = false) (kind : g.reset = true) (alone : g.after = .nothing)
    (up : s.homeUp g.src g.tally = true) :
    exec .resetAtHome s = .next ((s.withSignals (pre ++ post)).tallyReset g.tally (BitVec.ofNat 32 g.value)) := by
  rw [exec_resetAtHome_of_oldest route earlier kind, State.resetTally_of_up (s := s.withSignals (pre ++ post)) (s.withSignals_homeUp _ ▸ up), alone]
  rfl

theorem exec_resetAtHome_of_down (earlier : ∀ k ∈ pre, k.reset = false) (kind : g.reset = true) (alone : g.after = .nothing)
    (down : s.homeUp g.src g.tally = false) : exec .resetAtHome s = .next (s.withSignals (pre ++ post)) := by
  rw [exec_resetAtHome_of_oldest route earlier kind, State.resetTally_of_down (s := s.withSignals (pre ++ post)) (s.withSignals_homeUp _ ▸ down), alone]
  rfl

variable {t : Nat} {c : RunCmd} (sent : g.after = .command t) (runs : (s.tile t).running = some c) (waits : c.wait = .signal)
  (last : dOp c.desc ≠ 0x0A ∨ c.unit ≠ 0 ∨ dDoneEn c.desc = false)
include sent runs waits last

theorem exec_signalAtHome_ended (earlier : ∀ k ∈ pre, k.reset = true) (kind : g.reset = false) :
    ∃ u, exec .signalAtHome s = .next u ∧
      Ended (s.tile t) (u.tile t) c (if s.homeUp g.src g.tally = true ∧ s.tallyBad g.tally = false then stOk else stHw) := by
  refine ⟨_, exec_signalAtHome_of_oldest route earlier kind, ?_⟩
  obtain ⟨tiles, answer⟩ := (s.withSignals (pre ++ post)).signalTally_answers g.src g.tally g.value
  have tile : ((s.withSignals (pre ++ post)).signalTally g.src g.tally g.value).1.tile t = s.tile t := tiles t
  have ended := afterSignal_ended (tile ▸ runs) waits last ((s.withSignals (pre ++ post)).signalTally g.src g.tally g.value).2
  rw [tile] at ended
  rw [sent]
  convert ended using 2
  rw [answer, State.withSignals_homeUp]
  simp [State.withSignals, State.tallyBad]

theorem exec_resetAtHome_ended (earlier : ∀ k ∈ pre, k.reset = false) (kind : g.reset = true) :
    ∃ u, exec .resetAtHome s = .next u ∧ Ended (s.tile t) (u.tile t) c (if s.homeUp g.src g.tally = true then stOk else stHw) := by
  refine ⟨_, exec_resetAtHome_of_oldest route earlier kind, ?_⟩
  obtain ⟨tiles, answer⟩ := (s.withSignals (pre ++ post)).resetTally_answers g.src g.tally (BitVec.ofNat 32 g.value)
  have tile : ((s.withSignals (pre ++ post)).resetTally g.src g.tally (BitVec.ofNat 32 g.value)).1.tile t = s.tile t := tiles t
  have ended := afterSignal_ended (tile ▸ runs) waits last ((s.withSignals (pre ++ post)).resetTally g.src g.tally (BitVec.ofNat 32 g.value)).2
  rw [tile, answer, State.withSignals_homeUp] at ended
  rwa [sent, answer, State.withSignals_homeUp]

end

/-! ## What an uncorrectable error leaves (R205) -/

section
variable {s u : State} {n : Nat} (failed : WaitsFailed (s.brokenMarked n) u)
include failed

theorem WaitsFailed.home : (u.hearth (tallyHome n)).unwaited =
    ({ s.hearth (tallyHome n) with
        broken := true, lastBroken := n % 4096, ueCount := satAdd (2 ^ 32 - 1) (s.hearth (tallyHome n)).ueCount 1 }.noting (s.tallyPart n)).unwaited := by
  rw [failed.hearths, State.brokenMarked_hearth, if_pos rfl]

theorem WaitsFailed.tally (k : Nat) : u.tally k = s.tally k := by
  rw [State.tally, failed.tallies, State.brokenMarked_frame]
  rfl

theorem WaitsFailed.tallyBad (k : Nat) : u.tallyBad k = if k = n then true else s.tallyBad k := by
  rw [State.tallyBad, failed.broken, State.brokenMarked_frame]
  exact s.setTallyBad_tallyBad n k true

theorem WaitsFailed.raised : { source := 76 + tallyHome n, owner := s.tallyPart n, addr := hearthAddr (tallyHome n) (0x10000 + n % 4096 * 8) } ∈
    u.faults.raised := by
  rw [failed.faults, State.brokenMarked_frame]
  exact List.mem_append_right _ (List.mem_singleton_self _)

/-- The partition's tally event is pending while the home answers. -/
theorem WaitsFailed.pending (hn : n < 16384) (ready : s.dieReady (4 + tallyHome n) = true) (hp : s.tallyPart n < 8) :
    u.srcPending (1088 + s.tallyPart n) = true := by
  have up : u.dieReady (4 + tallyHome n) = true := by
    rw [State.dieReady, State.die, failed.links, State.brokenMarked_frame]
    exact ready
  have broken : (u.hearth (tallyHome n)).broken = true := congrArg Hearth.broken failed.home
  have contrib := congrArg Hearth.contrib failed.home
  refine State.srcPending_of_contrib (by unfold tallyHome; omega) hp up (by rw [broken, Bool.or_true]) ?_
  exact (congrArg (·.getLsbD (s.tallyPart n)) contrib).trans (Hearth.noting_contrib _ hp)

end

/-- The waits and the commands are as they were when the mark is made. -/
theorem State.brokenMarked_waiter (s : State) (n k t : Nat) : ((s.brokenMarked n).hearth k).waiter t = (s.hearth k).waiter t := by
  rw [State.brokenMarked_hearth]
  split <;> rfl

theorem State.brokenMarked_tile (s : State) (n t : Nat) : (s.brokenMarked n).tile t = s.tile t := by
  rw [State.brokenMarked_frame]
  rfl

theorem srcClass_tally : ∀ h < 4, srcClass (76 + h) = 1 := by decide

/-! ## The obligation, operation by operation -/

theorem signal_at_home {s : State} {g : Signal} {pre post : List Signal} (route : s.mem.signals = pre ++ g :: post)
    (earlier : ∀ k ∈ pre, k.reset = true) (kind : g.reset = false) (alone : g.after = .nothing)
    (up : s.homeUp g.src g.tally = true) (good : s.tallyBad g.tally = false) :
    ∃ u, exec .signalAtHome s = .next u ∧ u.mem.signals = pre ++ post ∧
      (u.tally g.tally).toNat = min ((s.tally g.tally).toNat + g.value) (2 ^ 32 - 1) ∧ (∀ k, k ≠ g.tally → u.tally k = s.tally k) ∧
      (u.hearth (tallyHome g.tally)).ovf = ((s.hearth (tallyHome g.tally)).ovf || decide (2 ^ 32 ≤ (s.tally g.tally).toNat + g.value)) ∧
      (2 ^ 32 ≤ (s.tally g.tally).toNat + g.value → (u.hearth (tallyHome g.tally)).lastOvf = g.tally % 4096 ∧
        (g.tally < 16384 → s.tallyPart g.tally < 8 → u.srcPending (1088 + s.tallyPart g.tally) = true)) ∧
      (∀ t w, (s.hearth (tallyHome g.tally)).waiter t = some w →
        (u.hearth (tallyHome g.tally)).waiter t = some (w.wokenBy g.tally (u.tally g.tally).toNat)) ∧
      u = { s with mem := u.mem, reg := u.reg } := by
  have ready : s.dieReady (4 + tallyHome g.tally) = true := (Bool.and_eq_true_iff.1 up).1
  refine ⟨_, exec_signalAtHome_of_up route earlier kind alone up good, ?signals, State.tallyAdded_toNat .., fun k hk => ?others,
    State.tallySignalled_ovf .., fun overflows => State.tallySignalled_overflow overflows ready,
    fun t w waits => State.tallySignalled_waiter g.value waits, ?frame⟩
  case signals =>
    rw [State.tallySignalled_frame]
    rfl
  case others => exact (State.tallyAdded_tally ..).trans (if_neg hk)
  case frame =>
    rw [State.tallySignalled_frame]
    rfl

theorem uncorrectable_at_home {s : State} {n : Nat} (hn : n < 16384) (ready : s.dieReady (4 + tallyHome n) = true) (b : Bool) :
    ∃ u, exec (.tallyBroken ⟨n, .uncorrectable b⟩) s = .next u ∧ WaitsFailed (s.brokenMarked n) u ∧
      ∀ t c w, t < 32 → (s.hearth (tallyHome n)).waiter t = some w → w.tally = n → (s.tile t).running = some c →
        Ended (s.tile t) (u.tile t) c stHw := by
  refine ⟨_, exec_tallyBroken_of_ready hn ready _, ?_, fun t c w ht waits on runs => ?_⟩
  · rw [breakTally_uncorrectable]
    exact State.failWaits_leave ..
  · rw [breakTally_uncorrectable, ← s.brokenMarked_tile n t]
    exact State.failWaits_ended _ _ ht ((s.brokenMarked_waiter ..).trans waits) on ((s.brokenMarked_tile n t).symm ▸ runs)

theorem ite_both_clear {α : Type} (a b : Bool) (x y : α) : (if a || b then x else y) = if a = false ∧ b = false then y else x := by
  cases a <;> cases b <;> rfl

@[simp] theorem State.reply_hearth (s : State) (r : AccessReply) (k : Nat) : (s.reply r).hearth k = s.hearth k := rfl

/-- A write by the mint leaves what is neither memory nor a register. -/
theorem State.reply_tallyReset_frame (f : State) (n : Nat) (v : Word) (r : AccessReply) : (f.tallyReset n v).reply r =
    { f with mem := ((f.tallyReset n v).reply r).mem, reg := ((f.tallyReset n v).reply r).reg } := rfl

theorem State.reply_tallyStatClear_frame (f : State) (h : Nat) (v : Word) (r : AccessReply) : (f.tallyStatClear h v).reply r =
    { f with mem := ((f.tallyStatClear h v).reply r).mem, reg := ((f.tallyStatClear h v).reply r).reg } := rfl

/-- Settles O41: each operation at a home is one of the equations above, and its clauses are what those say of the value, the marks and the waits. -/
theorem talliesAtTheirHomes : Obligations.TalliesAtTheirHomes := by
  unfold Obligations.TalliesAtTheirHomes
  refine ⟨fun s g pre post route earlier kind => ?signal, fun s g pre post route earlier kind => ?reset, fun s n hn ready => ?error,
    fun s m n v active mint hn up => ?value, fun s m h v active mint hh ready => ?status,
    fun s m h n v active barred => exec_hrtTally_of_refused active barred h n v⟩
  case signal =>
    exact ⟨fun alone up good => signal_at_home route earlier kind alone up good,
      fun alone dropped => exec_signalAtHome_of_dropped route earlier kind alone dropped,
      fun t c sent runs waits last => exec_signalAtHome_ended route sent runs waits last earlier kind⟩
  case reset =>
    refine ⟨fun alone up => ⟨_, exec_resetAtHome_of_up route earlier kind alone up, rfl, ?_, ?_, fun n hn => ?_, rfl⟩,
      fun alone down => exec_resetAtHome_of_down route earlier kind alone down,
      fun t c sent runs waits last => exec_resetAtHome_ended route sent runs waits last earlier kind⟩
    · rw [State.tallyReset_tally, if_pos rfl]
    · rw [State.tallyReset_tallyBad, if_pos rfl]
    · exact (State.tallyReset_tally ..).trans (if_neg hn)
  case error =>
    refine ⟨exec_tallyBroken_of_ready hn ready _, ⟨_, exec_tallyBroken_of_ready hn ready _, ?_, rfl, fun k hk => ?_, fun _ => rfl, rfl⟩, fun b => ?_⟩
    · exact (State.setHearth_hearth ..).trans (if_pos rfl)
    · exact (State.setHearth_hearth ..).trans (if_neg hk)
    · obtain ⟨u, run, failed, ended⟩ := uncorrectable_at_home hn ready b
      exact ⟨u, run, by rw [failed.tallyBad, if_pos rfl], fun k hk => by rw [failed.tallyBad, if_neg hk], congrArg Hearth.broken failed.home,
        congrArg Hearth.lastBroken failed.home, congrArg Hearth.ueCount failed.home, failed.pending hn ready, failed.raised,
        srcClass_tally _ (by unfold tallyHome; omega), failed.tally, ended⟩
  case value =>
    refine ⟨_, exec_hrtTallyValWrite_of_mint active mint hn up v, ?_, ?_, fun k hk => ?_, rfl, fun t w waits => ?_, State.reply_tallyReset_frame ..⟩
    · exact (State.tallyReset_tally ..).trans (if_pos rfl)
    · exact (State.tallyReset_tallyBad ..).trans (if_pos rfl)
    · refine (State.tallyReset_tally ..).trans ((if_neg hk).trans ?_)
      rw [State.tally, failDual_mem, State.tally]
    · exact State.tallyReset_waiter v ((failDual_hearth ..).symm ▸ waits)
  case status =>
    have home := fun k => (s.failDual m (addrBlock (hearthAddr h 0x28))).tallyStatClear_hearth h k v
    simp only [failDual_hearth] at home
    refine ⟨_, exec_hrtTallyStatClear_of_mint active mint hh ready v, ?_, ?_, ?_, fun k hk => ?_, fun n => ?_, rfl, State.reply_tallyStatClear_frame ..⟩
    · exact congrArg Hearth.ovf ((home h).trans (if_pos rfl))
    · exact congrArg Hearth.broken ((home h).trans (if_pos rfl))
    · rw [State.reply_hearth, home h, if_pos rfl]
      exact ite_both_clear ..
    · exact (home k).trans (if_neg hk)
    · show State.tally (s.failDual _ _) n = s.tally n
      rw [State.tally, failDual_mem, State.tally]

end Sys2Proof.Machine
end

section
/-! PROOF.  What the Teller's shared operations leave of the state: the pevt bits, freed blocks, ring records and the end of a request; codes, wares and their
requests; tags written to the tiles. -/
namespace Sys2Proof.Machine
open Sys2Proof

/-! ## Forwarded commands and their codes (R279, R280) -/

theorem State.taken_eq {op : Nat} (mine : tellerOp op = true) (s : State) (q : Nat) : s.taken q op = (s.dropForwarded q).markServed q := by
  rw [State.taken, if_pos mine]

@[simp] theorem State.taken_request (s : State) (q op i : Nat) : (s.taken q op).request i = s.request i := by
  unfold State.taken
  split <;> rfl

/-- An answer looks at the queue that is named and at what is due already. -/
theorem State.answer_due_of_host {s u : State} (host : u.host = s.host) (f : Forwarded) (status r0 r1 : Nat) :
    (u.answer f status r0 r1).host.due = (s.answer f status r0 r1).host.due := by
  simp only [State.answer, State.due_due, State.sq, host]

@[simp] theorem State.answer_request (s : State) (f : Forwarded) (status r0 r1 i : Nat) : (s.answer f status r0 r1).request i = s.request i := rfl
@[simp] theorem State.answer_ring (s : State) (f : Forwarded) (status r0 r1 i : Nat) : (s.answer f status r0 r1).ring i = s.ring i := rfl
@[simp] theorem State.answer_teller (s : State) (f : Forwarded) (status r0 r1 : Nat) : (s.answer f status r0 r1).teller = s.teller := rfl

/-- A code that does not apply leaves the others. -/
@[simp] theorem lowest_cons_false (c : Nat) (l : List (Bool × Nat)) : lowest ((false, c) :: l) = lowest l := by simp [lowest]

/-- The codes stand in rising order, so that the first one that applies is the lowest. -/
theorem lowest_cons_true {c : Nat} (pos : c ≠ 0) {l : List (Bool × Nat)} (rising : ∀ e ∈ l, c ≤ e.2) : lowest ((true, c) :: l) = c := by
  have stays (m : List (Bool × Nat)) (above : ∀ e ∈ m, c ≤ e.2) : m.foldl (fun n e => if n = 0 then e.2 else min n e.2) c = c := by
    refine foldl_eq_of_fixed fun e he => ?_
    rw [if_neg pos, Nat.min_eq_left (above e he)]
  rw [lowest, List.filter_cons_of_pos rfl, List.foldl_cons, if_pos rfl]
  exact stays _ fun e he => rising e (List.mem_filter.1 he).1

/-- Two bytes of a body. -/
theorem Forwarded.fld_two_lt (f : Forwarded) (b : Nat) : f.fld b 2 < 65536 := by
  have two (l : List Byte) : leNat (l.take 2) < 65536 := by
    rcases l with - | ⟨x, - | ⟨y, l⟩⟩
    · decide
    · have := x.isLt
      simp [leNat]
      omega
    · have := x.isLt
      have := y.isLt
      simp [leNat]
      omega
  exact two _

/-! ## Requests and wares -/

@[simp] theorem State.setRequest_ring (s : State) (i j : Nat) (x : Request) : (s.setRequest i x).ring j = s.ring j := rfl
@[simp] theorem State.setRing_request (s : State) (i j : Nat) (x : Ring) : (s.setRing i x).request j = s.request j := rfl
@[simp] theorem State.setPool_request (s : State) (p j : Nat) (x : Pool) : (s.setPool p x).request j = s.request j := rfl
@[simp] theorem State.setWare_request (s : State) (h j : Nat) (x : Ware) : (s.setWare h x).request j = s.request j := rfl
@[simp] theorem State.setRequest_tagBusy (s : State) (i j : Nat) (x : Request) : (s.setRequest i x).tagBusy j = s.tagBusy j := rfl
@[simp] theorem State.setRing_tagBusy (s : State) (i j : Nat) (x : Ring) : (s.setRing i x).tagBusy j = s.tagBusy j := rfl

theorem State.setRequest_self (s : State) (i : Nat) (x : Request) : (s.setRequest i x).request i = x := by
  rw [State.setRequest_request, if_pos rfl]

theorem State.setRequest_of_ne (s : State) {i j : Nat} (h : j ≠ i) (x : Request) : (s.setRequest i x).request j = s.request j := by
  rw [State.setRequest_request, if_neg h]

theorem State.setRing_self (s : State) (i : Nat) (x : Ring) : (s.setRing i x).ring i = x := by
  rw [State.setRing_ring, if_pos rfl]

theorem State.ware?_setWare_same {s : State} {h : Nat} {w : Ware} (found : s.ware? h = some w) (x : Ware) : (s.setWare h x).ware? h = some x := by
  obtain ⟨e, he, -⟩ := Option.map_eq_some_iff.1 found
  have key : ((fun e : Nat × Ware => decide (e.1 = h)) ∘ fun e : Nat × Ware => if e.1 = h then (h, x) else e) = fun e => decide (e.1 = h) := by
    funext e
    by_cases hk : e.1 = h <;> simp [hk]
  have hk : e.1 = h := by simpa using List.find?_some he
  show ((kset s.teller.wares h x).find? _).map _ = _
  rw [kset, List.find?_map, key, he]
  simp [hk]

/-! ## What is set, freed and recorded -/

theorem State.setPevt_frame (s : State) (p : Nat) (b : BitVec 3) :
    s.setPevt p b = { s with teller := { s.teller with pevt := (s.setPevt p b).teller.pevt }, reg := (s.setPevt p b).reg } := by
  unfold State.setPevt
  rw [State.occurIf_frame]

theorem State.noteStalled_frame (s : State) (p : Nat) :
    s.noteStalled p = { s with teller := { s.teller with pevt := (s.noteStalled p).teller.pevt }, reg := (s.noteStalled p).reg } := by
  unfold State.noteStalled
  split
  · exact s.setPevt_frame p 1
  · rfl

theorem State.noteStalled_of_not (s : State) {p : Nat} (not : s.allStalled p = false) : s.noteStalled p = s := by
  rw [State.noteStalled, not, if_neg Bool.false_ne_true]

@[simp] theorem State.noteStalled_ringRecs (s : State) (p : Nat) : (s.noteStalled p).teller.ringRecs = s.teller.ringRecs := by
  rw [State.noteStalled_frame]

/-- `u` has the requests of `s`, its host's side and its signals on their way. -/
structure SameServing (s u : State) : Prop where
  requests : ∀ j, u.request j = s.request j
  host : u.host = s.host
  signals : u.mem.signals = s.mem.signals

theorem SameServing.of_table {s u : State} (table : u.teller.requests = s.teller.requests) (host : u.host = s.host)
    (signals : u.mem.signals = s.mem.signals) : SameServing s u :=
  ⟨fun j => by rw [State.request, table, State.request], host, signals⟩

theorem SameServing.refl (s : State) : SameServing s s := .of_table rfl rfl rfl

theorem SameServing.trans {s t u : State} (h : SameServing s t) (g : SameServing t u) : SameServing s u :=
  ⟨fun j => (g.requests j).trans (h.requests j), g.host.trans h.host, g.signals.trans h.signals⟩

theorem State.noteStalled_same (s : State) (p : Nat) : SameServing s (s.noteStalled p) := by
  rw [State.noteStalled_frame]
  exact .of_table rfl rfl rfl

theorem State.returnBlocks_same (s : State) (p : Nat) (bs : List Block) : SameServing s (s.returnBlocks p bs) := by
  fun_cases State.returnBlocks s p bs <;> exact .of_table rfl rfl rfl

theorem State.unpin_same (s : State) (r : Request) : SameServing s (s.unpin r) := by
  fun_cases State.unpin s r <;> exact .of_table rfl rfl rfl

theorem State.reapSession_same (s : State) (p k : Nat) : SameServing s (s.reapSession p k) := by
  unfold State.reapSession
  dsimp only
  split
  · exact .of_table (by rw [State.setSession_teller]) (State.setSession_host ..) (by rw [State.setSession_mem])
  · exact .refl s

/-! ## The end of a request (R273, R282, R295) -/

/-- `u` is `s` once request i has retired: its pages are gone, its marks and its reason stand, and neither the other requests nor the host's side nor the
signals on their way have moved. -/
structure Retires (s : State) (i : Nat) (u : State) : Prop where
  state : (u.request i).state = .retired
  pages : (u.request i).pages = []
  endReason : (u.request i).endReason = (s.request i).endReason
  late : (u.request i).late = (s.request i).late
  others : ∀ j, j ≠ i → u.request j = s.request j
  host : u.host = s.host
  signals : u.mem.signals = s.mem.signals

theorem Retires.trans {s t u : State} {i : Nat} (h : Retires s i t) (g : SameServing t u) : Retires s i u where
  state := (g.requests i).symm ▸ h.state
  pages := (g.requests i).symm ▸ h.pages
  endReason := (g.requests i).symm ▸ h.endReason
  late := (g.requests i).symm ▸ h.late
  others j hj := (g.requests j).trans (h.others j hj)
  host := g.host.trans h.host
  signals := g.signals.trans h.signals

theorem State.retire_retires (s : State) (i : Nat) : Retires s i (s.retire i) := by
  unfold State.retire
  extract_lets r p entry freed unpinned src told
  have own : entry.request i = _ := s.setRequest_self i _
  have ends : Retires s i entry := ⟨own ▸ rfl, own ▸ rfl, own ▸ rfl, own ▸ rfl, fun j hj => s.setRequest_of_ne hj _, rfl, rfl⟩
  have asks : SameServing unpinned told := by
    unfold told
    split <;> exact .of_table rfl rfl rfl
  have done : Retires s i told := ends.trans (((entry.returnBlocks_same ..).trans (freed.unpin_same r)).trans asks)
  split
  · exact done.trans (told.reapSession_same ..)
  · exact done

/-- The state in which request i drains for a reason. -/
def State.draining (s : State) (i reason : Nat) : State :=
  s.setRequest i { s.request i with state := .draining, resumeTo := .free,
                                    endReason := if (s.request i).endReason = 0 then reason else (s.request i).endReason, suspendReq := false }

theorem State.drain_of_idle {s : State} {i : Nat} (between : (s.request i).inStep = none) (idle : s.tagBusy i = false) (reason : Nat) :
    s.drain i reason = (s.draining i reason).retire i := by
  have off : ¬((s.request i).inStep.isSome || (s.draining i reason).tagBusy i) = true := by
    rw [between, show (s.draining i reason).tagBusy i = false from idle]
    decide
  exact if_neg off

theorem State.drain_of_busy {s : State} {i : Nat} (busy : (s.request i).inStep ≠ none ∨ s.tagBusy i = true) (reason : Nat) :
    s.drain i reason = s.draining i reason := by
  have on : ((s.request i).inStep.isSome || (s.draining i reason).tagBusy i) = true :=
    Bool.or_eq_true_iff.2 (busy.imp (fun h => Option.isSome_iff_ne_none.2 h) id)
  exact if_pos on

theorem State.draining_self (s : State) (i reason : Nat) : (s.draining i reason).request i =
    { s.request i with state := .draining, resumeTo := .free, endReason := if (s.request i).endReason = 0 then reason else (s.request i).endReason,
                       suspendReq := false } :=
  s.setRequest_self ..

@[simp] theorem State.draining_host (s : State) (i reason : Nat) : (s.draining i reason).host = s.host := rfl
@[simp] theorem State.draining_signals (s : State) (i reason : Nat) : (s.draining i reason).mem.signals = s.mem.signals := rfl

theorem State.draining_of_ne (s : State) {i j : Nat} (h : j ≠ i) (reason : Nat) : (s.draining i reason).request j = s.request j :=
  s.setRequest_of_ne h _

/-! ## Tags written to the tiles (R136, R296) -/

/-- `u` is `s` after tags have been written to tiles: of the Teller only the descriptors and tags that wait, and the wares, have moved, and every tag
that a tile had not acted on it has still to act on. -/
structure Abandons (s u : State) : Prop where
  rest : u = { s with tiles := u.tiles, mem := u.mem, islands := u.islands,
                      teller := { s.teller with feeds := u.teller.feeds, abandons := u.teller.abandons, wares := u.teller.wares } }
  owed : ∀ t g, s.actedOn t g = false → u.actedOn t g = false

theorem State.actedOn_eq_false_iff {s : State} {t g : Nat} : s.actedOn t g = false ↔ g ∈ (s.tile t).abandonList ∨ (t, g) ∈ s.teller.abandons := by
  rw [State.actedOn, Bool.and_eq_false_iff]
  simp

namespace Abandons

theorem refl (s : State) : Abandons s s := ⟨rfl, fun _ _ h => h⟩

theorem trans {s t u : State} (h : Abandons s t) (g : Abandons t u) : Abandons s u where
  rest := by
    have gr := g.rest
    rw [h.rest] at gr
    exact gr
  owed j k o := g.owed j k (h.owed j k o)

theorem foldl {α : Type} {f : State → α → State} (step : ∀ u a, Abandons u (f u a)) (l : List α) (s : State) : Abandons s (l.foldl f s) := by
  induction l generalizing s with
  | nil => exact refl s
  | cons a l ih => exact (step s a).trans (ih _)

variable {s u : State} (h : Abandons s u)
include h

theorem host : u.host = s.host := by rw [h.rest]
theorem request (i : Nat) : u.request i = s.request i := by
  rw [h.rest]
  rfl
end Abandons

theorem State.setWare_abandons (s : State) (h : Nat) (w : Ware) : Abandons s (s.setWare h w) := ⟨rfl, fun _ _ o => o⟩

/-- The tags that a tile holds after a write of KLN_ABANDON: one more, unless the tag is zero or the list full. -/
theorem abandonWrite_abandonList (s : State) (t j : Nat) (tag : Word) : ((abandonWrite s t tag).tile j).abandonList =
    if j = t ∧ tag ≠ 0 ∧ (s.tile t).abandonList.length < 16 then (s.tile t).abandonList ++ [tag.toNat] else (s.tile j).abandonList := by
  unfold abandonWrite
  extract_lets x g own fr en waiting marked swept settled
  split
  next zero => rw [if_neg fun h => h.2.1 zero]
  split
  next full =>
    rw [if_neg fun h => Nat.not_lt.2 full h.2.2, State.setTile_tile]
    split
    next same => rw [same]
    next => rfl
  next zero room =>
    have list : swept.abandonList = (s.tile t).abandonList ++ [tag.toNat] := foldl_abandonList (fun _ _ => Tile.setQ_abandonList ..) ..
    have others : settled.tile j = s.tile j := by
      unfold settled
      split <;> simp
    rw [State.setTile_tile]
    by_cases same : j = t
    · rw [if_pos same, if_pos ⟨same, zero, Nat.not_le.1 room⟩, list]
    · rw [if_neg same, if_neg fun h => same h.1, others]

theorem abandonWrite_frame (s : State) (t : Nat) (tag : Word) :
    abandonWrite s t tag = { s with tiles := (abandonWrite s t tag).tiles, mem := (abandonWrite s t tag).mem } := by
  unfold abandonWrite
  extract_lets x g own fr en waiting marked swept settled
  split
  · rfl
  split
  · rfl
  · unfold settled
    split
    · rw [State.dropWaiter_frame]
      rfl
    · rfl

theorem tailWrite_abandons (s : State) (t q : Nat) (v : Word) : Abandons s (tailWrite s t q v) where
  rest := rfl
  owed j g h := by
    rw [State.actedOn_eq_false_iff] at h ⊢
    have list : ((tailWrite s t q v).tile j).abandonList = (s.tile j).abandonList := by
      show ((s.setTile t (breakRestore ((s.tile t).setQ q { (s.tile t).q q with tail := v.toNat % 64 }))).tile j).abandonList = _
      rw [State.setTile_tile]
      split
      next same => rw [breakRestore_abandonList, Tile.setQ_abandonList, same]
      next => rfl
    rw [list]
    exact h

theorem applyTails_abandons (s : State) (t : Nat) : Abandons s (applyTails s t) := by
  refine Abandons.foldl (fun u a => ?_) _ s
  split
  · split
    · exact tailWrite_abandons ..
    · exact Abandons.refl u
  · exact Abandons.refl u

/-- The state in which the tag is written: the TAIL writes stand, and no descriptor of the tag is copied any more. -/
def State.toldTag (s : State) (t tag : Nat) : State :=
  ((applyTails s t).dropFeeds t (fun d => dTag d == tag)).logAct (.other (0x8000000 + t)) true

theorem State.toldTag_abandons (s : State) (t tag : Nat) : Abandons s (s.toldTag t tag) :=
  (applyTails_abandons s t).trans ⟨rfl, fun _ _ h => h⟩

theorem abandonWrite_abandons (s : State) (t : Nat) (tag : Word) : Abandons s (abandonWrite s t tag) where
  rest := by
    rw [abandonWrite_frame]
  owed j g h := by
    rw [State.actedOn_eq_false_iff] at h ⊢
    rw [abandonWrite_abandonList, abandonWrite_frame]
    refine h.imp_left fun mem => ?_
    split
    next same =>
      rw [same.1] at mem
      exact List.mem_append_left _ mem
    next => exact mem

theorem sendAbandon_abandons (s : State) (t tag : Nat) : Abandons s (sendAbandon s t tag) := by
  have write := (s.toldTag_abandons t tag).trans (abandonWrite_abandons _ t (BitVec.ofNat 32 tag))
  show Abandons s (if ((s.toldTag t tag).tile t).abandonList.length < 16 then _ else _)
  split
  · exact write
  · refine write.trans ⟨rfl, fun j g h => ?_⟩
    rw [State.actedOn_eq_false_iff] at h ⊢
    exact h.imp_right fun mem => List.mem_append_left _ mem

/-- A tile that is sent a tag has it to act on. -/
theorem sendAbandon_owed (s : State) (t : Nat) {tag : Nat} (pos : 0 < tag) (lt : tag < 2 ^ 32) : (sendAbandon s t tag).actedOn t tag = false := by
  have word : (BitVec.ofNat 32 tag).toNat = tag := by
    rw [BitVec.toNat_ofNat, Nat.mod_eq_of_lt lt]
  have nonzero : BitVec.ofNat 32 tag ≠ 0 := fun h => by simp [h] at word; omega
  show State.actedOn (if ((s.toldTag t tag).tile t).abandonList.length < 16 then _ else _) t tag = false
  rw [State.actedOn_eq_false_iff]
  split
  next room =>
    left
    show tag ∈ ((abandonWrite (s.toldTag t tag) t (BitVec.ofNat 32 tag)).tile t).abandonList
    rw [abandonWrite_abandonList, if_pos ⟨rfl, nonzero, room⟩, word]
    exact List.mem_append_right _ (List.mem_singleton.2 rfl)
  next => exact .inr (List.mem_append_right _ (List.mem_singleton.2 rfl))

/-- Every tile of a list that is sent a tag has it to act on. -/
theorem sendAbandon_all {tag : Nat} (pos : 0 < tag) (lt : tag < 2 ^ 32) {t : Nat} (l : List Nat) (mem : t ∈ l) (s : State) :
    (l.foldl (fun s t => sendAbandon s t tag) s).actedOn t tag = false := by
  obtain ⟨before, after, rfl⟩ := List.append_of_mem mem
  rw [List.foldl_append, List.foldl_cons]
  exact (Abandons.foldl (fun u a => sendAbandon_abandons u a tag) after _).owed _ _ (sendAbandon_owed _ t pos lt)

end Sys2Proof.Machine
end

section
/-! PROOF.  O44.  A command that names an entry is refused by its reserved bits, its owner and its state in turn, or acts on the entry (`entryCommand_acts`); what
it leaves of the entry and of the others are `Retires`, `State.draining` and `Abandons`. -/
namespace Sys2Proof.Machine
open Sys2Proof

/-! ## The state that a command finds -/

@[simp] theorem State.taken_funcPart (s : State) (q op f : Nat) : (s.taken q op).funcPart f = s.funcPart f := by
  unfold State.taken
  split <;> rfl
@[simp] theorem State.taken_ownsEntry (s : State) (q op p i : Nat) : (s.taken q op).ownsEntry p i = s.ownsEntry p i := by
  unfold State.taken
  split <;> rfl
@[simp] theorem State.taken_tagBusy (s : State) (q op i : Nat) : (s.taken q op).tagBusy i = s.tagBusy i := by
  unfold State.taken
  split <;> rfl
@[simp] theorem State.taken_ring (s : State) (q op i : Nat) : (s.taken q op).ring i = s.ring i := by
  unfold State.taken
  split <;> rfl
@[simp] theorem State.taken_reqPart (s : State) (q op i : Nat) : (s.taken q op).reqPart i = s.reqPart i := by
  unfold State.taken
  split <;> rfl
@[simp] theorem State.taken_tilePart (s : State) (q op t : Nat) : (s.taken q op).tilePart t = s.tilePart t := by
  unfold State.taken
  split <;> rfl
@[simp] theorem State.taken_due (s : State) (q op : Nat) : (s.taken q op).host.due = s.host.due := by
  unfold State.taken
  split <;> rfl

/-! ## Refusals (R279, R282) -/

/-- The four commands that name an entry. -/
theorem exec_entryCommand (s : State) (q : Nat) :
    ∀ p ∈ [(Instr.cancel q, 0x21), (.cancelNow q, 0x22), (.reqSuspend q, 0x23), (.reqResume q, 0x24)], ∃ k, exec p.1 s = .next (entryCommand q p.2 s k) := by
  intro p hp
  simp only [List.mem_cons, List.not_mem_nil, or_false] at hp
  rcases hp with rfl | rfl | rfl | rfl <;> exact ⟨_, rfl⟩

section
variable {s : State} {q op : Nat} {f : Forwarded} (awaits : s.Awaits q op f) (k : Forwarded → Nat → Nat → State → State)
include awaits

theorem entryCommand_reserved (form : bodyReserved f 18 = true) : entryCommand q op s k = (s.taken q op).answer f 0x02 0 0 := by
  rw [entryCommand, onForwarded_awaits awaits]
  exact if_pos form

variable (form : bodyReserved f 18 = false)
include form

theorem entryCommand_notOwned (other : s.ownsEntry (s.funcPart f.fn) (f.fld 16 2) = false) :
    entryCommand q op s k = (s.taken q op).answer f 0x20 0 0 := by
  rw [entryCommand, onForwarded_awaits awaits]
  simp [form, other]

variable (own : s.ownsEntry (s.funcPart f.fn) (f.fld 16 2) = true)
include own

theorem entryCommand_notActive (ended : (s.request (f.fld 16 2)).state.active = false) :
    entryCommand q op s k = (s.taken q op).answer f 0x23 0 0 := by
  rw [entryCommand, onForwarded_awaits awaits]
  simp [form, own, ended]

theorem entryCommand_acts (active : (s.request (f.fld 16 2)).state.active = true) :
    entryCommand q op s k = k f (s.funcPart f.fn) (f.fld 16 2) (s.taken q op) := by
  rw [entryCommand, onForwarded_awaits awaits]
  simp [form, own, active]
end

/-! ## Draining (R273, R295) -/

/-- A request that drains between steps with no work left retires. -/
theorem State.drain_retires {s : State} {i : Nat} (between : (s.request i).inStep = none) (idle : s.tagBusy i = false) (reason : Nat) :
    Retires (s.draining i reason) i (s.drain i reason) := by
  rw [State.drain_of_idle between idle]
  exact State.retire_retires ..

theorem State.drain_cases (s : State) (i reason : Nat) : s.drain i reason = s.draining i reason ∨ s.drain i reason = (s.draining i reason).retire i := by
  by_cases idle : (s.request i).inStep = none ∧ s.tagBusy i = false
  · exact .inr (State.drain_of_idle idle.1 idle.2 reason)
  · refine .inl (State.drain_of_busy ?_ reason)
    rwa [not_and_or, Bool.not_eq_false] at idle

theorem State.drain_host (s : State) (i reason : Nat) : (s.drain i reason).host = s.host := by
  rcases s.drain_cases i reason with drains | retires
  · rw [drains]
    rfl
  · rw [retires]
    exact (State.retire_retires ..).host

theorem State.drain_of_ne (s : State) {i j : Nat} (h : j ≠ i) (reason : Nat) : (s.drain i reason).request j = s.request j := by
  rcases s.drain_cases i reason with drains | retires
  · rw [drains, State.draining_of_ne s h]
  · rw [retires, (State.retire_retires ..).others j h, State.draining_of_ne s h]

/-! ## CANCEL and CANCEL_NOW (R295, R296) -/

/-- The state in which CANCEL has marked request i. -/
def State.cancelMarked (s : State) (i : Nat) : State := s.setRequest i { s.request i with cancelled := true }

theorem State.cancelMarked_self (s : State) (i : Nat) : (s.cancelMarked i).request i = { s.request i with cancelled := true } := s.setRequest_self i _

@[simp] theorem State.cancelMarked_host (s : State) (i : Nat) : (s.cancelMarked i).host = s.host := rfl

theorem State.cancelMarked_of_ne (s : State) {i j : Nat} (h : j ≠ i) : (s.cancelMarked i).request j = s.request j := s.setRequest_of_ne h _

/-- The state in which CANCEL_NOW has marked request i. -/
def State.cancelNowMarked (s : State) (i reason : Nat) (src : Option (Nat × Nat × Nat)) : State :=
  s.setRequest i { s.request i with state := .draining, resumeTo := .free, cancelNow := true, cancelSrc := src,
                                    endReason := if (s.ring i).ended then (s.request i).endReason else reason, suspendReq := false }

theorem State.cancelNowMarked_self (s : State) (i reason : Nat) (src : Option (Nat × Nat × Nat)) : (s.cancelNowMarked i reason src).request i =
    { s.request i with state := .draining, resumeTo := .free, cancelNow := true, cancelSrc := src,
                       endReason := if (s.ring i).ended then (s.request i).endReason else reason, suspendReq := false } :=
  s.setRequest_self i _

@[simp] theorem State.cancelNowMarked_host (s : State) (i reason : Nat) (src : Option (Nat × Nat × Nat)) :
    (s.cancelNowMarked i reason src).host = s.host := rfl

theorem State.cancelNowMarked_of_ne (s : State) {i j : Nat} (h : j ≠ i) (reason : Nat) (src : Option (Nat × Nat × Nat)) :
    (s.cancelNowMarked i reason src).request j = s.request j :=
  s.setRequest_of_ne h _

/-- CANCEL_NOW writes tags from there on, first its own to every tile of the partition where work of the request may be about. -/
theorem State.startCancelNow_abandons (s : State) (i reason : Nat) (src : Option (Nat × Nat × Nat)) :
    Abandons (s.cancelNowMarked i reason src) (s.startCancelNow i reason src) := by
  unfold State.startCancelNow
  extract_lets r p marked tiles told
  have tags : Abandons marked told := by
    unfold told
    split
    · exact .foldl (fun u t => sendAbandon_abandons u t _) _ _
    · exact .refl _
  refine tags.trans ?_
  split
  · split
    · exact (told.setWare_abandons ..).trans (.foldl (fun u t => sendAbandon_abandons u t _) _ _)
    · exact .refl _
  · exact .refl _

theorem State.startCancelNow_owed {s : State} {i t : Nat} (running : (s.request i).inStep ≠ none) (lt : i < 65536) (ht : t < 32)
    (mine : s.tilePart t = s.reqPart i) (reason : Nat) (src : Option (Nat × Nat × Nat)) : (s.startCancelNow i reason src).actedOn t (reqTag i) = false := by
  unfold State.startCancelNow
  extract_lets r p marked tiles told
  have sent : told.actedOn t (reqTag i) = false := by
    unfold told
    rw [if_pos (Bool.or_eq_true_iff.2 (.inl (Option.isSome_iff_ne_none.2 running)))]
    exact sendAbandon_all (by unfold reqTag; omega) (by unfold reqTag; omega) tiles
      (List.mem_filter.2 ⟨List.mem_range.2 ht, beq_iff_eq.2 mine⟩) marked
  split
  · split
    · exact ((told.setWare_abandons ..).trans (.foldl (fun u t => sendAbandon_abandons u t _) _ _)).owed _ _ sent
    · exact sent
  · exact sent

/-! ## The commands that act -/

section
variable {s : State} {q : Nat} {f : Forwarded} (form : bodyReserved f 18 = false) (own : s.ownsEntry (s.funcPart f.fn) (f.fld 16 2) = true)
  (active : (s.request (f.fld 16 2)).state.active = true)
include form own active

theorem exec_cancel (awaits : s.Awaits q 0x21 f) (live : (s.request (f.fld 16 2)).state ≠ .draining) : exec (.cancel q) s =
    .next (((((s.taken q 0x21).cancelMarked (f.fld 16 2)).drain (f.fld 16 2) 0x04).noteStalled (s.funcPart f.fn)).answer f 0 0 0) := by
  refine congrArg Host.Outcome.next ((entryCommand_acts awaits _ form own active).trans (if_neg ?_))
  rwa [State.taken_request]

theorem exec_cancelNow (awaits : s.Awaits q 0x22 f)
    (first : (s.request (f.fld 16 2)).state = .draining → (s.request (f.fld 16 2)).cancelNow = false ∧ (s.request (f.fld 16 2)).cancelled = true) :
    exec (.cancelNow q) s = .next ((s.taken q 0x22).startCancelNow (f.fld 16 2) 0x05 (some (f.fn, f.sq, f.cid))) := by
  refine congrArg Host.Outcome.next ((entryCommand_acts awaits _ form own active).trans (if_neg ?_))
  rw [State.taken_request]
  rintro ⟨drains, refused⟩
  obtain ⟨now, marked⟩ := first drains
  simp [now, marked] at refused

theorem exec_reqSuspend_between (awaits : s.Awaits q 0x23 f) (live : (s.request (f.fld 16 2)).state ≠ .draining)
    (runs : (s.request (f.fld 16 2)).state ≠ .suspended) (between : (s.request (f.fld 16 2)).inStep = none) : ∃ x : Request,
    x.state = .suspended ∧ x.resumeTo = (s.request (f.fld 16 2)).state ∧ exec (.reqSuspend q) s =
      .next ((((s.taken q 0x23).setRequest (f.fld 16 2) x).noteStalled (s.funcPart f.fn)).answer f 0 0 0) := by
  refine ⟨_, ?_, ?_, congrArg Host.Outcome.next ((entryCommand_acts awaits _ form own active).trans ((if_neg ?_).trans (if_neg ?_)))⟩
  · rfl
  · rw [State.taken_request]
  · rw [State.taken_request]
    exact fun h => h.elim live runs
  · rw [State.taken_request, between]
    decide

theorem exec_reqSuspend_inStep (awaits : s.Awaits q 0x23 f) (live : (s.request (f.fld 16 2)).state ≠ .draining)
    (runs : (s.request (f.fld 16 2)).state ≠ .suspended) (running : (s.request (f.fld 16 2)).inStep ≠ none) : exec (.reqSuspend q) s =
    .next (((s.taken q 0x23).setRequest (f.fld 16 2) { s.request (f.fld 16 2) with suspendReq := true }).answer f 0 0 0) := by
  rw [← State.taken_request s q 0x23] at *
  exact congrArg Host.Outcome.next ((entryCommand_acts awaits _ form own (by rwa [State.taken_request] at active)).trans
    ((if_neg fun h => h.elim live runs).trans (if_pos (Option.isSome_iff_ne_none.2 running))))

theorem exec_reqResume (awaits : s.Awaits q 0x24 f) (held : (s.request (f.fld 16 2)).state = .suspended) : ∃ x : Request,
    x.state = (s.request (f.fld 16 2)).resumeTo ∧ exec (.reqResume q) s =
      .next ((((s.taken q 0x24).setRequest (f.fld 16 2) x).noteStalled (s.funcPart f.fn)).answer f 0 0 0) := by
  refine ⟨_, ?_, congrArg Host.Outcome.next ((entryCommand_acts awaits _ form own active).trans (if_neg ?_))⟩
  · rw [State.taken_request]
  · rw [State.taken_request]
    exact not_not.2 held

theorem exec_reqResume_refused (awaits : s.Awaits q 0x24 f) (runs : (s.request (f.fld 16 2)).state ≠ .suspended) :
    exec (.reqResume q) s = .next ((s.taken q 0x24).answer f 0x23 0 0) := by
  refine congrArg Host.Outcome.next ((entryCommand_acts awaits _ form own active).trans (if_pos ?_))
  rwa [State.taken_request]
end

/-! ## The end of CANCEL_NOW (R296) -/

theorem State.samplePrefill_cases (s : State) (i : Nat) : s.samplePrefill i = s ∨ ∃ x, s.samplePrefill i = s.setRequest i x := by
  unfold State.samplePrefill
  extract_lets r last
  split
  · exact .inr ⟨_, rfl⟩
  · exact .inl rfl

/-- A record is taken into the request that its tag names, or into none. -/
theorem State.noteDone_cases (s : State) (d : TileDone) : s.noteDone d = s ∨ (∃ x, s.noteDone d = s.setRequest (d.tag % 65536) x) ∨
    ∃ x y, s.noteDone d = (s.setRequest (d.tag % 65536) x).setRequest (d.tag % 65536) y := by
  unfold State.noteDone
  split
  · extract_lets i r entry
    split
    · rcases entry.samplePrefill_cases i with same | ⟨y, sets⟩
      · exact .inr (.inl ⟨_, same⟩)
      · exact .inr (.inr ⟨_, y, sets⟩)
    · exact .inr (.inl ⟨_, rfl⟩)
  · exact .inl rfl

theorem State.noteDone_frame (s : State) (d : TileDone) : s.noteDone d = { s with teller := { s.teller with requests := (s.noteDone d).teller.requests } } := by
  rcases s.noteDone_cases d with same | ⟨x, sets⟩ | ⟨x, y, sets⟩
  · rw [same]
  · rw [sets]
    rfl
  · rw [sets]
    rfl

/-- A record of a request's own command is taken into that request alone. -/
theorem State.noteDone_of_ne (s : State) {d : TileDone} {i j : Nat} (lt : i < 65536) (own : d.tag = reqTag i) (h : j ≠ i) :
    (s.noteDone d).request j = s.request j := by
  have entry : d.tag % 65536 = i := by
    rw [own, reqTag]
    omega
  rcases s.noteDone_cases d with same | ⟨x, sets⟩ | ⟨x, y, sets⟩
  · rw [same]
  · rw [sets, entry, State.setRequest_of_ne s h]
  · rw [sets, entry, State.setRequest_of_ne _ h, State.setRequest_of_ne s h]

/-- Taking the records of request i's own commands moves the Teller's records and request i. -/
theorem State.takeOk_leaves (s : State) {i : Nat} (lt : i < 65536) :
    (s.takeOk i).host = s.host ∧ (s.takeOk i).mem = s.mem ∧ ∀ j, j ≠ i → (s.takeOk i).request j = s.request j := by
  unfold State.takeOk
  extract_lets own
  refine ⟨foldl_keeps State.host (fun u d => by rw [State.noteDone_frame]) _ _, foldl_keeps State.mem (fun u d => by rw [State.noteDone_frame]) _ _,
    fun j hj => foldl_keeps_of_mem (fun u : State => u.request j) (fun d hd u => ?_) _⟩
  have mine : d.tag = reqTag i ∧ d.status = stOk := by simpa [own] using (List.mem_filter.1 hd).2
  exact u.noteDone_of_ne lt mine.1 hj

/-- The compensating signals go out one after the other. -/
theorem foldl_pushSignal (l : List TaggedDone) (s : State) :
    l.foldl (fun s d => s.pushSignal { src := 10, tally := d.tally, value := d.add }) s =
      { s with mem := { s.mem with signals := s.mem.signals ++ l.map (fun d => { src := 10, tally := d.tally, value := d.add }) } } := by
  induction l generalizing s with
  | nil => simp
  | cons d l ih =>
    rw [List.foldl_cons, ih]
    simp [State.pushSignal]

theorem exec_cancelNowComplete_of_busy {s : State} {i : Nat} (busy : s.tagBusy i = true) : exec (.cancelNowComplete i) s = .next s := by
  refine if_pos (.inr (.inr ?_))
  simp [busy]

/-- Where no chunk of the ware runs, CANCEL_NOW completes once the tiles have acted: it signals what no OK record reports, and the request retires. -/
theorem exec_cancelNowComplete {s : State} {i fn sq cid : Nat} (lt : i < 65536) (drains : (s.request i).state = .draining)
    (now : (s.request i).cancelNow = true) (src : (s.request i).cancelSrc = some (fn, sq, cid))
    (none : (s.ware? (s.request i).ware).bind (·.chunk) = none) (idle : s.tagBusy i = false) :
    ∃ t u : State, t.host = s.host ∧ (∀ j, j ≠ i → t.request j = s.request j) ∧
      t.mem.signals = s.mem.signals ++ ((s.takeOk i).request i).taggedDone.map (fun d => { src := 10, tally := d.tally, value := d.add }) ∧
      Retires t i u ∧ exec (.cancelNowComplete i) s = .next (u.due { fn := fn, cid := cid, sq := sq, cq := (s.sq sq).bind }) := by
  obtain ⟨host, mem, others⟩ := s.takeOk_leaves lt
  show ∃ t u : State, _ ∧ _ ∧ _ ∧ _ ∧ execCancelNowComplete i s = _
  unfold execCancelNowComplete
  extract_lets r p alone acted taken signalled drop old t u
  have alone_eq : alone = Option.none := by
    unfold alone r
    rw [none]
  have acted_eq : acted = true := by
    unfold acted
    rw [alone_eq, idle]
    rfl
  have retires : Retires t i u := (t.retire_retires i).trans (State.noteStalled_same ..)
  have signals : signalled = _ := foldl_pushSignal (taken.request i).taggedDone taken
  have same : t.host = s.host := by
    show signalled.host = _
    rw [signals]
    exact host
  refine ⟨t, u, same, fun j hj => ?_, ?_, retires, ?_⟩
  · show signalled.request j = _
    rw [signals]
    exact others j hj
  · show signalled.mem.signals = _
    rw [signals, ← mem]
  · rw [if_neg (by simp [r, drains, now, acted_eq]), show r.cancelSrc = _ from src]
    dsimp only
    rw [State.sq, retires.host, same, State.sq]

/-- Settles O44: the refusals of `entryCommand`, then one equation for each command that acts, with what it leaves of the requests and of the host's side. -/
theorem requestCommands : Obligations.RequestCommands := by
  refine ⟨fun s q f p hp awaits => ?refused, fun s q f i hi form own active => ?acts, fun s i fn sq cid lt drains now src none idle => ?complete,
    fun s i busy => exec_cancelNowComplete_of_busy busy, fun s i t ht mine owed => ?waits⟩
  case refused =>
    obtain ⟨k, run⟩ := exec_entryCommand s q p hp
    rw [run]
    exact ⟨fun form => congrArg _ (entryCommand_reserved awaits k form), fun form other => congrArg _ (entryCommand_notOwned awaits k form other),
      fun form own ended => congrArg _ (entryCommand_notActive awaits k form own ended)⟩
  case acts =>
    subst hi
    refine ⟨fun awaits live between idle => ?cancelled, fun awaits live busy => ?draining, fun awaits first => ?now, fun awaits live runs => ?suspended,
      fun awaits held => ?resumed, fun awaits runs => exec_reqResume_refused form own active awaits runs⟩
    case cancelled =>
      have idle' : ((s.taken q 0x21).cancelMarked (f.fld 16 2)).tagBusy (f.fld 16 2) = false := (State.taken_tagBusy ..).trans idle
      have between' : (((s.taken q 0x21).cancelMarked (f.fld 16 2)).request (f.fld 16 2)).inStep = none := by
        rw [State.cancelMarked_self, State.taken_request]
        exact between
      have retires := (State.drain_retires between' idle' 0x04).trans (State.noteStalled_same _ (s.funcPart f.fn))
      refine ⟨_, exec_cancel form own active awaits live, ?_, ?_, fun fresh => ?_, fun j hj => ?_,
        State.answer_due_of_host (retires.host.trans (by rw [State.draining_host, State.cancelMarked_host])) f 0 0 0⟩
      · rw [State.answer_request, retires.state]
      · rw [State.answer_request, retires.pages]
      · rw [State.answer_request, retires.endReason, State.draining_self, State.cancelMarked_self, State.taken_request]
        exact if_pos fresh
      · rw [State.answer_request, retires.others j hj, State.draining_of_ne _ hj, State.cancelMarked_of_ne _ hj, State.taken_request]
    case draining =>
      have busy' : (((s.taken q 0x21).cancelMarked (f.fld 16 2)).request (f.fld 16 2)).inStep ≠ none ∨
          ((s.taken q 0x21).cancelMarked (f.fld 16 2)).tagBusy (f.fld 16 2) = true := by
        rw [State.cancelMarked_self, State.taken_request]
        exact busy.imp_right (State.taken_tagBusy ..).trans
      have same := State.noteStalled_same (((s.taken q 0x21).cancelMarked (f.fld 16 2)).draining (f.fld 16 2) 0x04) (s.funcPart f.fn)
      refine ⟨_, exec_cancel form own active awaits live, ?_⟩
      rw [State.drain_of_busy busy']
      refine ⟨?_, ?_, fun j hj => ?_, State.answer_due_of_host (same.host.trans (by rw [State.draining_host, State.cancelMarked_host])) f 0 0 0⟩
      · rw [State.answer_request, same.requests, State.draining_self]
      · rw [State.answer_request, same.requests, State.draining_self, State.cancelMarked_self, State.taken_request]
      · rw [State.answer_request, same.requests, State.draining_of_ne _ hj, State.cancelMarked_of_ne _ hj, State.taken_request]
    case now =>
      have tags := (s.taken q 0x22).startCancelNow_abandons (f.fld 16 2) 0x05 (some (f.fn, f.sq, f.cid))
      have entry := (s.taken q 0x22).cancelNowMarked_self (f.fld 16 2) 0x05 (some (f.fn, f.sq, f.cid))
      rw [State.taken_request, State.taken_ring] at entry
      refine ⟨_, exec_cancelNow form own active awaits first, ?_, ?_, ?_, ?_, fun running t ht mine => ?_, fun j hj => ?_⟩
      · rw [tags.request, entry]
      · rw [tags.request, entry]
      · rw [tags.request, entry]
      · rw [tags.host, State.cancelNowMarked_host, State.taken_due]
      · exact State.startCancelNow_owed (by rwa [State.taken_request]) (f.fld_two_lt 16) ht (by rwa [State.taken_tilePart, State.taken_reqPart]) _ _
      · rw [tags.request, (s.taken q 0x22).cancelNowMarked_of_ne hj, State.taken_request]
    case suspended =>
      by_cases between : (s.request (f.fld 16 2)).inStep = none
      · obtain ⟨x, held, back, run⟩ := exec_reqSuspend_between form own active awaits live runs between
        have same := State.noteStalled_same ((s.taken q 0x23).setRequest (f.fld 16 2) x) (s.funcPart f.fn)
        refine ⟨_, run, fun _ => ?_, fun running => absurd between running, fun j hj => ?_, State.answer_due_of_host (same.host.trans (State.setRequest_host ..)) f 0 0 0⟩
        · rw [State.answer_request, same.requests, State.setRequest_self]
          exact ⟨held, back⟩
        · rw [State.answer_request, same.requests, State.setRequest_of_ne _ hj, State.taken_request]
      · refine ⟨_, exec_reqSuspend_inStep form own active awaits live runs between, fun none => absurd none between, fun _ => State.setRequest_self .., fun j hj => ?_,
          State.answer_due_of_host (State.setRequest_host ..) f 0 0 0⟩
        rw [State.answer_request, State.setRequest_of_ne _ hj, State.taken_request]
    case resumed =>
      obtain ⟨x, back, run⟩ := exec_reqResume form own active awaits held
      have same := State.noteStalled_same ((s.taken q 0x24).setRequest (f.fld 16 2) x) (s.funcPart f.fn)
      refine ⟨_, run, ?_, fun j hj => ?_, State.answer_due_of_host (same.host.trans (State.setRequest_host ..)) f 0 0 0⟩
      · rw [State.answer_request, same.requests, State.setRequest_self, back]
      · rw [State.answer_request, same.requests, State.setRequest_of_ne _ hj, State.taken_request]
  case complete =>
    obtain ⟨t, u, host, others, signals, retires, run⟩ := exec_cancelNowComplete lt drains now src none idle
    refine ⟨_, run, retires.state, retires.signals.trans signals, ?_, fun j hj => (retires.others j hj).trans (others j hj)⟩
    rw [State.due_due, retires.host, host]
  case waits =>
    refine List.any_eq_true.2 ⟨t, List.mem_range.2 ht, ?_⟩
    have tag : 0x80000000 + i = reqTag i := rfl
    simp [mine, tag, owed]

end Sys2Proof.Machine
end

section
/-! PROOF.  O46.  RING_SET, POOL_ADD, POOL_SHRINK and ADAPTER_PUBLISH: the code that refuses each or lets it pass, one equation for each outcome, and what the handles, the
pools and the adapters are then. -/
namespace Sys2Proof.Machine
open Sys2Proof

/-! ## The state that a command finds -/

@[simp] theorem State.taken_pool (s : State) (q op p : Nat) : (s.taken q op).pool p = s.pool p := by
  unfold State.taken
  split <;> rfl
@[simp] theorem State.taken_ware? (s : State) (q op h : Nat) : (s.taken q op).ware? h = s.ware? h := by
  unfold State.taken
  split <;> rfl
@[simp] theorem State.taken_poolCode (s : State) (q op p : Nat) (f : Forwarded) : (s.taken q op).poolCode p f = s.poolCode p f := by
  unfold State.taken
  split <;> rfl
@[simp] theorem State.taken_inHost (s : State) (q op p a n : Nat) : (s.taken q op).inHost p a n = s.inHost p a n := by
  unfold State.taken
  split <;> rfl
@[simp] theorem State.taken_ringBytes (s : State) (q op p n : Nat) : (s.taken q op).ringBytes p n = s.ringBytes p n := by
  unfold State.taken
  split <;> rfl
@[simp] theorem State.taken_openHandles (s : State) (q op : Nat) (o : Origin) : (s.taken q op).openHandles o = s.openHandles o := by
  unfold State.taken
  split <;> rfl
@[simp] theorem State.taken_op? (s : State) (q op h : Nat) : (s.taken q op).op? h = s.op? h := by
  unfold State.taken
  split <;> rfl
@[simp] theorem State.taken_nextHandle (s : State) (q op : Nat) : (s.taken q op).host.nextHandle = s.host.nextHandle := by
  unfold State.taken
  split <;> rfl
@[simp] theorem State.taken_mem (s : State) (q op : Nat) : (s.taken q op).mem = s.mem := by
  unfold State.taken
  split <;> rfl
@[simp] theorem State.taken_requests (s : State) (q op : Nat) : (s.taken q op).teller.requests = s.teller.requests := by
  unfold State.taken
  split <;> rfl

/-! ## RING_SET (R278) -/

section
variable {s : State} {q : Nat} {f : Forwarded} (awaits : s.Awaits q 0x25 f) (follows : s.ringLags q 0x25 = false) (evt : f.fld 25 1 < 2)
  (form : bodyReserved f 26 = false)
include awaits follows evt form

theorem exec_ringSet_notOwned (other : s.ownsEntry (s.funcPart f.fn) (f.fld 16 2) = false) :
    exec (.ringSet q) s = .next ((s.taken q 0x25).answer f 0x20 0 0) := by
  show execRingSet q s = _
  have formed : (decide (f.fld 25 1 / 2 ≠ 0) || bodyReserved f 26) = false := by
    rw [form, Nat.div_eq_of_lt evt]
    rfl
  rw [execRingSet, follows, onForwarded_awaits awaits]
  simp only [formed, other, State.taken_ownsEntry, State.taken_funcPart, lowest_cons_false, Bool.not_false, Bool.false_eq_true, if_false]
  rw [lowest_cons_true (by decide) (by simp)]
  rfl

variable (own : s.ownsEntry (s.funcPart f.fn) (f.fld 16 2) = true) (least : 4 ≤ f.fld 24 1) (most : f.fld 24 1 ≤ 16) (host : 0xC000000000 ≤ f.fld 18 6)
  (line : f.fld 18 6 % 64 = 0) (page : f.fld 18 6 % min (16 * 2 ^ f.fld 24 1) 4096 = 0)
  (inHost : s.inHost (s.funcPart f.fn) (f.fld 18 6) (s.ringBytes (s.funcPart f.fn) (f.fld 24 1)) = true)
include own least most host line page inHost

/-- A well-formed RING_SET of an own entry, its ring in host memory, finds the entry in active use or sets the ring. -/
theorem exec_ringSet : exec (.ringSet q) s = .next (if (s.request (f.fld 16 2)).state.active = true then (s.taken q 0x25).answer f 0x23 0 0
    else ((s.taken q 0x25).setRing (f.fld 16 2) { base := f.fld 18 6, log2 := f.fld 24 1, evt := f.fld 25 1 % 2 == 1, set := true }).answer f 0 0 0) := by
  show execRingSet q s = _
  have formed : (decide (f.fld 25 1 / 2 ≠ 0) || bodyReserved f 26) = false := by
    rw [form, Nat.div_eq_of_lt evt]
    rfl
  have away : decide (f.fld 18 6 < 0xC000000000) = false := decide_eq_false (Nat.not_lt.2 host)
  have size : (decide (4 ≤ f.fld 24 1) && decide (f.fld 24 1 ≤ 16)) = true := by simp [least, most]
  rw [execRingSet, follows, onForwarded_awaits awaits]
  simp only [formed, own, away, size, line, page, inHost, State.taken_ownsEntry, State.taken_funcPart, State.taken_inHost, State.taken_ringBytes,
    State.taken_request, lowest_cons_false, Bool.not_true, Bool.false_eq_true, if_false, if_true, bne_self_eq_false, Bool.or_false, Bool.false_and]
  cases (s.request (f.fld 16 2)).state.active <;> rfl
end

/-! ## POOL_ADD (R286) -/

theorem exec_poolAdd {s : State} {q : Nat} {f : Forwarded} (awaits : s.Awaits q 0x26 f) : exec (.poolAdd q) s =
    .next (if s.poolCode (s.funcPart f.fn) f ≠ 0 then (s.taken q 0x26).answer f (s.poolCode (s.funcPart f.fn) f) 0 0
      else (((s.taken q 0x26).setPool (s.funcPart f.fn) ((s.pool (s.funcPart f.fn)).add (f.fld 16 6 / 2 ^ 21) (f.fld 22 4))).resumeStalled
        (s.funcPart f.fn)).answer f 0 0 0) := by
  show execPoolAdd q s = _
  rw [execPoolAdd, onForwarded_awaits awaits]
  simp only [State.taken_funcPart, State.taken_poolCode, State.taken_pool]

/-- Where no request is stalled, none resumes. -/
theorem State.resumeStalled_of_none {s : State} (none : ∀ e ∈ s.teller.requests, e.2.state ≠ .stalled) (p : Nat) : s.resumeStalled p = s := by
  have empty : (s.requestsOf p).filter (fun e => e.2.state == .stalled) = [] :=
    List.filter_eq_nil_iff.2 fun e he => by simpa using none e (List.mem_filter.1 he).1
  rw [State.resumeStalled, State.stallOrder, empty]
  rfl

/-! ## POOL_SHRINK (R290) -/

theorem State.endHandle_ware? (s : State) (h : Nat) (st : OpState) (status r1 k : Nat) : (s.endHandle h st status r1).ware? k = s.ware? k := by
  rw [State.endHandle_frame]
  rfl

/-- A range that leaves the pool leaves none of its units. -/
theorem Pool.mem_dropRange_units (x : Pool) (k n u : Nat) : u ∈ (x.dropRange k n).units ↔ u ∈ x.units ∧ ¬(k ≤ u ∧ u < k + n) := by
  simp [Pool.dropRange]
  omega

theorem Pool.dropRange_shrinking {x : Pool} {k n h : Nat} (alone : x.shrinking = [(k, n, h)]) : (x.dropRange k n).shrinking = [] := by
  simp [Pool.dropRange, alone]

section
variable {s : State} {p k n h : Nat} {o : OpRec} (found : s.op? h = some o) (running : o.state = .running) (kept : o.forgotten = false)
include found running kept

/-- A shrinking range that ends has its handle done. -/
theorem State.endShrink_op? : ((s.endShrink p (k, n, h)).op? h).map (·.state) = some .done :=
  State.endHandle_op? (s := s.setPool p ((s.pool p).dropRange k n)) found running kept ..
end

theorem State.endShrink_pool (s : State) (p k n h j : Nat) :
    (s.endShrink p (k, n, h)).pool j = if j = p then (s.pool p).dropRange k n else s.pool j := by
  rw [State.endShrink, State.endHandle_frame]
  exact State.setPool_pool ..

theorem State.endShrink_mem (s : State) (p k n h : Nat) : (s.endShrink p (k, n, h)).mem = s.mem := by
  rw [State.endShrink, State.endHandle_frame]
  rfl

/-- The handle of a POOL_SHRINK. -/
def State.shrinkOp (s : State) (f : Forwarded) : OpRec :=
  { origin := .host f.fn f.sq f.cid, kind := .poolShrink, part := s.funcPart f.fn, cq := (s.sq f.sq).bind, base := f.fld 16 6 / 2 ^ 21, units := f.fld 22 4 }

/-- The state in which a POOL_SHRINK has begun: its handle runs, and its range shrinks. -/
def State.shrinkBegun (s : State) (f : Forwarded) : State :=
  (((s.newHandle (s.shrinkOp f)).2.setPool (s.funcPart f.fn) { s.pool (s.funcPart f.fn) with
    shrinking := [(f.fld 16 6 / 2 ^ 21, f.fld 22 4, s.host.nextHandle)] }).answer f 0 s.host.nextHandle 0)

theorem State.shrinkBegun_op? {s : State} (free : s.op? s.host.nextHandle = none) (f : Forwarded) :
    (s.shrinkBegun f).op? s.host.nextHandle = some (s.shrinkOp f) :=
  State.newHandle_op? free _

theorem State.shrinkBegun_pool (s : State) (f : Forwarded) : (s.shrinkBegun f).pool (s.funcPart f.fn) =
    { s.pool (s.funcPart f.fn) with shrinking := [(f.fld 16 6 / 2 ^ 21, f.fld 22 4, s.host.nextHandle)] } := by
  show ((s.newHandle (s.shrinkOp f)).2.setPool _ _).pool _ = _
  rw [State.setPool_pool, if_pos rfl]

theorem exec_poolShrink {s : State} {q : Nat} {f : Forwarded} (awaits : s.Awaits q 0x27 f) (code : s.poolCode (s.funcPart f.fn) f = 0)
    (room : s.openHandles (.host f.fn f.sq f.cid) < 16) (alone : (s.pool (s.funcPart f.fn)).shrinking = []) : exec (.poolShrink q) s =
    .next (if (s.pool (s.funcPart f.fn)).rangeFree (f.fld 16 6 / 2 ^ 21) (f.fld 22 4) = true
      then ((s.taken q 0x27).shrinkBegun f).endShrink (s.funcPart f.fn) (f.fld 16 6 / 2 ^ 21, f.fld 22 4, s.host.nextHandle)
      else (s.taken q 0x27).shrinkBegun f) := by
  show execPoolShrink q s = _
  have few : decide (16 ≤ s.openHandles (.host f.fn f.sq f.cid)) = false := decide_eq_false (Nat.not_le.2 room)
  rw [execPoolShrink, onForwarded_awaits awaits]
  refine congrArg _ ((if_neg (not_not.2 ?code)).trans ?begun)
  case code =>
    simp only [State.taken_funcPart, State.taken_poolCode, State.taken_pool, State.taken_openHandles, code, few, alone, ne_eq, not_true_eq_false,
      decide_false, List.isEmpty_nil, Bool.not_true, lowest_cons_false]
    rfl
  case begun =>
    show (if (((s.taken q 0x27).shrinkBegun f).pool ((s.taken q 0x27).funcPart f.fn)).rangeFree _ _ = true
      then ((s.taken q 0x27).shrinkBegun f).endShrink ((s.taken q 0x27).funcPart f.fn) (_, _, (s.taken q 0x27).host.nextHandle)
      else (s.taken q 0x27).shrinkBegun f) = _
    rw [State.shrinkBegun_pool, State.taken_funcPart, State.taken_nextHandle, State.taken_pool]
    rfl

/-- The last block of a shrinking range has returned. -/
theorem exec_poolShrinkDone {s : State} {h k n : Nat} {o : OpRec} (found : s.op? h = some o) (kind : o.kind = .poolShrink) (running : o.state = .running)
    (live : s.islands.noneActive = false) (shrinks : (s.pool o.part).shrinking = [(k, n, h)]) (free : (s.pool o.part).rangeFree k n = true) :
    exec (.poolShrinkDone h) s = .next (s.endShrink o.part (k, n, h)) := by
  show execPoolShrinkDone h s = _
  rw [execPoolShrinkDone, found]
  simp [shrinks, kind, running, live, free]

/-! ## ADAPTER_PUBLISH and the unpinned version (R300) -/

/-- The handle of an ADAPTER_PUBLISH. -/
def State.publishOp (s : State) (f : Forwarded) : OpRec :=
  { origin := .host f.fn f.sq f.cid, kind := .adapterPublish, part := s.funcPart f.fn, cq := (s.sq f.sq).bind, base := f.fld 16 2, arg := f.fld 18 2 }

/-- An adapter number that takes image `img` as its first version. -/
def firstVersion (img : Nat) : Adapter := { newest := some 1, versions := [(1, img, 0)], nextVersion := 2 }

/-- The state in which the first version has been published. -/
def State.firstPublished (s : State) (f : Forwarded) (x : Ware) : State :=
  ((s.newHandle (s.publishOp f)).2.setWare (f.fld 16 2) { x with adapters := sset {} x.adapters (f.fld 18 2) (firstVersion (f.fld 20 4)) }).answer f 0
    s.host.nextHandle 0

section
variable {s : State} {q : Nat} {f : Forwarded} {x y : Ware} (awaits : s.Awaits q 0x28 f) (form : bodyReserved f 24 = false)
  (room : s.openHandles (.host f.fn f.sq f.cid) < 16) (number : f.fld 18 2 ≤ 255) (ware : s.ware? (f.fld 16 2) = some x)
  (image : s.ware? (f.fld 20 4) = some y) (mine : x.part = s.funcPart f.fn) (whole : x.isImage = false) (imageMine : y.part = s.funcPart f.fn)
  (isImage : y.isImage = true) (joins : y.joins = f.fld 16 2) (first : sget {} x.adapters (f.fld 18 2) = {})
include awaits form room number ware image mine whole imageMine isImage joins first

theorem exec_adapterPublish_first : exec (.adapterPublish q) s =
    .next (((s.taken q 0x28).firstPublished f x).endHandle s.host.nextHandle .done 0 0) := by
  show execAdapterPublish q s = _
  have few : decide (16 ≤ s.openHandles (.host f.fn f.sq f.cid)) = false := decide_eq_false (Nat.not_le.2 room)
  have small : decide (255 < f.fld 18 2) = false := decide_eq_false (Nat.not_lt.2 number)
  rw [execAdapterPublish, onForwarded_awaits awaits]
  refine congrArg _ ((if_neg (not_not.2 ?code)).trans ?begun)
  case code =>
    simp only [State.taken_funcPart, State.taken_ware?, State.taken_openHandles, form, few, small, ware, image, mine, whole, imageMine, isImage, joins,
      first, beq_self_eq_true, Bool.not_true, Bool.not_false, Bool.and_true, Bool.or_true, Bool.or_false, lowest_cons_false, Option.isSome_none]
    rfl
  case begun =>
    rw [State.taken_ware?, ware]
    dsimp only
    rw [first, ← State.taken_nextHandle s q 0x28]
    rfl
end

theorem State.firstPublished_op? {s : State} (free : s.op? s.host.nextHandle = none) (f : Forwarded) (x : Ware) :
    (s.firstPublished f x).op? s.host.nextHandle = some (s.publishOp f) :=
  State.newHandle_op? free _

theorem State.firstPublished_ware? {s : State} {f : Forwarded} {x : Ware} (ware : s.ware? (f.fld 16 2) = some x) : (s.firstPublished f x).ware? (f.fld 16 2) =
    some { x with adapters := sset {} x.adapters (f.fld 18 2) (firstVersion (f.fld 20 4)) } :=
  State.ware?_setWare_same (s := (s.newHandle (s.publishOp f)).2) ware _

/-- A ware stays where the image of another handle goes. -/
theorem State.ware?_without_image (s : State) {h img : Nat} (other : img ≠ h) :
    ({ s with teller := { s.teller with wares := s.teller.wares.filter (fun g => g.1 ≠ img || !g.2.isImage) } } : State).ware? h = s.ware? h := by
  have key : (fun e : Nat × Ware => decide ((decide (e.1 ≠ img) || !e.2.isImage) = true ∧ decide (e.1 = h) = true)) = fun e => decide (e.1 = h) := by
    funext e
    by_cases hk : e.1 = h
    · simp [hk, other.symm]
    · simp [hk]
  unfold State.ware?
  rw [List.find?_filter]
  exact congrArg (fun p => (s.teller.wares.find? p).map (·.2)) key

theorem exec_adapterUnpin_pinned {s : State} {h a v img pins : Nat} {x : Ware} (ware : s.ware? h = some x)
    (pinned : (sget {} x.adapters a).versions.find? (fun e => e.1 = v) = some (v, img, pins + 1)) : exec (.adapterUnpin h a v) s = .next s := by
  show execAdapterUnpin h a v s = _
  rw [execAdapterUnpin, ware]
  simp [pinned]

section
variable {s : State} {h a v img : Nat} {x : Ware} (ware : s.ware? h = some x)
  (version : (sget {} x.adapters a).versions.find? (fun e => e.1 = v) = some (v, img, 0)) (quiet : (sget {} x.adapters a).publish = none)
include ware version quiet

theorem exec_adapterUnpin_of_zero (old : (sget {} x.adapters a).newest ≠ some v) (live : s.islands.noneActive = false) :
    exec (.adapterUnpin h a v) s = .next (s.unloadVersion h a v) := by
  show execAdapterUnpin h a v s = _
  rw [execAdapterUnpin, ware]
  simp [version, quiet, old, live]

/-- The state in which version v has left the ware. -/
def State.withoutVersion (s : State) (h a v : Nat) (x : Ware) : State :=
  s.setWare h { x with adapters := sset {} x.adapters a { sget {} x.adapters a with
    versions := (sget {} x.adapters a).versions.filter (fun e => e.1 ≠ v), publish := none } }

/-- A version that is unloaded leaves its ware, and its image goes where nothing else uses it. -/
theorem State.unloadVersion_cases : s.unloadVersion h a v = s.withoutVersion h a v x ∨ s.unloadVersion h a v = { s.withoutVersion h a v x with
    teller := { (s.withoutVersion h a v x).teller with
      wares := (s.withoutVersion h a v x).teller.wares.filter (fun g => g.1 ≠ img || !g.2.isImage) } } := by
  unfold State.unloadVersion
  rw [ware]
  dsimp only
  rw [version, quiet]
  simp only [Bool.false_eq_true, if_false]
  split
  · exact .inl rfl
  · exact .inr rfl

theorem State.unloadVersion_leaves (other : img ≠ h) : ∃ w, (s.unloadVersion h a v).ware? h = some w ∧
    (sget {} w.adapters a).versions = (sget {} x.adapters a).versions.filter (fun e => e.1 ≠ v) ∧
    s.unloadVersion h a v = { s with teller := (s.unloadVersion h a v).teller } := by
  have left : (s.withoutVersion h a v x).ware? h = some _ := State.ware?_setWare_same ware _
  rcases State.unloadVersion_cases ware version quiet with kept | gone
  · rw [kept]
    exact ⟨_, left, by rw [sget_sset_same], rfl⟩
  · rw [gone]
    exact ⟨_, (State.ware?_without_image _ other).trans left, by rw [sget_sset_same], rfl⟩
end

/-- Settles O46: each command's equation, with what the ring, the pool, the adapter and the handle are in the state that it names. -/
theorem ringsPoolsAndAdapters : Obligations.RingsPoolsAndAdapters := by
  refine ⟨fun s q f awaits follows evt form => ⟨exec_ringSet_notOwned awaits follows evt form, fun own least most host line page inHost => ?ring⟩,
    fun s q f awaits => ?add, fun s q f awaits code room alone free => ?shrink, fun s h k n o found kind running kept live shrinks empty => ?done,
    fun s q f x y awaits form room number ware image mine whole imageMine isImage joins first free => ?publish,
    fun s h a v img x ware version old quiet live other => ?unpin, fun s h a v img pins x ware pinned => exec_adapterUnpin_pinned ware pinned⟩
  case ring =>
    rw [exec_ringSet awaits follows evt form own least most host line page inHost]
    refine ⟨fun active => by rw [if_pos active], fun idle => ⟨_, by rw [if_neg (by simp [idle])], ?_, fun j hj => ?_, fun j => ?_, ?_, ?_⟩⟩
    · rw [State.answer_ring, State.setRing_self]
    · rw [State.answer_ring, State.setRing_ring, if_neg hj, State.taken_ring]
    · rw [State.answer_request, State.setRing_request, State.taken_request]
    · exact State.answer_due_of_host (State.setRing_host ..) f 0 0 0
    · exact State.taken_mem ..
  case add =>
    rw [exec_poolAdd awaits]
    refine ⟨fun refused => by rw [if_pos refused], fun ok none => ?_⟩
    rw [if_neg (not_not.2 ok), State.resumeStalled_of_none (by exact (State.taken_requests s q 0x26).symm ▸ none)]
    refine ⟨_, rfl, ?_, fun p hp => ?_, State.answer_due_of_host (State.setPool_host ..) f 0 0 0, State.taken_mem ..⟩
    · exact (State.setPool_pool ..).trans (if_pos rfl)
    · exact (State.setPool_pool ..).trans ((if_neg hp).trans (State.taken_pool ..))
  case shrink =>
    have begun := State.shrinkBegun_op? (s := s.taken q 0x27) (by rw [State.taken_op?, State.taken_nextHandle, free]) f
    have pool := (s.taken q 0x27).shrinkBegun_pool f
    rw [State.taken_nextHandle] at begun pool
    rw [State.taken_funcPart, State.taken_pool] at pool
    rw [exec_poolShrink awaits code room alone]
    refine ⟨fun empty => ⟨_, by rw [if_pos empty], State.endShrink_op? begun rfl rfl, ?_, fun x => ?_⟩,
      fun held => ⟨_, by rw [if_neg (Bool.not_eq_true _ ▸ held)], by rw [begun]; rfl, pool, ?_⟩⟩
    · rw [State.endShrink_pool, if_pos rfl, pool, Pool.dropRange_shrinking rfl]
    · rw [State.endShrink_pool, if_pos rfl, pool, Pool.mem_dropRange_units]
    · rw [← State.taken_nextHandle s q 0x27]
      rfl
  case done =>
    exact ⟨_, exec_poolShrinkDone found kind running live shrinks empty, State.endShrink_op? found running kept, by rw [State.endShrink_pool, if_pos rfl],
      fun p hp => by rw [State.endShrink_pool, if_neg hp], State.endShrink_mem ..⟩
  case publish =>
    have begun := State.firstPublished_op? (s := s.taken q 0x28) (by rw [State.taken_op?, State.taken_nextHandle, free]) f x
    rw [State.taken_nextHandle] at begun
    have published := State.firstPublished_ware? ((State.taken_ware? s q 0x28 _).trans ware)
    refine ⟨_, _, exec_adapterPublish_first awaits form room number ware image mine whole imageMine isImage joins first,
      (State.endHandle_ware? ..).trans published, ?_, ?_, State.endHandle_op? begun rfl rfl ..⟩
    · rw [sget_sset_same]
      rfl
    · rw [sget_sset_same]
      rfl
  case unpin =>
    obtain ⟨w, left, versions, frame⟩ := State.unloadVersion_leaves ware version quiet other
    exact ⟨_, w, exec_adapterUnpin_of_zero ware version quiet old live, left, versions, frame⟩

end Sys2Proof.Machine
end

section
/-! PROOF.  O45.  What ADMIT reserves leaves the entry the request it was given but for its pages and its list (`Takes`); then one equation for each outcome of the command. -/
namespace Sys2Proof.Machine
open Sys2Proof

/-! ## The mint's writes to memory (R286, R288) -/

/-- `u` is `s` after stores: nothing but memory and the faults raised has moved. -/
structure Stores (s u : State) : Prop where
  rest : u = { s with mem := u.mem, faults := u.faults }

namespace Stores

theorem trans {s t u : State} (h : Stores s t) (g : Stores t u) : Stores s u where
  rest := by
    have gr := g.rest
    rw [h.rest] at gr
    exact gr

theorem foldl {α : Type} {f : State → α → State} (step : ∀ u a, Stores u (f u a)) (l : List α) (s : State) : Stores s (l.foldl f s) := by
  induction l generalizing s with
  | nil => exact ⟨rfl⟩
  | cons a l ih => exact (step s a).trans (ih _)

theorem host {s u : State} (h : Stores s u) : u.host = s.host := by rw [h.rest]
theorem teller {s u : State} (h : Stores s u) : u.teller = s.teller := by rw [h.rest]

end Stores

theorem Coh.stores {s u : State} (h : Coh s u) : Stores s u where
  rest := by rw [h.rest]

theorem State.put_stores (s : State) (g : Agent) (a : Nat) (bs : List Byte) : Stores s (s.put g a bs) where
  rest := congrArg (fun u : State => { u with mem := (s.put g a bs).mem }) ((Coh.refl s).claim g a bs.length).stores.rest

theorem State.writeRegion_stores (s : State) (r : Request) : Stores s (s.writeRegion r) :=
  (State.put_stores ..).trans ((Stores.foldl (fun _ _ => State.put_stores ..) ..).trans (Stores.foldl (fun _ _ => State.put_stores ..) ..))

theorem State.writeEntries_stores (s : State) (r : Request) (draft : Bool) (n : Nat) : Stores s (s.writeEntries r draft n) :=
  Stores.foldl (fun _ _ => State.put_stores ..) ..

/-! ## The entry takes a request -/

/-- `x` is the request `r` but for the pages, the list and the version that it holds. -/
def Request.HoldsAs (r x : Request) : Prop :=
  x = { r with listBase := x.listBase, listBlocks := x.listBlocks, promptAddr := x.promptAddr, promptCopy := x.promptCopy, pages := x.pages,
               adapterVer := x.adapterVer }

theorem Request.HoldsAs.fields {r x : Request} (h : r.HoldsAs x) :
    x.state = r.state ∧ x.ware = r.ware ∧ x.cls = r.cls ∧ x.promptLen = r.promptLen ∧ x.maxNew = r.maxNew ∧ x.seqLen = r.seqLen := by
  rw [show x = _ from h]
  exact ⟨rfl, rfl, rfl, rfl, rfl, rfl⟩

/-- `u` is `s` with request `r` in entry i: the other entries, the ring records and the host's side stand. -/
structure Takes (s : State) (i : Nat) (r : Request) (u : State) : Prop where
  entry : r.HoldsAs (u.request i)
  others : ∀ j, j ≠ i → u.request j = s.request j
  ringRecs : u.teller.ringRecs = s.teller.ringRecs
  host : u.host = s.host

/-- The entry's own pages, list and version may move on. -/
theorem Takes.trans {s t u : State} {i : Nat} {r : Request} (h : Takes s i r t) (entry : (t.request i).HoldsAs (u.request i))
    (others : ∀ j, j ≠ i → u.request j = t.request j) (ringRecs : u.teller.ringRecs = t.teller.ringRecs) (host : u.host = t.host) : Takes s i r u where
  entry := by
    have was := h.entry
    unfold Request.HoldsAs at was entry ⊢
    rw [was] at entry
    exact entry
  others j hj := (others j hj).trans (h.others j hj)
  ringRecs := ringRecs.trans h.ringRecs
  host := host.trans h.host

theorem Takes.stores {s t u : State} {i : Nat} {r : Request} (h : Takes s i r t) (g : Stores t u) : Takes s i r u :=
  h.trans (by rw [State.request, State.request, g.teller]; rfl) (fun j _ => by rw [State.request, State.request, g.teller]) (by rw [g.teller]) g.host

/-- The region, and the prompt's copy where there is one, are allocated for the request. -/
theorem State.admitAlloc_takes {s a : State} {p i : Nat} {r : Request} {prompt : List Byte} (alloc : s.admitAlloc p i r prompt = some a) : Takes s i r a := by
  have entry (x : Pool) (y : Request) (h : r.HoldsAs y) : Takes s i r ((s.setPool p x).setRequest i y) :=
    ⟨by rwa [State.setRequest_self], fun j hj => State.setRequest_of_ne _ hj _, rfl, rfl⟩
  have region (x : Pool) (y : Request) (h : r.HoldsAs y) : Takes s i r (((s.setPool p x).setRequest i y).writeRegion y) :=
    (entry x y h).stores (State.writeRegion_stores ..)
  unfold State.admitAlloc at alloc
  split at alloc
  next => cases alloc
  next =>
    dsimp only at alloc
    split at alloc
    · obtain rfl := Option.some.inj alloc
      refine region _ _ ?_
      rfl
    · split at alloc
      · cases alloc
      · obtain rfl := Option.some.inj alloc
        refine Takes.stores (region _ _ ?_) (State.put_stores ..)
        rfl

theorem State.reserve_takes {s a b : State} {i : Nat} {r : Request} {draft : Bool} {last : Nat} (h : Takes s i r a) (done : a.reserve i draft last = some b) :
    Takes s i r b := by
  unfold State.reserve at done
  dsimp only at done
  split at done
  · cases done
  · exact Option.some.inj done ▸ h
  · refine Option.some.inj done ▸ Takes.stores (Takes.stores ?_ (Stores.foldl (fun _ _ => State.put_stores ..) ..)) (State.writeEntries_stores ..)
    exact h.trans (by rw [State.setRequest_self]; rfl) (fun j hj => State.setRequest_of_ne _ hj _) rfl rfl

theorem State.reserveFor_takes {s a b : State} {i : Nat} {r : Request} {draft : Bool} {last : Nat} (h : Takes s i r a)
    (done : a.reserveFor i draft last = some b) : Takes s i r b := by
  unfold State.reserveFor at done
  split at done
  · exact Option.some.inj done ▸ h
  · split at done
    · cases done
    · exact State.reserve_takes h done

/-- A request that begins moves the marks of its ring, its session's number and the pins of its adapter. -/
theorem State.beginRequest_takes {s a : State} {i : Nat} {r : Request} (h : Takes s i r a) (p : Nat) (x : Request) : Takes s i r (a.beginRequest p i x) := by
  unfold State.beginRequest
  extract_lets ring cleared numbered
  have begun : Takes s i r numbered := by
    have same : numbered.teller = cleared.teller ∧ numbered.host = cleared.host := by
      unfold numbered
      split
      · exact ⟨State.setSession_teller .., State.setSession_host ..⟩
      · exact ⟨rfl, rfl⟩
    exact h.trans (by rw [State.request, State.request, same.1]; rfl) (fun j _ => by rw [State.request, same.1]; rfl) (by rw [same.1]; rfl) same.2
  split
  · exact begun
  · split
    · exact begun
    · exact begun.trans (by rw [State.setRequest_self]; rfl) (fun j hj => State.setRequest_of_ne _ hj _) rfl rfl

theorem State.beginRequest_ring (a : State) (p i : Nat) (x : Request) :
    (a.beginRequest p i x).ring i = { a.ring i with lastPos := none, ended := false, late := false } := by
  unfold State.beginRequest
  extract_lets ring cleared numbered
  have begun : numbered.ring i = { a.ring i with lastPos := none, ended := false, late := false } := by
    have same : numbered.ring i = cleared.ring i := by
      unfold numbered
      split
      · rw [State.ring, State.setSession_teller, State.ring]
      · rfl
    rw [same]
    exact a.setRing_self i _
  split
  · exact begun
  · split
    · exact begun
    · exact begun

/-! ## The outcomes of ADMIT (R277, R279, R288) -/

@[simp] theorem State.taken_confidential (s : State) (q op p : Nat) : (s.taken q op).confidential p = s.confidential p := by
  unfold State.taken
  split <;> rfl
@[simp] theorem State.taken_admitCode (s : State) (q op p : Nat) (f : Forwarded) (c : AdmitCmd) : (s.taken q op).admitCode p f c = s.admitCode p f c := by
  unfold State.taken
  split <;> rfl
@[simp] theorem State.taken_tenantOk (s : State) (q op p : Nat) (r : Request) : (s.taken q op).tenantOk p r = s.tenantOk p r := by
  unfold State.taken
  split <;> rfl
@[simp] theorem State.taken_unseal (s : State) (q op p : Nat) (f : Forwarded) (c : AdmitCmd) : (s.taken q op).unseal p f c = s.unseal p f c := by
  unfold State.taken
  split <;> rfl
@[simp] theorem State.taken_planOf (s : State) (q op w : Nat) : (s.taken q op).planOf w = s.planOf w := by
  unfold State.taken
  split <;> rfl
@[simp] theorem State.taken_usec (s : State) (q op : Nat) : (s.taken q op).teller.usec = s.teller.usec := by
  unfold State.taken
  split <;> rfl

@[simp] theorem State.taken_ringRecs (s : State) (q op : Nat) : (s.taken q op).teller.ringRecs = s.teller.ringRecs := by
  unfold State.taken
  split <;> rfl

/-- The request of an ADMIT outside a CONFIDENTIAL partition. -/
def State.admitRequest (s : State) (f : Forwarded) : Request := { (admitCmd f).r with admitStamp := s.teller.usec.toNat }
/-- The last position of its first chunk. -/
def State.admitLast (s : State) (f : Forwarded) : Nat := min (admitCmd f).plen (max 1 (s.planOf (admitCmd f).r.ware).chunkTokens) - 1

theorem State.taken_admitRequest (s : State) (q op : Nat) (f : Forwarded) : (s.taken q op).admitRequest f = s.admitRequest f := by
  rw [State.admitRequest, State.taken_usec, State.admitRequest]
theorem State.taken_admitLast (s : State) (q op : Nat) (f : Forwarded) : (s.taken q op).admitLast f = s.admitLast f := by
  rw [State.admitLast, State.taken_planOf, State.admitLast]

/-- What an accepted ADMIT outside a CONFIDENTIAL partition does: the entry takes the request with its region and its first pages, or stalls for them, or is
refused. -/
def State.admitOpen (s : State) (f : Forwarded) : State :=
  match s.admitAlloc (s.funcPart f.fn) (admitCmd f).i { s.admitRequest f with state := .admitted } [] with
  | none => s.answer f 0x27 0 0
  | some a =>
    match a.reserveFor (admitCmd f).i false (s.admitLast f) with
    | some b => (b.beginRequest (s.funcPart f.fn) (admitCmd f).i (s.admitRequest f)).answer f 0 0 0
    | none =>
      if (admitCmd f).r.noWait then s.answer f 0x27 0 0
      else (((a.beginRequest (s.funcPart f.fn) (admitCmd f).i (s.admitRequest f)).stall (admitCmd f).i 1).noteStalled (s.funcPart f.fn)).answer f 0 0 0

theorem exec_admit_lags {s : State} {q : Nat} (lags : s.ringLags q 0x20 = true) (tagOk : Bool) : exec (.admitReq q tagOk) s = .next s :=
  congrArg Host.Outcome.next (if_pos lags)

/-- Of the codes that ADMIT is judged by once its body has passed, a plain one of a tenant of the ware leaves NO_PAGES alone. -/
theorem lowest_noPages : ∀ short : Bool, lowest [(short, 0x27), (decide (0 ≠ 0), 0), (decide (0 = 0) && !true, 0x52)] = if short then 0x27 else 0 := by
  decide

section
variable {s : State} {q : Nat} {f : Forwarded} (awaits : s.Awaits q 0x20 f) (follows : s.ringLags q 0x20 = false) (tagOk : Bool)
include awaits follows

theorem exec_admit_refused (refused : s.admitCode (s.funcPart f.fn) f (admitCmd f) ≠ 0) :
    exec (.admitReq q tagOk) s = .next ((s.taken q 0x20).answer f (s.admitCode (s.funcPart f.fn) f (admitCmd f)) 0 0) := by
  show execAdmit q tagOk s = _
  rw [execAdmit, follows, if_neg Bool.false_ne_true, onForwarded_awaits awaits]
  dsimp only
  rw [State.taken_funcPart, State.taken_admitCode, if_pos refused]

variable (ok : s.admitCode (s.funcPart f.fn) f (admitCmd f) = 0)
include ok

theorem exec_admit_open (plain : s.confidential (s.funcPart f.fn) = false) (tenant : s.tenantOk (s.funcPart f.fn) (admitCmd f).r = true) :
    exec (.admitReq q tagOk) s = .next ((s.taken q 0x20).admitOpen f) := by
  show execAdmit q tagOk s = _
  rw [execAdmit, follows, if_neg Bool.false_ne_true, onForwarded_awaits awaits]
  refine congrArg Host.Outcome.next ?_
  extract_lets p c code u old r chunk bare a got refusal faulted
  have code_eq : code = 0 := by
    unfold code p
    rw [State.taken_funcPart, State.taken_admitCode, ok]
  rw [if_neg (not_not.2 code_eq)]
  have unsealed : (s.taken q 0x20).confidential p = false := by
    unfold p
    rw [State.taken_funcPart, State.taken_confidential, plain]
  have u_eq : u = (0, c.r, []) := if_neg (by simp [unsealed])
  have r_eq : r = (s.taken q 0x20).admitRequest f := by
    unfold r old
    rw [u_eq]
    rfl
  have bare_eq : bare = [] := by
    unfold bare
    rw [u_eq, unsealed]
    rfl
  have mine : (s.taken q 0x20).tenantOk p r = true := by
    unfold p
    rw [State.taken_funcPart, State.taken_tenantOk, r_eq]
    exact tenant
  have a_eq : a = (s.taken q 0x20).admitAlloc ((s.taken q 0x20).funcPart f.fn) (admitCmd f).i { (s.taken q 0x20).admitRequest f with state := .admitted } [] := by
    unfold a
    rw [r_eq, bare_eq]
  have got_eq : got = a.bind fun x => x.reserveFor (admitCmd f).i false ((s.taken q 0x20).admitLast f) := by
    unfold got chunk
    rw [r_eq]
    rfl
  have refusal_eq : refusal = if a.isNone || ((admitCmd f).r.noWait && got.isNone) then 0x27 else 0 := by
    unfold refusal
    rw [mine, u_eq, r_eq]
    exact lowest_noPages _
  have same : refusal = 0x27 → faulted = s.taken q 0x20 := fun h => by
    unfold faulted
    rw [h]
    rfl
  unfold State.admitOpen
  rw [← a_eq]
  rcases Option.eq_none_or_eq_some a with none | ⟨x, some⟩
  · have refused : refusal = 0x27 := by rw [refusal_eq, none]; rfl
    rw [same refused, refused, none]
    rfl
  rw [some] at got_eq refusal_eq ⊢
  rcases Option.eq_none_or_eq_some (x.reserveFor (admitCmd f).i false ((s.taken q 0x20).admitLast f)) with short | ⟨y, reserved⟩
  · rw [Option.bind_some, short] at got_eq
    rw [got_eq] at refusal_eq ⊢
    cases waits : (admitCmd f).r.noWait with
    | false =>
      have passes : refusal = 0 := by rw [refusal_eq, waits]; rfl
      rw [if_neg (not_not.2 passes), r_eq]
      dsimp only
      rw [short]
      rfl
    | true =>
      have refused : refusal = 0x27 := by rw [refusal_eq, waits]; rfl
      rw [same refused, refused]
      dsimp only
      rw [short]
      rfl
  · rw [Option.bind_some, reserved] at got_eq
    rw [got_eq] at refusal_eq ⊢
    have passes : refusal = 0 := by
      rw [refusal_eq]
      simp
    rw [if_neg (not_not.2 passes), r_eq]
    dsimp only
    rw [reserved]

section
variable (plain : s.confidential (s.funcPart f.fn) = false) (tenant : s.tenantOk (s.funcPart f.fn) (admitCmd f).r = true)
include plain tenant

theorem exec_admit_noRegion
    (none : (s.taken q 0x20).admitAlloc (s.funcPart f.fn) (admitCmd f).i { s.admitRequest f with state := .admitted } [] = none) :
    exec (.admitReq q tagOk) s = .next ((s.taken q 0x20).answer f 0x27 0 0) := by
  rw [exec_admit_open awaits follows tagOk ok plain tenant, State.admitOpen, State.taken_funcPart, State.taken_admitRequest, none]

variable {a : State}
  (alloc : (s.taken q 0x20).admitAlloc (s.funcPart f.fn) (admitCmd f).i { s.admitRequest f with state := .admitted } [] = some a)
include alloc

theorem exec_admit_admits {b : State} (reserved : a.reserveFor (admitCmd f).i false (s.admitLast f) = some b) :
    exec (.admitReq q tagOk) s = .next ((b.beginRequest (s.funcPart f.fn) (admitCmd f).i (s.admitRequest f)).answer f 0 0 0) := by
  rw [exec_admit_open awaits follows tagOk ok plain tenant, State.admitOpen, State.taken_funcPart, State.taken_admitRequest, State.taken_admitLast, alloc]
  dsimp only
  rw [reserved]

theorem exec_admit_noPages (short : a.reserveFor (admitCmd f).i false (s.admitLast f) = none) : exec (.admitReq q tagOk) s =
    .next (if (admitCmd f).r.noWait then (s.taken q 0x20).answer f 0x27 0 0
      else (((a.beginRequest (s.funcPart f.fn) (admitCmd f).i (s.admitRequest f)).stall (admitCmd f).i 1).noteStalled (s.funcPart f.fn)).answer f 0 0 0) := by
  rw [exec_admit_open awaits follows tagOk ok plain tenant, State.admitOpen, State.taken_funcPart, State.taken_admitRequest, State.taken_admitLast, alloc]
  dsimp only
  rw [short]
end

/-- A sealed job whose tag is wrong is refused and recorded, where nothing lower applies (R492). -/
theorem exec_admit_badTag (sealed : s.confidential (s.funcPart f.fn) = true)
    (wrong : s.unseal (s.funcPart f.fn) f (admitCmd f) = (0x50, (admitCmd f).r, [])) (waits : (admitCmd f).r.noWait = false)
    (room : ((s.taken q 0x20).admitAlloc (s.funcPart f.fn) (admitCmd f).i { s.admitRequest f with state := .admitted }
      (List.replicate (4 * (admitCmd f).plen) 0)).isSome = true) :
    exec (.admitReq q tagOk) s = .next ((((s.taken q 0x20).raise { source := 389 + s.funcPart f.fn, owner := s.funcPart f.fn }).ohmErr 1 0x50
      (s.funcPart f.fn)).answer f 0x50 0 0) := by
  show execAdmit q tagOk s = _
  rw [execAdmit, follows, if_neg Bool.false_ne_true, onForwarded_awaits awaits]
  refine congrArg Host.Outcome.next ?_
  extract_lets p c code u old r chunk bare a got refusal faulted
  have code_eq : code = 0 := by
    unfold code p
    rw [State.taken_funcPart, State.taken_admitCode, ok]
  rw [if_neg (not_not.2 code_eq)]
  have p_eq : p = s.funcPart f.fn := State.taken_funcPart ..
  have sealed' : (s.taken q 0x20).confidential p = true := by rw [p_eq, State.taken_confidential, sealed]
  have u_eq : u = (0x50, c.r, []) := by
    unfold u
    rw [if_pos sealed', p_eq, State.taken_unseal]
    exact wrong
  have r_eq : r = s.admitRequest f := by
    unfold r old
    rw [u_eq, State.taken_usec]
    rfl
  have bare_eq : bare = List.replicate (4 * c.plen) 0 := if_pos ⟨sealed', by rw [u_eq]; exact Nat.succ_ne_zero _⟩
  have enough : a.isNone = false := by
    unfold a
    rw [p_eq, r_eq, bare_eq, ← Option.not_isSome]
    exact congrArg not room
  have refusal_eq : refusal = 0x50 := by
    unfold refusal
    rw [enough, u_eq, r_eq, show (s.admitRequest f).noWait = false from waits]
    rfl
  have faulted_eq : faulted = ((s.taken q 0x20).raise { source := 389 + p, owner := p }).ohmErr 1 refusal p := if_pos (.inl refusal_eq)
  rw [if_pos (by rw [refusal_eq]; decide), faulted_eq, refusal_eq, p_eq]
end

/-- A block whose last 16 bytes are not the tag of its own bytes is refused before its numbers and fields are looked at (R492). -/
theorem State.unseal_badTag {s : State} {p : Nat} {f : Forwarded} {c : AdmitCmd} (tested : s.faults.testMode = false)
    (slot : s.readNat (c.addr + 8) 1 ≤ 15) (opened : (s.session p (s.readNat (c.addr + 8) 1)).use = .opened)
    (stays : (s.session p (s.readNat (c.addr + 8) 1)).closing = false)
    (wrong : s.readBytes (c.addr + 96 + 4 * c.plen) 16 ≠ gcmTag (kdf (s.session p (s.readNat (c.addr + 8) 1)).kSess (s.readNat c.addr 8) 1)
      (toLE 8 (s.readNat c.addr 8) ++ [0, 0, 0, 0]) (s.readBytes c.addr 64 ++ f.body) (s.readBytes (c.addr + 64) (32 + 4 * c.plen))) :
    s.unseal p f c = (0x50, c.r, []) := by
  have known : ¬(15 < s.readNat (c.addr + 8) 1 ∨ (s.session p (s.readNat (c.addr + 8) 1)).use ≠ .opened ∨
      (s.session p (s.readNat (c.addr + 8) 1)).closing = true) := by
    rintro (high | unopened | closes)
    · exact Nat.not_lt.2 slot high
    · exact unopened opened
    · rw [stays] at closes
      cases closes
  unfold State.unseal
  dsimp only
  rw [if_neg (by rw [tested]; exact Bool.false_ne_true), if_neg known, if_pos wrong]

/-- A request that has just begun and stalls on pages is STALLED for them, with one STALL record (R288). -/
theorem State.stall_fresh {s : State} {i : Nat} (fresh : (s.request i).state = .admitted) :
    ((s.stall i 1).request i).state = .stalled ∧ ((s.stall i 1).request i).resumeTo = .admitted ∧ ((s.stall i 1).request i).stallCause = 1 ∧
      (∃ g, (s.stall i 1).teller.ringRecs = s.teller.ringRecs ++ [g] ∧ g.req = i ∧ g.stall = true ∧ g.noToken = true) ∧
      (∀ j, j ≠ i → (s.stall i 1).request j = s.request j) ∧ (s.stall i 1).host = s.host := by
  unfold State.stall
  extract_lets r x entry old u
  have posts : 1 = 1 ∧ ¬(r.state = .stalled ∧ r.stallPosted = true) := ⟨rfl, fun h => by rw [h.1] at fresh; cases fresh⟩
  rw [if_pos posts]
  have own : u.request i = x := s.setRequest_self i x
  have goes : x.resumeTo = .admitted := by
    unfold x r
    rw [fresh]
    rfl
  exact ⟨congrArg Request.state own, (congrArg Request.resumeTo own).trans goes, congrArg Request.stallCause own, ⟨_, rfl, rfl, rfl, rfl⟩,
    fun j hj => s.setRequest_of_ne hj x, rfl⟩

/-- Settles O45: `State.admitOpen` outcome by outcome, with what the entry then holds (`Takes`), and the refusals of ADMIT. -/
theorem admission : Obligations.Admission := by
  intro s q f tagOk awaits
  refine ⟨fun lags => exec_admit_lags lags tagOk, fun follows => ?_⟩
  dsimp only
  refine ⟨exec_admit_refused awaits follows tagOk, fun ok plain tenant => ⟨fun a b alloc reserved => ?admitted, fun a alloc short => ?short, fun none => ?none⟩,
    fun ok sealed tested slot opened stays wrong waits room => ?badTag⟩
  case admitted =>
    have takes := State.beginRequest_takes (State.reserveFor_takes (State.admitAlloc_takes alloc) reserved) (s.funcPart f.fn) (s.admitRequest f)
    have ring := b.beginRequest_ring (s.funcPart f.fn) (admitCmd f).i (s.admitRequest f)
    obtain ⟨state, ware, cls, promptLen, maxNew, seqLen⟩ := takes.entry.fields
    exact ⟨_, exec_admit_admits awaits follows tagOk ok plain tenant alloc reserved, state, ware, cls, promptLen, maxNew, seqLen,
      congrArg Ring.lastPos ring, congrArg Ring.ended ring, fun j hj => (takes.others j hj).trans (State.taken_request ..),
      State.answer_due_of_host takes.host f 0 0 0⟩
  case short =>
    rw [exec_admit_noPages awaits follows tagOk ok plain tenant alloc short]
    refine ⟨fun noWait => by rw [if_pos noWait], fun waits => ⟨_, by rw [if_neg (by simp [waits])], ?_⟩⟩
    have takes := State.beginRequest_takes (State.admitAlloc_takes alloc) (s.funcPart f.fn) (s.admitRequest f)
    obtain ⟨state, resumeTo, cause, ⟨g, ringRecs, req, stall, noToken⟩, others, host⟩ := State.stall_fresh takes.entry.fields.1
    rw [takes.ringRecs] at ringRecs
    have same := State.noteStalled_same ((a.beginRequest (s.funcPart f.fn) (admitCmd f).i (s.admitRequest f)).stall (admitCmd f).i 1) (s.funcPart f.fn)
    simp only [State.answer_request, same.requests]
    refine ⟨state, resumeTo, cause, ⟨g, ?_, req, stall, noToken⟩, fun j hj => (others j hj).trans ((takes.others j hj).trans (State.taken_request ..)),
      State.answer_due_of_host (same.host.trans (host.trans takes.host)) f 0 0 0⟩
    rw [State.answer_teller, State.noteStalled_ringRecs, ringRecs, State.taken_ringRecs]
  case none => exact exec_admit_noRegion awaits follows tagOk ok plain tenant none
  case badTag =>
    refine ⟨_, exec_admit_badTag awaits follows tagOk ok sealed (State.unseal_badTag tested slot opened stays wrong) waits room, ?_, ?_, ?_⟩
    · exact State.answer_due_of_host rfl f 0x50 0 0
    · exact List.mem_append_right _ (List.mem_singleton.2 rfl)
    · rfl

end Sys2Proof.Machine
end

section
/-! PROOF.  O47.  A ware that idles with one request in the table: its boundary composes the one step or chunk there is (`Dispatches`), and feeding the tiles leaves the
request its place (`Feeds`); then the completion record, the stalled request that resumes, and the deadline. -/
namespace Sys2Proof.Machine
open Sys2Proof

/-! ## The tiles are fed (R139, R296) -/

/-- `u` is `s` after descriptors have been copied to tiles: the wares and the next tag stand, and the requests but for the commands noted of them. -/
structure Feeds (s u : State) : Prop where
  wares : u.teller.wares = s.teller.wares
  nextTag : u.teller.nextTag = s.teller.nextTag
  entry : ∀ i, ∃ l, u.request i = { s.request i with taggedDone := l }

namespace Feeds

theorem of_table {s u : State} (wares : u.teller.wares = s.teller.wares) (nextTag : u.teller.nextTag = s.teller.nextTag)
    (table : u.teller.requests = s.teller.requests) : Feeds s u :=
  ⟨wares, nextTag, fun i => ⟨(s.request i).taggedDone, by rw [State.request, table, State.request]⟩⟩

theorem trans {s t u : State} (h : Feeds s t) (g : Feeds t u) : Feeds s u where
  wares := g.wares.trans h.wares
  nextTag := g.nextTag.trans h.nextTag
  entry i := by
    obtain ⟨l, hl⟩ := h.entry i
    obtain ⟨m, hm⟩ := g.entry i
    exact ⟨m, by rw [hm, hl]⟩

theorem foldl {α : Type} {f : State → α → State} (step : ∀ u a, Feeds u (f u a)) (l : List α) (s : State) : Feeds s (l.foldl f s) := by
  induction l generalizing s with
  | nil => exact of_table rfl rfl rfl
  | cons a l ih => exact (step s a).trans (ih _)

theorem ware? {s u : State} (h : Feeds s u) (k : Nat) : u.ware? k = s.ware? k := by
  rw [State.ware?, h.wares, State.ware?]

end Feeds

theorem State.feed_feeds (s : State) (t q : Nat) (ds : List (BitVec 512)) : Feeds s (s.feed t q ds) := by
  unfold State.feed
  extract_lets x tail room now slots queue copied told
  have copies : Feeds s told := by
    unfold told
    split <;> exact .of_table rfl rfl rfl
  split
  · exact copies
  · exact copies.trans (.of_table rfl rfl rfl)

theorem State.feedAll_feeds (s : State) : Feeds s s.feedAll :=
  (Feeds.of_table rfl rfl rfl : Feeds s { s with teller := { s.teller with feeds := [] } }).trans (Feeds.foldl (fun u _ => u.feed_feeds ..) ..)

theorem State.noteStalled_feeds (s : State) (p : Nat) : Feeds s (s.noteStalled p) := by
  rw [State.noteStalled_frame]
  exact .of_table rfl rfl rfl

theorem State.noteTagged_feeds (s : State) (t : Nat) (ds : List (BitVec 512)) : Feeds s (s.noteTagged t ds) := by
  refine Feeds.foldl (fun u d => ?_) ds s
  split
  · refine ⟨rfl, rfl, fun i => ?_⟩
    by_cases own : i = dTag d % 65536
    · subst own
      exact ⟨_, State.setRequest_self ..⟩
    · exact ⟨(u.request i).taggedDone, State.setRequest_of_ne _ own _⟩
  · exact .of_table rfl rfl rfl

/-! ## A step or a chunk of one row goes out (R283, R284) -/

/-- A request whose row goes out under a tag. -/
def Request.inFlight (r : Request) (tag : Nat) : Request :=
  { r with stepSeq := (r.stepSeq + 1) % 65536, inStep := some tag, accepted := 0, restart := false,
           state := if r.state = .admitted then .prefill else r.state }

/-- The run of ware w in which one row is in flight. -/
def Ware.rowRun (w : Ware) (role : Role) (tag : Nat) (row : StepRow) : StepRun :=
  { tag := tag, rows := [row], waiting := (w.streams.filter (fun x => x.role == role)).map (·.tile) }

/-- `u` is `s` with the row in flight on ware h, under the next tag. -/
structure Dispatches (s : State) (h : Nat) (w : Ware) (role : Role) (row : StepRow) (u : State) : Prop where
  run : u.ware? h = some (w.setRun role (some (w.rowRun role s.teller.nextTag row)))
  nextTag : u.teller.nextTag = (s.teller.nextTag + 1) % 2 ^ 31
  entry : ∃ l, u.request row.req = { (s.request row.req).inFlight s.teller.nextTag with taggedDone := l }

theorem Dispatches.trans {s t u : State} {h : Nat} {w : Ware} {role : Role} {row : StepRow} (d : Dispatches s h w role row t) (f : Feeds t u) :
    Dispatches s h w role row u where
  run := (f.ware? h).trans d.run
  nextTag := f.nextTag.trans d.nextTag
  entry := by
    obtain ⟨l, hl⟩ := d.entry
    obtain ⟨m, hm⟩ := f.entry row.req
    exact ⟨m, by rw [hm, hl]⟩

theorem State.dispatch_row {s : State} {h : Nat} {w : Ware} (ware : s.ware? h = some w) (role : Role) (row : StepRow) :
    Dispatches s h w role row (s.dispatch h role [row] false) := by
  unfold State.dispatch
  split
  next none => exact absurd (none.symm.trans ware) (by simp)
  next _ is =>
  obtain rfl := Option.some.inj (ware.symm.trans is)
  extract_lets tag old tagged entered streams fed
  have feeds : Feeds entered fed := by
    refine Feeds.foldl (fun u x => ?_) streams entered
    extract_lets ds noted
    have notes : Feeds u noted := by
      unfold noted
      split
      · exact .of_table rfl rfl rfl
      · exact u.noteTagged_feeds ..
    exact notes.trans (noted.feed_feeds ..)
  have own : entered.request row.req = { (s.request row.req).inFlight tag with taggedDone := [] } := by
    show (tagged.setRequest row.req _).request row.req = _
    rw [State.setRequest_self]
    rfl
  have found : fed.ware? h = some w := (feeds.ware? h).trans ware
  refine ⟨State.ware?_setWare_same found _, feeds.nextTag, ?_⟩
  obtain ⟨l, hl⟩ := feeds.entry row.req
  exact ⟨l, by rw [State.setWare_request, hl, own]⟩

/-- The row of the next step of a request that does not speculate. -/
abbrev Request.stepRow (r : Request) (i : Nat) : StepRow := { req := i, first := r.seqLen, count := 1 }

/-- The row of the next chunk of a prompt on ware w. -/
abbrev Request.chunkRow (r : Request) (w : Ware) (i : Nat) : StepRow :=
  { req := i, first := r.prefilled, count := min (max 1 w.plan.chunkTokens) (r.promptLen - r.prefilled) }

/-! ## A request that does not speculate decodes one position at a time (R297) -/

section
variable {r : Request} (plain : r.specK = 0)
include plain

theorem Request.round_of_plain : r.round = 0 := by rw [Request.round, plain, Nat.zero_min]

theorem Request.draftTurn_of_plain : r.draftTurn = false := by simp [Request.draftTurn, Request.round_of_plain plain]

theorem Request.pass_of_plain : r.pass false = (r.seqLen, 1) := by
  rw [Request.pass, Request.round_of_plain plain]
  rfl
end

/-! ## A table of one request -/

section
variable {s : State} {i : Nat} {r : Request} (table : s.teller.requests = [(i, r)])
include table

theorem State.request_of_table : s.request i = r := by
  rw [State.request, table]
  exact if_pos rfl

theorem State.requestsOf_of_table {p : Nat} (mine : s.reqPart i = p) : s.requestsOf p = [(i, r)] := by
  rw [State.requestsOf, table]
  simp [mine]

/-- A request that waits on pages in no one's way enters its pass. -/
theorem State.enter_of_ready {draft : Bool} {last n : Nat} (held : s.missing r draft last = []) (room : s.ringRoom i n = true) :
    s.enter i draft last n = (s, true) := by
  have reserves : s.reserveFor i draft last = some s := by
    rw [State.reserveFor, State.request_of_table table, held]
    rfl
  rw [State.enter, reserves]
  exact if_pos room
end

/-! ## An idle ware (R284, R285) -/

/-- Nothing of ware h is in flight or held, and its plan stands on tiles that are up. -/
structure State.Idles (s : State) (h : Nat) (w : Ware) : Prop where
  ware : s.ware? h = some w
  runs : ∀ role, w.run role = none
  rerun : w.rerun = false
  isImage : w.isImage = false
  up : s.tilesUp w = true
  bar : s.composeBar w = false
  streams : ∀ y ∈ w.streams, y.role = .decode ∨ y.role = .prefill

section
variable {s : State} {h : Nat} {w : Ware} (idles : s.Idles h w)
include idles

/-- There is nothing to take in where no request drains. -/
theorem State.settle_of_idle (live : ∀ e ∈ s.teller.requests, e.2.state ≠ .draining) : s.settle h = s := by
  have drained : s.reapDrained w.part = s := foldl_eq_of_fixed fun e he => if_neg fun drains => live e (List.mem_filter.1 he).1 drains.1
  unfold State.settle
  rw [if_neg (by simp [idles.ware, idles.rerun])]
  extract_lets ended
  have ended_eq : ended = s := foldl_eq_of_fixed fun role _ => by
    rw [idles.ware, Option.bind_some, idles.runs role]
  rw [ended_eq, idles.ware]
  exact drained

theorem State.readyWare_of_idle : s.readyWare h = (s, true) := by
  rw [State.readyWare, idles.ware]
  dsimp only
  rw [idles.isImage, if_neg Bool.false_ne_true, if_pos idles.up]

/-- No vision or housekeeping stream goes out: the plan has none. -/
theorem Dispatches.composeOther {role : Role} {row : StepRow} {u : State} (d : Dispatches s h w role row u) : u.composeOther h = u := by
  refine foldl_eq_of_fixed fun other mem => ?_
  have none : (w.setRun role (some (w.rowRun role s.teller.nextTag row))).streams.any (fun x => x.role == other) = false := by
    refine List.any_eq_false.2 fun y hy => ?_
    have kind := idles.streams y (by cases role <;> exact hy)
    simp only [List.mem_cons, List.not_mem_nil, or_false] at mem
    rcases mem with rfl | rfl <;> rcases kind with kind | kind <;> simp [kind]
  rw [d.run]
  simp only [none, Bool.not_false, Bool.or_true, if_true]

theorem State.Idles.composes (role : Role) : ((w.run role).isSome || s.composeBar w) = false := by
  rw [idles.runs role, idles.bar]
  rfl

/-- A ware without prompts composes no chunk. -/
theorem State.composeChunk_of_none (none : s.prompts h w = []) : s.composeChunk h Option.none = s := by
  rw [State.composeChunk, idles.ware]
  dsimp -zeta only
  rw [show (w.chunk.isSome || s.composeBar w) = false from idles.composes .prefill, if_neg Bool.false_ne_true, none]
  rfl

variable {i : Nat} {r : Request} (table : s.teller.requests = [(i, r)]) (mine : s.reqPart i = w.part) (own : r.ware = h) (between : r.inStep = none)
  (room : s.ringRoom i 1 = true)
include table mine own between room

theorem State.composeStep_of_ready (decode : r.state = .decode) (plain : r.specK = 0) (pages : s.missing r false r.seqLen = []) :
    s.composeStep h = s.dispatch h .decode [r.stepRow i] false := by
  have turn := Request.draftTurn_of_plain plain
  have alone := Request.round_of_plain plain
  have pass := Request.pass_of_plain plain
  have enters : s.enter i false (r.seqLen + 1 - 1) (if false = true then 0 else r.round + 1) = (s, true) := by
    rw [alone]
    exact State.enter_of_ready table pages room
  have none : ¬max 1 w.plan.maxRows ≤ ([] : List StepRow).length := Nat.not_le.2 (Nat.lt_of_lt_of_le Nat.one_pos (Nat.le_max_left ..))
  rw [State.composeStep, idles.ware]
  dsimp -zeta only
  rw [show (w.step.isSome || s.composeBar w) = false from idles.composes .decode, if_neg Bool.false_ne_true]
  extract_lets cands rows
  have cands_eq : cands = [(i, r)] := by
    unfold cands
    rw [State.requestsOf_of_table table mine]
    simp [decode, between, turn, own, sortBy, insBy]
  have rows_eq : rows = (s, [r.stepRow i]) := by
    unfold rows
    rw [cands_eq, List.foldl_cons, List.foldl_nil]
    dsimp only
    rw [if_neg none, State.request_of_table table, turn, pass]
    dsimp only
    rw [enters]
    rfl
  rw [rows_eq]
  rfl

theorem State.composeChunk_of_ready (admitted : r.state = .admitted)
    (pages : s.missing r false ((r.chunkRow w i).first + (r.chunkRow w i).count - 1) = []) :
    s.composeChunk h none =
      s.dispatch h .prefill [r.chunkRow w i] false := by
  have alone : ¬(max 1 w.plan.chunkTokens - (([] : List StepRow).map (·.count)).sum = 0 ∨ (([] : List StepRow).any fun row => (s.request row.req).hardAbort) = true ∨
      r.hardAbort = true ∧ ¬([] : List StepRow).isEmpty = true) := by
    simp
  have prompts : s.prompts h w = [(i, r)] := by
    rw [State.prompts, State.requestsOf_of_table table mine]
    simp [admitted, between, own, sortBy, insBy]
  rw [State.composeChunk, idles.ware]
  dsimp -zeta only
  rw [show (w.chunk.isSome || s.composeBar w) = false from idles.composes .prefill, if_neg Bool.false_ne_true]
  extract_lets rows held
  have rows_eq : rows = (s, [r.chunkRow w i]) := by
    unfold rows
    rw [prompts, List.foldl_cons, List.foldl_nil]
    dsimp only
    rw [if_neg alone, State.request_of_table table]
    exact congrArg (fun y : State × Bool => (y.1, if y.2 = true then [_] else [])) (State.enter_of_ready table pages room)
  rw [rows_eq]
  rfl

/-- A boundary of the ware dispatches the one waiting DECODE request (R284). -/
theorem exec_stepBoundary_of_ready (going : s.teller.held = false) (composes : s.update.holdBegun = false) (decode : r.state = .decode) (plain : r.specK = 0)
    (pages : s.missing r false r.seqLen = []) : ∃ u, exec (.stepBoundary h) s = .next u ∧ Dispatches s h w .decode (r.stepRow i) u := by
  have states : ∀ e ∈ s.teller.requests, e.2.state = .decode := by
    rw [table]
    exact List.forall_mem_singleton.2 decode
  have prompts : s.prompts h w = [] := by
    rw [State.prompts, State.requestsOf_of_table table mine]
    simp [decode, sortBy]
  have out := State.dispatch_row idles.ware .decode (r.stepRow i)
  have run : exec (.stepBoundary h) s = .next ((s.dispatch h .decode [r.stepRow i] false).noteStalled w.part).feedAll := by
    show execStepBoundary h s = _
    unfold execStepBoundary
    rw [going, if_neg Bool.false_ne_true]
    extract_lets ended
    have ended_eq : ended = s := State.settle_of_idle idles fun e he => by rw [states e he]; decide
    rw [ended_eq, idles.ware]
    dsimp -zeta only
    rw [idles.rerun, if_neg Bool.false_ne_true, show w.step = none from idles.runs .decode, show w.chunk = none from idles.runs .prefill,
      State.readyWare_of_idle idles, composes]
    simp only [Option.isSome_none, Bool.false_eq_true, if_false, Bool.not_true]
    rw [State.resumeStalled_of_none (fun e he => by rw [states e he]; decide), State.composeChunk_of_none idles prompts,
      State.composeStep_of_ready idles table mine own between room decode plain pages, out.composeOther idles]
  exact ⟨_, run, (out.trans (State.noteStalled_feeds ..)).trans (State.feedAll_feeds _)⟩

/-- A chunk takes the waiting prompt (R285). -/
theorem exec_chunkDispatch_of_ready (going : s.teller.held = false) (composes : s.update.holdBegun = false) (admitted : r.state = .admitted)
    (pages : s.missing r false ((r.chunkRow w i).first + (r.chunkRow w i).count - 1) = []) :
    ∃ u, exec (.chunkDispatch h) s = .next u ∧
      Dispatches s h w .prefill (r.chunkRow w i) u := by
  have out := State.dispatch_row idles.ware .prefill (r.chunkRow w i)
  refine ⟨_, ?run, (out.trans (State.noteStalled_feeds _ w.part)).trans (State.feedAll_feeds _)⟩
  show execChunkDispatch h s = _
  unfold execChunkDispatch
  rw [going, if_neg Bool.false_ne_true]
  extract_lets ended
  have live : ∀ e ∈ s.teller.requests, e.2.state ≠ .draining := by
    rw [table]
    exact List.forall_mem_singleton.2 (by rw [admitted]; decide)
  have ended_eq : ended = s := State.settle_of_idle idles live
  rw [ended_eq, idles.ware]
  dsimp -zeta only
  rw [idles.rerun, idles.up, composes, show w.step = none from idles.runs .decode, Option.map_none,
    State.composeChunk_of_ready idles table mine own between room admitted pages]
  rfl
end

/-! ## Completion records (R116, R250) -/

theorem State.feedAll_of_none {s : State} (none : s.teller.feeds = []) : s.feedAll = s := by
  have same : ∀ l, s.teller.feeds = l → ({ s with teller := { s.teller with feeds := l } } : State) = s := by
    rintro _ rfl
    rfl
  rw [State.feedAll, none, List.foldl_nil]
  exact same [] none

/-- An END record of a tile takes the tile off the run's list. -/
theorem exec_completionRecord_of_end {s : State} {d : TileDone} {rest : List TileDone} {h : Nat} {w : Ware} {role : Role} {x : StepRun}
    (going : s.teller.held = false) (records : s.teller.records = d :: rest) (feeds : s.teller.feeds = []) (opcode : d.opcode = 0x10)
    (status : d.status = stOk) (tag : d.tag / 2 ^ 31 = 0) (run : s.runOf d.tag = some (h, role, x)) (ware : s.ware? h = some w) :
    exec .completionRecord s = .next (({ s with teller := { s.teller with records := rest } } : State).setWare h
      (w.setRun role (some { x with waiting := x.waiting.erase d.tile }))) := by
  show execCompletionRecord s = _
  unfold execCompletionRecord
  rw [going, if_neg Bool.false_ne_true, records]
  dsimp -zeta only
  extract_lets src taken ended
  have taken_eq : taken = { s with teller := { s.teller with records := rest } } := if_neg fun own => by rw [tag] at own; exact absurd own.2 (by decide)
  have ended_eq : ended = taken.setWare h (w.setRun role (some { x with waiting := x.waiting.erase d.tile })) := by
    unfold ended
    rw [show taken.runOf d.tag = some (h, role, x) by rw [taken_eq]; exact run]
    dsimp -zeta only
    rw [if_pos ⟨opcode, status⟩, show taken.ware? h = some w by rw [taken_eq]; exact ware]
  rw [ended_eq, taken_eq]
  exact congrArg _ (State.feedAll_of_none feeds)

/-! ## Stalled requests resume (R289) -/

theorem State.need_decode {s : State} {i : Nat} (plain : (s.request i).specK = 0) : s.need i .decode = (false, (s.request i).seqLen, 1) := by
  rw [State.need]
  dsimp only
  rw [if_pos rfl, Request.draftTurn_of_plain plain, Request.round_of_plain plain, Request.pass_of_plain plain]
  rfl

theorem State.allStalled_of_free {s : State} {p : Nat} {e : Nat × Request} (mem : e ∈ s.requestsOf p) (active : e.2.state.active = true)
    (free : e.2.state.held = false) : s.allStalled p = false := by
  have some_free : ((s.requestsOf p).filter fun e => e.2.state.active).all (fun e => e.2.state.held) = false :=
    List.all_eq_false.2 ⟨e, List.mem_filter.2 ⟨mem, active⟩, by rw [free]; decide⟩
  rw [State.allStalled]
  simp only [some_free, Bool.and_false, Bool.false_and]

theorem State.setRequest_table {s : State} {i : Nat} {r x : Request} (table : s.teller.requests = [(i, r)]) (used : x ≠ {}) :
    (s.setRequest i x).teller.requests = [(i, x)] := by
  show sset {} s.teller.requests i x = _
  rw [sset, if_neg used, table]
  simp [sins]

theorem exec_pagesFreed_of_ready {s : State} {i : Nat} {r : Request} (table : s.teller.requests = [(i, r)]) (going : s.teller.held = false)
    (stalled : r.state = .stalled) (back : r.resumeTo = .decode) (plain : r.specK = 0) (part : s.reqPart i < 8) (pages : s.missing r false r.seqLen = [])
    (room : s.ringRoom i 1 = true) : exec (.pagesFreed (s.reqPart i)) s =
    .next (s.setRequest i { r with state := .decode, resumeTo := .free, stallCause := 0, stallPosted := false }) := by
  have own : s.request i = r := State.request_of_table table
  have order : s.stallOrder (s.reqPart i) = [i] := by
    rw [State.stallOrder, State.requestsOf_of_table table rfl]
    simp [stalled, sortBy, insBy]
  have resumes : s.resumeStalled (s.reqPart i) = s.setRequest i { r with state := .decode, resumeTo := .free, stallCause := 0, stallPosted := false } := by
    have reserves : s.reserveFor i false r.seqLen = some s := by
      rw [State.reserveFor, own, pages]
      rfl
    rw [State.resumeStalled, order, List.foldl_cons, List.foldl_nil]
    dsimp only
    rw [own, back, State.need_decode (by rw [own]; exact plain), own, reserves]
    dsimp only
    rw [room, own]
    rfl
  have table' := State.setRequest_table table (x := { r with state := .decode, resumeTo := .free, stallCause := 0, stallPosted := false })
    (fun same => nomatch congrArg Request.state same)
  have free := State.requestsOf_of_table table' (p := s.reqPart i) rfl
  show execPagesFreed _ s = _
  rw [execPagesFreed, if_neg (by simp [going, part]), resumes,
    State.noteStalled_of_not _ (State.allStalled_of_free (by rw [free]; exact List.mem_singleton_self _) rfl rfl)]

/-! ## Deadlines (R294) -/

/-- The state in which request i is late. -/
def State.lateMarked (s : State) (i : Nat) : State := (s.setRequest i { s.request i with late := true }).setRing i { s.ring i with late := true }

theorem State.lateMarked_request (s : State) (i : Nat) : (s.lateMarked i).request i = { s.request i with late := true } := s.setRequest_self i _

theorem State.setRequest_frame (s : State) (t : TellerState) (i : Nat) (x : Request) :
    ({ s with teller := t } : State).setRequest i x = { s with teller := (({ s with teller := t } : State).setRequest i x).teller } := rfl

theorem State.lateMarked_frame (s : State) (i : Nat) : s.lateMarked i = { s with teller := (s.lateMarked i).teller } := rfl

theorem State.lateMarked_ring (s : State) (i : Nat) : (s.lateMarked i).ring i = { s.ring i with late := true } :=
  (s.setRequest i _).setRing_self i _

/-- A late request between steps, with no work left on its tiles, ends with the reason given. -/
theorem State.lateMarked_ends {s : State} {i : Nat} (between : (s.request i).inStep = none) (idle : s.tagBusy i = false) (unended : (s.request i).endReason = 0)
    {reason : Nat} {u : State} (same : SameServing ((s.lateMarked i).drain i reason) u) :
    (u.request i).state = .retired ∧ (u.request i).endReason = reason ∧ (u.request i).late = true := by
  have marked : ((s.lateMarked i).request i).inStep = none := by rw [State.lateMarked_request, ← between]
  have quiet : (s.lateMarked i).tagBusy i = false := by rw [State.lateMarked, State.setRing_tagBusy, State.setRequest_tagBusy, idle]
  have retires : Retires ((s.lateMarked i).draining i reason) i u := (State.drain_retires marked quiet reason).trans same
  rw [retires.state, retires.endReason, retires.late, State.draining_self, State.lateMarked_request]
  exact ⟨rfl, if_pos unended, rfl⟩

theorem exec_deadline_early {s : State} {i : Nat} (early : s.teller.usec.toNat < (s.request i).admitStamp + (s.request i).budget) :
    exec (.deadline i) s = .next s :=
  if_pos (.inr (.inr (.inr (.inr early))))

section
variable {s : State} {i : Nat} (going : s.teller.held = false) (budget : (s.request i).budget ≠ 0) (fresh : (s.request i).late = false)
  (active : (s.request i).state.active = true) (due : (s.request i).admitStamp + (s.request i).budget ≤ s.teller.usec.toNat)
include going budget fresh active due

theorem exec_deadline_guard : ¬(s.teller.held = true ∨ (s.request i).budget = 0 ∨ (s.request i).late = true ∨ (!(s.request i).state.active) = true ∨
    s.teller.usec.toNat < (s.request i).admitStamp + (s.request i).budget) := by
  simp [going, budget, fresh, active, due]

theorem exec_deadline_decode (decode : (s.request i).state = .decode) : exec (.deadline i) s =
    .next (if !(s.request i).lateStop then s.lateMarked i
      else if (s.request i).inStep.isSome then (s.lateMarked i).setRequest i { s.request i with late := true, lastPass := true }
      else ((s.lateMarked i).drain i 0x06).noteStalled (s.reqPart i)) := by
  show execDeadline i s = _
  unfold execDeadline
  extract_lets r ring late marked aim
  have notYet := exec_deadline_guard going budget fresh active due
  have marked_eq : marked = { s.request i with late := true } := s.lateMarked_request i
  have aim_eq : aim = .decode := by
    unfold aim
    rw [marked_eq]
    simp [decode]
  rw [if_neg notYet, aim_eq, marked_eq, if_neg (by simp [decode]), if_neg (not_not.2 rfl)]
  simp only [apply_ite Host.Outcome.next]
  rfl

theorem exec_deadline_abort (admitted : (s.request i).state = .admitted) (abort : (s.request i).hardAbort = true) (between : (s.request i).inStep = none) :
    exec (.deadline i) s = .next (((s.lateMarked i).drain i 0x07).noteStalled (s.reqPart i)) := by
  show execDeadline i s = _
  unfold execDeadline
  extract_lets r ring late marked aim
  have notYet := exec_deadline_guard going budget fresh active due
  have marked_eq : marked = { s.request i with late := true } := s.lateMarked_request i
  have aim_eq : aim = .admitted := by
    unfold aim
    rw [marked_eq]
    simp [admitted]
  rw [if_neg notYet, aim_eq, marked_eq, if_neg (by simp [admitted]), if_pos (by decide), if_pos abort]
  split
  · rw [if_neg (by simp [between])]
    rfl
  · rfl
end

/-- Settles O47: the run that a boundary or a chunk puts in flight (`Dispatches`), and one equation for each of the other events. -/
theorem stepsAndDeadlines : Obligations.StepsAndDeadlines := by
  refine ⟨fun s h i w r going composes ware noStep noChunk rerun noVision noHouse isImage up bar streams table own target between mine room => ⟨?step, ?chunk⟩,
    fun s d rest h w role x going records feeds opcode status tag run ware => ?record,
    fun s i r going table stalled back plain target part pages room => ?resumes,
    fun s i going budget fresh active => ⟨fun early => exec_deadline_early early, fun due => ⟨?last, ?late, ?abort, ?marked⟩⟩, fun s h i p held => ?held⟩
  case step =>
    intro decode plain pages
    have idles : s.Idles h w := ⟨ware, fun role => by cases role <;> assumption, rerun, isImage, up, bar, streams⟩
    obtain ⟨u, runs, out⟩ := exec_stepBoundary_of_ready idles table mine own between room going composes decode plain pages
    obtain ⟨l, entry⟩ := out.entry
    rw [State.request_of_table table] at entry
    exact ⟨u, _, runs, by rw [out.run]; rfl, rfl, rfl, rfl, out.nextTag, by rw [entry]; rfl, by rw [entry]; rfl, by rw [entry, Request.inFlight, decode]; rfl⟩
  case chunk =>
    intro admitted pages
    have idles : s.Idles h w := ⟨ware, fun role => by cases role <;> assumption, rerun, isImage, up, bar, streams⟩
    obtain ⟨u, runs, out⟩ := exec_chunkDispatch_of_ready idles table mine own between room going composes admitted pages
    obtain ⟨l, entry⟩ := out.entry
    rw [State.request_of_table table] at entry
    exact ⟨u, _, runs, by rw [out.run]; rfl, rfl, rfl, rfl, by rw [entry, Request.inFlight, admitted]; rfl, by rw [entry]; rfl⟩
  case record =>
    have found : ({ s with teller := { s.teller with records := rest } } : State).ware? h = some w := ware
    exact ⟨_, exec_completionRecord_of_end going records feeds opcode status tag run ware, rfl, State.ware?_setWare_same found _, fun i => rfl, rfl⟩
  case resumes =>
    refine ⟨_, exec_pagesFreed_of_ready table going stalled back plain part pages room, ?_, ?_, rfl⟩ <;> rw [State.setRequest_self]
  case last =>
    intro decode stop inStep
    refine ⟨_, exec_deadline_decode going budget fresh active due decode, ?_⟩
    rw [stop, if_neg (by decide), if_pos (Option.isSome_iff_ne_none.2 inStep)]
    refine ⟨State.setRequest_self .., congrArg Ring.late (s.lateMarked_ring i), ?_⟩
    rw [State.lateMarked_frame]
    exact State.setRequest_frame ..
  case late =>
    intro decode stop between idle unended
    refine ⟨_, exec_deadline_decode going budget fresh active due decode, ?_⟩
    rw [stop, between, if_neg (by decide), if_neg (by decide)]
    exact State.lateMarked_ends between idle unended (State.noteStalled_same ..)
  case abort =>
    intro admitted hard between idle unended
    obtain ⟨retired, reason, -⟩ := State.lateMarked_ends between idle unended (State.noteStalled_same ((s.lateMarked i).drain i 0x07) (s.reqPart i))
    exact ⟨_, exec_deadline_abort going budget fresh active due admitted hard between, retired, reason⟩
  case marked =>
    intro decode goesOn
    refine ⟨_, exec_deadline_decode going budget fresh active due decode, ?_⟩
    rw [goesOn, if_pos (by decide)]
    exact ⟨s.lateMarked_request i, congrArg Ring.late (s.lateMarked_ring i), rfl⟩
  case held => exact ⟨if_pos held, if_pos held, if_pos held, if_pos (.inl held), if_pos (.inl held)⟩

end Sys2Proof.Machine
end

section
/-! PROOF.  O49.  A command that names a context is refused by its reserved bits, its owner and the context's state in turn, or acts on the context
(`ctxCommand_acts`); STREAM_OPEN is refused with the code that `State.openCode` gives; what each leaves of the contexts and of what is due follows. -/
namespace Sys2Proof.Machine
open Sys2Proof

/-! ## The state that a stream command finds -/

/-- A stream command is not the Teller's: it only leaves the queue. -/
theorem State.taken_of_not_teller {op : Nat} (other : tellerOp op = false) (s : State) (q : Nat) : s.taken q op = s.dropForwarded q := by
  rw [State.taken, other, if_neg Bool.false_ne_true]

@[simp] theorem State.taken_wheels (s : State) (q op : Nat) : (s.taken q op).wheels = s.wheels := by
  unfold State.taken
  split <;> rfl
@[simp] theorem State.taken_ctx (s : State) (q op c : Nat) : (s.taken q op).ctx c = s.ctx c := by
  rw [State.ctx, State.taken_wheels, State.ctx]
@[simp] theorem State.taken_ctxPart (s : State) (q op c : Nat) : (s.taken q op).ctxPart c = s.ctxPart c := by
  unfold State.taken
  split <;> rfl

/-! ## Contexts as they are written -/

theorem State.setCtx_self (s : State) (c : Nat) (x : Ctx) : (s.setCtx c x).ctx c = x := by
  rw [State.setCtx_ctx, if_pos rfl]
theorem State.setCtx_of_ne (s : State) {c k : Nat} (h : k ≠ c) (x : Ctx) : (s.setCtx c x).ctx k = s.ctx k := by
  rw [State.setCtx_ctx, if_neg h]
@[simp] theorem State.answer_ctx (s : State) (f : Forwarded) (status r0 r1 c : Nat) : (s.answer f status r0 r1).ctx c = s.ctx c := rfl
@[simp] theorem State.answer_mem (s : State) (f : Forwarded) (status r0 r1 : Nat) : (s.answer f status r0 r1).mem = s.mem := rfl

/-! ## Commands that name a context (R309) -/

section
variable {s : State} {q op b : Nat} {early : Forwarded → Nat} {f : Forwarded} (awaits : s.Awaits q op f) (k : Forwarded → Nat → Nat → State → State)
include awaits

theorem ctxCommand_reserved (form : bodyReserved f b = true) : ctxCommand q op b early s k = (s.taken q op).answer f 0x02 0 0 := by
  rw [ctxCommand, onForwarded_awaits awaits]
  exact if_pos form

variable (form : bodyReserved f b = false) (valid : early f = 0)
include form valid

theorem ctxCommand_notOwned (other : s.ctxPart (f.fld 16 2) ≠ s.funcPart f.fn) : ctxCommand q op b early s k = (s.taken q op).answer f 0x30 0 0 := by
  rw [ctxCommand, onForwarded_awaits awaits]
  simp [form, valid, other]

theorem ctxCommand_acts (part : s.funcPart f.fn < 8) (own : s.ctxPart (f.fld 16 2) = s.funcPart f.fn) :
    ctxCommand q op b early s k = k f (s.funcPart f.fn) (f.fld 16 2) (s.taken q op) := by
  rw [ctxCommand, onForwarded_awaits awaits]
  simp [form, valid, own, Nat.not_le.2 part]
end

/-- The four commands that name a context: no field is refused by its value while the mode, the class and the stream's end are within R309's values, and
on a closed context the answer is STATE. -/
theorem exec_ctxCommand (s : State) (q : Nat) :
    ∀ p ∈ [(Instr.streamClose q, 0x31, 19), (.streamFeed q, 0x32, 27), (.streamKey q, 0x33, 18), (.streamClass q, 0x34, 19)], ∃ early k,
      exec p.1 s = .next (ctxCommand q p.2.1 p.2.2 early s k) ∧ (∀ f, f.fld 18 1 ≤ 1 → f.fld 26 1 ≤ 1 → early f = 0) ∧
      (∀ f p c t, (t.ctx c).state = .closed → k f p c t = t.answer f 0x23 0 0) := by
  intro p hp
  simp only [List.mem_cons, List.not_mem_nil, or_false] at hp
  rcases hp with rfl | rfl | rfl | rfl
  case inl => exact ⟨_, _, rfl, fun f mode _ => if_neg (Nat.not_lt.2 mode), fun f p c t closed => if_pos closed⟩
  case inr.inl =>
    refine ⟨_, _, rfl, fun f _ eos => if_neg (Nat.not_lt.2 eos), fun f p c t closed => ?_⟩
    simp only [closed]
    simp [lowest]
  case inr.inr.inl => exact ⟨_, _, rfl, fun f _ _ => rfl, fun f p c t closed => if_pos (.inl closed)⟩
  case inr.inr.inr =>
    refine ⟨_, _, rfl, fun f cls _ => ?_, fun f p c t closed => if_pos closed⟩
    rw [if_neg (by omega), if_neg (by omega)]

/-! ## STREAM_OPEN (R310, R311, R451) -/

/-- The code that refuses a STREAM_OPEN, or 0. -/
def State.openCode (s : State) (f : Forwarded) : Nat :=
  let p := s.funcPart f.fn
  let c := f.fld 16 2
  let a := f.fld 18 6
  let b := s.readBytes a 256
  let x := ctxRecOf b
  let cfgBad := a % 64 != 0 || !s.inDram p a 256
  let mask := match s.part? p with | some r => r.wheels.getLsbD x.wheel | none => false
  let same := s.wheels.ctxs.any (fun e => e.1 != c && e.2.state != .closed && e.2.cfg.rtp && e.2.cfg.classifier == x.classifier)
  lowest [(bodyReserved f 24, 0x02), (cfgBad || recordBad b x || (s.confidential p && x.hostFed), 0x22),
    (p < 8 && s.ctxPart c == p && (s.ctx c).state != .closed, 0x23), (decide (8 ≤ p) || s.ctxPart c != p, 0x30),
    (decide (x.wheel < 4) && (!mask || s.faults.fenceWheels.getLsbD x.wheel), 0x31), (!cfgBad && targetBad s p x, 0x32), (x.rtp && same, 0x33)]

/-- A context that a record opens. -/
def CtxRec.opened (x : CtxRec) (evt : BitVec 5) : Ctx :=
  { state := if x.encode then .running else .waitIrap, cfg := x, cls := x.cls, evtBits := evt }

theorem exec_streamOpen {s : State} {q : Nat} {f : Forwarded} (awaits : s.Awaits q 0x30 f) : exec (.streamOpen q) s =
    .next (if s.openCode f ≠ 0 then (s.taken q 0x30).answer f (s.openCode f) 0 0
      else ((s.taken q 0x30).setCtx (f.fld 16 2) ((ctxRecOf (s.readBytes (f.fld 18 6) 256)).opened (s.ctx (f.fld 16 2)).evtBits)).answer f 0 0 0) := by
  show execStreamOpen q s = _
  rw [execStreamOpen, onForwarded_awaits awaits, State.taken_of_not_teller (by decide)]
  rfl

theorem exec_streamOpen_refused {s : State} {q code : Nat} {f : Forwarded} (awaits : s.Awaits q 0x30 f) (refused : s.openCode f = code) (some : code ≠ 0) :
    exec (.streamOpen q) s = .next ((s.taken q 0x30).answer f code 0 0) := by
  rw [exec_streamOpen awaits, refused, if_pos some]

theorem State.openCode_reserved {s : State} {f : Forwarded} (form : bodyReserved f 24 = true) : s.openCode f = 0x02 := by
  unfold State.openCode
  rw [form]
  exact lowest_cons_true (by decide) (by simp)

/-- A record's wheel is one of the four. -/
theorem wheel_lt_of_recordBad {b : List Byte} {x : CtxRec} (good : recordBad b x = false) : x.wheel < 4 := by
  simp only [recordBad, Bool.or_eq_false_iff, decide_eq_false_iff_not] at good
  omega

section
variable {s : State} {f : Forwarded} {p : Nat} {x : CtxRec} (hp : s.funcPart f.fn = p) (hx : ctxRecOf (s.readBytes (f.fld 18 6) 256) = x)
  (form : bodyReserved f 24 = false) (line : f.fld 18 6 % 64 = 0) (inDram : s.inDram p (f.fld 18 6) 256 = true)
  (good : recordBad (s.readBytes (f.fld 18 6) 256) x = false) (plain : s.confidential p = true → x.hostFed = false)
  (part : p < 8) (own : s.ctxPart (f.fld 16 2) = p)
include hp hx form line inDram good plain part own

theorem State.openCode_busy (busy : (s.ctx (f.fld 16 2)).state ≠ .closed) : s.openCode f = 0x23 := by
  have secret : (s.confidential p && x.hostFed) = false := by simpa using plain
  simp only [State.openCode, hp, hx, form, line, inDram, good, secret, part, own, lowest_cons_false, bne_self_eq_false, Bool.not_true, Bool.or_false]
  rw [show ((s.ctx (f.fld 16 2)).state != .closed) = true from bne_iff_ne.2 busy, beq_self_eq_true]
  exact lowest_cons_true (by decide) (by simp)

variable (closed : (s.ctx (f.fld 16 2)).state = .closed) (mask : ∀ r, s.part? p = some r → r.wheels.getLsbD x.wheel = true)
  (known : (s.part? p).isSome = true)
include closed mask known

/-- A record that nothing refuses before its wheel is looked at. -/
theorem State.openCode_eq : s.openCode f = lowest [(s.faults.fenceWheels.getLsbD x.wheel, 0x31), (targetBad s p x, 0x32),
    (x.rtp && s.wheels.ctxs.any (fun e => e.1 != f.fld 16 2 && e.2.state != .closed && e.2.cfg.rtp && e.2.cfg.classifier == x.classifier), 0x33)] := by
  have secret : (s.confidential p && x.hostFed) = false := by simpa using plain
  obtain ⟨r, found⟩ := Option.isSome_iff_exists.1 known
  have wheel := wheel_lt_of_recordBad good
  simp only [State.openCode, hp, hx, form, line, inDram, good, secret, own, closed, found, mask r found, wheel, Nat.not_le.2 part, lowest_cons_false,
    bne_self_eq_false, Bool.not_true, Bool.not_false, Bool.or_false, Bool.false_or, Bool.and_false, Bool.true_and, decide_true, decide_false]

theorem State.openCode_fenced (fenced : s.faults.fenceWheels.getLsbD x.wheel = true) : s.openCode f = 0x31 := by
  rw [State.openCode_eq hp hx form line inDram good plain part own closed mask known, fenced]
  exact lowest_cons_true (by decide) (by simp)

theorem State.openCode_good (target : targetBad s p x = false) (unfenced : s.faults.fenceWheels.getLsbD x.wheel = false)
    (alone : x.rtp = true → ∀ e ∈ s.wheels.ctxs, e.2.state = .closed) : s.openCode f = 0 := by
  have apart : (x.rtp && s.wheels.ctxs.any (fun e => e.1 != f.fld 16 2 && e.2.state != .closed && e.2.cfg.rtp && e.2.cfg.classifier == x.classifier)) = false := by
    rw [Bool.and_eq_false_imp]
    intro rtp
    rw [List.any_eq_false]
    intro e he
    simp [alone rtp e he]
  rw [State.openCode_eq hp hx form line inDram good plain part own closed mask known, unfenced, target, apart]
  rfl
end

/-! ## The commands that act (R309, R310, R312, R319, R334) -/

section
variable {s : State} {q : Nat} {f : Forwarded} (part : s.funcPart f.fn < 8) (own : s.ctxPart (f.fld 16 2) = s.funcPart f.fn)
  (live : (s.ctx (f.fld 16 2)).state ≠ .closed)
include part own live

theorem exec_streamClose (awaits : s.Awaits q 0x31 f) (form : bodyReserved f 19 = false) (mode : f.fld 18 1 ≤ 1)
    (first : (s.ctx (f.fld 16 2)).state ≠ .closing) : exec (.streamClose q) s = .next ((s.taken q 0x31).setCtx (f.fld 16 2)
      { s.ctx (f.fld 16 2) with state := .closing, closeMode := f.fld 18 1, closeSrc := (s.ctx (f.fld 16 2)).closeSrc ++ [(f.fn, f.sq, f.cid)],
                                packets := [], fu := none }) := by
  show execStreamClose q s = _
  rw [execStreamClose, ctxCommand_acts awaits _ form (if_neg (Nat.not_lt.2 mode)) part own]
  simp [live, first]

theorem exec_streamKey (awaits : s.Awaits q 0x33 f) (form : bodyReserved f 18 = false) (encode : (s.ctx (f.fld 16 2)).cfg.encode = true) :
    exec (.streamKey q) s = .next (((s.taken q 0x33).setCtx (f.fld 16 2) { s.ctx (f.fld 16 2) with keyReq := true }).answer f 0 0 0) := by
  show execStreamKey q s = _
  rw [execStreamKey, ctxCommand_acts awaits _ form rfl part own]
  simp [live, encode]

theorem exec_streamClass (awaits : s.Awaits q 0x34 f) (form : bodyReserved f 19 = false) (cls : f.fld 18 1 ≤ 2) : exec (.streamClass q) s =
    .next (((s.taken q 0x34).setCtx (f.fld 16 2) { s.ctx (f.fld 16 2) with nextClass := some (f.fld 18 1) }).answer f 0 0 0) := by
  show execStreamClass q s = _
  have valid : (if 4 ≤ f.fld 18 1 then 0x02 else if f.fld 18 1 = 3 then 0x22 else 0) = 0 := by
    rw [if_neg (by omega), if_neg (by omega)]
  rw [execStreamClass, ctxCommand_acts awaits _ form valid part own]
  simp [live]

variable (awaits : s.Awaits q 0x32 f) (form : bodyReserved f 27 = false) (eos : f.fld 26 1 ≤ 1)
include awaits form eos

/-- An encoder's read indices that go neither back nor past what has been written are taken, others are not (log entry 34). -/
theorem exec_streamFeed_encode (encode : (s.ctx (f.fld 16 2)).cfg.encode = true) :
    let x := s.ctx (f.fld 16 2)
    let back := (f.fld 18 4 + 2 ^ 32 - x.bsRd) % 2 ^ 32 ≤ (x.bsWr + 2 ^ 32 - x.bsRd) % 2 ^ 32 ∧
      (f.fld 22 4 + 2 ^ 32 - x.descRd) % 2 ^ 32 ≤ (x.descWr + 2 ^ 32 - x.descRd) % 2 ^ 32
    (back → exec (.streamFeed q) s = .next (((s.taken q 0x32).setCtx (f.fld 16 2) { x with bsRd := f.fld 18 4, descRd := f.fld 22 4 }).answer f 0 0 0)) ∧
    (¬ back → exec (.streamFeed q) s = .next ((s.taken q 0x32).answer f 0x22 0 0)) := by
  intro x back
  show (_ → execStreamFeed q s = _) ∧ (_ → execStreamFeed q s = _)
  have isLive : (x.state != .closed) = true := bne_iff_ne.2 live
  have notClosed : (x.state == .closed) = false := beq_eq_false_iff_ne.2 live
  rw [execStreamFeed, ctxCommand_acts awaits _ form (if_neg (Nat.not_lt.2 eos)) part own]
  simp only [State.taken_ctx, show s.ctx (f.fld 16 2) = x from rfl, show x.cfg.encode = true from encode, isLive, notClosed, Bool.not_true,
    Bool.false_and, Bool.true_and, Bool.false_or, lowest_cons_false]
  refine ⟨fun ⟨bitstream, descriptors⟩ => ?_, fun outside => ?_⟩
  · rw [decide_eq_false (Nat.not_lt.2 bitstream), decide_eq_false (Nat.not_lt.2 descriptors)]
    rfl
  · have past : (decide ((x.bsWr + 2 ^ 32 - x.bsRd) % 2 ^ 32 < (f.fld 18 4 + 2 ^ 32 - x.bsRd) % 2 ^ 32) ||
        decide ((x.descWr + 2 ^ 32 - x.descRd) % 2 ^ 32 < (f.fld 22 4 + 2 ^ 32 - x.descRd) % 2 ^ 32)) = true := by
      rw [Bool.or_eq_true, decide_eq_true_eq, decide_eq_true_eq, ← Nat.not_le, ← Nat.not_le]
      exact not_and_or.1 outside
    rw [past]
    rfl

theorem exec_streamFeed_decode (decode : (s.ctx (f.fld 16 2)).cfg.encode = false) (hostFed : (s.ctx (f.fld 16 2)).cfg.hostFed = true)
    (fits : (f.fld 18 4 + 2 ^ 32 - (s.ctx (f.fld 16 2)).rd) % 2 ^ 32 ≤ 2 ^ (s.ctx (f.fld 16 2)).cfg.nalLog2)
    (grows : ((s.ctx (f.fld 16 2)).nalTotal + 2 ^ 32 - (s.ctx (f.fld 16 2)).rd) % 2 ^ 32 ≤ (f.fld 18 4 + 2 ^ 32 - (s.ctx (f.fld 16 2)).rd) % 2 ^ 32) :
    exec (.streamFeed q) s = .next (((s.taken q 0x32).setCtx (f.fld 16 2)
      { s.ctx (f.fld 16 2) with nalTotal := f.fld 18 4, eos := (s.ctx (f.fld 16 2)).eos || f.fld 26 1 == 1 }).answer f 0 0 0) := by
  show execStreamFeed q s = _
  rw [execStreamFeed, ctxCommand_acts awaits _ form (if_neg (Nat.not_lt.2 eos)) part own]
  have isLive : ((s.ctx (f.fld 16 2)).state == .closed) = false := beq_eq_false_iff_ne.2 live
  simp only [State.taken_ctx, decode, hostFed, isLive, decide_eq_false (Nat.not_lt.2 fits), decide_eq_false (Nat.not_lt.2 grows), Bool.not_true,
    Bool.not_false, Bool.true_and, Bool.false_and, Bool.and_false, Bool.or_false, lowest_cons_false]
  rfl

end

/-! ## A closing context reaches CLOSED (R312, R336) -/

/-- The completions of the STREAM_CLOSE commands that wait. -/
theorem foldl_due (l : List (Nat × Nat × Nat)) (s : State) :
    l.foldl (fun s k => s.due { fn := k.1, cid := k.2.2, sq := k.2.1, cq := (s.sq k.2.1).bind }) s =
      { s with host := { s.host with due := s.host.due ++ l.map (fun k => { fn := k.1, cid := k.2.2, sq := k.2.1, cq := (s.sq k.2.1).bind }) } } := by
  induction l generalizing s with
  | nil => simp
  | cons k l ih =>
    rw [List.foldl_cons, ih]
    simp [State.due, State.sq]

/-- The context once it is CLOSED. -/
def Ctx.closed (x : Ctx) : Ctx :=
  { x with state := .closed, closeSrc := [], pendingNals := [], encNals := [], outWaiting := false, picOpen := false }

theorem exec_streamClosed {s : State} {c : Nat} (closing : (s.ctx c).state = .closing)
    (left : ¬ ((s.wheel (s.ctx c).cfg.wheel).active = true ∧ (s.wheel (s.ctx c).cfg.wheel).ctx = c))
    (done : (s.ctx c).closeMode = 1 ∨ (s.ctx c).picOpen = false ∧ (s.ctx c).encNals = []) : exec (.streamClosed c) s = .next
      ((s.ctx c).closeSrc.foldl (fun s k => s.due { fn := k.1, cid := k.2.2, sq := k.2.1, cq := (s.sq k.2.1).bind }) (s.setCtx c (s.ctx c).closed)) := by
  have runs : ((s.wheel (s.ctx c).cfg.wheel).active && (s.wheel (s.ctx c).cfg.wheel).ctx == c) = false := by
    simpa [and_comm] using left
  have ended : (s.ctx c).closeMode = 1 ∨ (!(s.ctx c).picOpen) = true := done.imp_right fun h => by rw [h.1]; rfl
  have posted : ((s.ctx c).closeMode == 0 && (s.ctx c).nalDue) = false := by
    rcases done with now | ⟨-, none⟩
    · rw [now]
      rfl
    · simp [Ctx.nalDue, none]
  refine if_pos ⟨closing, ?_, ended, ?_⟩
  · rw [runs]
    rfl
  · rw [posted]
    rfl

/-- Settles O49: each command's refusals, and what it leaves where it acts. -/
theorem streamCommands : Obligations.StreamCommands := by
  refine ⟨fun s q f p hp awaits => ?refused, fun s q f awaits => ?opens, fun s q f c hc part own live => ?acts, fun s c closing left done => ?closed,
    fun s c other => if_neg fun h => other h.1⟩
  case refused =>
    obtain ⟨early, k, run, valid, closed⟩ := exec_ctxCommand s q p hp
    rw [run]
    refine ⟨fun form => congrArg _ (ctxCommand_reserved awaits k form),
      fun form mode eos other => congrArg _ (ctxCommand_notOwned awaits k form (valid f mode eos) other), fun form mode eos part own shut => congrArg _ ?_⟩
    rw [ctxCommand_acts awaits k form (valid f mode eos) part own]
    exact closed f _ _ _ (by rw [State.taken_ctx, shut])
  case opens =>
    refine ⟨fun form => exec_streamOpen_refused awaits (State.openCode_reserved form) (by decide),
      fun form line inDram good plain part own => ⟨fun busy => ?_, fun closed mask known fenced => ?_, fun closed mask known target unfenced alone => ?_⟩⟩
    · exact exec_streamOpen_refused awaits (State.openCode_busy rfl rfl form line inDram good plain part own busy) (by decide)
    · exact exec_streamOpen_refused awaits (State.openCode_fenced rfl rfl form line inDram good plain part own closed mask known fenced) (by decide)
    · have run := exec_streamOpen awaits
      rw [State.openCode_good rfl rfl form line inDram good plain part own closed mask known target unfenced alone, if_neg (by decide)] at run
      refine ⟨_, run, ?_, fun k hk => ?_, ?_, ?_⟩
      · rw [State.answer_ctx, State.setCtx_self]
        rfl
      · rw [State.answer_ctx, State.setCtx_of_ne _ hk, State.taken_ctx]
      · rw [State.answer_mem, State.setCtx_mem, State.taken_mem]
      · exact State.answer_due_of_host rfl f 0 0 0
  case acts =>
    subst hc
    have acted (op : Nat) (x : Ctx) : ((((s.taken q op).setCtx (f.fld 16 2) x).answer f 0 0 0).ctx (f.fld 16 2) = x) ∧
        (∀ k, k ≠ f.fld 16 2 → (((s.taken q op).setCtx (f.fld 16 2) x).answer f 0 0 0).ctx k = s.ctx k) ∧
        (((s.taken q op).setCtx (f.fld 16 2) x).answer f 0 0 0).host.due = ((s.taken q op).answer f 0 0 0).host.due :=
      ⟨State.setCtx_self .., fun k hk => by rw [State.answer_ctx, State.setCtx_of_ne _ hk, State.taken_ctx], State.answer_due_of_host rfl f 0 0 0⟩
    refine ⟨fun awaits form mode first => ⟨_, exec_streamClose part own live awaits form mode first, State.setCtx_self .., fun k hk => ?_, ?_, ?_⟩,
      fun awaits form eos encode => ?_,
      fun awaits form eos decode hostFed fits grows => ⟨_, exec_streamFeed_decode part own live awaits form eos decode hostFed fits grows, acted ..⟩,
      fun awaits form encode => ⟨_, exec_streamKey part own live awaits form encode, acted ..⟩,
      fun awaits form cls => ⟨_, exec_streamClass part own live awaits form cls, acted ..⟩⟩
    · rw [State.setCtx_of_ne _ hk, State.taken_ctx]
    · rw [State.setCtx_host, State.taken_due]
    · rw [State.setCtx_mem, State.taken_mem]
    · obtain ⟨taken, refused⟩ := exec_streamFeed_encode part own live awaits form eos encode
      exact ⟨fun back => ⟨_, taken back, acted ..⟩, refused⟩
  case closed =>
    refine ⟨_, exec_streamClosed closing left done, ?_, ?_, fun k hk => ?_, ?_⟩ <;> rw [foldl_due]
    · exact congrArg Ctx.state (s.setCtx_self c _)
    · rfl
    · exact s.setCtx_of_ne hk _
    · rfl

end Sys2Proof.Machine
end

section
/-! PROOF.  Writes of the agents on the vaults (R183, R193, R210).  A line serves such an agent when its home answers, its owner is there, and a good copy shields what poison
its home holds (`State.Serves`); traffic and stores leave a line serving, and a store to a range of such lines writes all of its bytes (`State.store_of_serves`). -/
namespace Sys2Proof.Machine
open Sys2Proof

/-! ## Where addresses lie (R39, R210) -/

/-- `t` has the ports, the dies and the address map of `s`. -/
structure SameMap (s t : State) : Prop where
  links : t.links = s.links
  chans : t.faults.fenceChans = s.faults.fenceChans
  ecc : t.mem.ecc = s.mem.ecc

namespace SameMap

variable {s t : State} (h : SameMap s t)
include h

theorem die : t.die = s.die := by
  funext d
  rw [State.die, h.links, State.die]

theorem channels : t.channels = s.channels := by rw [State.channels, h.chans, State.channels]

theorem dramTop : t.dramTop = s.dramTop := by rw [State.dramTop, h.ecc, h.channels, State.dramTop]

theorem region : t.region = s.region := by
  funext a
  rw [State.region, h.dramTop, State.region]

theorem channelOf : t.channelOf = s.channelOf := by
  funext a
  rw [State.channelOf, State.workingChannel, h.chans, h.channels, State.channelOf, State.workingChannel]

theorem home : t.home = s.home := by
  funext a
  rw [State.home, h.region, h.channelOf, State.home]

theorem directory : t.directory = s.directory := by
  funext hm
  cases hm with
  | vault v c => exact h.ecc
  | hearth k t => rfl

theorem hearthUp : t.hearthUp = s.hearthUp := by
  funext hm k
  rw [State.hearthUp, h.die, State.reach_of_links h.links, State.hearthUp]

theorem lost : t.lost = s.lost := by
  funext d a
  rw [State.lost, h.region, h.channelOf, h.die, State.reach_of_links h.links, State.lost]

end SameMap

theorem State.channelOf_lt (s : State) (a : Nat) : s.channelOf a < 48 := by
  unfold State.channelOf State.workingChannel
  cases found : ((List.range 48).filter (fun c => !s.faults.fenceChans.getLsbD c))[a / 4096 % max 1 s.channels]? with
  | none => exact Nat.zero_lt_succ _
  | some c => exact List.mem_range.1 (List.mem_filter.1 (List.mem_of_getElem? found)).1

theorem State.dramTop_pages (s : State) : ∃ n, s.dramTop = n * 4096 := by
  unfold State.dramTop
  split
  · exact ⟨s.channels * 0x3E0000, by omega⟩
  · exact ⟨s.channels * 0x400000, by omega⟩

/-- What lies at an address lies on all of its page. -/
theorem State.region_of_page (s : State) {a b : Nat} (page : a / 4096 = b / 4096) : s.region a = s.region b := by
  obtain ⟨n, top⟩ := s.dramTop_pages
  have dram : a < s.dramTop ↔ b < s.dramTop := by omega
  have store : (0xD000000000 ≤ a ∧ a < 0xD020000000) ↔ (0xD000000000 ≤ b ∧ b < 0xD020000000) := by omega
  have number : (a - 0xD000000000) / 0x1000000 = (b - 0xD000000000) / 0x1000000 := by omega
  have context : (0xD00000 ≤ a % 0x1000000) ↔ (0xD00000 ≤ b % 0x1000000) := by omega
  have registers : (0xF000000000 ≤ a ∧ a < 0xF0B0000000) ↔ (0xF000000000 ≤ b ∧ b < 0xF0B0000000) := by omega
  have host : (hostWindow ≤ a ∧ a < 2 ^ 48) ↔ (hostWindow ≤ b ∧ b < 2 ^ 48) := by
    unfold hostWindow
    omega
  simp only [State.region, dram, store, number, context, registers, host]

theorem State.lost_of_page (s : State) (d : Nat) {a b : Nat} (page : a / 4096 = b / 4096) : s.lost d a = s.lost d b := by
  unfold State.lost
  rw [s.region_of_page page, State.channelOf, page, ← State.channelOf]

/-- A store's die is one of the hearths'. -/
theorem State.region_store_lt {s : State} {a t : Nat} {context : Bool} (store : s.region a = .store t context) : t < 32 := by
  unfold State.region at store
  split at store
  · cases store
  · split at store
    · cases store
      omega
    · split at store
      · cases store
      · split at store <;> cases store

/-- Where all hearths and vaults are ready and have routes, every address is answered. -/
theorem State.lost_of_allUp {s : State} {d : Nat} (up : ∀ i < 6, s.die (4 + i) = .ready ∧ s.reach d (4 + i) = true) (a : Nat) : s.lost d a = false := by
  have answers {v : Nat} (low : 4 ≤ v) (high : v < 10) : (s.die v != .ready || !s.reach d v) = false := by
    obtain ⟨ready, route⟩ := up (v - 4) (by omega)
    rw [Nat.add_sub_cancel' low] at ready route
    simp [ready, route]
  unfold State.lost
  split
  · have := s.channelOf_lt a
    exact answers (by omega) (by omega)
  next store =>
    have := State.region_store_lt store
    exact answers (by omega) (by omega)
  · exact answers (by omega) (by omega)
  · rfl

/-- A range that meets no page without an answer is answered on every page that it touches. -/
theorem State.lost_of_meetsLost {s : State} {d a n x : Nat} (answered : s.meetsLost d a n = false) (first : a / 4096 ≤ x / 4096)
    (last : x < a + n) : s.lost d x = false := by
  rw [State.meetsLost, Bool.and_eq_false_iff, List.any_eq_false, List.any_eq_false] at answered
  rcases answered with up | pages
  · refine State.lost_of_allUp (fun i hi => ?_) x
    simpa using up i (List.mem_range.2 hi)
  · have page := pages (x / 4096 - a / 4096) (List.mem_range.2 (by omega))
    rw [← s.lost_of_page d (a := x) (by omega)] at page
    simpa using page

theorem State.die_of_lost {s : State} {d a : Nat} {hm : Home} (near : s.lost d a = false) (home : s.home a = some hm) : s.die hm.die = .ready := by
  unfold State.home at home
  unfold State.lost at near
  split at home
  next dram =>
    cases home
    simp only [dram, Bool.or_eq_false_iff, bne_eq_false_iff_eq] at near
    exact near.1
  next store =>
    cases home
    simp only [store, Bool.or_eq_false_iff, bne_eq_false_iff_eq] at near
    exact near.1
  · cases home

/-! ## Lines that serve an agent at its home -/

/-- Line `L` serves requests from die `d` at its home: the home answers; in directory mode the owner that is recorded holds the line; and where the home holds it poisoned, a
good copy will be given back first (R183, R193, R209, R210). -/
structure State.Serves (s : State) (d L : Nat) : Prop where
  near : s.lost d (L * 64) = false
  owner : ∀ hm, s.home (L * 64) = some hm → s.directory hm = true → s.ownerGone L = false
  good : s.mem.poisoned L = true → s.goodOwner L = true

/-- A range that a read on a vault finds without poison is made of lines that serve. -/
theorem State.serves_of_clean {s : State} {v a n L : Nat} (owners : s.OwnersHold) (clean : s.meetsPoison (.vault v) a n = false)
    (inside : lineIn a n L = true) : s.Serves (8 + v) L := by
  have bounds := inside
  simp only [lineIn, Bool.and_eq_true, decide_eq_true_eq] at bounds
  obtain ⟨⟨room, first⟩, last⟩ := bounds
  simp only [State.meetsPoison, State.copyFor, State.cacheOf, Agent.die, room, decide_true, Option.isNone_none, Bool.true_and, Bool.and_true, Bool.or_false,
    Bool.or_eq_false_iff] at clean
  obtain ⟨⟨poison, -⟩, gone⟩ := clean
  refine ⟨?_, fun _ _ _ => owners L, fun poisoned => ?_⟩
  · cases met : s.meetsLost (8 + v) a n with
    | false => exact State.lost_of_meetsLost met (by omega) (by omega)
    | true =>
      rw [met, Bool.true_and, List.any_eq_false] at gone
      have line : L ∈ linesOf a n := List.mem_map.2 ⟨L - a / 64, List.mem_range.2 (by omega), by omega⟩
      simpa using gone L line
  · rcases sget_mem false s.mem.poison L with none | entry
    · exact absurd (none.symm.trans poisoned) (by decide)
    · rw [List.any_eq_false] at poison
      simpa [inside] using poison _ entry

/-! ## What leaves a line alone -/

/-- `t` is `s` as far as line `L` goes: the same map, directory state and copies, and no poison that was not there. -/
structure SameLine (L : Nat) (s t : State) : Prop where
  map : SameMap s t
  poison : t.mem.poisoned L = true → s.mem.poisoned L = true
  dir : t.dirOf L = s.dirOf L
  copies : ∀ k, (t.hearth k).line L = (s.hearth k).line L

namespace SameLine

variable {L : Nat} {s t : State}

theorem refl (L : Nat) (s : State) : SameLine L s s := ⟨⟨rfl, rfl, rfl⟩, id, rfl, fun _ => rfl⟩

theorem trans {u : State} (h : SameLine L s t) (g : SameLine L t u) : SameLine L s u where
  map := ⟨g.map.links.trans h.map.links, g.map.chans.trans h.map.chans, g.map.ecc.trans h.map.ecc⟩
  poison := h.poison ∘ g.poison
  dir := g.dir.trans h.dir
  copies k := (g.copies k).trans (h.copies k)

theorem of_mem (links : t.links = s.links) (chans : t.faults.fenceChans = s.faults.fenceChans) (mem : t.mem = s.mem) : SameLine L s t where
  map := ⟨links, chans, by rw [mem]⟩
  poison := by rw [mem]; exact id
  dir := by rw [State.dirOf, mem, State.dirOf]
  copies k := by rw [State.hearth, mem, State.hearth]

theorem answered (h : SameLine L s t) (hm : Home) (k : Nat) : t.answered hm L k = s.answered hm L k := by
  rw [State.answered_eq, State.answered_eq, h.map.hearthUp, h.copies]

theorem goodOwner (h : SameLine L s t) : t.goodOwner L = s.goodOwner L := by
  simp only [State.goodOwner, h.map.home, h.answered]

theorem ownerGone (h : SameLine L s t) : t.ownerGone L = s.ownerGone L := by
  simp only [State.ownerGone, h.map.home, h.dir, h.answered]

theorem serves (h : SameLine L s t) {d : Nat} (serves : s.Serves d L) : t.Serves d L where
  near := by rw [h.map.lost]; exact serves.near
  owner hm home mode := by
    rw [h.map.home] at home
    rw [h.map.directory] at mode
    rw [h.ownerGone]
    exact serves.owner hm home mode
  good poisoned := by
    rw [h.goodOwner]
    exact serves.good (h.poison poisoned)

end SameLine

/-- Coherence traffic moves no address. -/
theorem Coh.sameMap {s t : State} (h : Coh s t) : SameMap s t := ⟨by rw [h.rest], by rw [h.rest], by rw [h.mem]⟩

section
variable {L l : Nat} (other : L ≠ l) (s : State)

theorem State.raise_sameLine (L : Nat) (s : State) (f : FaultReq) : SameLine L s (s.raise f) := .of_mem rfl rfl rfl

theorem State.dirRead_sameLine (L : Nat) (s : State) (l : Nat) (hm : Home) : SameLine L s (s.dirRead l hm).2 := by
  unfold State.dirRead
  dsimp only
  split
  · exact .refl L s
  · exact s.raise_sameLine L _

include other

theorem State.setDir_sameLine (d : Nat) : SameLine L s (s.setDir l d) where
  map := ⟨rfl, rfl, rfl⟩
  poison := id
  dir := by rw [State.setDir_dirOf, if_neg other]
  copies _ := rfl

theorem State.lostOwner_sameLine (o : Nat) : SameLine L s (s.lostOwner l o) where
  map := ((Coh.refl s).lostOwner l o).sameMap
  poison poisoned := by
    have marked : (s.lostOwner l o).mem.poisoned L = (s.mem.setPoison l true).poisoned L := by
      unfold State.lostOwner State.poisonLine
      dsimp only
      split <;> rfl
    rw [marked, MemState.poisoned_setPoison, if_neg other] at poisoned
    exact poisoned
  dir := by
    unfold State.lostOwner State.poisonLine
    dsimp only
    split <;> rfl
  copies k := by rw [State.lostOwner_hearth]

theorem State.dropCopy_sameLine (k : Nat) : SameLine L s (s.dropCopy k l) where
  map := ((Coh.refl s).dropCopy k l).sameMap
  poison := State.dropCopy_poisoned
  dir := s.dropCopy_dirOf_of_ne k l other
  copies j := by
    by_cases same : j = k
    · rw [same, s.dropCopy_line, if_neg other]
    · rw [s.dropCopy_hearth_of_ne k l same]

theorem State.invalidateOthers_sameLine (hm : Home) (h : Nat) : SameLine L s (s.invalidateOthers hm l h) := by
  rw [State.invalidateOthers_eq]
  generalize List.range 4 = ks
  induction ks generalizing s with
  | nil => exact .refl L s
  | cons k ks ih =>
    refine SameLine.trans ?_ (ih _)
    unfold State.invalidate
    split
    · exact .refl L s
    · exact s.dropCopy_sameLine other k

/-- A write to another line at its home. -/
theorem homeSide_sameLine : SameLine L s (homeSide s l true) := by
  unfold homeSide
  split
  · exact .refl L s
  next hm _ =>
    split
    · exact .refl L s
    · simp only [if_true]
      split
      · refine (((s.dirRead_sameLine L l hm).trans ?_).trans (State.invalidateOthers_sameLine other _ hm 4)).trans (State.setDir_sameLine other _ 0)
        split
        · exact State.lostOwner_sameLine other _ _
        · exact .refl L _
      · exact s.invalidateOthers_sameLine other hm 4

end

/-! ## A write to the line at its home -/

/-- A loop keeps what every round keeps, and holds what one of its rounds brings about. -/
theorem foldl_reaches {α β : Type} {f : β → α → β} {P Q : β → Prop} {a : α} (keeps : ∀ b x, P b → P (f b x)) (turn : ∀ b, P b → Q (f b a))
    (stays : ∀ b x, Q b → Q (f b x)) {l : List α} (mem : a ∈ l) {b : β} (h : P b) : Q (l.foldl f b) := by
  obtain ⟨before, after, rfl⟩ := List.append_of_mem mem
  rw [List.foldl_append, List.foldl_cons]
  exact List.foldlRecOn after f (turn _ (List.foldlRecOn before f h fun b h x _ => keeps b x h)) fun b h x _ => stays b x h

/-- A good copy that is dropped takes the poison from its home (R183). -/
theorem State.dropCopy_clears {s : State} {k L : Nat} {c : RcLine} (held : (s.hearth k).line L = some c) (dirty : c.dirty = true) (good : c.poisoned = false) :
    (s.dropCopy k L).mem.poisoned L = false := by
  simp [State.dropCopy, held, dirty, State.wroteBack, good, MemState.poisoned_setPoison]

theorem State.invalidate_hearth_of_ne (s : State) {j k : Nat} (hm : Home) (l h : Nat) (hk : k ≠ j) : (s.invalidate hm l h j).hearth k = s.hearth k := by
  unfold State.invalidate
  split
  · rfl
  · exact s.dropCopy_hearth_of_ne j l hk

/-- An invalidation leaves no poison that a good copy has shielded. -/
theorem State.invalidateOthers_clears {s : State} {L : Nat} {hm : Home} (home : s.home (L * 64) = some hm) (good : s.mem.poisoned L = true → s.goodOwner L = true) :
    (s.invalidateOthers hm L 4).mem.poisoned L = false := by
  have stays (u : State) (k : Nat) (clean : u.mem.poisoned L = false) : (u.invalidate hm L 4 k).mem.poisoned L = false := by
    unfold State.invalidate
    split
    · exact clean
    · exact Bool.eq_false_iff.2 fun poisoned => Bool.eq_false_iff.1 clean (State.dropCopy_poisoned poisoned)
  rw [State.invalidateOthers_eq]
  cases poisoned : s.mem.poisoned L with
  | false => exact foldl_reaches stays (fun u clean => stays u 0 clean) stays (List.mem_range.2 (by decide)) poisoned
  | true =>
    have shielded := good poisoned
    simp only [State.goodOwner, home, List.any_eq_true] at shielded
    obtain ⟨k, turn, copy⟩ := shielded
    cases held : s.answered hm L k with
    | none => simp [held] at copy
    | some c =>
      simp only [held, Bool.and_eq_true, Bool.not_eq_true'] at copy
      have drops (u : State) (held : u.answered hm L k = some c) : (u.invalidate hm L 4 k).mem.poisoned L = false := by
        have lt := List.mem_range.1 turn
        rw [State.invalidate, held, if_neg (by simp; omega)]
        exact State.dropCopy_clears (answered_held held) copy.1 copy.2
      refine foldl_reaches (P := fun u : State => u.answered hm L k = some c ∨ u.mem.poisoned L = false) (fun u j h => ?_) (fun u h => ?_) stays turn (.inl held)
      · rcases h with held | clean
        · by_cases same : j = k
          · exact .inr (same ▸ drops u held)
          · refine .inl ?_
            rw [State.answered_eq, (u.invalidate_sheds hm L 4 j).coh.hearthUp, u.invalidate_hearth_of_ne hm L 4 (Ne.symm same), ← State.answered_eq, held]
        · exact .inr (stays u j clean)
      · exact h.elim (drops u) (stays u k)

/-- An owner that holds the line is found to hold it. -/
theorem State.ownerSought_of_held {s : State} {L : Nat} {hm : Home} (home : s.home (L * 64) = some hm) (holds : s.ownerGone L = false) :
    s.ownerSought hm L = (s.dirRead L hm).2 := by
  simp only [State.ownerGone, home] at holds
  refine if_neg fun ⟨isOwned, absent⟩ => ?_
  unfold State.dirRead at isOwned absent
  dsimp only at isOwned absent
  split at isOwned
  next valid =>
    rw [if_pos valid] at absent
    rw [isOwned, absent] at holds
    cases holds
  · cases isOwned

/-- A write at the home of a line that serves leaves it serving and without poison. -/
theorem State.Serves.homeSide_self {s : State} {d L : Nat} (h : s.Serves d L) : (homeSide s L true).Serves d L ∧ (homeSide s L true).mem.poisoned L = false := by
  have map := ((Coh.refl s).homeSide L true).sameMap
  have near : (homeSide s L true).lost d (L * 64) = false := by rw [map.lost]; exact h.near
  cases home : s.home (L * 64) with
  | none =>
    have clean : s.mem.poisoned L = false := by
      refine Bool.eq_false_iff.2 fun poisoned => ?_
      simpa [State.goodOwner, home] using h.good poisoned
    have same : homeSide s L true = s := by simp only [homeSide, home]
    rw [same]
    exact ⟨h, clean⟩
  | some hm =>
    have ready := State.die_of_lost h.near home
    cases mode : s.directory hm with
    | true =>
      have asked : s.ownerSought hm L = (s.dirRead L hm).2 := State.ownerSought_of_held home (h.owner hm home mode)
      have read := s.dirRead_sameLine L L hm
      have clean : (homeSide s L true).mem.poisoned L = false := by
        rw [homeSide_write_of_directory home mode ready, State.setDir_poisoned, asked]
        refine State.invalidateOthers_clears (by rw [read.map.home, home]) fun poisoned => ?_
        rw [read.goodOwner]
        exact h.good (read.poison poisoned)
      refine ⟨⟨near, fun _ _ _ => ?_, fun poisoned => absurd poisoned (by rw [clean]; decide)⟩, clean⟩
      rw [homeSide_write_of_directory home mode ready, State.ownerGone, State.setDir_dirOf, if_pos rfl]
      rfl
    | false =>
      have clean : (homeSide s L true).mem.poisoned L = false := by
        have run : homeSide s L true = s.invalidateOthers hm L 4 := by
          simp only [homeSide, home, ready, mode, bne_self_eq_false, Bool.false_eq_true, if_false, if_true]
        rw [run]
        exact State.invalidateOthers_clears home h.good
      refine ⟨⟨near, fun k home' mode' => ?_, fun poisoned => absurd poisoned (by rw [clean]; decide)⟩, clean⟩
      rw [map.home, home] at home'
      cases home'
      rw [map.directory, mode] at mode'
      cases mode'

theorem State.Serves.homeSide {s : State} {d L : Nat} (h : s.Serves d L) (l : Nat) : (homeSide s l true).Serves d L ∧
    (s.mem.poisoned L = false → (Sys2Proof.Machine.homeSide s l true).mem.poisoned L = false) := by
  by_cases same : L = l
  · subst same
    exact ⟨h.homeSide_self.1, fun _ => h.homeSide_self.2⟩
  · have apart := homeSide_sameLine same s
    exact ⟨apart.serves h, fun clean => Bool.eq_false_iff.2 fun poisoned => Bool.eq_false_iff.1 clean (apart.poison poisoned)⟩

/-- A line that no hearth may hold has no copy to shield it. -/
theorem State.listed_of_goodOwner {s : State} {a n L : Nat} (inside : lineIn a n L = true) (good : s.goodOwner L = true) : L ∈ s.listed a n := by
  unfold State.goodOwner at good
  split at good
  next hm _ =>
    obtain ⟨k, turn, copy⟩ := List.any_eq_true.1 good
    cases held : s.answered hm L k with
    | none => simp [held] at copy
    | some c =>
      have entry : (L, some c) ∈ (s.hearth k).rc := by
        have line := answered_held held
        rcases sget_mem none (s.hearth k).rc L with none | entry
        · exact absurd (none.symm.trans line) (by simp)
        · rwa [show sget none (s.hearth k).rc L = some c from line] at entry
      refine List.mem_dedup.2 (List.mem_filter.2 ⟨List.mem_append_right _ (List.mem_flatMap.2 ⟨k, turn, List.mem_map.2 ⟨_, entry, rfl⟩⟩), inside⟩)
  · cases good

/-- What a vault's agent does to the caches before it writes leaves a line serving, and without poison where it lies in the range. -/
theorem State.Serves.claim {s : State} {d L : Nat} (h : s.Serves d L) (v a n : Nat) : (s.claim (.vault v) a n).Serves d L ∧
    (lineIn a n L = true → (s.claim (.vault v) a n).mem.poisoned L = false) := by
  have run : s.claim (.vault v) a n = (s.listed a n).foldl (fun s l => Sys2Proof.Machine.homeSide s l true) s := rfl
  have stays (u : State) (l : Nat) (h : u.Serves d L ∧ u.mem.poisoned L = false) := And.intro (h.1.homeSide l).1 ((h.1.homeSide l).2 h.2)
  rw [run]
  refine ⟨List.foldlRecOn (motive := fun u : State => u.Serves d L) _ _ h fun u h l _ => (h.homeSide l).1, fun inside => ?_⟩
  by_cases member : L ∈ s.listed a n
  · exact (foldl_reaches (P := fun u : State => u.Serves d L) (fun u l h => (h.homeSide l).1) (fun u h => h.homeSide_self) stays member h).2
  · have clean : s.mem.poisoned L = false := Bool.eq_false_iff.2 fun poisoned => member (State.listed_of_goodOwner inside (h.good poisoned))
    exact (List.foldlRecOn (motive := fun u : State => u.Serves d L ∧ u.mem.poisoned L = false) _ _ ⟨h, clean⟩ fun u h l _ => stays u l h).2

/-! ## Stores (R183, R210) -/

theorem MemState.writeBytes_frame (m : MemState) (a : Nat) (bs : List Byte) :
    m.writeBytes a bs = { m with bytes := (m.writeBytes a bs).bytes, junk := (m.writeBytes a bs).junk } := by
  induction bs generalizing m a with
  | nil => rfl
  | cons b bs ih =>
    rw [MemState.writeBytes, ih]
    rfl

section
variable (skip held : Nat → Bool)

/-- A store moves bytes, and clears poison where it covers a line. -/
theorem MemState.store_frame (fuel : Nat) (m : MemState) (a : Nat) (bs : List Byte) : ∃ bytes junk poison,
    (MemState.store skip held fuel m a bs).1 = { m with bytes := bytes, junk := junk, poison := poison } ∧
    ∀ L, sget false poison L = true → m.poisoned L = true := by
  induction fuel generalizing m a bs with
  | zero => exact ⟨_, _, _, rfl, fun L h => h⟩
  | succ fuel ih =>
    cases bs with
    | nil => exact ⟨_, _, _, rfl, fun L h => h⟩
    | cons b bs =>
      unfold MemState.store
      extract_lets k chunk line met m' r
      have first : ∃ bytes junk poison, m' = { m with bytes := bytes, junk := junk, poison := poison } ∧ ∀ L, sget false poison L = true → m.poisoned L = true := by
        unfold m'
        have written := m.writeBytes_frame a chunk
        split
        · exact ⟨_, _, _, rfl, fun L h => h⟩
        · split
          · refine ⟨(m.writeBytes a chunk).bytes, (m.writeBytes a chunk).junk, sset false m.poison line false, ?_, fun L h => ?_⟩
            · rw [MemState.setPoison, written]
            · rw [sget_sset] at h
              split at h
              · cases h
              · exact h
          · exact ⟨_, _, _, written, fun L h => h⟩
      obtain ⟨bytes, junk, poison, first, less⟩ := first
      obtain ⟨bytes', junk', poison', rest, less'⟩ := ih m' (a + k) (List.drop k (b :: bs))
      refine ⟨bytes', junk', poison', ?_, fun L h => ?_⟩
      · show r.1 = _
        rw [show r.1 = _ from rest, first]
      · have := less' L h
        rw [first] at this
        exact less L this
end

/-- `t` is `s` after accesses to memory: of memory the bytes, the poison, the directory, the caches and the counts of the vaults have moved, and faults may have been
raised. -/
structure Stored (s t : State) : Prop where
  rest : t = { s with mem := t.mem, faults := { s.faults with raised := t.faults.raised } }
  mem : t.mem = { s.mem with bytes := t.mem.bytes, junk := t.mem.junk, poison := t.mem.poison, dir := t.mem.dir, exports := t.mem.exports,
                             hearths := t.mem.hearths, vaults := t.mem.vaults }

namespace Stored

theorem trans {s t u : State} (h : Stored s t) (g : Stored t u) : Stored s u where
  rest := by
    have hr := h.rest
    rw [hr] at g
    simpa using g.rest
  mem := by
    have hm := h.mem
    have gm := g.mem
    rw [hm] at gm
    simpa using gm

variable {s t : State} (h : Stored s t)
include h

theorem frame : ∃ mem faults, t = { s with mem := mem, faults := faults } := ⟨_, _, h.rest⟩
theorem sameMap : SameMap s t := ⟨by rw [h.rest], by rw [h.rest], by rw [h.mem]⟩
theorem wheels : t.wheels = s.wheels := by rw [h.rest]
theorem mould : t.mould = s.mould := by rw [h.rest]
theorem host : t.host = s.host := by rw [h.rest]
theorem signals : t.mem.signals = s.mem.signals := by rw [h.mem]

theorem ctx (c : Nat) : t.ctx c = s.ctx c := by rw [State.ctx, h.wheels, State.ctx]
theorem ctxPart (c : Nat) : t.ctxPart c = s.ctxPart c := by rw [h.rest]; rfl

theorem bound (p a n : Nat) : t.bound p a n = s.bound p a n := by
  have dram : t.inDram p a n = s.inDram p a n := by
    rw [State.inDram, h.sameMap.dramTop]
    unfold State.unitPart State.findPart
    rw [h.mould]
    rfl
  have stores : t.inStores p a n = s.inStores p a n := by rw [h.rest]; rfl
  have hosts : (t.inHost p a n && !t.funcQuiet (t.partFunc p)) = (s.inHost p a n && !s.funcQuiet (s.partFunc p)) := by rw [h.rest]; rfl
  simp only [State.bound, h.sameMap.region, h.sameMap.dramTop, dram, stores, hosts]

end Stored

theorem Coh.stored {s t : State} (h : Coh s t) : Stored s t := ⟨h.rest, by rw [h.mem]⟩

theorem State.store_stored (s : State) (g : Agent) (a : Nat) (bs : List Byte) : Stored s (s.store g a bs).1 := by
  refine ((Coh.refl s).claim g a bs.length).stored.trans ?_
  obtain ⟨bytes, junk, poison, run, -⟩ := MemState.store_frame (fun l => (s.claim g a bs.length).meetsLost g.die a bs.length && (s.claim g a bs.length).lost g.die (l * 64))
    ((s.claim g a bs.length).seesPoison g) (bs.length / 64 + 2) (s.claim g a bs.length).mem a bs
  refine ⟨rfl, ?_⟩
  show (MemState.store _ _ _ _ a bs).1 = _
  rw [show (s.store g a bs).1.mem = _ from run, run]

/-- A store on a vault leaves every line serving. -/
theorem State.Serves.store {s : State} {d L : Nat} (h : s.Serves d L) (v a : Nat) (bs : List Byte) : (s.store (.vault v) a bs).1.Serves d L := by
  refine SameLine.serves ?_ (h.claim v a bs.length).1
  obtain ⟨bytes, junk, poison, run, less⟩ := MemState.store_frame
    (fun l => (s.claim (.vault v) a bs.length).meetsLost (8 + v) a bs.length && (s.claim (.vault v) a bs.length).lost (8 + v) (l * 64))
    ((s.claim (.vault v) a bs.length).seesPoison (.vault v)) (bs.length / 64 + 2) (s.claim (.vault v) a bs.length).mem a bs
  have mem : (s.store (.vault v) a bs).1.mem = _ := run
  exact ⟨⟨rfl, rfl, by rw [mem]⟩, fun poisoned => less L (by rwa [mem] at poisoned), by rw [State.dirOf, mem]; rfl, fun k => by rw [State.hearth, mem]; rfl⟩

/-- A store on a vault to a range of lines that serve writes all of its bytes, and no others. -/
theorem State.store_of_serves {s : State} {v a : Nat} {bs : List Byte} (serves : ∀ L, lineIn a bs.length L = true → s.Serves (8 + v) L) :
    (s.store (.vault v) a bs).2 = false ∧
    ∀ x, (s.store (.vault v) a bs).1.readByte x = if a ≤ x ∧ x < a + bs.length then bs.getD (x - a) 0 else s.readByte x := by
  have coh := (Coh.refl s).claim (.vault v) a bs.length
  rcases Nat.eq_zero_or_pos bs.length with none | some
  · obtain rfl := List.eq_nil_of_length_eq_zero none
    refine ⟨rfl, fun x => ?_⟩
    rw [if_neg (by simp only [List.length_nil]; omega), ← coh.readByte x]
    rfl
  have clean (L : Nat) (first : a / 64 ≤ L) (last : L * 64 < a + bs.length) : (s.claim (.vault v) a bs.length).seesPoison (.vault v) L = false ∧
      ((s.claim (.vault v) a bs.length).meetsLost (8 + v) a bs.length && (s.claim (.vault v) a bs.length).lost (8 + v) (L * 64)) = false := by
    have inside : lineIn a bs.length L = true := by
      simp only [lineIn, Bool.and_eq_true, decide_eq_true_eq]
      omega
    have claimed := (serves L inside).claim v a bs.length
    exact ⟨claimed.2 inside, by rw [claimed.1.near, Bool.and_false]⟩
  have stored := fun x => MemState.store_clean _ _ (bs.length / 64 + 2) (s.claim (.vault v) a bs.length).mem a x bs (by omega) clean
  refine ⟨(stored 0).2, fun x => (stored x).1.trans ?_⟩
  rw [← coh.readByte x]
  rfl

end Sys2Proof.Machine
end

section
/-! PROOF.  Writes for a context (R41, R44, R336): one within bounds to lines that serve is the store itself, and a ring takes the bytes that fit in it, around its end. -/
namespace Sys2Proof.Machine
open Sys2Proof

/-- `t` is `s` after writes to memory, with every line that served serving still. -/
structure Writes (s t : State) : Prop where
  stored : Stored s t
  serves : ∀ d L, s.Serves d L → t.Serves d L

theorem Writes.trans {s t u : State} (h : Writes s t) (g : Writes t u) : Writes s u := ⟨h.stored.trans g.stored, fun d L serves => g.serves d L (h.serves d L serves)⟩

theorem State.store_writes (s : State) (v a : Nat) (bs : List Byte) : Writes s (s.store (.vault v) a bs).1 :=
  ⟨s.store_stored _ a bs, fun _ _ serves => serves.store v a bs⟩

theorem State.ctxStore_of_serves {s : State} {v c a : Nat} {bs : List Byte} (inBounds : s.bound (s.ctxPart c) a bs.length = .ok)
    (serves : ∀ L, lineIn a bs.length L = true → s.Serves (8 + v) L) (w : Nat) :
    s.ctxStore (.vault v) w c a bs = ((s.store (.vault v) a bs).1, false) := by
  have written := (State.store_of_serves serves).1
  simp only [State.ctxStore, inBounds, written, ne_eq, not_true_eq_false, Bool.not_false, if_false, if_true]
  exact Prod.ext rfl written

theorem lineIn_of_within {a n a' n' L : Nat} (first : a ≤ a') (last : a' + n' ≤ a + n) (inside : lineIn a' n' L = true) : lineIn a n L = true := by
  simp only [lineIn, Bool.and_eq_true, decide_eq_true_eq] at inside ⊢
  omega

/-- A ring takes bytes that it has room for, from a position on and around its end. -/
theorem State.putRing_writes {s : State} {v c base log2 : Nat} {bs : List Byte} (fits : bs.length ≤ 2 ^ log2)
    (inBounds : ∀ b n, base ≤ b → b + n ≤ base + 2 ^ log2 → s.bound (s.ctxPart c) b n = .ok)
    (serves : ∀ L, lineIn base (2 ^ log2) L = true → s.Serves (8 + v) L) (w ofs : Nat) :
    ∃ t, s.putRing (.vault v) w c base log2 ofs bs = (t, false) ∧ Writes s t ∧
      ∀ i < bs.length, t.readByte (base + (ofs + i) % 2 ^ log2) = bs.getD i 0 := by
  have room : 0 < 2 ^ log2 := Nat.two_pow_pos log2
  unfold State.putRing
  generalize 2 ^ log2 = size at *
  extract_lets o k r q
  have low : o < size := Nat.mod_lt _ room
  have left : k = size - o := rfl
  have place (i : Nat) (lt : i < size) : (ofs + i) % size = if size ≤ o + i then o + i - size else o + i := by
    rw [Nat.add_mod_eq_ite, Nat.mod_eq_of_lt lt]
  clear_value o k
  have take : (bs.take k).length = min k bs.length := List.length_take
  have drop : (bs.drop k).length = bs.length - k := List.length_drop
  have within (L : Nat) (inside : lineIn (base + o) (bs.take k).length L = true) := serves L (lineIn_of_within (by omega) (by omega) inside)
  have run : r = ((s.store (.vault v) (base + o) (bs.take k)).1, false) := State.ctxStore_of_serves (inBounds _ _ (by omega) (by omega)) within w
  have first := (State.store_of_serves within).2
  have writes := s.store_writes v (base + o) (bs.take k)
  split
  next short =>
    refine ⟨_, run, writes, fun i hi => ?_⟩
    rw [place i (by omega), if_neg (by omega), first, if_pos (by omega), List.take_of_length_le short]
    congr 1
    omega
  next long =>
    have within' (L : Nat) (inside : lineIn base (bs.drop k).length L = true) : r.1.Serves (8 + v) L := by
      rw [run]
      exact writes.serves _ L (serves L (lineIn_of_within (by omega) (by omega) inside))
    have bound' : r.1.bound (r.1.ctxPart c) base (bs.drop k).length = .ok := by
      rw [run, writes.stored.bound, writes.stored.ctxPart]
      exact inBounds _ _ (by omega) (by omega)
    have run' : q = ((r.1.store (.vault v) base (bs.drop k)).1, false) := State.ctxStore_of_serves bound' within' w
    have second := (State.store_of_serves within').2
    refine ⟨(r.1.store (.vault v) base (bs.drop k)).1, ?_, ?_, fun i hi => ?_⟩
    · rw [run', run]
      rfl
    · rw [run]
      exact writes.trans (State.store_writes ..)
    · rw [place i (by omega)]
      by_cases wraps : size ≤ o + i
      · rw [if_pos wraps, second, if_pos (by omega), List.getD_eq_getElem?_getD, List.getElem?_drop, ← List.getD_eq_getElem?_getD]
        congr 1
        omega
      · rw [if_neg wraps, second, if_neg (by omega), run, first, if_pos (by omega), List.getD_eq_getElem?_getD, List.getElem?_take_of_lt (by omega),
          ← List.getD_eq_getElem?_getD]
        congr 1
        omega

/-! ## Errors and events of a context (R336-R338) -/

theorem State.setCtxEvt_frame (s : State) (c : Nat) (b : BitVec 5) :
    s.setCtxEvt c b = { s.setCtx c { s.ctx c with evtBits := (s.ctx c).evtBits ||| b } with reg := (s.setCtxEvt c b).reg } :=
  State.occurIf_frame ..

theorem State.setCtxEvt_ctx (s : State) (c k : Nat) (b : BitVec 5) :
    (s.setCtxEvt c b).ctx k = if k = c then { s.ctx c with evtBits := (s.ctx c).evtBits ||| b } else s.ctx k := by
  rw [State.setCtxEvt_frame]
  exact s.setCtx_ctx c k _

/-- Event bits that are set on a condition. -/
theorem State.setCtxEvt_if (s : State) (c : Nat) (b : BitVec 5) (cond : Bool) : ∃ u, (if cond then s.setCtxEvt c b else s) = u ∧
    u.ctx c = { s.ctx c with evtBits := if cond then (s.ctx c).evtBits ||| b else (s.ctx c).evtBits } ∧ (∀ k, k ≠ c → u.ctx k = s.ctx k) ∧
    u = { s with wheels := u.wheels, reg := u.reg } := by
  refine ⟨_, rfl, ?_⟩
  cases cond with
  | false => exact ⟨rfl, fun _ _ => rfl, rfl⟩
  | true =>
    refine ⟨(s.setCtxEvt_ctx c c b).trans (if_pos rfl), fun k hk => (s.setCtxEvt_ctx c k b).trans (if_neg hk), ?_⟩
    rw [if_pos rfl, State.setCtxEvt_frame]
    rfl

/-- `t` has context `c` of `s` but for its event bits, and the signals on their way. -/
structure Marks (c : Nat) (s t : State) : Prop where
  ctx : t.ctx c = { s.ctx c with evtBits := (t.ctx c).evtBits }
  signals : t.mem.signals = s.mem.signals

theorem Marks.trans {c : Nat} {s t u : State} (h : Marks c s t) (g : Marks c t u) : Marks c s u where
  ctx := by
    have hc := h.ctx
    have gc := g.ctx
    rw [hc] at gc
    exact gc
  signals := g.signals.trans h.signals

theorem Marks.of_same {c : Nat} {s t : State} (wheels : t.wheels = s.wheels) (signals : t.mem.signals = s.mem.signals) : Marks c s t where
  ctx := by rw [State.ctx, wheels, State.ctx]
  signals := signals

theorem State.wheelErr_marks (s : State) (w c k kind : Nat) : Marks c s (s.wheelErr w k kind) := ⟨rfl, rfl⟩

theorem State.setCtxEvt_marks (s : State) (c : Nat) (b : BitVec 5) : Marks c s (s.setCtxEvt c b) where
  ctx := by rw [State.setCtxEvt_ctx, if_pos rfl]
  signals := by rw [State.setCtxEvt_frame]; rfl

theorem State.boundsFault_marks (s : State) (c p a : Nat) : Marks c s (s.boundsFault p a) := by
  unfold State.boundsFault
  split <;> exact .of_same rfl rfl

/-- Whatever a write for a context meets, of the context it leaves all but the event bits. -/
theorem State.ctxStore_marks (s : State) (g : Agent) (w c a : Nat) (bs : List Byte) : Marks c s (s.ctxStore g w c a bs).1 := by
  have stored := s.store_stored g a bs
  have written : Marks c s (s.store g a bs).1 := .of_same stored.wheels stored.signals
  unfold State.ctxStore
  extract_lets r
  split
  · exact ((s.wheelErr_marks w c c 1).trans (State.setCtxEvt_marks _ c 8)).trans (State.boundsFault_marks _ c _ a)
  · split
    · exact written
    · split
      · exact (written.trans (r.1.wheelErr_marks w c c 2)).trans (State.setCtxEvt_marks _ c 8)
      · exact written.trans (r.1.wheelErr_marks w c c 0)

end Sys2Proof.Machine
end

section
/-! PROOF.  O50, ingest (R315-R318, R383).  A frame is counted at its port, answered where it asks for a neighbour, and taken by the context that claims it
(`exec_frameReceive_good`); a gap that is lost, and a packet that is released, are one equation each. -/
namespace Sys2Proof.Machine
open Sys2Proof

/-! ## A frame at its port (R383) -/

/-- The port's counts of a frame. -/
def State.countFrame (s : State) (f : EthFrame) : State :=
  let e := sget {} s.host.eth f.port
  { s with host := { s.host with eth := sset {} s.host.eth f.port { e with
      corrected := satAdd (2 ^ 32 - 1) e.corrected f.corrected
      dropped := if !f.fecOk || !f.fcsOk then satAdd (2 ^ 32 - 1) e.dropped 1 else e.dropped } } }

theorem State.countFrame_eth (s : State) (f : EthFrame) : sget {} (s.countFrame f).host.eth f.port = { sget {} s.host.eth f.port with
    corrected := satAdd (2 ^ 32 - 1) (sget {} s.host.eth f.port).corrected f.corrected
    dropped := if !f.fecOk || !f.fcsOk then satAdd (2 ^ 32 - 1) (sget {} s.host.eth f.port).dropped 1 else (sget {} s.host.eth f.port).dropped } :=
  sget_sset_same ..

/-- The state that a sound frame's classification finds: the frame is counted, and a request for a neighbour is answered. -/
def State.heardFrame (s : State) (f : EthFrame) : State :=
  let t := s.countFrame f
  match t.neighbourReply f.port f.bytes with
  | some r => if (sget {} s.host.eth f.port).link then { t with host := { t.host with ethOut := t.host.ethOut ++ [(f.port, r)] } } else t
  | none => t

/-- A frame, or a packet, of context c is counted in DROPPED. -/
def State.discard (s : State) (c : Nat) : State := s.setCtx c { s.ctx c with dropped := cap16 ((s.ctx c).dropped + 1) }

/-- What becomes of a sound frame that the port has counted. -/
def State.takeFrame (s : State) (f : EthFrame) : State :=
  let h := parseFrame f.bytes
  match s.classify f.port h with
  | none => { s with wheels := { s.wheels with unmatched := satAdd (2 ^ 32 - 1) s.wheels.unmatched 1 } }
  | some c =>
    let x := s.ctx c
    let n := extSeq x.nextSeq h.seq
    let next := x.nextSeq.getD n
    if frameBad x.cfg h then s.discard c
    else if n < next ∨ x.packets.any (fun p => p.seq = n) then s.discard c
    else (s.setCtx c { x with nextSeq := some next }).jitStore c n h f.now

section
variable {s : State} {f : EthFrame} (port : f.port < 4) (up : s.dieReady 9 = true)
include port up

theorem exec_frameReceive_bad (bad : (!f.fecOk || !f.fcsOk) = true) :
    exec (.frameReceive f) s = .next (if f.fecOk then s.countFrame f else (s.countFrame f).raise { source := 303 }) := by
  show execFrameReceive f s = _
  have runs : ¬ (4 ≤ f.port ∨ (!s.dieReady 9) = true) := by simp [up, Nat.not_le.2 port]
  simp only [execFrameReceive, if_neg runs, bad, if_true]
  cases f.fecOk <;> simp [State.countFrame, bad]

theorem exec_frameReceive_good (fec : f.fecOk = true) (fcs : f.fcsOk = true) : exec (.frameReceive f) s = .next ((s.heardFrame f).takeFrame f) := by
  show execFrameReceive f s = _
  have runs : ¬ (4 ≤ f.port ∨ (!s.dieReady 9) = true) := by simp [up, Nat.not_le.2 port]
  have sound : ¬ (!f.fecOk || !f.fcsOk) = true := by simp [fec, fcs]
  rw [execFrameReceive, if_neg runs]
  extract_lets bad e e' host t u host' heard h wheels
  have u_eq : u = s.countFrame f := if_pos fec
  clear_value u
  subst u_eq
  have heard_eq : heard = s.heardFrame f := rfl
  rw [if_neg sound, State.takeFrame, ← heard_eq]
  cases heard.classify f.port h with
  | none => rfl
  | some c =>
    dsimp only
    simp only [apply_ite Host.Outcome.next]
    rfl

end

/-- Of the state a frame moves, at its port, the counts and the frames that go out; which ranges are within bounds stays. -/
theorem State.heardFrame_eq (s : State) (f : EthFrame) : ∃ host : HostState, s.heardFrame f = { s with host := host } ∧
    ∀ p a n, ({ s with host := host } : State).bound p a n = s.bound p a n := by
  unfold State.heardFrame
  dsimp only
  split
  · split <;> exact ⟨_, rfl, fun _ _ _ => rfl⟩
  · exact ⟨_, rfl, fun _ _ _ => rfl⟩

theorem State.heardFrame_replies {s : State} {f : EthFrame} {r : List Byte} (asked : s.neighbourReply f.port f.bytes = some r)
    (link : (sget {} s.host.eth f.port).link = true) : (s.heardFrame f).host.ethOut = s.host.ethOut ++ [(f.port, r)] := by
  have asked' : (s.countFrame f).neighbourReply f.port f.bytes = some r := asked
  unfold State.heardFrame
  simp only [asked', link, if_true]
  rfl

/-! ## A frame at its context (R315-R317) -/

theorem State.discard_ctx (s : State) (c : Nat) : (s.discard c).ctx c = { s.ctx c with dropped := cap16 ((s.ctx c).dropped + 1) } := s.setCtx_self c _

theorem State.takeFrame_unmatched {s : State} {f : EthFrame} (unclaimed : s.classify f.port (parseFrame f.bytes) = none) :
    s.takeFrame f = { s with wheels := { s.wheels with unmatched := satAdd (2 ^ 32 - 1) s.wheels.unmatched 1 } } := by
  simp only [State.takeFrame, unclaimed]

section
variable {s : State} {f : EthFrame} {c : Nat} (claimed : s.classify f.port (parseFrame f.bytes) = some c)
include claimed

theorem State.takeFrame_discards (bad : frameBad (s.ctx c).cfg (parseFrame f.bytes) = true) : s.takeFrame f = s.discard c := by
  simp only [State.takeFrame, claimed, bad, if_true]

theorem State.takeFrame_inOrder {n : Nat} (good : frameBad (s.ctx c).cfg (parseFrame f.bytes) = false) (empty : (s.ctx c).packets = [])
    (next : (s.ctx c).nextSeq = some n) (seq : n % 65536 = (parseFrame f.bytes).seq % 65536) :
    s.takeFrame f = (s.setCtx c (s.ctx c)).jitStore c n (parseFrame f.bytes) f.now := by
  have number : extSeq (s.ctx c).nextSeq (parseFrame f.bytes).seq = n := by
    have gap : ((parseFrame f.bytes).seq % 65536 + 65536 - n % 65536) % 65536 = 0 := by omega
    simp [extSeq, next, gap]
  have expected : (s.ctx c).nextSeq.getD n = n := by rw [next, Option.getD_some]
  have kept : { s.ctx c with nextSeq := some n } = s.ctx c := by rw [← next]
  have taken : ¬ (n < n ∨ ((s.ctx c).packets.any fun p => decide (p.seq = n)) = true) := by simp [empty]
  simp only [State.takeFrame, claimed, good, number, expected, if_neg taken, Bool.false_eq_true, if_false]
  exact congrArg (fun x => (s.setCtx c x).jitStore c n (parseFrame f.bytes) f.now) kept
end

/-- The next packet in order goes to the first line of an empty jitter buffer (R317). -/
theorem State.jitStore_first {s : State} {c n : Nat} {h : Parsed} {x : Ctx} (hx : s.ctx c = x) (empty : x.packets = []) (next : x.nextSeq = some n)
    (fits : Packet.room h.payload.length ≤ x.cfg.jitBytes)
    (inBounds : s.bound (s.ctxPart c) x.cfg.jitAddr h.payload.length = .ok)
    (serves : ∀ L, lineIn x.cfg.jitAddr h.payload.length L = true → s.Serves 9 L) (now : Nat) :
    s.jitStore c n h now = (s.store (.vault 1) x.cfg.jitAddr h.payload).1.setCtx c
      { x with packets := [{ seq := n, ts := h.ts, ofs := 0, len := h.payload.length }] } := by
  subst hx
  have place : (s.ctx c).jitPlace h.payload.length = some 0 := by
    simp [Ctx.jitPlace, empty, fits]
  have roomy : s.makeRoom c h.payload.length now ((s.ctx c).packets.length + 1) = s := by
    rw [State.makeRoom, place]
    rfl
  have same : (s.store (.vault 1) (s.ctx c).cfg.jitAddr h.payload).1.ctx c = s.ctx c := (s.store_stored ..).ctx c
  have late : ¬ n < (s.ctx c).nextSeq.getD n := by
    rw [next]
    exact Nat.lt_irrefl n
  have run := State.ctxStore_of_serves (v := 1) inBounds serves (s.ctx c).cfg.wheel
  have alone (q : Packet) : insPacket q (s.ctx c).packets = [q] := by
    rw [empty]
    rfl
  simp only [State.jitStore, roomy, place, if_neg late, Nat.add_zero, run, Bool.false_eq_true, if_false, same, alone]

/-! ## A lost gap (R317) -/

theorem exec_jitterGapLost {s : State} {c : Nat} (running : (s.ctx c).state = .running) : exec (.jitterGapLost c) s = .next (s.loseGap c) :=
  if_pos (.inr running)

section
variable {s : State} {c n : Nat} {p : Packet} {rest : List Packet} (packets : (s.ctx c).packets = p :: rest) (next : (s.ctx c).nextSeq = some n)
include packets next

theorem State.loseGap_of_gap (gap : n < p.seq) : s.loseGap c =
    (s.setCtx c { (s.ctx c).loseUnit with nextSeq := some p.seq, lost := cap16 ((s.ctx c).lost + (p.seq - n)) }).setCtxEvt c 4 := by
  simp only [State.loseGap, packets, next, gap, if_true]

theorem State.loseGap_of_none (first : p.seq ≤ n) : s.loseGap c = s := by
  simp only [State.loseGap, packets, next, Nat.not_lt.2 first, if_false]

/-! ## A released packet (R317, R318) -/

theorem State.releaseHead_of_gap (gap : n ≠ p.seq) (arrival : Nat) : s.releaseHead c arrival = s := by
  simp only [State.releaseHead, packets, next, Option.some.injEq, gap, if_false]

theorem State.releaseHead_of_next (first : n = p.seq) (inBounds : s.bound (s.ctxPart c) ((s.ctx c).cfg.jitAddr + p.ofs) p.len = .ok)
    (clean : s.meetsPoison (.vault 1) ((s.ctx c).cfg.jitAddr + p.ofs) p.len = false) (arrival : Nat) : s.releaseHead c arrival =
      (s.setCtx c { s.ctx c with packets := rest, nextSeq := some (n + 1) }).releasePacket c p.ts (s.readBytes ((s.ctx c).cfg.jitAddr + p.ofs) p.len) arrival := by
  subst first
  simp only [State.releaseHead, packets, next, if_true, inBounds, clean, ne_eq, not_true_eq_false, Bool.false_eq_true, if_false]

end

theorem exec_nalRelease {s : State} {c : Nat} (running : (s.ctx c).state = .running) (arrival : Nat) : exec (.nalRelease c arrival) s =
    .next (if s.dramOpen then s.releaseHead c arrival else s) := by
  show execNalRelease c arrival s = _
  unfold execNalRelease
  cases s.dramOpen <;> simp [running]

/-- A payload of H.264 that is one NAL unit (RFC 6184). -/
theorem payloadOf_single {l d : List Byte} {b : Byte} (bytes : l = b :: d) (low : 1 ≤ b.toNat % 32) (high : b.toNat % 32 ≤ 23) :
    payloadOf true l = .units [l] := by
  simp [payloadOf, bytes, low, high]

/-- A single NAL unit is written as it comes, where no fragment is being assembled. -/
theorem State.releasePacket_single {s : State} {c : Nat} {l d : List Byte} {b : Byte} {x : Ctx} (hx : s.ctx c = x) (codec : x.cfg.codec = 1) (bytes : l = b :: d)
    (low : 1 ≤ b.toNat % 32) (high : b.toNat % 32 ≤ 23) (whole : x.fu = none) (ts : Word) (arrival : Nat) :
    s.releasePacket c ts l arrival = (s.setCtx c { x with fuLost := false }).nalWrite c l ts arrival := by
  subst hx
  have kind : payloadOf ((s.ctx c).cfg.codec == 1) l = .units [l] := by
    rw [codec]
    exact payloadOf_single bytes low high
  have idle : ¬ (s.ctx c).fu.isSome = true := by rw [whole]; exact Bool.false_ne_true
  unfold State.releasePacket
  extract_lets x release
  rw [kind]
  dsimp only
  unfold release
  rw [List.foldl_cons, List.foldl_nil, if_neg idle]

/-- A NAL unit that the ring has room for goes there behind its start code, and onto the pending list (R318). -/
theorem State.nalWrite_of_room {s : State} {c : Nat} {nal : List Byte} {x : Ctx} (hx : s.ctx c = x)
    (room : (x.nalTotal + 2 ^ 32 - x.rd) % 2 ^ 32 + (4 + nal.length) ≤ 2 ^ x.cfg.nalLog2)
    (inBounds : ∀ b n, x.cfg.nalAddr ≤ b → b + n ≤ x.cfg.nalAddr + 2 ^ x.cfg.nalLog2 → s.bound (s.ctxPart c) b n = .ok)
    (serves : ∀ L, lineIn x.cfg.nalAddr (2 ^ x.cfg.nalLog2) L = true → s.Serves 9 L) (ts : Word) (arrival : Nat) :
    ∃ t, s.nalWrite c nal ts arrival = t.setCtx c { x with
        nalTotal := (x.nalTotal + (4 + nal.length)) % 2 ^ 32
        pendingNals := x.pendingNals ++ [.unit x.nalTotal (4 + nal.length) ts arrival] } ∧
      Writes s t ∧
      ∀ i < 4 + nal.length, t.readByte (x.cfg.nalAddr + (x.nalTotal + i) % 2 ^ x.cfg.nalLog2) = ([0, 0, 0, 1] ++ nal).getD i 0 := by
  subst hx
  have length : (([0, 0, 0, 1] : List Byte) ++ nal).length = 4 + nal.length := List.length_append
  obtain ⟨t, run, writes, bytes⟩ := State.putRing_writes (v := 1) (bs := [0, 0, 0, 1] ++ nal) (by omega) inBounds serves (s.ctx c).cfg.wheel (s.ctx c).nalTotal
  refine ⟨t, ?_, writes, fun i hi => bytes i (by omega)⟩
  have fits : ¬ 2 ^ (s.ctx c).cfg.nalLog2 < ((s.ctx c).nalTotal + 2 ^ 32 - (s.ctx c).rd) % 2 ^ 32 + (4 + nal.length) := Nat.not_lt.2 room
  simp only [State.nalWrite, length, if_neg fits, run, Bool.false_eq_true, if_false, writes.stored.ctx]

end Sys2Proof.Machine
end

section
/-! PROOF.  O50, the wheels (R319, R323, R326, R332, R335).  A row boundary takes in the running context's row and turns the wheel, which takes a ready context only
(`State.turnWheel_ctx_of_unready`): a context that waits for its buffer, or whose encoded units wait for their rings, stays as its row has left it. -/
namespace Sys2Proof.Machine
open Sys2Proof

/-! ## The wheel turns (R326) -/

/-- A wheel takes only a context that is ready. -/
theorem State.ctxReady_of_pickCtx {s : State} {w c : Nat} (picked : s.pickCtx w = some c) : s.ctxReady c = true := by
  unfold State.pickCtx at picked
  extract_lets u l best top last at picked
  have ready (k : Nat) (mem : k ∈ top) : s.ctxReady k = true := by
    obtain ⟨e, he, rfl⟩ := List.mem_map.1 mem
    obtain ⟨d, hd, rfl⟩ := List.mem_map.1 (List.mem_filter.1 he).1
    exact (Bool.and_eq_true_iff.1 (List.mem_filter.1 hd).2).2
  split at picked
  next runs =>
    cases picked
    exact ready _ (List.contains_iff_mem.1 runs.2.1)
  · split at picked
    next ran =>
      cases picked
      exact ready _ (List.contains_iff_mem.1 ran.2.1)
    · split at picked
      next found =>
        cases picked
        exact ready _ (List.mem_of_find?_eq_some found)
      · exact ready _ (List.mem_of_head? picked)

/-- An encoder with a unit that is due is not ready. -/
theorem State.ctxReady_of_nalDue {s : State} {c : Nat} (encode : (s.ctx c).cfg.encode = true) (due : (s.ctx c).nalDue = true) : s.ctxReady c = false := by
  simp [State.ctxReady, encode, due]

/-- A decoder whose output waits for a buffer is not ready. -/
theorem State.ctxReady_of_outWaiting {s : State} {c : Nat} (decode : (s.ctx c).cfg.encode = false) (waits : (s.ctx c).outWaiting = true) :
    s.ctxReady c = false := by
  simp [State.ctxReady, decode, waits]

theorem State.turnWheel_of_some {s : State} {w c : Nat} (picked : s.pickCtx w = some c) : s.turnWheel w =
    (s.setCtx c (if (s.ctx c).cfg.encode then (s.ctx c).beginEncode else s.ctx c)).setWheel w
      { s.wheel w with ctx := c, active := true, encode := (s.ctx c).cfg.encode, turns := sset 0 (s.wheel w).turns (s.ctx c).cls (c + 1) } := by
  simp only [State.turnWheel, picked]

theorem State.turnWheel_of_none {s : State} {w : Nat} (none : s.pickCtx w = none) :
    s.turnWheel w = s.setWheel w { s.wheel w with active := false, encode := false } := by
  simp only [State.turnWheel, none]

theorem State.turnWheel_frame (s : State) (w : Nat) : s.turnWheel w = { s with wheels := (s.turnWheel w).wheels } := by
  unfold State.turnWheel
  dsimp only
  split <;> rfl

theorem State.turnWheel_ctx_of_unready {s : State} {c : Nat} (unready : s.ctxReady c = false) (w : Nat) : (s.turnWheel w).ctx c = s.ctx c := by
  cases picked : s.pickCtx w with
  | none => rw [State.turnWheel_of_none picked]; rfl
  | some k =>
    have other : c ≠ k := fun same => by rw [same, State.ctxReady_of_pickCtx picked] at unready; cases unready
    rw [State.turnWheel_of_some picked]
    exact s.setCtx_of_ne other _

/-! ## Row boundaries -/

section
variable {s : State} {w c : Nat} (up : s.wheelUp w = true)
include up

theorem exec_wheelRowBoundary_idle (idle : (s.wheel w).active = false) (r : RowReads) : exec (.wheelRowBoundary w r) s = .next (s.turnWheel w) := by
  show Host.Outcome.next (s.rowBoundary w r) = _
  simp only [State.rowBoundary, up, idle, Bool.not_true, Bool.false_eq_true, if_false]

variable (active : (s.wheel w).active = true) (runs : (s.wheel w).ctx = c) (running : (s.ctx c).state = .running)
include active runs running

theorem exec_wheelRowBoundary_encode (encode : (s.ctx c).cfg.encode = true) (r : RowReads) :
    exec (.wheelRowBoundary w r) s = .next ((s.encodeRow w c).turnWheel w) := by
  have opened : ¬ (s.ctx c).state = .closed := by rw [running]; decide
  show Host.Outcome.next (s.rowBoundary w r) = _
  simp only [State.rowBoundary, up, active, runs, if_neg opened, encode, Bool.not_true, Bool.false_eq_true, if_false, if_true]

theorem exec_wheelRowBoundary_decode (decode : (s.ctx c).cfg.encode = false) (r : RowReads) :
    exec (.wheelRowBoundary w r) s = .next ((s.decodeRow w c r).turnWheel w) := by
  have opened : ¬ (s.ctx c).state = .closed := by rw [running]; decide
  show Host.Outcome.next (s.rowBoundary w r) = _
  simp only [State.rowBoundary, up, active, runs, if_neg opened, decode, Bool.not_true, Bool.false_eq_true, if_false, if_true]

end

/-- A row whose output waits for a buffer leaves the context as the row found it, in its next class, to wait (R323). -/
theorem State.decodeRow_deferred {s : State} {w c : Nat} {r : RowReads} {y : Ctx} (running : (s.ctx c).state = .running) (start : r.start = none) (sets : r.sets = [])
    (class_ : y = { s.ctx c with cls := (s.ctx c).nextClass.getD (s.ctx c).cls, nextClass := none })
    (waits : ((s.setCtx c y).takeRow w c r).output w c (((s.setCtx c y).takeRow w c r).ctx c).inputOver = none) :
    s.decodeRow w c r = (s.setCtx c y).setCtx c { y with outWaiting := true } := by
  unfold State.decodeRow
  extract_lets wait x t first
  have found : t = s.setCtx c y := by rw [class_]
  have follows : first = some t := if_neg (by simp [start, sets])
  have live : ¬ (x.state = .closing ∧ (!(t.ctx c).picOpen) = true) := fun h => by
    rw [show x.state = .running from running] at h
    cases h.1
  rw [follows]
  dsimp only
  rw [if_neg live, found, waits]
  show (s.setCtx c y).setCtx c { (s.setCtx c y).ctx c with outWaiting := true } = _
  rw [State.setCtx_self]

/-! ## Output (R323) -/

/-- Output that is due waits where the buffer's tally is not 0. -/
theorem State.output_waits {s : State} {w c : Nat} (picture : (s.ctx c).picOpen = true) (kept : (s.ctx c).picSkip = false) (asks : (s.ctx c).granted = false)
    (waits : (s.ctx c).cfg.bufSkip = false) (due : (s.ctx c).outRows < picRowsDue (s.picView (s.ctx c)) (s.ctx c).cfg ((s.ctx c).finalRows false))
    (target : s.targetState w c = none) (busy : s.tallySeen w (((s.ctx c).cfg.bufs[(s.ctx c).bufIndex]?).getD (0, 0)).2 ≠ 0) : s.output w c false = none := by
  have work : (!(s.ctx c).picSkip && (false || decide ((s.ctx c).outRows < picRowsDue (s.picView (s.ctx c)) (s.ctx c).cfg ((s.ctx c).finalRows false)))) = true := by
    simp [kept, due]
  have held : (s.tallySeen w (((s.ctx c).cfg.bufs[(s.ctx c).bufIndex]?).getD (0, 0)).2 != 0) = true := bne_iff_ne.2 busy
  simp only [State.output, picture, work, asks, waits, target, held, Bool.not_true, Bool.not_false, Bool.false_eq_true, if_false, if_true, Option.isNone_none,
    Bool.and_self, and_self]

/-! ## The end of an encoded picture (R332, R333, R335) -/

/-- A picture always ends with a slice. -/
theorem Ctx.nalsOf_ended_ne_nil (x : Ctx) (ref : List Byte) : x.nalsOf true ref ≠ [] := by
  simp [Ctx.nalsOf]

/-- The picture's buffer is given back: the next picture takes the next one; its tally is reset, and DONE_TALLY signalled. -/
def State.releaseBuffer (s : State) (w c tally done : Nat) : State :=
  let y := s.ctx c
  ((s.setCtx c { y with picOpen := false, row := 0, encRows := [], bufIndex := (y.bufIndex + 1) % max 1 y.cfg.bufs.length }).pushSignal
    { src := 8 + w / 2, tally := tally, value := 0, reset := true }).pushSignal { src := 8 + w / 2, tally := done, value := 1 }

theorem State.releaseBuffer_ctx (s : State) (w c tally done : Nat) : (s.releaseBuffer w c tally done).ctx c =
    { s.ctx c with picOpen := false, row := 0, encRows := [], bufIndex := ((s.ctx c).bufIndex + 1) % max 1 (s.ctx c).cfg.bufs.length } :=
  s.setCtx_self c _

theorem State.releaseBuffer_signals (s : State) (w c tally done : Nat) : (s.releaseBuffer w c tally done).mem.signals = s.mem.signals ++
    [{ src := 8 + w / 2, tally := tally, value := 0, reset := true }, { src := 8 + w / 2, tally := done, value := 1 }] := by
  simp [State.releaseBuffer, State.pushSignal]

section
variable {s : State} {w c : Nat}

theorem State.encodeRow_ends {x y : Ctx} {b : Nat × Nat} {ref : List Byte} (hx : s.ctx c = x) (hb : (x.cfg.bufs[x.bufIndex]?).getD (0, 0) = b)
    (picture : x.picOpen = true) (last : x.cfg.outH ≤ 32 * (x.row + 1)) (input : s.bound (s.ctxPart c) b.1 x.cfg.bufBytes = .ok)
    (area : s.bound (s.ctxPart c) x.cfg.dpbAddr (min (picBytes x.cfg.outW x.cfg.outH 8) x.cfg.dpbBytes) = .ok)
    (clean : ∀ e ∈ x.cfg.encSpans b.1 x.row, s.meetsPoison (.vault (w / 2)) e.1 e.2 = false)
    (cleanRef : x.idr = true ∨ s.meetsPoison (.vault (w / 2)) x.cfg.dpbAddr (min (picBytes x.cfg.outW x.cfg.outH 8) x.cfg.dpbBytes) = false)
    (href : (if x.idr then [] else s.readBytes x.cfg.dpbAddr (min (picBytes x.cfg.outW x.cfg.outH 8) x.cfg.dpbBytes)) = ref)
    (hy : { x with row := x.row + 1, encRows := x.encRows ++ [s.encInput x.cfg b.1 x.row], cls := x.nextClass.getD x.cls, nextClass := none } = y)
    (short : ∀ n ∈ y.nalsOf true ref, n.bytes.length ≤ 2 ^ x.cfg.bsLog2) :
    ∃ t z, s.encodeRow w c = t.releaseBuffer w c b.2 x.cfg.doneTally ∧ Marks c z t ∧ z.mem.signals = s.mem.signals ∧
      (z.ctx c).cfg = x.cfg ∧ (z.ctx c).pictures = (x.pictures + 1) % 2 ^ 32 ∧ (z.ctx c).encNals = x.encNals ++ y.nalsOf true ref := by
  subst hx
  have begun : (s.ctx c).beginEncode = s.ctx c := if_pos picture
  unfold State.encodeRow
  rw [begun]
  extract_lets x b' lines ended release n poison refPoison ref' input' row nals row' marked unit counted recon stored
  have buffer : b' = b := hb
  have noPoison : poison = false := by
    refine List.any_eq_false.2 fun e he => ?_
    rw [clean e (buffer ▸ he)]
    exact Bool.false_ne_true
  have noRefPoison : refPoison = false := by
    rcases cleanRef with first | clean
    · exact Bool.and_eq_false_iff.2 (.inl (by rw [show x.idr = true from first]; rfl))
    · exact Bool.and_eq_false_iff.2 (.inr clean)
  have reference : ref' = ref := by
    unfold ref'
    rw [noRefPoison, if_neg Bool.false_ne_true]
    exact href
  have read : input' = s.encInput x.cfg b.1 x.row := by
    unfold input'
    rw [noPoison, if_neg Bool.false_ne_true, buffer]
  have row_eq : row = y := by
    unfold row
    rw [read]
    exact hy
  have units : nals = y.nalsOf true ref := by
    have whole : ended = true := decide_eq_true last
    unfold nals
    rw [row_eq, whole, reference]
  have quiet : marked = s := if_neg (by simp [noPoison, noRefPoison])
  have fits : (nals.any fun n => decide (2 ^ x.cfg.bsLog2 < n.bytes.length)) = false := by
    rw [units, List.any_eq_false]
    intro n hn
    simpa using short n hn
  have inBuffer : s.bound (s.ctxPart c) b'.1 x.cfg.bufBytes = .ok := buffer ▸ input
  rw [if_neg (not_not.2 inBuffer), if_neg (not_not.2 area), if_neg (Bool.eq_false_iff.1 fits), if_pos (decide_eq_true last)]
  refine ⟨stored.1, counted.setCtx c { row' with pictures := (row'.pictures + 1) % 2 ^ 32 }, ?_, State.ctxStore_marks .., ?_, ?_, ?_, ?_⟩
  · rw [← buffer]
    rfl
  · show marked.mem.signals = s.mem.signals
    rw [quiet]
  · rw [State.setCtx_self]
  · rw [State.setCtx_self]
  · rw [State.setCtx_self, ← units]
end

end Sys2Proof.Machine
end

section
/-! PROOF.  O50: an encoded unit is posted with its descriptor (R335), and ingest and the wheels together. -/
namespace Sys2Proof.Machine
open Sys2Proof

/-! ## Bytes in a row (R14) -/

theorem leNat_toLE_mod (n v : Nat) : leNat (toLE n v) = v % 256 ^ n := by
  induction n generalizing v with
  | zero => simp [toLE, leNat, Nat.mod_one]
  | succ n ih =>
    have low : (BitVec.ofNat 8 v).toNat = v % 256 := BitVec.toNat_ofNat v 8
    rw [toLE, leNat, ih, low, Nat.pow_succ', Nat.mod_mul]

/-- Bytes that stand in memory read as a part of their list. -/
theorem State.readBytes_of_list {s : State} {a : Nat} {l : List Byte} (bytes : ∀ i < l.length, s.readByte (a + i) = l.getD i 0) {k n : Nat}
    (inside : k + n ≤ l.length) : s.readBytes (a + k) n = (l.drop k).take n := by
  refine List.ext_getElem (by simp [State.readBytes]; omega) fun i hi hi' => ?_
  have lt : i < n := by simpa [State.readBytes] using hi
  have byte := bytes (k + i) (by omega)
  rw [List.getD_eq_getElem _ _ (by omega)] at byte
  simpa [State.readBytes, Nat.add_assoc] using byte

/-! ## An encoded unit is posted (R335) -/

/-- The descriptor of an encoded unit, for the position it goes to and the phase of the descriptor ring. -/
def EncNal.descriptor (n : EncNal) (position phase : Nat) : List Byte :=
  toLE 4 position ++ toLE 4 n.bytes.length ++ toLE 4 n.picNum ++
    toLE 1 (phase + 2 * b2n n.idr + 4 * b2n n.last + 8 * b2n n.param + 16 * b2n n.keyReq) ++ toLE 1 n.nalType ++ toLE 2 n.slice

/-- The descriptor's first three words (R335). -/
theorem EncNal.readNat_descriptor {s : State} {a position phase : Nat} {n : EncNal} (bytes : ∀ i < 16, s.readByte (a + i) = (n.descriptor position phase).getD i 0) :
    s.readNat a 4 = position % 2 ^ 32 ∧ s.readNat (a + 4) 4 = n.bytes.length % 2 ^ 32 ∧ s.readNat (a + 8) 4 = n.picNum % 2 ^ 32 := by
  have part {k m : Nat} (inside : k + m ≤ 16) := State.readBytes_of_list (s := s) (l := n.descriptor position phase) bytes (k := k) (n := m) inside
  refine ⟨?_, ?_, ?_⟩
  · rw [State.readNat, ← Nat.add_zero a, part (by decide)]
    exact leNat_toLE_mod 4 _
  · rw [State.readNat, part (by decide)]
    exact leNat_toLE_mod 4 _
  · rw [State.readNat, part (by decide)]
    exact leNat_toLE_mod 4 _

/-- A context once its oldest encoded unit is posted. -/
def Ctx.posted (x : Ctx) (n : EncNal) (rest : List EncNal) : Ctx :=
  { x with encNals := rest, bsWr := (x.bsWr + n.bytes.length) % 2 ^ 32, descWr := (x.descWr + 1) % 2 ^ 32 }

/-- Where the descriptor of the next unit goes. -/
def Ctx.slot (x : Ctx) : Nat := x.cfg.descAddr + x.descWr % 2 ^ x.cfg.descLog2 * 16

section
variable {s : State} {c : Nat} {n : EncNal} {rest : List EncNal} (first : (s.ctx c).encNals = n :: rest)
include first

theorem exec_encodeNalPost_full (full : 2 ^ (s.ctx c).cfg.bsLog2 < ((s.ctx c).bsWr + 2 ^ 32 - (s.ctx c).bsRd) % 2 ^ 32 + n.bytes.length ∨
    2 ^ (s.ctx c).cfg.descLog2 ≤ ((s.ctx c).descWr + 2 ^ 32 - (s.ctx c).descRd) % 2 ^ 32) : exec (.encodeNalPost c) s = .next s := by
  show execEncodeNalPost c s = _
  simp only [execEncodeNalPost, first]
  exact if_pos (.inr (.inr full))

theorem exec_encodeNalPost (due : (s.ctx c).nalDue = true) (up : s.dramOpen = true)
    (room : ((s.ctx c).bsWr + 2 ^ 32 - (s.ctx c).bsRd) % 2 ^ 32 + n.bytes.length ≤ 2 ^ (s.ctx c).cfg.bsLog2)
    (descRoom : ((s.ctx c).descWr + 2 ^ 32 - (s.ctx c).descRd) % 2 ^ 32 < 2 ^ (s.ctx c).cfg.descLog2)
    (inBounds : ∀ b n, (s.ctx c).cfg.bsAddr ≤ b → b + n ≤ (s.ctx c).cfg.bsAddr + 2 ^ (s.ctx c).cfg.bsLog2 → s.bound (s.ctxPart c) b n = .ok)
    (slotBound : s.bound (s.ctxPart c) (s.ctx c).slot 16 = .ok)
    (serves : ∀ L, lineIn (s.ctx c).cfg.bsAddr (2 ^ (s.ctx c).cfg.bsLog2) L = true → s.Serves (8 + (s.ctx c).cfg.wheel / 2) L)
    (slotServes : ∀ L, lineIn (s.ctx c).slot 16 L = true → s.Serves (8 + (s.ctx c).cfg.wheel / 2) L) :
    ∃ t phase, exec (.encodeNalPost c) s = .next (if (s.ctx c).cfg.evt then (t.setCtx c ((s.ctx c).posted n rest)).setCtxEvt c 16
        else t.setCtx c ((s.ctx c).posted n rest)) ∧ Stored s t ∧
      ∀ i < 16, t.readByte ((s.ctx c).slot + i) = (n.descriptor (s.ctx c).bsWr phase).getD i 0 := by
  obtain ⟨t, run, writes, -⟩ := State.putRing_writes (v := (s.ctx c).cfg.wheel / 2) (bs := n.bytes) (by omega) inBounds serves (s.ctx c).cfg.wheel (s.ctx c).bsWr
  have slotBound' : t.bound (t.ctxPart c) (s.ctx c).slot 16 = .ok := by rw [writes.stored.bound, writes.stored.ctxPart, slotBound]
  have slotServes' (L : Nat) (inside : lineIn (s.ctx c).slot 16 L = true) := writes.serves _ L (slotServes L inside)
  have ready : ¬ ((!s.dramOpen) = true ∨ (!(s.ctx c).nalDue) = true ∨
      2 ^ (s.ctx c).cfg.bsLog2 < ((s.ctx c).bsWr + 2 ^ 32 - (s.ctx c).bsRd) % 2 ^ 32 + n.bytes.length ∨
      2 ^ (s.ctx c).cfg.descLog2 ≤ ((s.ctx c).descWr + 2 ^ 32 - (s.ctx c).descRd) % 2 ^ 32) := by
    simp only [up, due, Bool.not_true, Bool.false_eq_true, false_or, not_or]
    omega
  obtain ⟨phase, hphase⟩ : ∃ k, k = if (s.ctx c).descWr / 2 ^ (s.ctx c).cfg.descLog2 % 2 = 0 then 1 else 0 := ⟨_, rfl⟩
  have posts := State.ctxStore_of_serves (bs := n.descriptor (s.ctx c).bsWr phase) slotBound' slotServes' (s.ctx c).cfg.wheel
  have written := (State.store_of_serves (bs := n.descriptor (s.ctx c).bsWr phase) slotServes').2
  have stored := writes.stored.trans (t.store_stored (.vault ((s.ctx c).cfg.wheel / 2)) (s.ctx c).slot (n.descriptor (s.ctx c).bsWr phase))
  generalize (t.store (.vault ((s.ctx c).cfg.wheel / 2)) (s.ctx c).slot (n.descriptor (s.ctx c).bsWr phase)).1 = u at posts written stored
  refine ⟨u, phase, ?_, stored, fun i hi => ?_⟩
  · show execEncodeNalPost c s = _
    unfold EncNal.descriptor Ctx.slot at posts
    simp only [execEncodeNalPost, first, if_neg ready, run, Bool.false_eq_true, if_false, ← hphase, posts, stored.ctx]
    rfl
  · have inside : (s.ctx c).slot ≤ (s.ctx c).slot + i ∧ (s.ctx c).slot + i < (s.ctx c).slot + (n.descriptor (s.ctx c).bsWr phase).length :=
      ⟨Nat.le_add_right .., Nat.add_lt_add_left hi _⟩
    rw [written, if_pos inside, Nat.add_sub_cancel_left]

/-- An encoded unit is posted, with its descriptor, once both rings have room. -/
theorem exec_encodeNalPost_posts (due : (s.ctx c).nalDue = true) (up : s.dramOpen = true)
    (room : ((s.ctx c).bsWr + 2 ^ 32 - (s.ctx c).bsRd) % 2 ^ 32 + n.bytes.length ≤ 2 ^ (s.ctx c).cfg.bsLog2)
    (descRoom : ((s.ctx c).descWr + 2 ^ 32 - (s.ctx c).descRd) % 2 ^ 32 < 2 ^ (s.ctx c).cfg.descLog2)
    (ringBounds : ∀ b n, (s.ctx c).cfg.bsAddr ≤ b → b + n ≤ (s.ctx c).cfg.bsAddr + 2 ^ (s.ctx c).cfg.bsLog2 → s.bound (s.ctxPart c) b n = .ok)
    (slotBound : s.bound (s.ctxPart c) (s.ctx c).slot 16 = .ok) (owners : s.OwnersHold)
    (clean : s.meetsPoison (.vault ((s.ctx c).cfg.wheel / 2)) (s.ctx c).cfg.bsAddr (2 ^ (s.ctx c).cfg.bsLog2) = false)
    (slotClean : s.meetsPoison (.vault ((s.ctx c).cfg.wheel / 2)) (s.ctx c).slot 16 = false) :
    ∃ u, exec (.encodeNalPost c) s = .next u ∧ (u.ctx c).encNals = rest ∧ (u.ctx c).bsWr = ((s.ctx c).bsWr + n.bytes.length) % 2 ^ 32 ∧
      (u.ctx c).descWr = ((s.ctx c).descWr + 1) % 2 ^ 32 ∧ ((s.ctx c).cfg.evt = true → (u.ctx c).evtBits.getLsbD 4 = true) ∧
      u.readNat (s.ctx c).slot 4 = (s.ctx c).bsWr % 2 ^ 32 ∧ u.readNat ((s.ctx c).slot + 4) 4 = n.bytes.length % 2 ^ 32 ∧
      u.readNat ((s.ctx c).slot + 8) 4 = n.picNum % 2 ^ 32 ∧ (∀ k, k ≠ c → u.ctx k = s.ctx k) ∧
      u = { s with wheels := u.wheels, mem := u.mem, reg := u.reg, faults := u.faults } := by
  obtain ⟨t, phase, run, stored, bytes⟩ := exec_encodeNalPost first due up room descRoom ringBounds slotBound
    (fun L inside => State.serves_of_clean owners clean inside) (fun L inside => State.serves_of_clean owners slotClean inside)
  obtain ⟨u, set, own, others, frame⟩ := (t.setCtx c ((s.ctx c).posted n rest)).setCtxEvt_if c 16 (s.ctx c).cfg.evt
  rw [set] at run
  rw [State.setCtx_self] at own
  have reads (k m : Nat) : u.readNat k m = t.readNat k m := by rw [frame]; rfl
  obtain ⟨position, length, picture⟩ := EncNal.readNat_descriptor bytes
  refine ⟨u, run, ?_, ?_, ?_, fun evt => ?_, (reads ..).trans position, (reads ..).trans length, (reads ..).trans picture, fun k hk => ?_, ?_⟩
  · rw [own]
    rfl
  · rw [own]
    rfl
  · rw [own]
    rfl
  · rw [own, evt, if_pos rfl, BitVec.getLsbD_or]
    exact Bool.or_true _
  · rw [others k hk, State.setCtx_of_ne _ hk, stored.ctx]
  · obtain ⟨mem, faults, moved⟩ := stored.frame
    rw [moved] at frame
    rw [frame]
    rfl
end

theorem exec_bufferTallyPoll {s : State} {c : Nat} (waits : (s.ctx c).outWaiting = true) : exec (.bufferTallyPoll c) s =
    .next (if s.tallySeen (s.ctx c).cfg.wheel (((s.ctx c).cfg.bufs[(s.ctx c).bufIndex]?).getD (0, 0)).2 = 0
      then s.setCtx c { s.ctx c with outWaiting := false } else s) := by
  show execBufferTallyPoll c s = _
  simp only [execBufferTallyPoll, waits, true_and, apply_ite Host.Outcome.next]

/-! ## Ingest (R316-R318) -/

/-- The packet that is next in order goes to the first line of an empty jitter buffer. -/
theorem exec_frameReceive_inOrder {s : State} {f : EthFrame} {c n : Nat} {h : Parsed} (port : f.port < 4) (up : s.dieReady 9 = true) (fec : f.fecOk = true)
    (fcs : f.fcsOk = true) (parsed : parseFrame f.bytes = h) (claimed : s.classify f.port h = some c) (good : frameBad (s.ctx c).cfg h = false) (empty : (s.ctx c).packets = [])
    (next : (s.ctx c).nextSeq = some n) (seq : n % 65536 = h.seq % 65536) (fits : Packet.room h.payload.length ≤ (s.ctx c).cfg.jitBytes)
    (inBounds : s.bound (s.ctxPart c) (s.ctx c).cfg.jitAddr h.payload.length = .ok) (owners : s.OwnersHold)
    (clean : s.meetsPoison (.vault 1) (s.ctx c).cfg.jitAddr h.payload.length = false) :
    ∃ u, exec (.frameReceive f) s = .next u ∧ u.ctx c = { s.ctx c with packets := [{ seq := n, ts := h.ts, ofs := 0, len := h.payload.length }] } ∧
      (∀ i < h.payload.length, u.readByte ((s.ctx c).cfg.jitAddr + i) = h.payload.getD i 0) ∧
      (∀ k, k ≠ c → u.ctx k = s.ctx k) ∧ u = { s with host := u.host, wheels := u.wheels, mem := u.mem, faults := u.faults } := by
  subst parsed
  obtain ⟨host, heard, bound⟩ := s.heardFrame_eq f
  have run := exec_frameReceive_good port up fec fcs
  rw [heard, State.takeFrame_inOrder (s := { s with host := host }) claimed good empty next seq] at run
  obtain ⟨t, found⟩ : ∃ t, ({ s with host := host } : State).setCtx c (s.ctx c) = t := ⟨_, rfl⟩
  replace run : exec (.frameReceive f) s = .next (t.jitStore c n (parseFrame f.bytes) f.now) := found ▸ run
  have own : t.ctx c = s.ctx c := by rw [← found, State.setCtx_self]
  have others (k : Nat) (hk : k ≠ c) : t.ctx k = s.ctx k := by rw [← found, State.setCtx_of_ne _ hk]; rfl
  have inBounds' : t.bound (t.ctxPart c) (s.ctx c).cfg.jitAddr (parseFrame f.bytes).payload.length = .ok := by
    rw [← inBounds, ← bound, ← found]
    rfl
  have serves (L : Nat) (inside : lineIn (s.ctx c).cfg.jitAddr (parseFrame f.bytes).payload.length L = true) : t.Serves 9 L := by
    have same : SameLine L s t := by
      rw [← found]
      exact .of_mem rfl rfl rfl
    exact same.serves (State.serves_of_clean (v := 1) owners clean inside)
  rw [State.jitStore_first own empty next fits inBounds' serves] at run
  have stored := t.store_stored (.vault 1) (s.ctx c).cfg.jitAddr (parseFrame f.bytes).payload
  refine ⟨_, run, State.setCtx_self .., fun i hi => ?_, fun k hk => ?_, ?_⟩
  · refine ((State.store_of_serves serves).2 _).trans ((if_pos ⟨Nat.le_add_right .., Nat.add_lt_add_left hi _⟩).trans ?_)
    rw [Nat.add_sub_cancel_left]
  · rw [State.setCtx_of_ne _ hk, stored.ctx, others k hk]
  · obtain ⟨mem, faults, moved⟩ := stored.frame
    rw [moved, ← found]
    rfl

section
variable {s : State} {c n : Nat} {p : Packet} {rest : List Packet} (running : (s.ctx c).state = .running) (packets : (s.ctx c).packets = p :: rest)
  (next : (s.ctx c).nextSeq = some n)
include running packets next

/-- A gap that is declared lost is counted, sets the loss bit, and is passed over. -/
theorem exec_jitterGapLost_gap (gap : n < p.seq) : ∃ u, exec (.jitterGapLost c) s = .next u ∧ (u.ctx c).lost = cap16 ((s.ctx c).lost + (p.seq - n)) ∧
    (u.ctx c).nextSeq = some p.seq ∧ (u.ctx c).evtBits.getLsbD 2 = true ∧ (u.ctx c).packets = (s.ctx c).packets ∧ (∀ k, k ≠ c → u.ctx k = s.ctx k) ∧
    u = { s with wheels := u.wheels, reg := u.reg } := by
  have run := exec_jitterGapLost running
  rw [State.loseGap_of_gap packets next gap] at run
  have own := ((s.setCtx c { (s.ctx c).loseUnit with nextSeq := some p.seq, lost := cap16 ((s.ctx c).lost + (p.seq - n)) }).setCtxEvt_ctx c c 4).trans (if_pos rfl)
  rw [State.setCtx_self] at own
  refine ⟨_, run, ?_, ?_, ?_, ?_, fun k hk => ?_, ?_⟩
  · rw [own]
  · rw [own]
  · rw [own, BitVec.getLsbD_or]
    exact Bool.or_true _
  · rw [own]
    rfl
  · rw [State.setCtxEvt_ctx, if_neg hk, State.setCtx_of_ne _ hk]
  · rw [State.setCtxEvt_frame]
    rfl

/-- A packet with a single NAL unit is released into the NAL ring, behind its start code. -/
theorem exec_nalRelease_single {x : Ctx} {l d : List Byte} {b : Byte} {ar : Nat} (hx : s.ctx c = x) (hl : s.readBytes (x.cfg.jitAddr + p.ofs) p.len = l)
    (up : s.dramOpen = true) (first : n = p.seq) (codec : x.cfg.codec = 1) (bytes : l = b :: d) (low : 1 ≤ b.toNat % 32) (high : b.toNat % 32 ≤ 23) (whole : x.fu = none)
    (inBounds : s.bound (s.ctxPart c) (x.cfg.jitAddr + p.ofs) p.len = .ok) (clean : s.meetsPoison (.vault 1) (x.cfg.jitAddr + p.ofs) p.len = false)
    (room : (x.nalTotal + 2 ^ 32 - x.rd) % 2 ^ 32 + (4 + p.len) ≤ 2 ^ x.cfg.nalLog2)
    (ringBounds : ∀ b n, x.cfg.nalAddr ≤ b → b + n ≤ x.cfg.nalAddr + 2 ^ x.cfg.nalLog2 → s.bound (s.ctxPart c) b n = .ok)
    (owners : s.OwnersHold) (ringClean : s.meetsPoison (.vault 1) x.cfg.nalAddr (2 ^ x.cfg.nalLog2) = false) :
    ∃ u, exec (.nalRelease c ar) s = .next u ∧
      u.ctx c = { x with packets := rest, nextSeq := some (n + 1), fuLost := false, nalTotal := (x.nalTotal + (4 + p.len)) % 2 ^ 32,
                         pendingNals := x.pendingNals ++ [.unit x.nalTotal (4 + p.len) p.ts ar] } ∧
      (∀ i < 4 + p.len, u.readByte (x.cfg.nalAddr + (x.nalTotal + i) % 2 ^ x.cfg.nalLog2) = ([0, 0, 0, 1] ++ l).getD i 0) ∧
      (∀ k, k ≠ c → u.ctx k = s.ctx k) ∧ u = { s with wheels := u.wheels, mem := u.mem, faults := u.faults } := by
  subst hx
  subst hl
  have length : (s.readBytes ((s.ctx c).cfg.jitAddr + p.ofs) p.len).length = p.len := by simp [State.readBytes]
  have run := exec_nalRelease running ar
  rw [up, if_pos rfl, State.releaseHead_of_next packets next first inBounds clean] at run
  replace run := run.trans (congrArg Host.Outcome.next (State.releasePacket_single (s.setCtx_self c { s.ctx c with packets := rest, nextSeq := some (n + 1) })
    codec bytes low high whole p.ts ar))
  obtain ⟨t, found⟩ : ∃ t, (s.setCtx c { s.ctx c with packets := rest, nextSeq := some (n + 1) }).setCtx c
    { s.ctx c with packets := rest, nextSeq := some (n + 1), fuLost := false } = t := ⟨_, rfl⟩
  replace run : exec (.nalRelease c ar) s = .next (t.nalWrite c (s.readBytes ((s.ctx c).cfg.jitAddr + p.ofs) p.len) p.ts ar) := found ▸ run
  have own : t.ctx c = { s.ctx c with packets := rest, nextSeq := some (n + 1), fuLost := false } := by rw [← found, State.setCtx_self]
  have ringBounds' (b n : Nat) (low : (s.ctx c).cfg.nalAddr ≤ b) (high : b + n ≤ (s.ctx c).cfg.nalAddr + 2 ^ (s.ctx c).cfg.nalLog2) : t.bound (t.ctxPart c) b n = .ok := by
    rw [← ringBounds b n low high, ← found]
    rfl
  have serves (L : Nat) (inside : lineIn (s.ctx c).cfg.nalAddr (2 ^ (s.ctx c).cfg.nalLog2) L = true) : t.Serves 9 L := by
    have same : SameLine L s t := by
      rw [← found]
      exact .of_mem rfl rfl rfl
    exact same.serves (State.serves_of_clean (v := 1) owners ringClean inside)
  obtain ⟨u, write, writes, stands⟩ := State.nalWrite_of_room own (by rw [length]; exact room) ringBounds' serves p.ts ar
  rw [length] at write stands
  refine ⟨_, run.trans (congrArg _ write), State.setCtx_self .., stands, fun k hk => ?_, ?_⟩
  · rw [State.setCtx_of_ne _ hk, writes.stored.ctx, ← found, State.setCtx_of_ne _ hk, State.setCtx_of_ne _ hk]
  · obtain ⟨mem, faults, moved⟩ := writes.stored.frame
    rw [moved, ← found]
    rfl
end

/-! ## The wheels at their row boundaries (R319, R323, R326, R332) -/

section
variable {s : State} {w c : Nat} (up : s.wheelUp w = true)
include up

/-- A wheel with nothing running takes a ready context, an encode context beginning a picture. -/
theorem exec_wheelRowBoundary_takes (idle : (s.wheel w).active = false) (picked : s.pickCtx w = some c) (r : RowReads) :
    ∃ u, exec (.wheelRowBoundary w r) s = .next u ∧ (u.wheel w).ctx = c ∧ (u.wheel w).active = true ∧ (u.wheel w).encode = (s.ctx c).cfg.encode ∧
      (∀ k, k ≠ w → u.wheel k = s.wheel k) ∧ u.ctx c = (if (s.ctx c).cfg.encode then (s.ctx c).beginEncode else s.ctx c) ∧ (∀ k, k ≠ c → u.ctx k = s.ctx k) ∧
      u = { s with wheels := u.wheels } := by
  have run := exec_wheelRowBoundary_idle up idle r
  rw [State.turnWheel_of_some picked] at run
  have self := (s.setCtx c (if (s.ctx c).cfg.encode then (s.ctx c).beginEncode else s.ctx c)).setWheel_wheel w w
    { s.wheel w with ctx := c, active := true, encode := (s.ctx c).cfg.encode, turns := sset 0 (s.wheel w).turns (s.ctx c).cls (c + 1) }
  rw [if_pos rfl] at self
  exact ⟨_, run, congrArg WheelUnit.ctx self, congrArg WheelUnit.active self, congrArg WheelUnit.encode self,
    fun k hk => (State.setWheel_wheel ..).trans (if_neg hk), s.setCtx_self c _, fun k hk => s.setCtx_of_ne hk _, rfl⟩

variable (active : (s.wheel w).active = true) (runs : (s.wheel w).ctx = c)
include active runs

/-- The end of an encoded picture resets the buffer's tally and signals DONE_TALLY; the picture's units wait for their rings. -/
theorem exec_wheelRowBoundary_ends {x y : Ctx} {b : Nat × Nat} {ref : List Byte} {r : RowReads} (hx : s.ctx c = x) (hb : (x.cfg.bufs[x.bufIndex]?).getD (0, 0) = b)
    (running : x.state = .running) (encode : x.cfg.encode = true) (picture : x.picOpen = true) (last : x.cfg.outH ≤ 32 * (x.row + 1))
    (inBuffer : s.bound (s.ctxPart c) b.1 x.cfg.bufBytes = .ok)
    (area : s.bound (s.ctxPart c) x.cfg.dpbAddr (min (picBytes x.cfg.outW x.cfg.outH 8) x.cfg.dpbBytes) = .ok)
    (clean : ∀ e ∈ x.cfg.encSpans b.1 x.row, s.meetsPoison (.vault (w / 2)) e.1 e.2 = false)
    (cleanRef : x.idr = true ∨ s.meetsPoison (.vault (w / 2)) x.cfg.dpbAddr (min (picBytes x.cfg.outW x.cfg.outH 8) x.cfg.dpbBytes) = false)
    (href : (if x.idr then [] else s.readBytes x.cfg.dpbAddr (min (picBytes x.cfg.outW x.cfg.outH 8) x.cfg.dpbBytes)) = ref)
    (hy : { x with row := x.row + 1, encRows := x.encRows ++ [s.encInput x.cfg b.1 x.row], cls := x.nextClass.getD x.cls, nextClass := none } = y)
    (short : ∀ n ∈ y.nalsOf true ref, n.bytes.length ≤ 2 ^ x.cfg.bsLog2) :
    ∃ u, exec (.wheelRowBoundary w r) s = .next u ∧ (u.ctx c).picOpen = false ∧ (u.ctx c).pictures = (x.pictures + 1) % 2 ^ 32 ∧
      (u.ctx c).encNals = x.encNals ++ y.nalsOf true ref ∧
      u.mem.signals = s.mem.signals ++ [{ src := 8 + w / 2, tally := b.2, value := 0, reset := true }, { src := 8 + w / 2, tally := x.cfg.doneTally, value := 1 }] := by
  have run := exec_wheelRowBoundary_encode up active runs (hx ▸ running) (hx ▸ encode) r
  obtain ⟨t, z, row, marks, signals, cfg, pictures, units⟩ := State.encodeRow_ends hx hb picture last inBuffer area clean cleanRef href hy short
  rw [row] at run
  have own := t.releaseBuffer_ctx w c b.2 x.cfg.doneTally
  have pending : (t.ctx c).encNals = x.encNals ++ y.nalsOf true ref := by rw [marks.ctx, units]
  have some : ((t.ctx c).encNals).isEmpty = false := by
    rw [pending, List.isEmpty_eq_false_iff]
    exact fun none => Ctx.nalsOf_ended_ne_nil y ref (List.append_eq_nil_iff.1 none).2
  have unready : (t.releaseBuffer w c b.2 x.cfg.doneTally).ctxReady c = false := by
    refine State.ctxReady_of_nalDue ?_ ?_
    · rw [own, marks.ctx, cfg, encode]
    · rw [own, Ctx.nalDue, some]
      exact Bool.or_true _
  have stays := State.turnWheel_ctx_of_unready unready w
  refine ⟨_, run, ?_, ?_, ?_, ?_⟩
  · rw [stays, own]
  · rw [stays, own, marks.ctx, pictures]
  · rw [stays, own, pending]
  · rw [State.turnWheel_frame, State.releaseBuffer_signals, marks.signals, signals]

/-- A decode row whose output waits for a buffer is deferred whole. -/
theorem exec_wheelRowBoundary_defers {y : Ctx} {r : RowReads} (running : (s.ctx c).state = .running) (decode : (s.ctx c).cfg.encode = false) (start : r.start = none)
    (sets : r.sets = []) (hy : y = { s.ctx c with cls := (s.ctx c).nextClass.getD (s.ctx c).cls, nextClass := none })
    (waits : ((s.setCtx c y).takeRow w c r).output w c (((s.setCtx c y).takeRow w c r).ctx c).inputOver = none) :
    ∃ u, exec (.wheelRowBoundary w r) s = .next u ∧ u.ctx c = { y with outWaiting := true } ∧ u.mem = s.mem ∧ u = { s with wheels := u.wheels } := by
  have run := exec_wheelRowBoundary_decode up active runs running decode r
  rw [State.decodeRow_deferred running start sets hy waits] at run
  have own := (s.setCtx c y).setCtx_self c { y with outWaiting := true }
  have unready : ((s.setCtx c y).setCtx c { y with outWaiting := true }).ctxReady c = false :=
    State.ctxReady_of_outWaiting (by rw [own, hy]; exact decode) (by rw [own])
  refine ⟨_, run, (State.turnWheel_ctx_of_unready unready w).trans own, ?_, ?_⟩ <;> rw [State.turnWheel_frame] <;> rfl
end

/-- Settles O50: frames, gaps and packets; the rows of the wheels; and the posting of encoded units. -/
theorem ingestAndWheels : Obligations.IngestAndWheels := by
  refine ⟨fun s f port up => ?frames, fun s c n p rest running packets next => ?jitter, fun s w c r up => ?rows,
    fun s w c picture kept asks waits due target busy => State.output_waits picture kept asks waits due target busy, fun s w r down => ?down,
    fun s c waits => ?poll, fun s c n rest first due up => ?post⟩
  case frames =>
    intro h
    obtain ⟨host, heard, bound⟩ := s.heardFrame_eq f
    refine ⟨fun fec fcs => ?badFcs, fun fec => ?badFec, fun fec fcs unclaimed => ?unmatched, fun c fec fcs claimed => ⟨fun bad => ?discarded,
      fun n good empty next seq fits inBounds owners clean => ?inOrder⟩⟩
    case badFcs =>
      have run := exec_frameReceive_bad port up (show (!f.fecOk || !f.fcsOk) = true by simp [fcs])
      rw [if_pos fec] at run
      refine ⟨_, run, ?_, ?_, rfl⟩ <;> rw [State.countFrame_eth]
      simp [fcs]
    case badFec =>
      have run := exec_frameReceive_bad port up (show (!f.fecOk || !f.fcsOk) = true by simp [fec])
      rw [if_neg (by simp [fec])] at run
      exact ⟨_, run, rfl, rfl⟩
    case unmatched =>
      have run := exec_frameReceive_good port up fec fcs
      have replies (r : List Byte) := s.heardFrame_replies (f := f) (r := r)
      rw [heard] at run replies
      rw [State.takeFrame_unmatched (s := { s with host := host }) unclaimed] at run
      exact ⟨_, run, rfl, rfl, replies, rfl⟩
    case discarded =>
      have run := exec_frameReceive_good port up fec fcs
      rw [heard, State.takeFrame_discards (s := { s with host := host }) claimed bad] at run
      exact ⟨_, run, State.discard_ctx .., fun k hk => State.setCtx_of_ne _ hk _, rfl⟩
    case inOrder => exact exec_frameReceive_inOrder port up fec fcs rfl claimed good empty next seq fits inBounds owners clean
  case jitter =>
    intro x a l size
    refine ⟨fun gap => ?lost, fun first => ?none, fun ar gap => ?held, fun ar b d up first codec bytes low high whole inBounds clean room ringBounds owners ringClean => ?released⟩
    case lost => exact exec_jitterGapLost_gap running packets next gap
    case none => rw [exec_jitterGapLost running, State.loseGap_of_none packets next first]
    case held => rw [exec_nalRelease running, State.releaseHead_of_gap packets next gap, ite_self]
    case released => exact exec_nalRelease_single running packets next rfl rfl up first codec bytes low high whole inBounds clean room ringBounds owners ringClean
  case rows =>
    intro x b
    refine ⟨fun idle picked => ?takes, fun idle none => ?rests, ?ends, ?defers⟩
    case takes => exact exec_wheelRowBoundary_takes up idle picked r
    case rests => rw [exec_wheelRowBoundary_idle up idle, State.turnWheel_of_none none]
    case ends =>
      intro active runs running encode picture last m inBuffer area clean cleanRef ref y short
      exact exec_wheelRowBoundary_ends up active runs rfl rfl running encode picture last inBuffer area clean cleanRef rfl rfl short
    case defers =>
      intro active runs running decode start sets y waits
      exact exec_wheelRowBoundary_defers up active runs running decode start sets rfl waits
  case down =>
    show Host.Outcome.next (s.rowBoundary w r) = _
    rw [State.rowBoundary, down]
    rfl
  case poll =>
    intro n
    have run := exec_bufferTallyPoll waits
    refine ⟨fun zero => ⟨_, run.trans (congrArg _ (if_pos zero)), s.setCtx_self c _, fun k hk => s.setCtx_of_ne hk _, rfl⟩,
      fun held => run.trans (congrArg _ (if_neg held))⟩
  case post =>
    intro x used dused slot
    exact ⟨fun room descRoom ringBounds slotBound owners clean slotClean =>
      exec_encodeNalPost_posts first due up room descRoom ringBounds slotBound owners clean slotClean, fun full => exec_encodeNalPost_full first full⟩

end Sys2Proof.Machine
end
